-- ==== Sys2Proof/Word.lean ====
section
/-! DEFINITION. The word types of the Caore Z9 and their plainest arithmetic (R13, R18, R54). -/

namespace Sys2Proof

/-- A scalar register, an address, a 64-bit special register (R18, R25). -/
abbrev Word := BitVec 64
/-- A vector register of 1,024 bits (R18). -/
abbrev Vec := BitVec 1024
/-- A mask register: bit i governs byte i of a vector (R18). -/
abbrev Mask := BitVec 128
/-- A scratchpad row of 64 bytes (R330). -/
abbrev Row := BitVec 512
/-- A byte of memory. -/
abbrev Byte := BitVec 8
/-- A tile of 32 by 32 cells of 32 bits (R177, R178): cell (i, j) at bits from 32 * (32 * i + j). -/
abbrev Cells := BitVec 32768

/-- Bit field [lo + w - 1 : lo] of a number. -/
def bits (n lo w : Nat) : Nat := n / 2 ^ lo % 2 ^ w

/-- Bit field [lo + w - 1 : lo] of a bit vector, as a number. -/
def fld {n : Nat} (x : BitVec n) (lo w : Nat) : Nat := (x.extractLsb' lo w).toNat

/-- The least multiple of `d` that is at least `n`, divided by `d`. -/
def ceilDiv (n d : Nat) : Nat := (n + d - 1) / d

end Sys2Proof
end

