-- ==== Sys2Proof/Syntax.lean ====
section
/-! DEFINITION. Syntax: one constructor of Instr per row of spec/opcode_table.json. The rows with a word carry
an operand structure named after its format (R58-R70); the rows without one are the machine's other steps
(95_what_each_step_holds.md), whose arguments are what the outside world supplies. -/

namespace Sys2Proof

/-- A and G of an S-, X- or M-class word (R58). -/
structure Hdr where
  a : Bool
  g : BitVec 6
  deriving DecidableEq, Repr

/-- The classes a word may stand in: the slot position decides (R54). -/
inductive Cls where
  | s | v | x | m
  deriving DecidableEq, Repr

/-- NOP of the S, X or M class (R61); `cls` is never `.v`. -/
structure NopOp where
  cls : Cls
  h : Hdr
  deriving DecidableEq, Repr

/-- NOP of the V class (R61). -/
structure NopVOp where
  a : Bool
  deriving DecidableEq, Repr

/-- SR, and MT for the atomics: rd, ra, rb (R62, R69). -/
structure SROp where
  h : Hdr
  rd : BitVec 6
  ra : BitVec 6
  rb : BitVec 6
  deriving DecidableEq, Repr

/-- rd and ra, the rest reserved: CLZ, POPC, SPAWN (R62, R64). -/
structure SR2Op where
  h : Hdr
  rd : BitVec 6
  ra : BitVec 6
  deriving DecidableEq, Repr

/-- SI: rd, ra, imm6 (R62). -/
structure SIOp where
  h : Hdr
  rd : BitVec 6
  ra : BitVec 6
  imm : BitVec 6
  deriving DecidableEq, Repr

/-- SK: rd (the source scalar of SWR) and imm12 (R62, R64). -/
structure SKOp where
  h : Hdr
  rd : BitVec 6
  imm : BitVec 12
  deriving DecidableEq, Repr

/-- SK with rd reserved: TRAP, STAMP, HINT (R64). -/
structure ImmOp where
  h : Hdr
  imm : BitVec 12
  deriving DecidableEq, Repr

/-- SP with two scalars (R62). -/
structure CmpOp where
  h : Hdr
  pd : BitVec 6
  ra : BitVec 6
  rb : BitVec 6
  deriving DecidableEq, Repr

/-- SP with a scalar and imm6 (R62). -/
structure CmpIOp where
  h : Hdr
  pd : BitVec 6
  ra : BitVec 6
  imm : BitVec 6
  deriving DecidableEq, Repr

/-- SP with two predicates (R62). -/
structure PredOp where
  h : Hdr
  pd : BitVec 6
  pa : BitVec 6
  pb : BitVec 6
  deriving DecidableEq, Repr

/-- SW with rd alone: PGET, RDCYC, RDMCC, RDPTP (R64). -/
structure RdOp where
  h : Hdr
  rd : BitVec 6
  deriving DecidableEq, Repr

/-- ra alone in [11:6]: PSET, JR, CALLR (R64), PF, CLWB, CLINV (R70). -/
structure RaOp where
  h : Hdr
  ra : BitVec 6
  deriving DecidableEq, Repr

/-- SB: disp18 (R62, R63). -/
structure BrOp where
  h : Hdr
  disp : BitVec 18
  deriving DecidableEq, Repr

/-- SL with ra: LOOP (R62, R63). -/
structure LoopOp where
  h : Hdr
  lc : BitVec 2
  ra : BitVec 6
  len : BitVec 10
  deriving DecidableEq, Repr

/-- SL with imm6: LOOPI (R62, R63). -/
structure LoopIOp where
  h : Hdr
  lc : BitVec 2
  imm : BitVec 6
  len : BitVec 10
  deriving DecidableEq, Repr

/-- LBRK (R64). -/
structure LcOp where
  h : Hdr
  lc : BitVec 2
  deriving DecidableEq, Repr

/-- TWAIT, TSIG: the token mask (R64). -/
structure TokOp where
  h : Hdr
  mask : BitVec 8
  deriving DecidableEq, Repr

/-- TLWAIT (R64). -/
structure TlOp where
  h : Hdr
  tl : BitVec 4
  ra : BitVec 6
  deriving DecidableEq, Repr

/-- BINIT (R64). -/
structure BinitOp where
  h : Hdr
  b : BitVec 5
  ra : BitVec 6
  deriving DecidableEq, Repr

/-- BARR, BWAIT, BSYNC (R64). -/
structure BarOp where
  h : Hdr
  b : BitVec 5
  deriving DecidableEq, Repr

/-- SSTEP (R64). -/
structure LvOp where
  h : Hdr
  n : BitVec 3
  deriving DecidableEq, Repr

/-- The V-class word (R65). The well-formedness check says which fields an instruction leaves zero (R66). -/
structure VOp where
  a : Bool
  w : BitVec 2
  t : BitVec 3
  m : BitVec 4
  vd : BitVec 5
  va : BitVec 5
  vb : BitVec 5
  deriving DecidableEq, Repr

/-- XF (R67). -/
structure XFOp where
  h : Hdr
  vd : BitVec 5
  va : BitVec 5
  t : BitVec 3
  m : BitVec 4
  deriving DecidableEq, Repr

/-- MMA, format XM (R67, R189). -/
structure MmaOp where
  h : Hdr
  tile : BitVec 7
  sd : BitVec 6
  ss : BitVec 2
  sa : Bool
  sb : Bool
  z : Bool
  deriving DecidableEq, Repr

/-- MZERO (R189). -/
structure MzeroOp where
  h : Hdr
  tile : BitVec 7
  acc : BitVec 2
  deriving DecidableEq, Repr

/-- MLDT (R189). -/
structure MldtOp where
  h : Hdr
  tile : BitVec 7
  sd : BitVec 6
  acc : BitVec 2
  deriving DecidableEq, Repr

/-- MSTT (R189). -/
structure MsttOp where
  h : Hdr
  tile : BitVec 7
  sd : BitVec 6
  deriving DecidableEq, Repr

/-- MDRAIN (R189). -/
structure MdrainOp where
  h : Hdr
  tile : BitVec 7
  sd : BitVec 6
  uns : Bool
  req : Bool
  deriving DecidableEq, Repr

/-- MRSUM (R189). -/
structure MrsumOp where
  h : Hdr
  tile : BitVec 7
  sh : BitVec 3
  neg : Bool
  row : Bool
  deriving DecidableEq, Repr

/-- MMODE, format XQ (R67, R189). -/
structure MmodeOp where
  h : Hdr
  rnd : BitVec 2
  sat : Bool
  deriving DecidableEq, Repr

/-- MSTAT (R189). -/
structure MstatOp where
  h : Hdr
  tile : BitVec 7
  rd : BitVec 6
  deriving DecidableEq, Repr

/-- MA load: rd, ra, landing code (R69, R71). -/
structure LdOp where
  h : Hdr
  rd : BitVec 6
  ra : BitVec 6
  l : BitVec 6
  deriving DecidableEq, Repr

/-- MA store: source, ra, signed scaled imm6 (R69, R70). -/
structure StOp where
  h : Hdr
  src : BitVec 6
  ra : BitVec 6
  imm : BitVec 6
  deriving DecidableEq, Repr

/-- Vector, row or gather load: v, ra, landing code (R69, R70). -/
structure VLdOp where
  h : Hdr
  v : BitVec 5
  ra : BitVec 6
  l : BitVec 6
  deriving DecidableEq, Repr

/-- Vector, row or scatter store: v, ra, imm6 (R69, R70). -/
structure VStOp where
  h : Hdr
  v : BitVec 5
  ra : BitVec 6
  imm : BitVec 6
  deriving DecidableEq, Repr

/-- MF: scope and kind (R69, R207). -/
structure FenceOp where
  h : Hdr
  scope : BitVec 3
  kind : BitVec 2
  deriving DecidableEq, Repr

/-- PFC: the read count in [17:12] (R70). -/
structure PfcOp where
  h : Hdr
  n : BitVec 6
  ra : BitVec 6
  deriving DecidableEq, Repr

/-- MC (R69, R215). -/
structure CpyOp where
  h : Hdr
  ra : BitVec 6
  k : BitVec 3
  sen : Bool
  wait : BitVec 8
  deriving DecidableEq, Repr

/-- QPOP (R69, R227). -/
structure QpopOp where
  h : Hdr
  rd : BitVec 6
  q : BitVec 4
  deriving DecidableEq, Repr

/-- QPUSH (R69, R227). -/
structure QpushOp where
  h : Hdr
  ra : BitVec 6
  q : BitVec 4
  deriving DecidableEq, Repr

/-- The combinations of R210. -/
inductive AtomicOp where
  | add | min | max | minn | maxn | and | or | xor | xchg | cas | fadd
  deriving DecidableEq, Repr

/-- A requester identity (R366): module, core, slot. -/
structure Requester where
  module : Nat
  core : Nat
  slot : Nat
  deriving DecidableEq, Repr

/-- What a remote request asks the owner to do (R366). -/
inductive RemoteKind where
  | load (size : Nat)
  | store (data : List Byte)
  | atomic (op : AtomicOp) (b : Word) (d : Word) (nbv : BitVec 8)
  deriving DecidableEq, Repr

/-- A remote request as an owner receives it (R366, R368). `order` counts the requests of its module to the owner; those
below `settled` wait for no answer any more (R361). -/
structure RemoteReq where
  who : Requester
  order : Nat := 0
  settled : Nat := 0
  reqInc : BitVec 16
  ownerInc : BitVec 16
  serial : BitVec 32
  ackt : BitVec 32
  keyid : BitVec 16
  addr : Nat
  kind : RemoteKind
  deriving DecidableEq, Repr

/-- The status of an answer (R366, R370, R371). -/
inductive AnsStatus where
  | done | retry | hibernating | unknownOutcome | ownerMemory | address
  deriving DecidableEq, Repr

/-- An answer as the requester core receives it: the request it answers and the data it carries. -/
structure RemoteAns where
  core : Nat
  id : Nat
  status : AnsStatus
  data : List Byte
  deriving DecidableEq, Repr

/-- The answer to a probe of a requester's ACKT (R369). -/
inductive ProbeAns where
  | ackt (v : BitVec 32) (inc : BitVec 16)
  | hibernating
  deriving DecidableEq, Repr

/-- What moves at a link FIFO of this module (R375): its oldest outbound word leaves, the place being a core and its FIFO;
or, the place being a peer module and a channel, a word comes from there, or places of the inbound side there are granted. -/
inductive FifoMove where
  | out
  | word (w : BitVec 64)
  | room (n : Nat)
  deriving DecidableEq, Repr

/-- A tree stream arriving at this module (R373). -/
structure TreeStream where
  id : Nat
  entry : BitVec 8
  sender : Nat
  lines : List (Nat × List Byte)      -- the stream's parts: offset in the module's HBM, and bytes
  deriving DecidableEq, Repr

/-- A flit arriving on a link (R360-R363): `ok` says that its check and tag verify. -/
structure Flit where
  link : Nat
  seq : Nat
  epoch : BitVec 8
  ok : Bool
  deriving DecidableEq, Repr

/-- A superstep instance: launch serial, level, instance index (R237, R271). -/
structure StepKey where
  serial : BitVec 32
  level : Nat
  inst : Nat
  deriving DecidableEq, Repr

/-- Who writes a register: a host port or the management core (R378). -/
inductive Writer where
  | hp0 | hp1 | mgmt
  deriving DecidableEq, Repr

/-- Where the scheduler takes a launch record from: a host queue or a SPAWN child (R289, R297). -/
inductive RecordSource where
  | queue (q : BitVec 6)
  | child (serial : BitVec 32)
  deriving DecidableEq, Repr

/-- A host's access through BAR4 (R242, R377): bytes written, or the number of bytes read. -/
inductive Bar4 where
  | write (data : List Byte)
  | read (n : Nat)
  deriving DecidableEq, Repr

/-- What only the module's surroundings decide at a reset: a new incarnation (R365), the HBM channels that cannot be
trained and the margins that the trained lanes show, by lane as EYESEL names them (R351, R352), how the firmware images
verify (R422: 0 one does, 1 the signature fails, 2 the version), whether a debug-unlock token was accepted (R422), whether
the sheet's signature verifies and which of its regions come back damaged (R402, R403), and the PTP time, where it is set
before the restore (R404). -/
structure ResetPins where
  inc : BitVec 16
  chout : BitVec 8
  firmware : BitVec 2
  unlock : Bool
  signed : Bool
  damaged : List Nat
  ptp : Option Nat
  lanes : List (Nat × BitVec 16 × BitVec 16) := []
  deriving DecidableEq, Repr

/-- The parts of a module reset, in their order (R402, R422): the reset itself, after which the ROM has entered the
firmware; the end of HBM training; the examination of the sheet, with a restore or a cold start; and the module is
ready. -/
inductive BootPart where
  | reset | trained | examine | ready
  deriving DecidableEq, Repr

/-- A module reset with its pins, and which part of it comes (R402, R422). -/
structure ResetEvent where
  pins : ResetPins
  part : BootPart
  deriving DecidableEq, Repr

/-- What reaches the check of a collective group after a restore (R406): a member answers its STEP, or HIBERNATING; or the
second is over. -/
inductive RejoinEvent where
  | step (member v : Nat)
  | hibernating (member : Nat)
  | timeUp
  deriving DecidableEq, Repr

/-- The rows of spec/opcode_table.json. -/
inductive Instr where
  /-- NOP (R61): S-, X- or M-class no-operation; with A set it arrives at its barrier when its bundle commits. -/
  | nop (o : NopOp)
  /-- NOP_V (R61): V-class no-operation; only the A bit may be nonzero. -/
  | nopV (o : NopVOp)
  /-- ADD (R129): Writes a + b to s[rd]. -/
  | add (o : SROp)
  /-- SUB (R129): Writes a - b to s[rd]. -/
  | sub (o : SROp)
  /-- MUL (R129): Writes the low 64 bits of a × b. -/
  | mul (o : SROp)
  /-- MULH (R129): Writes the high 64 bits of the signed 128-bit product. -/
  | mulh (o : SROp)
  /-- MULHU (R129): Writes the high 64 bits of the unsigned 128-bit product. -/
  | mulhu (o : SROp)
  /-- DIVS (R129): Writes the signed truncated quotient, with defined results for b = 0 and overflow. -/
  | divs (o : SROp)
  /-- DIVU (R129): Writes the unsigned truncated quotient, all ones for b = 0. -/
  | divu (o : SROp)
  /-- REMU (R129): Writes the unsigned remainder, a for b = 0. -/
  | remu (o : SROp)
  /-- AND (R129): Writes a & b. -/
  | and (o : SROp)
  /-- OR (R129): Writes a | b. -/
  | or (o : SROp)
  /-- XOR (R129): Writes a ^ b. -/
  | xor (o : SROp)
  /-- ANDN (R129): Writes a & ~b. -/
  | andn (o : SROp)
  /-- SHL (R129): Shifts a left by b[5:0]. -/
  | shl (o : SROp)
  /-- SHR (R129): Shifts a right by b[5:0], zero-filled. -/
  | shr (o : SROp)
  /-- SAR (R129): Shifts a right by b[5:0], sign-filled. -/
  | sar (o : SROp)
  /-- ROL (R129): Rotates a left by b[5:0]. -/
  | rol (o : SROp)
  /-- MIN (R129): Writes the signed minimum of a and b. -/
  | min (o : SROp)
  /-- MAX (R129): Writes the signed maximum of a and b. -/
  | max (o : SROp)
  /-- MINN (R129): Writes the unsigned minimum of a and b. -/
  | minn (o : SROp)
  /-- MAXN (R129): Writes the unsigned maximum of a and b. -/
  | maxn (o : SROp)
  /-- CLZ (R129): Writes the count of leading zero bits of a. -/
  | clz (o : SR2Op)
  /-- POPC (R129): Writes the count of one bits of a. -/
  | popc (o : SR2Op)
  /-- SEL (R133): Writes a if p[G] is 1, otherwise b; never suppressed. -/
  | sel (o : SROp)
  /-- BEXT (R132): Extracts the bit field described by rb from a, zero-extended. -/
  | bext (o : SROp)
  /-- BINS (R132): Inserts a into the bit field of rd described by rb. -/
  | bins (o : SROp)
  /-- ADDI (R130): Writes a plus the sign-extended imm6. -/
  | addi (o : SIOp)
  /-- SHLI (R130): Shifts a left by imm6. -/
  | shli (o : SIOp)
  /-- SHRI (R130): Shifts a right by imm6, zero-filled. -/
  | shri (o : SIOp)
  /-- SARI (R130): Shifts a right by imm6, sign-filled. -/
  | sari (o : SIOp)
  /-- ANDI (R130): Writes a AND the sign-extended imm6. -/
  | andi (o : SIOp)
  /-- ORI (R130): Writes a OR the sign-extended imm6. -/
  | ori (o : SIOp)
  /-- XORI (R130): Writes a XOR the sign-extended imm6. -/
  | xori (o : SIOp)
  /-- ROLI (R130): Rotates a left by imm6. -/
  | roli (o : SIOp)
  /-- MOVI (R131): Writes the sign-extended imm12 to s[rd]. -/
  | movi (o : SKOp)
  /-- MOVK (R131): Shifts s[rd] left by 12 and ORs in imm12. -/
  | movk (o : SKOp)
  /-- ADDK (R131): Adds the sign-extended imm12 to s[rd]. -/
  | addk (o : SKOp)
  /-- CMPEQ (R134): Sets p[pd] to a == b. -/
  | cmpeq (o : CmpOp)
  /-- CMPNE (R134): Sets p[pd] to a != b. -/
  | cmpne (o : CmpOp)
  /-- CMPLT (R134): Sets p[pd] to a < b, signed. -/
  | cmplt (o : CmpOp)
  /-- CMPLE (R134): Sets p[pd] to a <= b, signed. -/
  | cmple (o : CmpOp)
  /-- CMPLTN (R134): Sets p[pd] to a < b, unsigned. -/
  | cmpltn (o : CmpOp)
  /-- CMPLEN (R134): Sets p[pd] to a <= b, unsigned. -/
  | cmplen (o : CmpOp)
  /-- CMPEQI (R134): Sets p[pd] to a equal to the sign-extended imm6. -/
  | cmpeqi (o : CmpIOp)
  /-- CMPNEI (R134): Sets p[pd] to a not equal to the sign-extended imm6. -/
  | cmpnei (o : CmpIOp)
  /-- CMPLTI (R134): Sets p[pd] to a < sext(imm6), signed. -/
  | cmplti (o : CmpIOp)
  /-- CMPGEI (R134): Sets p[pd] to a >= sext(imm6), signed. -/
  | cmpgei (o : CmpIOp)
  /-- CMPLTNI (R134): Sets p[pd] to a < zext(imm6), unsigned. -/
  | cmpltni (o : CmpIOp)
  /-- CMPGENI (R134): Sets p[pd] to a >= zext(imm6), unsigned. -/
  | cmpgeni (o : CmpIOp)
  /-- PAND (R135): Sets p[pd] to p[pa] AND p[pb]. -/
  | pand (o : PredOp)
  /-- POR (R135): Sets p[pd] to p[pa] OR p[pb]. -/
  | por (o : PredOp)
  /-- PXOR (R135): Sets p[pd] to p[pa] XOR p[pb]. -/
  | pxor (o : PredOp)
  /-- PANDN (R135): Sets p[pd] to p[pa] AND NOT p[pb]. -/
  | pandn (o : PredOp)
  /-- PGET (R136): Copies all 48 predicates into s[rd]. -/
  | pget (o : RdOp)
  /-- PSET (R136): Sets p1–p47 from bits of s[ra]. -/
  | pset (o : RaOp)
  /-- BR (R138): Branches to PC + 32 × disp18. -/
  | br (o : BrOp)
  /-- CALL (R138): Writes the return address to s63 and branches by disp18. -/
  | call (o : BrOp)
  /-- JR (R138): Jumps to the address in s[ra]. -/
  | jr (o : RaOp)
  /-- CALLR (R138): Writes the return address to s63 and jumps to s[ra]. -/
  | callr (o : RaOp)
  /-- LOOP (R139): Arms hardware loop counter lcN with the count in s[ra] and the body addresses, or skips the body when the count is 0. -/
  | loop (o : LoopOp)
  /-- LOOPI (R139): Arms hardware loop counter lcN with an immediate count, or skips the body when it is 0. -/
  | loopi (o : LoopIOp)
  /-- LBRK (R141): Leaves an armed loop and its nested loops, continuing after its END. -/
  | lbrk (o : LcOp)
  /-- EXIT (R142): Commits its bundle and puts the task in the draining state. -/
  | exit (o : Hdr)
  /-- TRAP (R143): Makes its bundle trap with cause TRAP and imm12 in TRC7. -/
  | trap (o : ImmOp)
  /-- RETT (R144): On the management core, leaves the handler and re-enables interrupt acceptance. -/
  | rett (o : Hdr)
  /-- SPAWN (R146): Places a child launch in the on-chip pool or the spill queue, or refuses it, and writes the result to s[rd]. -/
  | spawn (o : SR2Op)
  /-- SRD (R148): Reads the named special register into s[rd]. -/
  | srd (o : SKOp)
  /-- SWR (R148): Writes s[rs] to the named special register under R26. -/
  | swr (o : SKOp)
  /-- STAMP (R150): Holds its bundle until MCC reaches the frame target, trapping FRAME_OVERRUN under DETM.ARM if the window is missed. -/
  | stamp (o : ImmOp)
  /-- HINT (R151): Gives advice to the hardware without changing any architected state. -/
  | hint (o : ImmOp)
  /-- RDCYC (R149): Reads the core cycle counter into s[rd]. -/
  | rdcyc (o : RdOp)
  /-- RDMCC (R149): Reads MCC into s[rd]. -/
  | rdmcc (o : RdOp)
  /-- RDPTP (R149): Reads PTP time in nanoseconds into s[rd]. -/
  | rdptp (o : RdOp)
  /-- WFI (R145): On the management core, waits after commit until an enabled interrupt source is pending. -/
  | wfi (o : Hdr)
  /-- TWAIT (R229): Holds its bundle until every masked token is at least 1, then decrements them. -/
  | twait (o : TokOp)
  /-- TSIG (R229): Increments every masked token, trapping TOKEN_OVERFLOW at a ceiling. -/
  | tsig (o : TokOp)
  /-- TLWAIT (R230): Holds its bundle until the bound timeline counter reaches s[ra]. -/
  | tlwait (o : TlOp)
  /-- BINIT (R232): Initialises a barrier's expected count, quota and counts, or leaves an identical barrier unchanged. -/
  | binit (o : BinitOp)
  /-- BARR (R233): Arrives at a barrier at commit. -/
  | barr (o : BarOp)
  /-- BWAIT (R234): Holds its bundle until the barrier's phase passes the task's recorded arrival. -/
  | bwait (o : BarOp)
  /-- BSYNC (R234): Arrives at a barrier and waits for its release. -/
  | bsync (o : BarOp)
  /-- SSTEP (R237): Ends the compute step of a level, makes the superstep arrival and waits for the superstep release. -/
  | sstep (o : LvOp)
  /-- VADD (R158): Adds active integer elements, wrapping. -/
  | vadd (o : VOp)
  /-- VSUB (R158): Subtracts active integer elements, wrapping. -/
  | vsub (o : VOp)
  /-- VADDS (R158): Adds signed elements with saturation. -/
  | vadds (o : VOp)
  /-- VADDSN (R158): Adds unsigned elements with saturation. -/
  | vaddsn (o : VOp)
  /-- VSUBS (R158): Subtracts signed elements with saturation. -/
  | vsubs (o : VOp)
  /-- VSUBSN (R158): Subtracts unsigned elements with saturation. -/
  | vsubsn (o : VOp)
  /-- VMUL (R158): Writes the low bits of each element product. -/
  | vmul (o : VOp)
  /-- VMULH (R158): Writes the high bits of each signed element product. -/
  | vmulh (o : VOp)
  /-- VMAC (R158): Adds each element product to vd. -/
  | vmac (o : VOp)
  /-- VMIN (R158): Writes the signed element minimum. -/
  | vmin (o : VOp)
  /-- VMAX (R158): Writes the signed element maximum. -/
  | vmax (o : VOp)
  /-- VMINN (R158): Writes the unsigned element minimum. -/
  | vminn (o : VOp)
  /-- VMAXN (R158): Writes the unsigned element maximum. -/
  | vmaxn (o : VOp)
  /-- VABSD (R158): Writes the absolute difference of signed elements. -/
  | vabsd (o : VOp)
  /-- VAVGN (R158): Writes the rounded unsigned average of elements. -/
  | vavgn (o : VOp)
  /-- VAND (R158): Bitwise AND of vectors under the element mask. -/
  | vand (o : VOp)
  /-- VOR (R158): Bitwise OR of vectors. -/
  | vor (o : VOp)
  /-- VXOR (R158): Bitwise XOR of vectors. -/
  | vxor (o : VOp)
  /-- VANDN (R158): Bitwise AND-NOT of vectors. -/
  | vandn (o : VOp)
  /-- VSHL (R158): Shifts elements left by per-element counts. -/
  | vshl (o : VOp)
  /-- VSHR (R158): Shifts elements right, zero-filled, by per-element counts. -/
  | vshr (o : VOp)
  /-- VSAR (R158): Shifts elements right, sign-filled, by per-element counts. -/
  | vsar (o : VOp)
  /-- VSHLI (R158): Shifts elements left by an immediate count. -/
  | vshli (o : VOp)
  /-- VSHRI (R158): Shifts elements right, zero-filled, by an immediate count. -/
  | vshri (o : VOp)
  /-- VSARI (R158): Shifts elements right, sign-filled, by an immediate count. -/
  | vsari (o : VOp)
  /-- VCLZ (R158): Counts leading zero bits of each element. -/
  | vclz (o : VOp)
  /-- VPOPC (R158): Counts one bits of each element. -/
  | vpopc (o : VOp)
  /-- VFADD (R159): Adds floating-point elements, rounded under VRM. -/
  | vfadd (o : VOp)
  /-- VFSUB (R159): Subtracts floating-point elements, rounded under VRM. -/
  | vfsub (o : VOp)
  /-- VFMUL (R159): Multiplies floating-point elements, rounded under VRM. -/
  | vfmul (o : VOp)
  /-- VFMA (R159): Computes a × b + d with one rounding. -/
  | vfma (o : VOp)
  /-- VFNMA (R159): Computes d - a × b with one rounding. -/
  | vfnma (o : VOp)
  /-- VFMIN (R159): Writes the floating-point element minimum. -/
  | vfmin (o : VOp)
  /-- VFMAX (R159): Writes the floating-point element maximum. -/
  | vfmax (o : VOp)
  /-- VFABS (R159): Clears the sign bit of each element. -/
  | vfabs (o : VOp)
  /-- VFNEG (R159): Inverts the sign bit of each element. -/
  | vfneg (o : VOp)
  /-- VCMPEQ (R160): Sets mask bits where integer elements are equal. -/
  | vcmpeq (o : VOp)
  /-- VCMPNE (R160): Sets mask bits where integer elements differ. -/
  | vcmpne (o : VOp)
  /-- VCMPLT (R160): Sets mask bits where a < b, signed. -/
  | vcmplt (o : VOp)
  /-- VCMPLE (R160): Sets mask bits where a <= b, signed. -/
  | vcmple (o : VOp)
  /-- VCMPLTN (R160): Sets mask bits where a < b, unsigned. -/
  | vcmpltn (o : VOp)
  /-- VCMPLEN (R160): Sets mask bits where a <= b, unsigned. -/
  | vcmplen (o : VOp)
  /-- VFCMPEQ (R160): Sets mask bits where floating elements are equal and not NaN. -/
  | vfcmpeq (o : VOp)
  /-- VFCMPLT (R160): Sets mask bits where a < b and neither is NaN. -/
  | vfcmplt (o : VOp)
  /-- VFCMPLE (R160): Sets mask bits where a <= b and neither is NaN. -/
  | vfcmple (o : VOp)
  /-- VFCMPUN (R160): Sets mask bits where either element is NaN. -/
  | vfcmpun (o : VOp)
  /-- MAND (R161): ANDs two masks. -/
  | mand (o : VOp)
  /-- MOR (R161): ORs two masks. -/
  | mor (o : VOp)
  /-- MXOR (R161): XORs two masks. -/
  | mxor (o : VOp)
  /-- MANDN (R161): ANDs a mask with the complement of another. -/
  | mandn (o : VOp)
  /-- MANY (R161): Sets a predicate if any bit of a mask is 1. -/
  | many (o : VOp)
  /-- MALL (R161): Sets a predicate if all 128 bits of a mask are 1. -/
  | mall (o : VOp)
  /-- VPERMB (R163): Looks up bytes of a table register by index. -/
  | vpermb (o : VOp)
  /-- VPERMW (R163): Looks up 16- or 32-bit elements of a table register by index. -/
  | vpermw (o : VOp)
  /-- VRMRG (R164): Shifts vb up by c bytes and fills the low bytes from the top of va. -/
  | vrmrg (o : VOp)
  /-- VREV (R165): Reverses the element order. -/
  | vrev (o : VOp)
  /-- VZIP (R165): Interleaves the low halves of two vectors. -/
  | vzip (o : VOp)
  /-- VUNZIP (R165): Gathers the even elements of two vectors. -/
  | vunzip (o : VOp)
  /-- VBCS (R162): Broadcasts the low bits of a scalar to every element. -/
  | vbcs (o : VOp)
  /-- VXS (R162): Moves one sign-extended element into a scalar. -/
  | vxs (o : VOp)
  /-- VMOVI (R162): Writes an immediate-built value to every element. -/
  | vmovi (o : VOp)
  /-- VMOV (R162): Copies elements of va to vd. -/
  | vmov (o : VOp)
  /-- VSEL (R162): Selects each element from va where active and from vb otherwise. -/
  | vsel (o : VOp)
  /-- VCVT (R166): Converts elements from a source format to a destination format. -/
  | vcvt (o : VOp)
  /-- VCVTSR (R167): Converts FP32 elements to a narrow format by stochastic rounding. -/
  | vcvtsr (o : VOp)
  /-- VNARROW (R168): Narrows signed integers from two sources with clamping. -/
  | vnarrow (o : VOp)
  /-- VWIDEN (R168): Widens and adds signed integers from two sources. -/
  | vwiden (o : VOp)
  /-- VRNG (R169): Computes CCH-4 of per-lane keys and counters. -/
  | vrng (o : VOp)
  /-- VREDADD (R170): Adds c and the active integer elements. -/
  | vredadd (o : VOp)
  /-- VREDMAX (R170): Takes the signed maximum of c and the active elements. -/
  | vredmax (o : VOp)
  /-- VREDMIN (R170): Takes the signed minimum of c and the active elements. -/
  | vredmin (o : VOp)
  /-- VFREDADD (R171): Adds the elements by the fixed tree, then adds c, and updates RSIG at its landing. -/
  | vfredadd (o : VOp)
  /-- VFREDMAX (R171): Takes the maximum of the elements by the fixed tree and of c. -/
  | vfredmax (o : VOp)
  /-- XRCP (R173): Computes the correctly rounded reciprocal of each element. -/
  | xrcp (o : XFOp)
  /-- XRSQ (R173): Computes the reciprocal square root of each element. -/
  | xrsq (o : XFOp)
  /-- XSQRT (R173): Computes the square root of each element. -/
  | xsqrt (o : XFOp)
  /-- XEXP2 (R173): Computes 2 to the power of each element. -/
  | xexp2 (o : XFOp)
  /-- XLOG2 (R173): Computes the base-2 logarithm of each element. -/
  | xlog2 (o : XFOp)
  /-- XSINT (R173): Computes sin(2πx) of each element. -/
  | xsint (o : XFOp)
  /-- XCOST (R173): Computes cos(2πx) of each element. -/
  | xcost (o : XFOp)
  /-- XTANH (R173): Computes tanh of each element. -/
  | xtanh (o : XFOp)
  /-- XSIGM (R173): Computes the logistic sigmoid of each element. -/
  | xsigm (o : XFOp)
  /-- XGELU (R173): Computes GELU of each element. -/
  | xgelu (o : XFOp)
  /-- MMA (R191): Enqueues a matrix multiply-accumulate into a tile, checked at issue under R190. -/
  | mma (o : MmaOp)
  /-- MZERO (R193): Enqueues the zeroing of a tile with a recorded accumulator mode. -/
  | mzero (o : MzeroOp)
  /-- MLDT (R194): Loads a tile from 64 scratchpad rows and clears SAT. -/
  | mldt (o : MldtOp)
  /-- MSTT (R194): Stores a tile to 64 scratchpad rows. -/
  | mstt (o : MsttOp)
  /-- MDRAIN (R195): Converts a tile to an output format, optionally requantising, and writes it to scratchpad. -/
  | mdrain (o : MdrainOp)
  /-- MRSUM (R192): Enqueues the addition of a row or column sum of the companion MMA's operand to a tile. -/
  | mrsum (o : MrsumOp)
  /-- MMODE (R193): Sets the queue rounding mode and saturate bit used by MDRAIN. -/
  | mmode (o : MmodeOp)
  /-- MSTAT (R197): Reads tile and matrix-queue status into s[rd]. -/
  | mstat (o : MstatOp)
  /-- LD8 (R202): Loads a zero-extended byte into s[rd] with a landing code. -/
  | ld8 (o : LdOp)
  /-- LD16 (R202): Loads 16 zero-extended bits. -/
  | ld16 (o : LdOp)
  /-- LD32 (R202): Loads 32 zero-extended bits. -/
  | ld32 (o : LdOp)
  /-- LD64 (R202): Loads 64 bits. -/
  | ld64 (o : LdOp)
  /-- LDS8 (R202): Loads a sign-extended byte. -/
  | lds8 (o : LdOp)
  /-- LDS16 (R202): Loads 16 sign-extended bits. -/
  | lds16 (o : LdOp)
  /-- LDS32 (R202): Loads 32 sign-extended bits. -/
  | lds32 (o : LdOp)
  /-- ST8 (R202): Posts a store of the low byte of a scalar. -/
  | st8 (o : StOp)
  /-- ST16 (R202): Posts a store of 16 bits. -/
  | st16 (o : StOp)
  /-- ST32 (R202): Posts a store of 32 bits. -/
  | st32 (o : StOp)
  /-- ST64 (R202): Posts a store of 64 bits. -/
  | st64 (o : StOp)
  /-- VLD1 (R203): Loads 32 bytes into the low part of a vector register. -/
  | vld1 (o : VLdOp)
  /-- VLD2 (R203): Loads 64 bytes into a vector register. -/
  | vld2 (o : VLdOp)
  /-- VLD4 (R203): Loads 128 bytes into a vector register. -/
  | vld4 (o : VLdOp)
  /-- VST1 (R203): Posts a store of 32 bytes of a vector register. -/
  | vst1 (o : VStOp)
  /-- VST2 (R203): Posts a store of 64 bytes of a vector register. -/
  | vst2 (o : VStOp)
  /-- VST4 (R203): Posts a store of 128 bytes of a vector register. -/
  | vst4 (o : VStOp)
  /-- SPLD (R205): Loads two scratchpad rows into a vector register. -/
  | spld (o : VLdOp)
  /-- SPLDH (R205): Loads one scratchpad row into the low half of a vector register. -/
  | spldh (o : VLdOp)
  /-- SPST (R205): Stores a vector register to two scratchpad rows at commit. -/
  | spst (o : VStOp)
  /-- SPSTH (R205): Stores the low half of a vector register to one scratchpad row. -/
  | spsth (o : VStOp)
  /-- VGATH (R206): Gathers 32 scratchpad words by offsets held in vd. -/
  | vgath (o : VLdOp)
  /-- VSCAT (R206): Scatters 16 words into scratchpad at offsets held in the source register. -/
  | vscat (o : VStOp)
  /-- FENCE (R208): Orders the task's own accesses by kind and scope. -/
  | fence (o : FenceOp)
  /-- AADD (R210): Atomically adds s[rb] to a memory word and returns the old word. -/
  | aadd (o : SROp)
  /-- AMIN (R210): Atomic signed minimum. -/
  | amin (o : SROp)
  /-- AMAX (R210): Atomic signed maximum. -/
  | amax (o : SROp)
  /-- AMINN (R210): Atomic unsigned minimum. -/
  | aminn (o : SROp)
  /-- AMAXN (R210): Atomic unsigned maximum. -/
  | amaxn (o : SROp)
  /-- AAND (R210): Atomic AND. -/
  | aand (o : SROp)
  /-- AOR (R210): Atomic OR. -/
  | aor (o : SROp)
  /-- AXOR (R210): Atomic XOR. -/
  | axor (o : SROp)
  /-- AXCHG (R210): Atomic exchange. -/
  | axchg (o : SROp)
  /-- ACAS (R210): Atomic compare-and-swap against s[rd]. -/
  | acas (o : SROp)
  /-- AFADD (R212): Atomic FP32 add rounded by RNE. -/
  | afadd (o : SROp)
  /-- PF (R214): Prefetches a line into the L1. -/
  | pf (o : RaOp)
  /-- PFC (R214): Fills a line into its LLC slice with a read count. -/
  | pfc (o : PfcOp)
  /-- CLWB (R214): Writes a dirty line back to memory. -/
  | clwb (o : RaOp)
  /-- CLINV (R214): Writes a line back and invalidates it in the L1 and LLC. -/
  | clinv (o : RaOp)
  /-- CPY (R218): Enqueues a strided copy described by a scratchpad descriptor row. -/
  | cpy (o : CpyOp)
  /-- CPYF (R219): Enqueues a copy replicated to several panel modules. -/
  | cpyf (o : CpyOp)
  /-- CPYT (R220): Enqueues a copy sent down a tree-table entry. -/
  | cpyt (o : CpyOp)
  /-- SEQRUN (R221): Enqueues a segment of the Enlarger's transfer program. -/
  | seqrun (o : CpyOp)
  /-- QPOP (R227): Takes the oldest inbound word of a link FIFO into s[rd]. -/
  | qpop (o : QpopOp)
  /-- QPUSH (R227): Appends s[ra] to a link FIFO's outbound side. -/
  | qpush (o : QpushOp)
  /-- ILLEGAL_BUNDLE (R75): A bundle that breaks an encoding, placement, conflict or budget rule commits no slot and traps ILLEGAL_BUNDLE at decode. -/
  | illegalBundle
  /-- DATA_ARRIVAL (R49): Data of a variable-latency request arrives and is held in its landing-buffer entry until its landing cycle. -/
  | dataArrival (id : Nat) (err : Bool)
  /-- LANDING (R6): At its landing cycle, a result is written to its destination register and its entry freed. -/
  | landing (id : Nat)
  /-- FREEZE_END (R7): In the cycle after the last awaited condition clears, a frozen issue domain becomes active and the held bundle issues. -/
  | freezeEnd
  /-- WAIT_SATISFIED (R46): A waiting bundle's wait is satisfied and the bundle issues. -/
  | waitSatisfied
  /-- FRAME_OVERRUN (R150): MCC passes a STAMP target plus 15 under DETM.ARM and the bundle traps. -/
  | frameOverrun
  /-- BUDGET_OVERRUN (R38): TBUDGET reaches 0 and the task takes BUDGET_OVERRUN at the next boundary. -/
  | budgetOverrun
  /-- TRAP_DELIVERY (R306): At a bundle boundary the first pending trap or capture is taken and delivered by its class. -/
  | trapDelivery
  /-- SFU_START (R157): The special-function unit starts a queued XF operation no sooner than 4 cycles after the previous start. -/
  | sfuStart (id : Nat)
  /-- SFU_RESULT (R157): An XF result becomes ready 24 cycles after its start and is written. -/
  | sfuResult (id : Nat)
  /-- ARRAY_WINDOW_SWITCH (R175): Under PAIRED the array's served core alternates every L cycles. -/
  | arrayWindowSwitch (j : Nat)
  /-- MATRIX_ENTRY_START (R184): The head matrix-queue entry starts when its window, predecessor and tokens allow, taking its WAIT tokens. -/
  | matrixEntryStart
  /-- MATRIX_BLOCK (R186): In a served cycle an MMA or MRSUM processes one K-block, reading its operand rows. -/
  | matrixBlock
  /-- MATRIX_ENTRY_COMPLETE (R184): A matrix entry completes, lowering BUSY, signalling its token, arriving and updating RSIG. -/
  | matrixEntryComplete
  /-- COPY_ENTRY_START (R222): The first copy-queue entry starts when START, the engine and its tokens allow. -/
  | copyEntryStart
  /-- COPY_COMPLETE (R223): A copy entry completes, signalling its token, arriving and advancing the copy timeline. -/
  | copyComplete
  /-- COPY_FAULT (R225): A copy stops on a permission, peer or uncorrectable fault and its fault is held for the task. -/
  | copyFault (addr : Word) (aux : Word)
  /-- SEQRUN_COMPLETE (R221): The Enlarger reports a segment complete and its SEQRUN entry completes. -/
  | seqrunComplete (num : Nat)
  /-- BARRIER_RELEASE_DELIVERY (R236): A release reaches a waiting bundle after the domain's fixed latency and it issues. -/
  | barrierReleaseDelivery
  /-- SUPERSTEP_RELEASE (R237): After the communication step, the superstep releases, SSN.STEP increments and owner tags lapse. -/
  | superstepRelease (key : StepKey)
  /-- STORE_ACK (R199): A posted store is performed and acknowledged. -/
  | storeAck (id : Nat)
  /-- FENCE_COMPLETE (R208): A fence's awaited accesses complete and the accesses it held may be performed. -/
  | fenceComplete (id : Nat)
  /-- FENCE_TIMEOUT (R209): A PANEL or SYSTEM fence completes 200 µs after issue, marking lost peers in FSTAT. -/
  | fenceTimeout (id : Nat)
  /-- PAGE_WALK (R325): A page walk ends with a translation, a fault or a violation. -/
  | pageWalk (va : Word) (kind : BitVec 3)
  /-- OWNER_TAG_CHECK (R262): The home slice checks and updates a CHECKED granule's owner tag and returns a grant or a conflict. -/
  | ownerTagCheck (granules : List Nat) (store : Bool)
  /-- SPAWN_RECORD_READ (R147): After SPAWN commits, the child's record is read as a release and handed to the scheduler. -/
  | spawnRecordRead
  /-- QTAIL_WRITE (R381): A host advances a queue's tail, submitting launch records. -/
  | qtailWrite (q : BitVec 6) (v : Word)
  /-- LAUNCH_RECORD_FETCH (R289): The scheduler reads the next 256-byte record from a queue ring. -/
  | launchRecordFetch (q : BitVec 6)
  /-- LAUNCH_ACCEPTANCE (R279): The record is checked and accepted with a LAUNCHID, or rejected. -/
  | launchAcceptance (src : RecordSource)
  /-- SCHEDULER_SELECTION (R287): In each scheduler cycle one eligible head per die is selected by priority and virtual time. -/
  | schedulerSelection (die : Nat)
  /-- TASK_BINDING (R289): At the end of hand-off a task, gang or rerun is bound to a core and its fetch and preload begin. -/
  | taskBinding (h : Nat)
  /-- PRELOAD_COMPLETE (R281): The preload of a bound task's rows completes or faults. -/
  | preloadComplete
  /-- FIRST_ISSUE (R289): Once fetch and preload are complete, a bound task issues its first bundle. -/
  | firstIssue
  /-- TASK_RETIRE (R46): A draining task's operations are all acknowledged, it retires and its core is freed. -/
  | taskRetire
  /-- CANCEL (R295): A write naming a launch serial requests its cancellation. -/
  | cancel (wr : Writer) (v : Word)
  /-- CANCEL_AT_DIE (R296): A cancel arrives at a die dispatcher 32 ticks later and removes, kills or unstages the launch's tasks. -/
  | cancelAtDie (die : Nat) (serial : BitVec 32)
  /-- SPILL_MOVE (R298): A spilled child moves into a freed non-reserved pool entry in ring order. -/
  | spillMove (serial : BitVec 32)
  /-- RESERVED_ENTRY_GRANT (R299): A reserved pool entry is granted to a spilled child whose parent is blocked on it. -/
  | reservedEntryGrant (serial : BitVec 32)
  /-- CHILD_PREEMPT_TIMEOUT (R299): After 100 µs with every permitted core held by waiters, the scheduler pre-empts the lowest-priority TLWAIT waiter. -/
  | childPreemptTimeout (serial : BitVec 32)
  /-- PREEMPT (R312): A PREQB write of kind 1 requests pre-emptive capture of the named tasks. -/
  | preempt (v : Word)
  /-- SWITCH (R312): A PREQB write of kind 2 requests a context-switch capture of the named tasks. -/
  | switch (v : Word)
  /-- RESUME (R319): A PREQB write of kind 3 makes a SWITCH context in a save slot bindable, or is refused. -/
  | resume (v : Word)
  /-- CAPTURE (R313): A capture is taken at a boundary; landings settle, the matrix entry completes and registers are saved. -/
  | capture
  /-- CAPTURE_COMPLETE (R313): The copy in flight completes and rows and tiles are saved, freeing the core. -/
  | captureComplete
  /-- CONTEXT_RESTORE (R316): A captured context is restored on a core with its adjusted state. -/
  | contextRestore (n : Nat)
  /-- RETRY (R328): A PFRESP write with ACTION 1 translates a faulted bundle or copy afresh. -/
  | retry (v : Word)
  /-- FAIL (R328): A PFRESP write with ACTION 2 ends a faulted bundle with ACCESS_VIOLATION or stops the copy. -/
  | fail (v : Word)
  /-- TLB_INVALIDATE (R329): A TLBINVB write starts invalidation of a range of translations. -/
  | tlbInvalidate (v : Word)
  /-- INVALIDATION_COMPLETE (R329): The invalidation finishes, BUSY clears and a KIND 5 event is posted. -/
  | invalidationComplete
  /-- EVBASE_WRITE (R327): Setting EVBASE releases held events into the ring. -/
  | evbaseWrite (v : Word)
  /-- EVCONS_WRITE (R327): Software consumes event-ring entries, freeing room for held events. -/
  | evconsWrite (v : Word)
  /-- SWITCH_POINT (R320): A cluster changes its frequency step, pausing its clocks for 40 ns. -/
  | switchPoint (c : Nat)
  /-- CLOCK_PAUSE_END (R320): The 40 ns pause ends and cycles resume at the new step. -/
  | clockPauseEnd (c : Nat)
  /-- CLCTL_STEP (R410): A write of CLCTL.STEP requests a step change, made at a switch point or deferred. -/
  | clctlStep (c : Nat) (v : Word)
  /-- CLCTL_THR (R412): A write of CLCTL.THR requests a throttle change, deferred under DETMHELD. -/
  | clctlThr (c : Nat) (v : Word)
  /-- CLCTL_FORCEWA (R411): A write of CLCTL.FORCEWA requests write-assist at a switch point. -/
  | clctlForcewa (c : Nat) (v : Word)
  /-- THROTTLE_APPLY (R412): A throttle change takes effect at the next cycle with k mod 16 = 0. -/
  | throttleApply (c : Nat)
  /-- SENSOR_SAMPLE (R414): Every 10 µs a temperature sensor is sampled, updating its latch, alerts and trip state. -/
  | sensorSample (n : Nat) (deg : BitVec 16)
  /-- TRIP_OVERHEAT_WARNING (R415): A sensor held at TRIP + 10 °C for 1 ms raises a power-fail warning. -/
  | tripOverheatWarning (n : Nat)
  /-- POWER_SAMPLE (R416): Every 10 µs draw is measured and LIM falls by 2 above 3,600 W. -/
  | powerSample (mw uw : Nat)
  /-- LIMITER_FALL_CHECK (R416): Every 100 µs LIM falls by 1 while the 20 ms average exceeds 3,000 W. -/
  | limiterFallCheck
  /-- LIMITER_RISE_CHECK (R416): Every 1 ms LIM rises by 1 while the average is below 2,900 W. -/
  | limiterRiseCheck
  /-- ACCOUNTING_UPDATE (R418): Every 1 ms measured energy is added to each CONTEXT's count. -/
  | accountingUpdate (uj : List Nat)
  /-- CORRECTED_ERROR (R419): A corrected single-bit error increments CLSTAT.CE and may pend SOFTERR. -/
  | correctedError (c : Nat)
  /-- CLUSTER_RETIRE (R421): A CLRET write with GO retires a logical cluster, capturing its tasks and assigning the spare. -/
  | clusterRetire (v : Word)
  /-- INTERRUPT (R408): A pending enabled source is taken on the management core at a boundary. -/
  | interrupt
  /-- WFI_WAKE (R145): An enabled source becomes pending and ends a WFI wait. -/
  | wfiWake
  /-- KEY_WRAP_LOAD (R425): A KWCTL write with GO starts unwrapping a key into a KEYID or link slot. -/
  | keyWrapLoad (v : Word)
  /-- KEY_WRAP_DONE (R425): The key-wrap action ends, BUSY clears and KWDONE pends. -/
  | keyWrapDone
  /-- SHUTTER_FIRE (R426): An SHCTL write with FIRE under ARM stops every clock of the module. -/
  | shutterFire (v : Word)
  /-- SHUTTER_N (R426): The SHUTTER_N pin fires the Shutter when armed. -/
  | shutterN
  /-- READOUT (R427): A test-access-port READOUT instruction reads one state element. -/
  | readout (addr : Word)
  /-- MODULE_RESET (R402): At reset the boot ROM verifies firmware, HBM trains and the sheet is examined for restore. -/
  | moduleReset (x : ResetEvent)
  /-- EYE_MEASUREMENT (R352): Once per millisecond each lane's eye margin is measured, raising EYE below threshold. -/
  | eyeMeasurement (sel : BitVec 16) (vmarg : BitVec 16) (tmarg : BitVec 16)
  /-- LANE_REPAIR (R353): An HBMREP write with ACTION 1 repairs a lane with a spare. -/
  | laneRepair (v : Word)
  /-- CHANNEL_RETRAIN (R353): An HBMREP write with ACTION 2 retrains a channel. -/
  | channelRetrain (v : Word)
  /-- HBMREP_DONE (R353): A repair or retraining ends with its RESULT and BUSY clears. -/
  | hbmrepDone (ok : Bool)
  /-- SCRUB_READ (R356): The Squeegee reads and checks one HBM line during its patrol. -/
  | scrubRead (line : Nat)
  /-- SCRUB_WRITEBACK (R357): The corrected line is written back unless a demand write reached it first. -/
  | scrubWriteback
  /-- LOUPE_WINDOW_END (R358): At the end of a window the Loupe reports hot unpinned pages in its ring. -/
  | loupeWindowEnd
  /-- ENLARGER_WORD_READ (R345): The Enlarger reads a transfer word and its source pieces. -/
  | enlargerWordRead (seg : Nat)
  /-- ENLARGER_DELIVERY (R346): A word's rows are written to every receiver and its SIG token incremented. -/
  | enlargerDelivery (seg : Nat)
  /-- ENLARGER_FAILOVER (R349): On failure of the active Enlarger the standby takes over and re-executes incomplete words. -/
  | enlargerFailover
  /-- FLIT_RECEIVE (R360): A flit arrives, is checked and decrypted, or discarded with a replay request. -/
  | flitReceive (f : Flit)
  /-- REPLAY_REQUEST (R360): The transmitter resends flits from the requested one, taking the link down after 16 replays. -/
  | replayRequest (link : Nat) (seq : Nat)
  /-- FLIT_ACK (R360): An acknowledgement frees flits from the replay buffer. -/
  | flitAck (link : Nat) (seq : Nat)
  /-- RETIRE_MARKER (R363): The receiver discards an old key epoch on its retire marker. -/
  | retireMarker (link : Nat) (epoch : BitVec 8)
  /-- INCARNATION_ANNOUNCEMENT (R365): A module's announced incarnation replaces the receiver's copy and ends any hibernation hold. -/
  | incarnationAnnouncement (pos : Nat) (inc : BitVec 16)
  /-- HIBERNATED_ANNOUNCEMENT (R365): A HIBERNATED announcement makes the receiver hold the sender as hibernated. -/
  | hibernatedAnnouncement (pos : Nat) (inc : BitVec 16)
  /-- REMOTE_REQUEST (R368): An owner receives a remote request and performs it, answers it from the proof cache, or refuses it. -/
  | remoteRequest (q : RemoteReq)
  /-- REMOTE_ANSWER (R366): A requester receives an answer that lands data, ends the wait or raises FABRIC_ERROR. -/
  | remoteAnswer (x : RemoteAns)
  /-- RETRANSMIT_TIMEOUT (R366): 20 µs without an answer retransmits a request, or after 8 tries raises PEER_LOST. -/
  | retransmitTimeout (core : Nat) (id : Nat)
  /-- HIBERNATING_TIMEOUT (R400): After 1 s of HIBERNATING answers or silence, the wait ends with FABRIC_ERROR HIBERNATING. -/
  | hibernatingTimeout (core : Nat) (id : Nat)
  /-- PROOF_PROBE (R369): A proof-cache entry 10 ms old makes the owner probe the requester's ACKT. -/
  | proofProbe (i : Nat)
  /-- PROBE_REQUEST (R369): A requester module answers a probe from its requester table. -/
  | probeRequest (who : Requester) (from_ : Nat)
  /-- PROBE_ANSWER (R369): The owner retires or keeps the entry according to the probe answer. -/
  | probeAnswer (i : Nat) (x : ProbeAns)
  /-- PROBE_TIMEOUT (R369): No probe answer within 1 s retires every entry of the requester module. -/
  | probeTimeout (i : Nat)
  /-- PRFREL (R369): A PRFREL write with GO releases a hibernated requester's proof-cache entries. -/
  | prfrel (v : Word)
  /-- TREE_STREAM_RECEIVE (R373): A module receives a CPYT stream, checks its entry, delivers and forwards it. -/
  | treeStreamReceive (x : TreeStream)
  /-- TREE_ACK (R373): A module acknowledges a tree stream to its parent once its writes and children are done. -/
  | treeAck (id : Nat) (from_ : Nat) (failed : Nat)
  /-- FIFO_BIND (R374): A QBINDB write binds a task's FIFO to a peer channel. -/
  | fifoBind (v : Word)
  /-- FIFO_UNBIND (R374): A QBINDB write with UNBIND unbinds a FIFO and discards its buffers. -/
  | fifoUnbind (v : Word)
  /-- FIFO_WORD_TRANSFER (R375): A word moves from one FIFO end's outbound side to the peer's inbound side under credit. -/
  | fifoWordTransfer (who which : Nat) (x : FifoMove)
  /-- TIMELINE_WRITE (R382): A host write raises a module timeline to max(counter, value). -/
  | timelineWrite (t : BitVec 12) (v : Word)
  /-- LANDING_WINDOW_WRITE (R384): A PCIe write into a landing window reaches the target's rows or backing, and a commit advances its timeline. -/
  | landingWindowWrite (port : BitVec 1) (w : BitVec 6) (off : BitVec 16) (data : List Byte)
  /-- BAR4_ACCESS (R377): A host read or write through BAR4 reaches HBM under B4BASE.KEYID. -/
  | bar4Access (port : BitVec 1) (off : BitVec 36) (x : Bar4)
  /-- SPDM_REQUEST (R424): A host SPDM request over DOE is answered with signed measurements or key exchange. -/
  | spdmRequest (port : BitVec 1) (keyExchange : Bool)
  /-- PTPSET (R385): A write to PTPSET sets PTP time once after reset. -/
  | ptpset (v : Word)
  /-- PPS_PULSE (R385): An edge on the 1588 pulse-per-second pin disciplines the PTP clock. -/
  | ppsPulse
  /-- POWER_FAIL_WARNING (R387): Supply loss latches a power-fail warning that starts hibernation. -/
  | powerFailWarning
  /-- FIRE (R387): An FXCTL write with FIRE raises a power-fail warning. -/
  | fire (v : Word)
  /-- FIXER_DRAIN (R393): After capture ends the Fixer begins draining system regions and the priority list. -/
  | fixerDrain
  /-- FIXER_CHUNK (R395): Before each 64 KB chunk the Fixer checks cut-off and drains the chunk. -/
  | fixerChunk
  /-- CONTACT_SHEET_WRITE (R396): The drain ends, the contact sheet is written and signed and the module powers down. -/
  | contactSheetWrite
  /-- FIXER_LIST_VALIDATE (R391): A write of FXCTL.ARM, FXCTL.COUNT or FXLIST revalidates the list and recomputes NEEDJ. -/
  | fixerListValidate
  /-- RESMTR_UPDATE (R392): A reserve measurement updates RESMTR, FIT, and may escalate safelight to a warning. -/
  | resmtrUpdate (mj : BitVec 32)
  /-- BROWN_OUT (R398): A brown-out enters safelight mode when SLEN is 1, shedding dies. -/
  | brownOut
  /-- SAFELIGHT_HOLD (R399): A task on a shed die is held in place at a bundle boundary. -/
  | safelightHold
  /-- SAFELIGHT_EXIT (R401): Full supply for 100 ms unsheds the dies and resumes held contexts. -/
  | safelightExit
  /-- SAFELIGHT_DISABLE (R401): Writing FXCTL.SLEN to 0 in safelight mode raises a warning. -/
  | safelightDisable
  /-- COLLECTIVE_REJOIN (R406): After gathering members' steps, a restored launch resumes or is dropped. -/
  | collectiveRejoin (n : Nat) (x : RejoinEvent)
  /-- STEP_ANNOUNCEMENT (R405): A member's announced superstep updates MINSTEP and MAXSTEP. -/
  | stepAnnouncement (pos : Nat) (serial : BitVec 32) (stepv : BitVec 32)
  /-- REGISTER_WRITE (R378): A write to a register without behaviour of its own updates its writable fields. -/
  | registerWrite (wr : Writer) (off : Nat) (v : Word)
  /-- LINK_UP (R360): A Soestuz link completes training or retraining and comes up, after which traffic may use it and the module announces its incarnation on it. -/
  | linkUp (link : Nat)
  /-- KEY_ROTATION (R363): A transmitter rotates a link direction to the next key epoch on its own before a sequence number would repeat within one epoch. -/
  | keyRotation (link : Nat)
  /-- HOST_LINK_DOWN (R376): A host port's PCIe link goes down, so event-ring MSI-X messages are sent on the other port. -/
  | hostLinkDown (port : BitVec 1)
  /-- HOST_LINK_UP (R376): A host port's PCIe link comes back up and resumes carrying its messages. -/
  | hostLinkUp (port : BitVec 1)
  /-- PTM_RESPONSE (R385): A PCIe PTM exchange on HP0 or HP1 completes and disciplines the PTP clock when PTPCTL.SRC selects PTM. -/
  | ptmResponse (port : BitVec 1) (ns : Word)
  /-- CHANNEL_ERROR (R375): A link FIFO's peer end reports that it was unbound, retired or lost, discarding outbound words and setting QST.ERR once the inbound side empties. -/
  | channelError (peer chan : Nat)
  deriving DecidableEq, Repr

end Sys2Proof
end

