-- ==== Sys2Proof/Config.lean ====
section
/-! DEFINITION. Config: what an implementation fixes (figures of R1 and of the rules named), and the free values:
opaque constants with no body, one for each kind of value the spec leaves open. A statement about a free value holds
for every value. -/

namespace Sys2Proof.Config

/-- An indeterminate value (R4), by the free-value counter of State and a port that tells apart the values of one
moment. Used at every width through `BitVec.ofNat`. -/
opaque free : Nat → Nat → Nat

/-- Ticks until the data of a translated access arrives, or a posted store is acknowledged (R445: not architected). -/
opaque memTicks : Nat → Nat

/-- Ticks a copy takes (R445: not architected). -/
opaque copyTicks : Nat → Nat

/-- Whether a fetch of a line stored to since the first issue sees the new bytes (R337: old or new). -/
opaque fetchNew : Nat → Bool

/-- Whether a cached translation has been evicted (R326: eviction is not architected). -/
opaque evicted : Nat → Nat → Bool

/-- The set of its slice that a line lies in (R338: the function is not given). -/
opaque llcSet : Nat → Nat

/-- What leaves a full structure: a set of the LLC, a TLB, a fetch buffer (R326, R336 to R338: no policy is given). -/
opaque victim : Nat → Nat → Nat

/-- The link a panel message takes, among those that are up (R361: any of them). -/
opaque linkFor : Nat → Nat

/-- Cryptographic functions of the module (R355, R424, R425): their algorithms are named, their keys are secret. -/
opaque crypt : Nat → List Byte → Nat

/-- The firmware image of the boot flash (R423). -/
opaque firmware : List Byte

/-- Fused or strapped values (position, speed limits, bias, root key): fixed for one module, not given by the spec. -/
opaque fused : Nat → Nat

/-- What a readout address names (R427), 64 bits at a time. -/
inductive Elem where
  | key                                       -- a key or secret
  | scalar (core i : Nat)                     -- registers of a core: scalar, vector, mask, predicates, special, PC, loop
  | vector (core i part : Nat)
  | mask (core i part : Nat)
  | preds (core : Nat)
  | special (core n : Nat)
  | pc (core : Nat)
  | loop (core i part : Nat)
  | copyEntry (core pos part : Nat)           -- a copy descriptor in the queue, by position
  | matrixEntry (core idx part : Nat)         -- entries whose layout is not given: matrix queue, landing buffer, µTLB
  | landing (core i part : Nat)
  | tlb (core i part : Nat)
  | fifoWord (core q : Nat) (out : Bool) (i : Nat)
  | row (core row part : Nat)                 -- SRAM arrays: scratchpad, tile store, LLC
  | tile (array tile part : Nat)
  | cached (line part : Nat)
  | reg (key : Nat)                           -- the management core's page, and the system register block
  | line (line part : Nat)                    -- HBM as stored
  | other
  deriving DecidableEq, Repr, Inhabited

/-- The element that a die, a block and a bit offset name, and the die's directory in block 0 (R427: which blocks a die
has is given by the directory alone). -/
opaque element : Nat → Nat → Nat → Elem
opaque directory : Nat → Nat → Nat

/-- 64 bits of an entry whose layout is not given, from what it holds (R427). -/
opaque stored : Nat → List Nat → Nat

end Sys2Proof.Config
end

