-- ==== Sys2Proof/WellFormed.lean ====
section
/-! DEFINITION. Well-formedness: the values the encodings admit. `fieldsOk` is the field rules of R11, R26, R61 and
R63 to R70 (a word that breaks one is an ENCODING offence, R75); `predsOk` is the predicate ranges of R59 and R63;
`argsOk` bounds what the outside world may name in an event. -/

namespace Sys2Proof

/-- The special-register numbers R25 assigns. -/
def sregAssigned (n : Nat) : Bool :=
  n ≤ 0x002 || (0x008 ≤ n && n ≤ 0x038) || (0x03A ≤ n && n ≤ 0x041)

/-- The width of a vector operation in bits: 256, 512 or 1,024 for W 0, 1 or 2 (R65, R73). -/
def widthBits (w : BitVec 2) : Nat := 256 * 2 ^ w.toNat

/-- Element bits for the integer T codes 0, 1 and 2 (R66). -/
def elemBits (t : BitVec 3) : Nat := 8 * 2 ^ t.toNat

namespace VOp

/-- W names a width and T lies in [lo, hi] (R65, R66). -/
def tw (o : VOp) (lo hi : Nat) : Bool := o.w.toNat < 3 && lo ≤ o.t.toNat && o.t.toNat ≤ hi

/-- W, T and M are zero (R66, the mask and predicate operations). -/
def wtm0 (o : VOp) : Bool := o.w == 0 && o.t == 0 && o.m == 0

/-- The byte count T:M of VRMRG (R66). -/
def count (o : VOp) : Nat := o.t.toNat * 16 + o.m.toNat

end VOp

/-- The header of an instruction of the S, X or M class (R58). -/
def Instr.hdr : Instr → Option Hdr
  | .nop o => some o.h
  | .add o => some o.h
  | .sub o => some o.h
  | .mul o => some o.h
  | .mulh o => some o.h
  | .mulhu o => some o.h
  | .divs o => some o.h
  | .divu o => some o.h
  | .remu o => some o.h
  | .and o => some o.h
  | .or o => some o.h
  | .xor o => some o.h
  | .andn o => some o.h
  | .shl o => some o.h
  | .shr o => some o.h
  | .sar o => some o.h
  | .rol o => some o.h
  | .min o => some o.h
  | .max o => some o.h
  | .minn o => some o.h
  | .maxn o => some o.h
  | .clz o => some o.h
  | .popc o => some o.h
  | .sel o => some o.h
  | .bext o => some o.h
  | .bins o => some o.h
  | .addi o => some o.h
  | .shli o => some o.h
  | .shri o => some o.h
  | .sari o => some o.h
  | .andi o => some o.h
  | .ori o => some o.h
  | .xori o => some o.h
  | .roli o => some o.h
  | .movi o => some o.h
  | .movk o => some o.h
  | .addk o => some o.h
  | .cmpeq o => some o.h
  | .cmpne o => some o.h
  | .cmplt o => some o.h
  | .cmple o => some o.h
  | .cmpltn o => some o.h
  | .cmplen o => some o.h
  | .cmpeqi o => some o.h
  | .cmpnei o => some o.h
  | .cmplti o => some o.h
  | .cmpgei o => some o.h
  | .cmpltni o => some o.h
  | .cmpgeni o => some o.h
  | .pand o => some o.h
  | .por o => some o.h
  | .pxor o => some o.h
  | .pandn o => some o.h
  | .pget o => some o.h
  | .pset o => some o.h
  | .br o => some o.h
  | .call o => some o.h
  | .jr o => some o.h
  | .callr o => some o.h
  | .loop o => some o.h
  | .loopi o => some o.h
  | .lbrk o => some o.h
  | .exit o => some o
  | .trap o => some o.h
  | .rett o => some o
  | .spawn o => some o.h
  | .srd o => some o.h
  | .swr o => some o.h
  | .stamp o => some o.h
  | .hint o => some o.h
  | .rdcyc o => some o.h
  | .rdmcc o => some o.h
  | .rdptp o => some o.h
  | .wfi o => some o
  | .twait o => some o.h
  | .tsig o => some o.h
  | .tlwait o => some o.h
  | .binit o => some o.h
  | .barr o => some o.h
  | .bwait o => some o.h
  | .bsync o => some o.h
  | .sstep o => some o.h
  | .xrcp o => some o.h
  | .xrsq o => some o.h
  | .xsqrt o => some o.h
  | .xexp2 o => some o.h
  | .xlog2 o => some o.h
  | .xsint o => some o.h
  | .xcost o => some o.h
  | .xtanh o => some o.h
  | .xsigm o => some o.h
  | .xgelu o => some o.h
  | .mma o => some o.h
  | .mzero o => some o.h
  | .mldt o => some o.h
  | .mstt o => some o.h
  | .mdrain o => some o.h
  | .mrsum o => some o.h
  | .mmode o => some o.h
  | .mstat o => some o.h
  | .ld8 o => some o.h
  | .ld16 o => some o.h
  | .ld32 o => some o.h
  | .ld64 o => some o.h
  | .lds8 o => some o.h
  | .lds16 o => some o.h
  | .lds32 o => some o.h
  | .st8 o => some o.h
  | .st16 o => some o.h
  | .st32 o => some o.h
  | .st64 o => some o.h
  | .vld1 o => some o.h
  | .vld2 o => some o.h
  | .vld4 o => some o.h
  | .vst1 o => some o.h
  | .vst2 o => some o.h
  | .vst4 o => some o.h
  | .spld o => some o.h
  | .spldh o => some o.h
  | .spst o => some o.h
  | .spsth o => some o.h
  | .vgath o => some o.h
  | .vscat o => some o.h
  | .fence o => some o.h
  | .aadd o => some o.h
  | .amin o => some o.h
  | .amax o => some o.h
  | .aminn o => some o.h
  | .amaxn o => some o.h
  | .aand o => some o.h
  | .aor o => some o.h
  | .axor o => some o.h
  | .axchg o => some o.h
  | .acas o => some o.h
  | .afadd o => some o.h
  | .pf o => some o.h
  | .pfc o => some o.h
  | .clwb o => some o.h
  | .clinv o => some o.h
  | .cpy o => some o.h
  | .cpyf o => some o.h
  | .cpyt o => some o.h
  | .seqrun o => some o.h
  | .qpop o => some o.h
  | .qpush o => some o.h
  | .nopV _ => none
  | .vadd _ => none
  | .vsub _ => none
  | .vadds _ => none
  | .vaddsn _ => none
  | .vsubs _ => none
  | .vsubsn _ => none
  | .vmul _ => none
  | .vmulh _ => none
  | .vmac _ => none
  | .vmin _ => none
  | .vmax _ => none
  | .vminn _ => none
  | .vmaxn _ => none
  | .vabsd _ => none
  | .vavgn _ => none
  | .vand _ => none
  | .vor _ => none
  | .vxor _ => none
  | .vandn _ => none
  | .vshl _ => none
  | .vshr _ => none
  | .vsar _ => none
  | .vshli _ => none
  | .vshri _ => none
  | .vsari _ => none
  | .vclz _ => none
  | .vpopc _ => none
  | .vfadd _ => none
  | .vfsub _ => none
  | .vfmul _ => none
  | .vfma _ => none
  | .vfnma _ => none
  | .vfmin _ => none
  | .vfmax _ => none
  | .vfabs _ => none
  | .vfneg _ => none
  | .vcmpeq _ => none
  | .vcmpne _ => none
  | .vcmplt _ => none
  | .vcmple _ => none
  | .vcmpltn _ => none
  | .vcmplen _ => none
  | .vfcmpeq _ => none
  | .vfcmplt _ => none
  | .vfcmple _ => none
  | .vfcmpun _ => none
  | .mand _ => none
  | .mor _ => none
  | .mxor _ => none
  | .mandn _ => none
  | .many _ => none
  | .mall _ => none
  | .vpermb _ => none
  | .vpermw _ => none
  | .vrmrg _ => none
  | .vrev _ => none
  | .vzip _ => none
  | .vunzip _ => none
  | .vbcs _ => none
  | .vxs _ => none
  | .vmovi _ => none
  | .vmov _ => none
  | .vsel _ => none
  | .vcvt _ => none
  | .vcvtsr _ => none
  | .vnarrow _ => none
  | .vwiden _ => none
  | .vrng _ => none
  | .vredadd _ => none
  | .vredmax _ => none
  | .vredmin _ => none
  | .vfredadd _ => none
  | .vfredmax _ => none
  | .illegalBundle => none
  | .dataArrival _ _ => none
  | .landing _ => none
  | .freezeEnd => none
  | .waitSatisfied => none
  | .frameOverrun => none
  | .budgetOverrun => none
  | .trapDelivery => none
  | .sfuStart _ => none
  | .sfuResult _ => none
  | .arrayWindowSwitch _ => none
  | .matrixEntryStart => none
  | .matrixBlock => none
  | .matrixEntryComplete => none
  | .copyEntryStart => none
  | .copyComplete => none
  | .copyFault _ _ => none
  | .seqrunComplete _ => none
  | .barrierReleaseDelivery => none
  | .superstepRelease _ => none
  | .storeAck _ => none
  | .fenceComplete _ => none
  | .fenceTimeout _ => none
  | .pageWalk _ _ => none
  | .ownerTagCheck _ _ => none
  | .spawnRecordRead => none
  | .qtailWrite _ _ => none
  | .launchRecordFetch _ => none
  | .launchAcceptance _ => none
  | .schedulerSelection _ => none
  | .taskBinding _ => none
  | .preloadComplete => none
  | .firstIssue => none
  | .taskRetire => none
  | .cancel _ _ => none
  | .cancelAtDie _ _ => none
  | .spillMove _ => none
  | .reservedEntryGrant _ => none
  | .childPreemptTimeout _ => none
  | .preempt _ => none
  | .switch _ => none
  | .resume _ => none
  | .capture => none
  | .captureComplete => none
  | .contextRestore _ => none
  | .retry _ => none
  | .fail _ => none
  | .tlbInvalidate _ => none
  | .invalidationComplete => none
  | .evbaseWrite _ => none
  | .evconsWrite _ => none
  | .switchPoint _ => none
  | .clockPauseEnd _ => none
  | .clctlStep _ _ => none
  | .clctlThr _ _ => none
  | .clctlForcewa _ _ => none
  | .throttleApply _ => none
  | .sensorSample _ _ => none
  | .tripOverheatWarning _ => none
  | .powerSample _ _ => none
  | .limiterFallCheck => none
  | .limiterRiseCheck => none
  | .accountingUpdate _ => none
  | .correctedError _ => none
  | .clusterRetire _ => none
  | .interrupt => none
  | .wfiWake => none
  | .keyWrapLoad _ => none
  | .keyWrapDone => none
  | .shutterFire _ => none
  | .shutterN => none
  | .readout _ => none
  | .moduleReset _ => none
  | .eyeMeasurement _ _ _ => none
  | .laneRepair _ => none
  | .channelRetrain _ => none
  | .hbmrepDone _ => none
  | .scrubRead _ => none
  | .scrubWriteback => none
  | .loupeWindowEnd => none
  | .enlargerWordRead _ => none
  | .enlargerDelivery _ => none
  | .enlargerFailover => none
  | .flitReceive _ => none
  | .replayRequest _ _ => none
  | .flitAck _ _ => none
  | .retireMarker _ _ => none
  | .incarnationAnnouncement _ _ => none
  | .hibernatedAnnouncement _ _ => none
  | .remoteRequest _ => none
  | .remoteAnswer _ => none
  | .retransmitTimeout _ _ => none
  | .hibernatingTimeout _ _ => none
  | .proofProbe _ => none
  | .probeRequest _ _ => none
  | .probeAnswer _ _ => none
  | .probeTimeout _ => none
  | .prfrel _ => none
  | .treeStreamReceive _ => none
  | .treeAck _ _ _ => none
  | .fifoBind _ => none
  | .fifoUnbind _ => none
  | .fifoWordTransfer _ _ _ => none
  | .timelineWrite _ _ => none
  | .landingWindowWrite _ _ _ _ => none
  | .bar4Access _ _ _ => none
  | .spdmRequest _ _ => none
  | .ptpset _ => none
  | .ppsPulse => none
  | .powerFailWarning => none
  | .fire _ => none
  | .fixerDrain => none
  | .fixerChunk => none
  | .contactSheetWrite => none
  | .fixerListValidate => none
  | .resmtrUpdate _ => none
  | .brownOut => none
  | .safelightHold => none
  | .safelightExit => none
  | .safelightDisable => none
  | .collectiveRejoin _ _ => none
  | .stepAnnouncement _ _ _ => none
  | .registerWrite _ _ _ => none
  | .linkUp _ => none
  | .keyRotation _ => none
  | .hostLinkDown _ => none
  | .hostLinkUp _ => none
  | .ptmResponse _ _ => none
  | .channelError _ _ => none

/-- The guard and predicate fields name p0 to p47 (R59, R63). -/
def Instr.predsOk (i : Instr) : Bool :=
  (match i.hdr with
   | some h => h.g.toNat < 48
   | none => true) &&
  (match i with
   | .cmpeq o => o.pd.toNat < 48
   | .cmpne o => o.pd.toNat < 48
   | .cmplt o => o.pd.toNat < 48
   | .cmple o => o.pd.toNat < 48
   | .cmpltn o => o.pd.toNat < 48
   | .cmplen o => o.pd.toNat < 48
   | .cmpeqi o => o.pd.toNat < 48
   | .cmpnei o => o.pd.toNat < 48
   | .cmplti o => o.pd.toNat < 48
   | .cmpgei o => o.pd.toNat < 48
   | .cmpltni o => o.pd.toNat < 48
   | .cmpgeni o => o.pd.toNat < 48
   | .pand o => o.pd.toNat < 48 && o.pa.toNat < 48 && o.pb.toNat < 48
   | .por o => o.pd.toNat < 48 && o.pa.toNat < 48 && o.pb.toNat < 48
   | .pxor o => o.pd.toNat < 48 && o.pa.toNat < 48 && o.pb.toNat < 48
   | .pandn o => o.pd.toNat < 48 && o.pa.toNat < 48 && o.pb.toNat < 48
   | _ => true)

/-- The field values an instruction's encoding admits, beyond its reserved bits (R26, R65, R66, R68 to R70). -/
def Instr.fieldsOk : Instr → Bool
  | .nop o => o.cls != .v
  | .srd o => sregAssigned o.imm.toNat
  | .swr o => sregAssigned o.imm.toNat
  | .vadd o => o.tw 0 2
  | .vsub o => o.tw 0 2
  | .vadds o => o.tw 0 2
  | .vaddsn o => o.tw 0 2
  | .vsubs o => o.tw 0 2
  | .vsubsn o => o.tw 0 2
  | .vmul o => o.tw 0 2
  | .vmulh o => o.tw 0 2
  | .vmac o => o.tw 0 2
  | .vmin o => o.tw 0 2
  | .vmax o => o.tw 0 2
  | .vminn o => o.tw 0 2
  | .vmaxn o => o.tw 0 2
  | .vabsd o => o.tw 0 2
  | .vavgn o => o.tw 0 2
  | .vand o => o.tw 0 2
  | .vor o => o.tw 0 2
  | .vxor o => o.tw 0 2
  | .vandn o => o.tw 0 2
  | .vshl o => o.tw 0 2
  | .vshr o => o.tw 0 2
  | .vsar o => o.tw 0 2
  | .vshli o => o.tw 0 2 && o.vb.toNat < elemBits o.t
  | .vshri o => o.tw 0 2 && o.vb.toNat < elemBits o.t
  | .vsari o => o.tw 0 2 && o.vb.toNat < elemBits o.t
  | .vclz o => o.tw 0 2 && o.vb == 0
  | .vpopc o => o.tw 0 2 && o.vb == 0
  | .vfadd o => o.tw 3 5
  | .vfsub o => o.tw 3 5
  | .vfmul o => o.tw 3 5
  | .vfma o => o.tw 3 5
  | .vfnma o => o.tw 3 5
  | .vfmin o => o.tw 3 5
  | .vfmax o => o.tw 3 5
  | .vfabs o => o.tw 3 5 && o.vb == 0
  | .vfneg o => o.tw 3 5 && o.vb == 0
  | .vcmpeq o => o.tw 0 2 && o.vd.toNat < 16
  | .vcmpne o => o.tw 0 2 && o.vd.toNat < 16
  | .vcmplt o => o.tw 0 2 && o.vd.toNat < 16
  | .vcmple o => o.tw 0 2 && o.vd.toNat < 16
  | .vcmpltn o => o.tw 0 2 && o.vd.toNat < 16
  | .vcmplen o => o.tw 0 2 && o.vd.toNat < 16
  | .vfcmpeq o => o.tw 3 5 && o.vd.toNat < 16
  | .vfcmplt o => o.tw 3 5 && o.vd.toNat < 16
  | .vfcmple o => o.tw 3 5 && o.vd.toNat < 16
  | .vfcmpun o => o.tw 3 5 && o.vd.toNat < 16
  | .mand o => o.wtm0 && o.vd.toNat < 16 && o.va.toNat < 16 && o.vb.toNat < 16
  | .mor o => o.wtm0 && o.vd.toNat < 16 && o.va.toNat < 16 && o.vb.toNat < 16
  | .mxor o => o.wtm0 && o.vd.toNat < 16 && o.va.toNat < 16 && o.vb.toNat < 16
  | .mandn o => o.wtm0 && o.vd.toNat < 16 && o.va.toNat < 16 && o.vb.toNat < 16
  | .many o => o.wtm0 && o.va.toNat < 16 && o.vb == 0
  | .mall o => o.wtm0 && o.va.toNat < 16 && o.vb == 0
  | .vpermb o => o.tw 0 0
  | .vpermw o => o.tw 1 2
  | .vrmrg o => o.w.toNat < 3 && o.count < widthBits o.w / 8
  | .vrev o => o.tw 0 2 && o.vb == 0
  | .vzip o => o.tw 0 2
  | .vunzip o => o.tw 0 2
  | .vbcs o => o.tw 0 5 && o.vb == 0
  | .vxs o => o.tw 0 2 && o.vb.toNat < widthBits o.w / elemBits o.t && o.m == 0
  | .vmovi o => o.tw 0 5
  | .vmov o => o.tw 0 7 && o.vb == 0
  | .vsel o => o.tw 0 7
  | .vcvt o => o.tw 0 7 && o.vb.toNat < 8
  | .vcvtsr o => (o.tw 3 4 || o.tw 6 7)
  | .vnarrow o => o.tw 0 1
  | .vwiden o => o.tw 1 2
  | .vrng o => o.tw 2 2
  | .vredadd o => o.tw 0 2
  | .vredmax o => o.tw 0 2
  | .vredmin o => o.tw 0 2
  | .vfredadd o => o.tw 3 5
  | .vfredmax o => o.tw 3 5
  | .xrcp o => 3 ≤ o.t.toNat && o.t.toNat ≤ 5
  | .xrsq o => 3 ≤ o.t.toNat && o.t.toNat ≤ 5
  | .xsqrt o => 3 ≤ o.t.toNat && o.t.toNat ≤ 5
  | .xexp2 o => 3 ≤ o.t.toNat && o.t.toNat ≤ 5
  | .xlog2 o => 3 ≤ o.t.toNat && o.t.toNat ≤ 5
  | .xsint o => 3 ≤ o.t.toNat && o.t.toNat ≤ 5
  | .xcost o => 3 ≤ o.t.toNat && o.t.toNat ≤ 5
  | .xtanh o => 3 ≤ o.t.toNat && o.t.toNat ≤ 5
  | .xsigm o => 3 ≤ o.t.toNat && o.t.toNat ≤ 5
  | .xgelu o => 3 ≤ o.t.toNat && o.t.toNat ≤ 5
  | .mma o => o.ss.toNat < 3
  | .fence o => o.scope.toNat < 7
  | .cpy o => o.sen || o.k == 0
  | .cpyf o => o.sen || o.k == 0
  | .cpyt o => o.sen || o.k == 0
  | .seqrun o => o.sen || o.k == 0
  | _ => true

/-- The bounds on what an event names: clusters below 80, dies below 8, links below 16, sensors below 96, arrays
below 320, landing windows' PCIe writes of at least one byte (R2, R360, R384, R414). -/
def Instr.argsOk : Instr → Bool
  | .arrayWindowSwitch j => j < 320
  | .schedulerSelection die => die < 8
  | .cancelAtDie die _ => die < 8
  | .switchPoint c => c < 80
  | .clockPauseEnd c => c < 80
  | .clctlStep c _ => c < 80
  | .clctlThr c _ => c < 80
  | .clctlForcewa c _ => c < 80
  | .throttleApply c => c < 80
  | .sensorSample n _ => n < 96
  | .tripOverheatWarning n => n < 96
  | .correctedError c => c < 80
  | .flitReceive f => f.link < 16
  | .replayRequest link _ => link < 16
  | .flitAck link _ => link < 16
  | .retireMarker link _ => link < 16
  | .landingWindowWrite _ _ _ data => data.length != 0
  | .linkUp link => link < 16
  | .keyRotation link => link < 16
  | _ => true

/-- An instruction the spec's encodings admit. -/
def Instr.wf (i : Instr) : Bool := i.fieldsOk && i.predsOk && i.argsOk

end Sys2Proof
end

