-- ==== Sys2Proof/Decode.lean ====
section
/-! DEFINITION. Decode: from the bytes of a bundle to its eight instructions (R54 to R70, R77). The slot position
alone decides a word's class. A word is refused by name; every refusal is an offence of R75. The encoder stands
after the decoder. -/

namespace Sys2Proof

/-- Field [lo + n - 1 : lo] of a word. -/
def field (w lo n : Nat) : BitVec n := BitVec.ofNat n (w / 2 ^ lo)

/-- Bit lo of a word. -/
def flag (w lo : Nat) : Bool := w / 2 ^ lo % 2 == 1

/-- Bits [31:25]: A and G (R58). -/
def hdr (w : Nat) : Hdr := { a := flag w 31, g := field w 25 6 }

/-- NOP (R61). -/
def nopOp (c : Cls) (w : Nat) : NopOp := { cls := c, h := hdr w }
/-- The V class's NOP (R61). -/
def nopVOp (w : Nat) : NopVOp := { a := flag w 31 }
/-- The V-class word (R65). -/
def vOp (w : Nat) : VOp :=
  { a := flag w 31, w := field w 22 2, t := field w 19 3, m := field w 15 4, vd := field w 10 5, va := field w 5 5,
    vb := field w 0 5 }
/-- SROp (R62 to R64, R67, R69, R189). -/
def sROp (w : Nat) : SROp := { h := hdr w, rd := field w 12 6, ra := field w 6 6, rb := field w 0 6 }
/-- SR2Op (R62 to R64, R67, R69, R189). -/
def sR2Op (w : Nat) : SR2Op := { h := hdr w, rd := field w 12 6, ra := field w 6 6 }
/-- SIOp (R62 to R64, R67, R69, R189). -/
def sIOp (w : Nat) : SIOp := { h := hdr w, rd := field w 12 6, ra := field w 6 6, imm := field w 0 6 }
/-- SKOp (R62 to R64, R67, R69, R189). -/
def sKOp (w : Nat) : SKOp := { h := hdr w, rd := field w 12 6, imm := field w 0 12 }
/-- ImmOp (R62 to R64, R67, R69, R189). -/
def immOp (w : Nat) : ImmOp := { h := hdr w, imm := field w 0 12 }
/-- CmpOp (R62 to R64, R67, R69, R189). -/
def cmpOp (w : Nat) : CmpOp := { h := hdr w, pd := field w 12 6, ra := field w 6 6, rb := field w 0 6 }
/-- CmpIOp (R62 to R64, R67, R69, R189). -/
def cmpIOp (w : Nat) : CmpIOp := { h := hdr w, pd := field w 12 6, ra := field w 6 6, imm := field w 0 6 }
/-- PredOp (R62 to R64, R67, R69, R189). -/
def predOp (w : Nat) : PredOp := { h := hdr w, pd := field w 12 6, pa := field w 6 6, pb := field w 0 6 }
/-- RdOp (R62 to R64, R67, R69, R189). -/
def rdOp (w : Nat) : RdOp := { h := hdr w, rd := field w 12 6 }
/-- RaOp (R62 to R64, R67, R69, R189). -/
def raOp (w : Nat) : RaOp := { h := hdr w, ra := field w 6 6 }
/-- BrOp (R62 to R64, R67, R69, R189). -/
def brOp (w : Nat) : BrOp := { h := hdr w, disp := field w 0 18 }
/-- LoopOp (R62 to R64, R67, R69, R189). -/
def loopOp (w : Nat) : LoopOp := { h := hdr w, lc := field w 16 2, ra := field w 10 6, len := field w 0 10 }
/-- LoopIOp (R62 to R64, R67, R69, R189). -/
def loopIOp (w : Nat) : LoopIOp := { h := hdr w, lc := field w 16 2, imm := field w 10 6, len := field w 0 10 }
/-- LcOp (R62 to R64, R67, R69, R189). -/
def lcOp (w : Nat) : LcOp := { h := hdr w, lc := field w 16 2 }
/-- TokOp (R62 to R64, R67, R69, R189). -/
def tokOp (w : Nat) : TokOp := { h := hdr w, mask := field w 0 8 }
/-- TlOp (R62 to R64, R67, R69, R189). -/
def tlOp (w : Nat) : TlOp := { h := hdr w, tl := field w 14 4, ra := field w 6 6 }
/-- BinitOp (R62 to R64, R67, R69, R189). -/
def binitOp (w : Nat) : BinitOp := { h := hdr w, b := field w 12 5, ra := field w 6 6 }
/-- BarOp (R62 to R64, R67, R69, R189). -/
def barOp (w : Nat) : BarOp := { h := hdr w, b := field w 12 5 }
/-- LvOp (R62 to R64, R67, R69, R189). -/
def lvOp (w : Nat) : LvOp := { h := hdr w, n := field w 12 3 }
/-- XFOp (R62 to R64, R67, R69, R189). -/
def xFOp (w : Nat) : XFOp := { h := hdr w, vd := field w 13 5, va := field w 8 5, t := field w 5 3, m := field w 1 4 }
/-- MmaOp (R62 to R64, R67, R69, R189). -/
def mmaOp (w : Nat) : MmaOp := { h := hdr w, tile := field w 11 7, sd := field w 5 6, ss := field w 3 2, sa := flag w 2, sb := flag w 1, z := flag w 0 }
/-- MzeroOp (R62 to R64, R67, R69, R189). -/
def mzeroOp (w : Nat) : MzeroOp := { h := hdr w, tile := field w 11 7, acc := field w 0 2 }
/-- MldtOp (R62 to R64, R67, R69, R189). -/
def mldtOp (w : Nat) : MldtOp := { h := hdr w, tile := field w 11 7, sd := field w 5 6, acc := field w 0 2 }
/-- MsttOp (R62 to R64, R67, R69, R189). -/
def msttOp (w : Nat) : MsttOp := { h := hdr w, tile := field w 11 7, sd := field w 5 6 }
/-- MdrainOp (R62 to R64, R67, R69, R189). -/
def mdrainOp (w : Nat) : MdrainOp := { h := hdr w, tile := field w 11 7, sd := field w 5 6, uns := flag w 1, req := flag w 0 }
/-- MrsumOp (R62 to R64, R67, R69, R189). -/
def mrsumOp (w : Nat) : MrsumOp := { h := hdr w, tile := field w 11 7, sh := field w 2 3, neg := flag w 1, row := flag w 0 }
/-- MmodeOp (R62 to R64, R67, R69, R189). -/
def mmodeOp (w : Nat) : MmodeOp := { h := hdr w, rnd := field w 15 2, sat := flag w 14 }
/-- MstatOp (R62 to R64, R67, R69, R189). -/
def mstatOp (w : Nat) : MstatOp := { h := hdr w, tile := field w 11 7, rd := field w 5 6 }
/-- LdOp (R62 to R64, R67, R69, R189). -/
def ldOp (w : Nat) : LdOp := { h := hdr w, rd := field w 12 6, ra := field w 6 6, l := field w 0 6 }
/-- StOp (R62 to R64, R67, R69, R189). -/
def stOp (w : Nat) : StOp := { h := hdr w, src := field w 12 6, ra := field w 6 6, imm := field w 0 6 }
/-- VLdOp (R62 to R64, R67, R69, R189). -/
def vLdOp (w : Nat) : VLdOp := { h := hdr w, v := field w 12 5, ra := field w 6 6, l := field w 0 6 }
/-- VStOp (R62 to R64, R67, R69, R189). -/
def vStOp (w : Nat) : VStOp := { h := hdr w, v := field w 12 5, ra := field w 6 6, imm := field w 0 6 }
/-- FenceOp (R62 to R64, R67, R69, R189). -/
def fenceOp (w : Nat) : FenceOp := { h := hdr w, scope := field w 15 3, kind := field w 12 2 }
/-- PfcOp (R62 to R64, R67, R69, R189). -/
def pfcOp (w : Nat) : PfcOp := { h := hdr w, n := field w 12 6, ra := field w 6 6 }
/-- CpyOp (R62 to R64, R67, R69, R189). -/
def cpyOp (w : Nat) : CpyOp := { h := hdr w, ra := field w 12 6, k := field w 9 3, sen := flag w 8, wait := field w 0 8 }
/-- QpopOp (R62 to R64, R67, R69, R189). -/
def qpopOp (w : Nat) : QpopOp := { h := hdr w, rd := field w 12 6, q := field w 8 4 }
/-- QpushOp (R62 to R64, R67, R69, R189). -/
def qpushOp (w : Nat) : QpushOp := { h := hdr w, ra := field w 12 6, q := field w 8 4 }

/-- The S class's opcode map (R77); the word's fields are read, its reserved bits are not judged here. -/
def rawS (op w : Nat) : Option Instr :=
  match op with
  | 0x00 => some (.nop (nopOp .s w))
  | 0x01 => some (.add (sROp w))
  | 0x02 => some (.sub (sROp w))
  | 0x03 => some (.mul (sROp w))
  | 0x04 => some (.mulh (sROp w))
  | 0x05 => some (.mulhu (sROp w))
  | 0x06 => some (.divs (sROp w))
  | 0x07 => some (.divu (sROp w))
  | 0x08 => some (.remu (sROp w))
  | 0x09 => some (.and (sROp w))
  | 0x0A => some (.or (sROp w))
  | 0x0B => some (.xor (sROp w))
  | 0x0C => some (.andn (sROp w))
  | 0x0D => some (.shl (sROp w))
  | 0x0E => some (.shr (sROp w))
  | 0x0F => some (.sar (sROp w))
  | 0x10 => some (.rol (sROp w))
  | 0x11 => some (.min (sROp w))
  | 0x12 => some (.max (sROp w))
  | 0x13 => some (.minn (sROp w))
  | 0x14 => some (.maxn (sROp w))
  | 0x15 => some (.clz (sR2Op w))
  | 0x16 => some (.popc (sR2Op w))
  | 0x17 => some (.sel (sROp w))
  | 0x18 => some (.bext (sROp w))
  | 0x19 => some (.bins (sROp w))
  | 0x20 => some (.addi (sIOp w))
  | 0x21 => some (.shli (sIOp w))
  | 0x22 => some (.shri (sIOp w))
  | 0x23 => some (.sari (sIOp w))
  | 0x24 => some (.andi (sIOp w))
  | 0x25 => some (.ori (sIOp w))
  | 0x26 => some (.xori (sIOp w))
  | 0x27 => some (.roli (sIOp w))
  | 0x28 => some (.movi (sKOp w))
  | 0x29 => some (.movk (sKOp w))
  | 0x2A => some (.addk (sKOp w))
  | 0x30 => some (.cmpeq (cmpOp w))
  | 0x31 => some (.cmpne (cmpOp w))
  | 0x32 => some (.cmplt (cmpOp w))
  | 0x33 => some (.cmple (cmpOp w))
  | 0x34 => some (.cmpltn (cmpOp w))
  | 0x35 => some (.cmplen (cmpOp w))
  | 0x36 => some (.cmpeqi (cmpIOp w))
  | 0x37 => some (.cmpnei (cmpIOp w))
  | 0x38 => some (.cmplti (cmpIOp w))
  | 0x39 => some (.cmpgei (cmpIOp w))
  | 0x3A => some (.cmpltni (cmpIOp w))
  | 0x3B => some (.cmpgeni (cmpIOp w))
  | 0x3C => some (.pand (predOp w))
  | 0x3D => some (.por (predOp w))
  | 0x3E => some (.pxor (predOp w))
  | 0x3F => some (.pandn (predOp w))
  | 0x40 => some (.pget (rdOp w))
  | 0x41 => some (.pset (raOp w))
  | 0x48 => some (.br (brOp w))
  | 0x49 => some (.call (brOp w))
  | 0x4A => some (.jr (raOp w))
  | 0x4B => some (.callr (raOp w))
  | 0x4C => some (.loop (loopOp w))
  | 0x4D => some (.loopi (loopIOp w))
  | 0x4E => some (.lbrk (lcOp w))
  | 0x50 => some (.exit (hdr w))
  | 0x51 => some (.trap (immOp w))
  | 0x52 => some (.rett (hdr w))
  | 0x53 => some (.spawn (sR2Op w))
  | 0x54 => some (.srd (sKOp w))
  | 0x55 => some (.swr (sKOp w))
  | 0x56 => some (.stamp (immOp w))
  | 0x57 => some (.hint (immOp w))
  | 0x58 => some (.rdcyc (rdOp w))
  | 0x59 => some (.rdmcc (rdOp w))
  | 0x5A => some (.rdptp (rdOp w))
  | 0x5B => some (.wfi (hdr w))
  | 0x60 => some (.twait (tokOp w))
  | 0x61 => some (.tsig (tokOp w))
  | 0x62 => some (.tlwait (tlOp w))
  | 0x63 => some (.binit (binitOp w))
  | 0x64 => some (.barr (barOp w))
  | 0x65 => some (.bwait (barOp w))
  | 0x66 => some (.bsync (barOp w))
  | 0x67 => some (.sstep (lvOp w))
  | _ => none

/-- The V class's opcode map (R77); the word's fields are read, its reserved bits are not judged here. -/
def rawV (op w : Nat) : Option Instr :=
  match op with
  | 0x00 => some (.nopV (nopVOp w))
  | 0x01 => some (.vadd (vOp w))
  | 0x02 => some (.vsub (vOp w))
  | 0x03 => some (.vadds (vOp w))
  | 0x04 => some (.vaddsn (vOp w))
  | 0x05 => some (.vsubs (vOp w))
  | 0x06 => some (.vsubsn (vOp w))
  | 0x07 => some (.vmul (vOp w))
  | 0x08 => some (.vmulh (vOp w))
  | 0x09 => some (.vmac (vOp w))
  | 0x0A => some (.vmin (vOp w))
  | 0x0B => some (.vmax (vOp w))
  | 0x0C => some (.vminn (vOp w))
  | 0x0D => some (.vmaxn (vOp w))
  | 0x0E => some (.vabsd (vOp w))
  | 0x0F => some (.vavgn (vOp w))
  | 0x10 => some (.vand (vOp w))
  | 0x11 => some (.vor (vOp w))
  | 0x12 => some (.vxor (vOp w))
  | 0x13 => some (.vandn (vOp w))
  | 0x14 => some (.vshl (vOp w))
  | 0x15 => some (.vshr (vOp w))
  | 0x16 => some (.vsar (vOp w))
  | 0x17 => some (.vshli (vOp w))
  | 0x18 => some (.vshri (vOp w))
  | 0x19 => some (.vsari (vOp w))
  | 0x1A => some (.vclz (vOp w))
  | 0x1B => some (.vpopc (vOp w))
  | 0x20 => some (.vfadd (vOp w))
  | 0x21 => some (.vfsub (vOp w))
  | 0x22 => some (.vfmul (vOp w))
  | 0x23 => some (.vfma (vOp w))
  | 0x24 => some (.vfnma (vOp w))
  | 0x25 => some (.vfmin (vOp w))
  | 0x26 => some (.vfmax (vOp w))
  | 0x27 => some (.vfabs (vOp w))
  | 0x28 => some (.vfneg (vOp w))
  | 0x30 => some (.vcmpeq (vOp w))
  | 0x31 => some (.vcmpne (vOp w))
  | 0x32 => some (.vcmplt (vOp w))
  | 0x33 => some (.vcmple (vOp w))
  | 0x34 => some (.vcmpltn (vOp w))
  | 0x35 => some (.vcmplen (vOp w))
  | 0x36 => some (.vfcmpeq (vOp w))
  | 0x37 => some (.vfcmplt (vOp w))
  | 0x38 => some (.vfcmple (vOp w))
  | 0x39 => some (.vfcmpun (vOp w))
  | 0x3A => some (.mand (vOp w))
  | 0x3B => some (.mor (vOp w))
  | 0x3C => some (.mxor (vOp w))
  | 0x3D => some (.mandn (vOp w))
  | 0x3E => some (.many (vOp w))
  | 0x3F => some (.mall (vOp w))
  | 0x40 => some (.vpermb (vOp w))
  | 0x41 => some (.vpermw (vOp w))
  | 0x42 => some (.vrmrg (vOp w))
  | 0x43 => some (.vrev (vOp w))
  | 0x44 => some (.vzip (vOp w))
  | 0x45 => some (.vunzip (vOp w))
  | 0x46 => some (.vbcs (vOp w))
  | 0x47 => some (.vxs (vOp w))
  | 0x48 => some (.vmovi (vOp w))
  | 0x49 => some (.vmov (vOp w))
  | 0x4A => some (.vsel (vOp w))
  | 0x50 => some (.vcvt (vOp w))
  | 0x51 => some (.vcvtsr (vOp w))
  | 0x52 => some (.vnarrow (vOp w))
  | 0x53 => some (.vwiden (vOp w))
  | 0x54 => some (.vrng (vOp w))
  | 0x58 => some (.vredadd (vOp w))
  | 0x59 => some (.vredmax (vOp w))
  | 0x5A => some (.vredmin (vOp w))
  | 0x5B => some (.vfredadd (vOp w))
  | 0x5C => some (.vfredmax (vOp w))
  | _ => none

/-- The X class's opcode map (R77); the word's fields are read, its reserved bits are not judged here. -/
def rawX (op w : Nat) : Option Instr :=
  match op with
  | 0x00 => some (.nop (nopOp .x w))
  | 0x01 => some (.xrcp (xFOp w))
  | 0x02 => some (.xrsq (xFOp w))
  | 0x03 => some (.xsqrt (xFOp w))
  | 0x04 => some (.xexp2 (xFOp w))
  | 0x05 => some (.xlog2 (xFOp w))
  | 0x06 => some (.xsint (xFOp w))
  | 0x07 => some (.xcost (xFOp w))
  | 0x08 => some (.xtanh (xFOp w))
  | 0x09 => some (.xsigm (xFOp w))
  | 0x0A => some (.xgelu (xFOp w))
  | 0x40 => some (.mma (mmaOp w))
  | 0x41 => some (.mzero (mzeroOp w))
  | 0x42 => some (.mldt (mldtOp w))
  | 0x43 => some (.mstt (msttOp w))
  | 0x44 => some (.mdrain (mdrainOp w))
  | 0x45 => some (.mrsum (mrsumOp w))
  | 0x46 => some (.mmode (mmodeOp w))
  | 0x47 => some (.mstat (mstatOp w))
  | _ => none

/-- The M class's opcode map (R77); the word's fields are read, its reserved bits are not judged here. -/
def rawM (op w : Nat) : Option Instr :=
  match op with
  | 0x00 => some (.nop (nopOp .m w))
  | 0x01 => some (.ld8 (ldOp w))
  | 0x02 => some (.ld16 (ldOp w))
  | 0x03 => some (.ld32 (ldOp w))
  | 0x04 => some (.ld64 (ldOp w))
  | 0x05 => some (.lds8 (ldOp w))
  | 0x06 => some (.lds16 (ldOp w))
  | 0x07 => some (.lds32 (ldOp w))
  | 0x08 => some (.st8 (stOp w))
  | 0x09 => some (.st16 (stOp w))
  | 0x0A => some (.st32 (stOp w))
  | 0x0B => some (.st64 (stOp w))
  | 0x10 => some (.vld1 (vLdOp w))
  | 0x11 => some (.vld2 (vLdOp w))
  | 0x12 => some (.vld4 (vLdOp w))
  | 0x13 => some (.vst1 (vStOp w))
  | 0x14 => some (.vst2 (vStOp w))
  | 0x15 => some (.vst4 (vStOp w))
  | 0x18 => some (.spld (vLdOp w))
  | 0x19 => some (.spldh (vLdOp w))
  | 0x1A => some (.spst (vStOp w))
  | 0x1B => some (.spsth (vStOp w))
  | 0x1C => some (.vgath (vLdOp w))
  | 0x1D => some (.vscat (vStOp w))
  | 0x20 => some (.fence (fenceOp w))
  | 0x28 => some (.aadd (sROp w))
  | 0x29 => some (.amin (sROp w))
  | 0x2A => some (.amax (sROp w))
  | 0x2B => some (.aminn (sROp w))
  | 0x2C => some (.amaxn (sROp w))
  | 0x2D => some (.aand (sROp w))
  | 0x2E => some (.aor (sROp w))
  | 0x2F => some (.axor (sROp w))
  | 0x30 => some (.axchg (sROp w))
  | 0x31 => some (.acas (sROp w))
  | 0x32 => some (.afadd (sROp w))
  | 0x38 => some (.pf (raOp w))
  | 0x39 => some (.pfc (pfcOp w))
  | 0x3A => some (.clwb (raOp w))
  | 0x3B => some (.clinv (raOp w))
  | 0x40 => some (.cpy (cpyOp w))
  | 0x41 => some (.cpyf (cpyOp w))
  | 0x42 => some (.cpyt (cpyOp w))
  | 0x43 => some (.seqrun (cpyOp w))
  | 0x48 => some (.qpop (qpopOp w))
  | 0x49 => some (.qpush (qpushOp w))
  | _ => none

/-- The instruction whose opcode stands in a word of class `c` (R58, R65, R77): none if the opcode is unassigned. -/
def rawInstr (c : Cls) (w : Nat) : Option Instr :=
  match c with
  | .s => rawS (w / 262144 % 128) w
  | .v => rawV (w / 16777216 % 128) w
  | .x => rawX (w / 262144 % 128) w
  | .m => rawM (w / 262144 % 128) w

/-- The word's reserved bits are zero, for the fields (low bit, width) a format leaves unused (R62, R64, R67, R69). -/
def zeroAt (w : Nat) (fs : List (Nat × Nat)) : Bool := fs.all fun f => w / 2 ^ f.1 % 2 ^ f.2 == 0

/-- The bits of a word its instruction's format leaves reserved, as (low bit, width) (R61, R62, R64, R67 to R70, R189). -/
def Instr.reserved : Instr → List (Nat × Nat)
  | .nop _ => [(0, 18)]
  | .nopV _ => [(0, 24)]
  | .clz _ => [(0, 6)]
  | .popc _ => [(0, 6)]
  | .pget _ => [(0, 12)]
  | .pset _ => [(0, 6), (12, 6)]
  | .jr _ => [(0, 6), (12, 6)]
  | .callr _ => [(0, 6), (12, 6)]
  | .lbrk _ => [(0, 16)]
  | .exit _ => [(0, 18)]
  | .trap _ => [(12, 6)]
  | .rett _ => [(0, 18)]
  | .spawn _ => [(0, 6)]
  | .stamp _ => [(12, 6)]
  | .hint _ => [(12, 6)]
  | .rdcyc _ => [(0, 12)]
  | .rdmcc _ => [(0, 12)]
  | .rdptp _ => [(0, 12)]
  | .wfi _ => [(0, 18)]
  | .twait _ => [(8, 10)]
  | .tsig _ => [(8, 10)]
  | .tlwait _ => [(0, 6), (12, 2)]
  | .binit _ => [(0, 6), (17, 1)]
  | .barr _ => [(0, 12), (17, 1)]
  | .bwait _ => [(0, 12), (17, 1)]
  | .bsync _ => [(0, 12), (17, 1)]
  | .sstep _ => [(0, 12), (15, 3)]
  | .xrcp _ => [(0, 1)]
  | .xrsq _ => [(0, 1)]
  | .xsqrt _ => [(0, 1)]
  | .xexp2 _ => [(0, 1)]
  | .xlog2 _ => [(0, 1)]
  | .xsint _ => [(0, 1)]
  | .xcost _ => [(0, 1)]
  | .xtanh _ => [(0, 1)]
  | .xsigm _ => [(0, 1)]
  | .xgelu _ => [(0, 1)]
  | .mzero _ => [(2, 9)]
  | .mldt _ => [(2, 3)]
  | .mstt _ => [(0, 5)]
  | .mdrain _ => [(2, 3)]
  | .mrsum _ => [(5, 6)]
  | .mmode _ => [(0, 14), (17, 1)]
  | .mstat _ => [(0, 5)]
  | .vld1 _ => [(17, 1)]
  | .vld2 _ => [(17, 1)]
  | .vld4 _ => [(17, 1)]
  | .vst1 _ => [(17, 1)]
  | .vst2 _ => [(17, 1)]
  | .vst4 _ => [(17, 1)]
  | .spld _ => [(17, 1)]
  | .spldh _ => [(17, 1)]
  | .spst _ => [(17, 1)]
  | .spsth _ => [(17, 1)]
  | .vgath _ => [(17, 1)]
  | .vscat _ => [(17, 1)]
  | .fence _ => [(0, 12), (14, 1)]
  | .pf _ => [(0, 6), (12, 6)]
  | .pfc _ => [(0, 6)]
  | .clwb _ => [(0, 6), (12, 6)]
  | .clinv _ => [(0, 6), (12, 6)]
  | .qpop _ => [(0, 8)]
  | .qpush _ => [(0, 8)]
  | _ => []

/-- Why a word is no instruction (R75, in the order of its table). -/
inductive Reject where
  | poolEntry      -- PLH (R78): condition 1
  | unassigned     -- an OP the map does not assign: condition 2
  | reserved       -- a reserved bit is 1: condition 2
  | fieldValue     -- a field value the class's rules refuse: condition 2
  deriving DecidableEq, Repr

/-- PLH, the pool header: OP 0x5F in an S slot, whatever its other bits hold (R78). -/
def isPlh (c : Cls) (w : Nat) : Bool := c == .s && w / 262144 % 128 == 0x5F

/-- Decoding of one word in a slot of class `c` (R75): the instruction, or the reason it is none. Predicate indices
48 to 63 are a condition of their own (`Instr.predsOk`). -/
def decodeSlot (c : Cls) (w : Nat) : Except Reject Instr :=
  if isPlh c w then .error .poolEntry
  else match rawInstr c w with
    | none => .error .unassigned
    | some i =>
      if zeroAt w i.reserved then (if i.fieldsOk then .ok i else .error .fieldValue) else .error .reserved

/-- The instruction a word of class `c` is, if it is one; a word that names p48 to p63 is none (R59, R63). -/
def decodeWord (c : Cls) (w : Nat) : Option Instr :=
  match decodeSlot c w with
  | .ok i => if i.predsOk then some i else none
  | .error _ => none

/-- The class of slot k (R54). -/
def slotCls (k : Nat) : Cls := if k < 2 then .s else if k < 5 then .v else if k < 6 then .x else .m

/-- A little-endian number (R15). -/
def leNat : List Byte → Nat
  | [] => 0
  | b :: bs => b.toNat + 256 * leNat bs

/-- The first `n` bytes of a number, the least significant first (R15). -/
def leBytes (n v : Nat) : List Byte := (List.range n).map fun i => BitVec.ofNat 8 (v / 256 ^ i)

/-- The word of slot k of a bundle's 32 bytes (R54). -/
def slotWord (bs : List Byte) (k : Nat) : Nat := leNat ((bs.drop (4 * k)).take 4)

/-- The eight words of a bundle (R54). -/
def bundleWords (bs : List Byte) : List Nat := (List.range 8).map (slotWord bs)

/-- The decoding of a bundle: total on any bytes (R54, R75). -/
def decodeBundle (bs : List Byte) : List (Except Reject Instr) :=
  (List.range 8).map fun k => decodeSlot (slotCls k) (slotWord bs k)

/-- The class whose words hold the instruction; none for the rows that have no word (R54, R77). -/
def Instr.cls : Instr → Option Cls
  | .nop o => some o.cls
  | .nopV _ => some .v
  | .add _ => some .s
  | .sub _ => some .s
  | .mul _ => some .s
  | .mulh _ => some .s
  | .mulhu _ => some .s
  | .divs _ => some .s
  | .divu _ => some .s
  | .remu _ => some .s
  | .and _ => some .s
  | .or _ => some .s
  | .xor _ => some .s
  | .andn _ => some .s
  | .shl _ => some .s
  | .shr _ => some .s
  | .sar _ => some .s
  | .rol _ => some .s
  | .min _ => some .s
  | .max _ => some .s
  | .minn _ => some .s
  | .maxn _ => some .s
  | .clz _ => some .s
  | .popc _ => some .s
  | .sel _ => some .s
  | .bext _ => some .s
  | .bins _ => some .s
  | .addi _ => some .s
  | .shli _ => some .s
  | .shri _ => some .s
  | .sari _ => some .s
  | .andi _ => some .s
  | .ori _ => some .s
  | .xori _ => some .s
  | .roli _ => some .s
  | .movi _ => some .s
  | .movk _ => some .s
  | .addk _ => some .s
  | .cmpeq _ => some .s
  | .cmpne _ => some .s
  | .cmplt _ => some .s
  | .cmple _ => some .s
  | .cmpltn _ => some .s
  | .cmplen _ => some .s
  | .cmpeqi _ => some .s
  | .cmpnei _ => some .s
  | .cmplti _ => some .s
  | .cmpgei _ => some .s
  | .cmpltni _ => some .s
  | .cmpgeni _ => some .s
  | .pand _ => some .s
  | .por _ => some .s
  | .pxor _ => some .s
  | .pandn _ => some .s
  | .pget _ => some .s
  | .pset _ => some .s
  | .br _ => some .s
  | .call _ => some .s
  | .jr _ => some .s
  | .callr _ => some .s
  | .loop _ => some .s
  | .loopi _ => some .s
  | .lbrk _ => some .s
  | .exit _ => some .s
  | .trap _ => some .s
  | .rett _ => some .s
  | .spawn _ => some .s
  | .srd _ => some .s
  | .swr _ => some .s
  | .stamp _ => some .s
  | .hint _ => some .s
  | .rdcyc _ => some .s
  | .rdmcc _ => some .s
  | .rdptp _ => some .s
  | .wfi _ => some .s
  | .twait _ => some .s
  | .tsig _ => some .s
  | .tlwait _ => some .s
  | .binit _ => some .s
  | .barr _ => some .s
  | .bwait _ => some .s
  | .bsync _ => some .s
  | .sstep _ => some .s
  | .vadd _ => some .v
  | .vsub _ => some .v
  | .vadds _ => some .v
  | .vaddsn _ => some .v
  | .vsubs _ => some .v
  | .vsubsn _ => some .v
  | .vmul _ => some .v
  | .vmulh _ => some .v
  | .vmac _ => some .v
  | .vmin _ => some .v
  | .vmax _ => some .v
  | .vminn _ => some .v
  | .vmaxn _ => some .v
  | .vabsd _ => some .v
  | .vavgn _ => some .v
  | .vand _ => some .v
  | .vor _ => some .v
  | .vxor _ => some .v
  | .vandn _ => some .v
  | .vshl _ => some .v
  | .vshr _ => some .v
  | .vsar _ => some .v
  | .vshli _ => some .v
  | .vshri _ => some .v
  | .vsari _ => some .v
  | .vclz _ => some .v
  | .vpopc _ => some .v
  | .vfadd _ => some .v
  | .vfsub _ => some .v
  | .vfmul _ => some .v
  | .vfma _ => some .v
  | .vfnma _ => some .v
  | .vfmin _ => some .v
  | .vfmax _ => some .v
  | .vfabs _ => some .v
  | .vfneg _ => some .v
  | .vcmpeq _ => some .v
  | .vcmpne _ => some .v
  | .vcmplt _ => some .v
  | .vcmple _ => some .v
  | .vcmpltn _ => some .v
  | .vcmplen _ => some .v
  | .vfcmpeq _ => some .v
  | .vfcmplt _ => some .v
  | .vfcmple _ => some .v
  | .vfcmpun _ => some .v
  | .mand _ => some .v
  | .mor _ => some .v
  | .mxor _ => some .v
  | .mandn _ => some .v
  | .many _ => some .v
  | .mall _ => some .v
  | .vpermb _ => some .v
  | .vpermw _ => some .v
  | .vrmrg _ => some .v
  | .vrev _ => some .v
  | .vzip _ => some .v
  | .vunzip _ => some .v
  | .vbcs _ => some .v
  | .vxs _ => some .v
  | .vmovi _ => some .v
  | .vmov _ => some .v
  | .vsel _ => some .v
  | .vcvt _ => some .v
  | .vcvtsr _ => some .v
  | .vnarrow _ => some .v
  | .vwiden _ => some .v
  | .vrng _ => some .v
  | .vredadd _ => some .v
  | .vredmax _ => some .v
  | .vredmin _ => some .v
  | .vfredadd _ => some .v
  | .vfredmax _ => some .v
  | .xrcp _ => some .x
  | .xrsq _ => some .x
  | .xsqrt _ => some .x
  | .xexp2 _ => some .x
  | .xlog2 _ => some .x
  | .xsint _ => some .x
  | .xcost _ => some .x
  | .xtanh _ => some .x
  | .xsigm _ => some .x
  | .xgelu _ => some .x
  | .mma _ => some .x
  | .mzero _ => some .x
  | .mldt _ => some .x
  | .mstt _ => some .x
  | .mdrain _ => some .x
  | .mrsum _ => some .x
  | .mmode _ => some .x
  | .mstat _ => some .x
  | .ld8 _ => some .m
  | .ld16 _ => some .m
  | .ld32 _ => some .m
  | .ld64 _ => some .m
  | .lds8 _ => some .m
  | .lds16 _ => some .m
  | .lds32 _ => some .m
  | .st8 _ => some .m
  | .st16 _ => some .m
  | .st32 _ => some .m
  | .st64 _ => some .m
  | .vld1 _ => some .m
  | .vld2 _ => some .m
  | .vld4 _ => some .m
  | .vst1 _ => some .m
  | .vst2 _ => some .m
  | .vst4 _ => some .m
  | .spld _ => some .m
  | .spldh _ => some .m
  | .spst _ => some .m
  | .spsth _ => some .m
  | .vgath _ => some .m
  | .vscat _ => some .m
  | .fence _ => some .m
  | .aadd _ => some .m
  | .amin _ => some .m
  | .amax _ => some .m
  | .aminn _ => some .m
  | .amaxn _ => some .m
  | .aand _ => some .m
  | .aor _ => some .m
  | .axor _ => some .m
  | .axchg _ => some .m
  | .acas _ => some .m
  | .afadd _ => some .m
  | .pf _ => some .m
  | .pfc _ => some .m
  | .clwb _ => some .m
  | .clinv _ => some .m
  | .cpy _ => some .m
  | .cpyf _ => some .m
  | .cpyt _ => some .m
  | .seqrun _ => some .m
  | .qpop _ => some .m
  | .qpush _ => some .m
  | .illegalBundle => none
  | .dataArrival _ _ => none
  | .landing _ => none
  | .freezeEnd => none
  | .waitSatisfied => none
  | .frameOverrun => none
  | .budgetOverrun => none
  | .trapDelivery => none
  | .sfuStart _ => none
  | .sfuResult _ => none
  | .arrayWindowSwitch _ => none
  | .matrixEntryStart => none
  | .matrixBlock => none
  | .matrixEntryComplete => none
  | .copyEntryStart => none
  | .copyComplete => none
  | .copyFault _ _ => none
  | .seqrunComplete _ => none
  | .barrierReleaseDelivery => none
  | .superstepRelease _ => none
  | .storeAck _ => none
  | .fenceComplete _ => none
  | .fenceTimeout _ => none
  | .pageWalk _ _ => none
  | .ownerTagCheck _ _ => none
  | .spawnRecordRead => none
  | .qtailWrite _ _ => none
  | .launchRecordFetch _ => none
  | .launchAcceptance _ => none
  | .schedulerSelection _ => none
  | .taskBinding _ => none
  | .preloadComplete => none
  | .firstIssue => none
  | .taskRetire => none
  | .cancel _ _ => none
  | .cancelAtDie _ _ => none
  | .spillMove _ => none
  | .reservedEntryGrant _ => none
  | .childPreemptTimeout _ => none
  | .preempt _ => none
  | .switch _ => none
  | .resume _ => none
  | .capture => none
  | .captureComplete => none
  | .contextRestore _ => none
  | .retry _ => none
  | .fail _ => none
  | .tlbInvalidate _ => none
  | .invalidationComplete => none
  | .evbaseWrite _ => none
  | .evconsWrite _ => none
  | .switchPoint _ => none
  | .clockPauseEnd _ => none
  | .clctlStep _ _ => none
  | .clctlThr _ _ => none
  | .clctlForcewa _ _ => none
  | .throttleApply _ => none
  | .sensorSample _ _ => none
  | .tripOverheatWarning _ => none
  | .powerSample _ _ => none
  | .limiterFallCheck => none
  | .limiterRiseCheck => none
  | .accountingUpdate _ => none
  | .correctedError _ => none
  | .clusterRetire _ => none
  | .interrupt => none
  | .wfiWake => none
  | .keyWrapLoad _ => none
  | .keyWrapDone => none
  | .shutterFire _ => none
  | .shutterN => none
  | .readout _ => none
  | .moduleReset _ => none
  | .eyeMeasurement _ _ _ => none
  | .laneRepair _ => none
  | .channelRetrain _ => none
  | .hbmrepDone _ => none
  | .scrubRead _ => none
  | .scrubWriteback => none
  | .loupeWindowEnd => none
  | .enlargerWordRead _ => none
  | .enlargerDelivery _ => none
  | .enlargerFailover => none
  | .flitReceive _ => none
  | .replayRequest _ _ => none
  | .flitAck _ _ => none
  | .retireMarker _ _ => none
  | .incarnationAnnouncement _ _ => none
  | .hibernatedAnnouncement _ _ => none
  | .remoteRequest _ => none
  | .remoteAnswer _ => none
  | .retransmitTimeout _ _ => none
  | .hibernatingTimeout _ _ => none
  | .proofProbe _ => none
  | .probeRequest _ _ => none
  | .probeAnswer _ _ => none
  | .probeTimeout _ => none
  | .prfrel _ => none
  | .treeStreamReceive _ => none
  | .treeAck _ _ _ => none
  | .fifoBind _ => none
  | .fifoUnbind _ => none
  | .fifoWordTransfer _ _ _ => none
  | .timelineWrite _ _ => none
  | .landingWindowWrite _ _ _ _ => none
  | .bar4Access _ _ _ => none
  | .spdmRequest _ _ => none
  | .ptpset _ => none
  | .ppsPulse => none
  | .powerFailWarning => none
  | .fire _ => none
  | .fixerDrain => none
  | .fixerChunk => none
  | .contactSheetWrite => none
  | .fixerListValidate => none
  | .resmtrUpdate _ => none
  | .brownOut => none
  | .safelightHold => none
  | .safelightExit => none
  | .safelightDisable => none
  | .collectiveRejoin _ _ => none
  | .stepAnnouncement _ _ _ => none
  | .registerWrite _ _ _ => none
  | .linkUp _ => none
  | .keyRotation _ => none
  | .hostLinkDown _ => none
  | .hostLinkUp _ => none
  | .ptmResponse _ _ => none
  | .channelError _ _ => none

/-! The encoder. -/

/-- A one-bit field. -/
def bit (b : Bool) : Nat := if b then 1 else 0

/-- The header (R58). -/
def Hdr.enc (h : Hdr) (op : Nat) : Nat := bit h.a * 2147483648 + h.g.toNat * 33554432 + op * 262144
/-- The V-class word (R65). -/
def VOp.enc (o : VOp) (op : Nat) : Nat :=
  bit o.a * 2147483648 + op * 16777216 + o.w.toNat * 4194304 + o.t.toNat * 524288 + o.m.toNat * 32768 +
    o.vd.toNat * 1024 + o.va.toNat * 32 + o.vb.toNat
/-- SROp (R62 to R64, R67, R69, R189). -/
def SROp.enc (o : SROp) (op : Nat) : Nat := o.h.enc op + o.rd.toNat * 4096 + o.ra.toNat * 64 + o.rb.toNat
/-- SR2Op (R62 to R64, R67, R69, R189). -/
def SR2Op.enc (o : SR2Op) (op : Nat) : Nat := o.h.enc op + o.rd.toNat * 4096 + o.ra.toNat * 64
/-- SIOp (R62 to R64, R67, R69, R189). -/
def SIOp.enc (o : SIOp) (op : Nat) : Nat := o.h.enc op + o.rd.toNat * 4096 + o.ra.toNat * 64 + o.imm.toNat
/-- SKOp (R62 to R64, R67, R69, R189). -/
def SKOp.enc (o : SKOp) (op : Nat) : Nat := o.h.enc op + o.rd.toNat * 4096 + o.imm.toNat
/-- ImmOp (R62 to R64, R67, R69, R189). -/
def ImmOp.enc (o : ImmOp) (op : Nat) : Nat := o.h.enc op + o.imm.toNat
/-- CmpOp (R62 to R64, R67, R69, R189). -/
def CmpOp.enc (o : CmpOp) (op : Nat) : Nat := o.h.enc op + o.pd.toNat * 4096 + o.ra.toNat * 64 + o.rb.toNat
/-- CmpIOp (R62 to R64, R67, R69, R189). -/
def CmpIOp.enc (o : CmpIOp) (op : Nat) : Nat := o.h.enc op + o.pd.toNat * 4096 + o.ra.toNat * 64 + o.imm.toNat
/-- PredOp (R62 to R64, R67, R69, R189). -/
def PredOp.enc (o : PredOp) (op : Nat) : Nat := o.h.enc op + o.pd.toNat * 4096 + o.pa.toNat * 64 + o.pb.toNat
/-- RdOp (R62 to R64, R67, R69, R189). -/
def RdOp.enc (o : RdOp) (op : Nat) : Nat := o.h.enc op + o.rd.toNat * 4096
/-- RaOp (R62 to R64, R67, R69, R189). -/
def RaOp.enc (o : RaOp) (op : Nat) : Nat := o.h.enc op + o.ra.toNat * 64
/-- BrOp (R62 to R64, R67, R69, R189). -/
def BrOp.enc (o : BrOp) (op : Nat) : Nat := o.h.enc op + o.disp.toNat
/-- LoopOp (R62 to R64, R67, R69, R189). -/
def LoopOp.enc (o : LoopOp) (op : Nat) : Nat := o.h.enc op + o.lc.toNat * 65536 + o.ra.toNat * 1024 + o.len.toNat
/-- LoopIOp (R62 to R64, R67, R69, R189). -/
def LoopIOp.enc (o : LoopIOp) (op : Nat) : Nat := o.h.enc op + o.lc.toNat * 65536 + o.imm.toNat * 1024 + o.len.toNat
/-- LcOp (R62 to R64, R67, R69, R189). -/
def LcOp.enc (o : LcOp) (op : Nat) : Nat := o.h.enc op + o.lc.toNat * 65536
/-- TokOp (R62 to R64, R67, R69, R189). -/
def TokOp.enc (o : TokOp) (op : Nat) : Nat := o.h.enc op + o.mask.toNat
/-- TlOp (R62 to R64, R67, R69, R189). -/
def TlOp.enc (o : TlOp) (op : Nat) : Nat := o.h.enc op + o.tl.toNat * 16384 + o.ra.toNat * 64
/-- BinitOp (R62 to R64, R67, R69, R189). -/
def BinitOp.enc (o : BinitOp) (op : Nat) : Nat := o.h.enc op + o.b.toNat * 4096 + o.ra.toNat * 64
/-- BarOp (R62 to R64, R67, R69, R189). -/
def BarOp.enc (o : BarOp) (op : Nat) : Nat := o.h.enc op + o.b.toNat * 4096
/-- LvOp (R62 to R64, R67, R69, R189). -/
def LvOp.enc (o : LvOp) (op : Nat) : Nat := o.h.enc op + o.n.toNat * 4096
/-- XFOp (R62 to R64, R67, R69, R189). -/
def XFOp.enc (o : XFOp) (op : Nat) : Nat := o.h.enc op + o.vd.toNat * 8192 + o.va.toNat * 256 + o.t.toNat * 32 + o.m.toNat * 2
/-- MmaOp (R62 to R64, R67, R69, R189). -/
def MmaOp.enc (o : MmaOp) (op : Nat) : Nat := o.h.enc op + o.tile.toNat * 2048 + o.sd.toNat * 32 + o.ss.toNat * 8 + bit o.sa * 4 + bit o.sb * 2 + bit o.z
/-- MzeroOp (R62 to R64, R67, R69, R189). -/
def MzeroOp.enc (o : MzeroOp) (op : Nat) : Nat := o.h.enc op + o.tile.toNat * 2048 + o.acc.toNat
/-- MldtOp (R62 to R64, R67, R69, R189). -/
def MldtOp.enc (o : MldtOp) (op : Nat) : Nat := o.h.enc op + o.tile.toNat * 2048 + o.sd.toNat * 32 + o.acc.toNat
/-- MsttOp (R62 to R64, R67, R69, R189). -/
def MsttOp.enc (o : MsttOp) (op : Nat) : Nat := o.h.enc op + o.tile.toNat * 2048 + o.sd.toNat * 32
/-- MdrainOp (R62 to R64, R67, R69, R189). -/
def MdrainOp.enc (o : MdrainOp) (op : Nat) : Nat := o.h.enc op + o.tile.toNat * 2048 + o.sd.toNat * 32 + bit o.uns * 2 + bit o.req
/-- MrsumOp (R62 to R64, R67, R69, R189). -/
def MrsumOp.enc (o : MrsumOp) (op : Nat) : Nat := o.h.enc op + o.tile.toNat * 2048 + o.sh.toNat * 4 + bit o.neg * 2 + bit o.row
/-- MmodeOp (R62 to R64, R67, R69, R189). -/
def MmodeOp.enc (o : MmodeOp) (op : Nat) : Nat := o.h.enc op + o.rnd.toNat * 32768 + bit o.sat * 16384
/-- MstatOp (R62 to R64, R67, R69, R189). -/
def MstatOp.enc (o : MstatOp) (op : Nat) : Nat := o.h.enc op + o.tile.toNat * 2048 + o.rd.toNat * 32
/-- LdOp (R62 to R64, R67, R69, R189). -/
def LdOp.enc (o : LdOp) (op : Nat) : Nat := o.h.enc op + o.rd.toNat * 4096 + o.ra.toNat * 64 + o.l.toNat
/-- StOp (R62 to R64, R67, R69, R189). -/
def StOp.enc (o : StOp) (op : Nat) : Nat := o.h.enc op + o.src.toNat * 4096 + o.ra.toNat * 64 + o.imm.toNat
/-- VLdOp (R62 to R64, R67, R69, R189). -/
def VLdOp.enc (o : VLdOp) (op : Nat) : Nat := o.h.enc op + o.v.toNat * 4096 + o.ra.toNat * 64 + o.l.toNat
/-- VStOp (R62 to R64, R67, R69, R189). -/
def VStOp.enc (o : VStOp) (op : Nat) : Nat := o.h.enc op + o.v.toNat * 4096 + o.ra.toNat * 64 + o.imm.toNat
/-- FenceOp (R62 to R64, R67, R69, R189). -/
def FenceOp.enc (o : FenceOp) (op : Nat) : Nat := o.h.enc op + o.scope.toNat * 32768 + o.kind.toNat * 4096
/-- PfcOp (R62 to R64, R67, R69, R189). -/
def PfcOp.enc (o : PfcOp) (op : Nat) : Nat := o.h.enc op + o.n.toNat * 4096 + o.ra.toNat * 64
/-- CpyOp (R62 to R64, R67, R69, R189). -/
def CpyOp.enc (o : CpyOp) (op : Nat) : Nat := o.h.enc op + o.ra.toNat * 4096 + o.k.toNat * 512 + bit o.sen * 256 + o.wait.toNat
/-- QpopOp (R62 to R64, R67, R69, R189). -/
def QpopOp.enc (o : QpopOp) (op : Nat) : Nat := o.h.enc op + o.rd.toNat * 4096 + o.q.toNat * 256
/-- QpushOp (R62 to R64, R67, R69, R189). -/
def QpushOp.enc (o : QpushOp) (op : Nat) : Nat := o.h.enc op + o.ra.toNat * 4096 + o.q.toNat * 256
/-- The word of an instruction (R58 to R70, R77, R189); 0 for a row that has no word. -/
def encode : Instr → Nat
  | .nop o => o.h.enc 0
  | .nopV o => bit o.a * 2147483648
  | .add o => o.enc 0x01
  | .sub o => o.enc 0x02
  | .mul o => o.enc 0x03
  | .mulh o => o.enc 0x04
  | .mulhu o => o.enc 0x05
  | .divs o => o.enc 0x06
  | .divu o => o.enc 0x07
  | .remu o => o.enc 0x08
  | .and o => o.enc 0x09
  | .or o => o.enc 0x0A
  | .xor o => o.enc 0x0B
  | .andn o => o.enc 0x0C
  | .shl o => o.enc 0x0D
  | .shr o => o.enc 0x0E
  | .sar o => o.enc 0x0F
  | .rol o => o.enc 0x10
  | .min o => o.enc 0x11
  | .max o => o.enc 0x12
  | .minn o => o.enc 0x13
  | .maxn o => o.enc 0x14
  | .clz o => o.enc 0x15
  | .popc o => o.enc 0x16
  | .sel o => o.enc 0x17
  | .bext o => o.enc 0x18
  | .bins o => o.enc 0x19
  | .addi o => o.enc 0x20
  | .shli o => o.enc 0x21
  | .shri o => o.enc 0x22
  | .sari o => o.enc 0x23
  | .andi o => o.enc 0x24
  | .ori o => o.enc 0x25
  | .xori o => o.enc 0x26
  | .roli o => o.enc 0x27
  | .movi o => o.enc 0x28
  | .movk o => o.enc 0x29
  | .addk o => o.enc 0x2A
  | .cmpeq o => o.enc 0x30
  | .cmpne o => o.enc 0x31
  | .cmplt o => o.enc 0x32
  | .cmple o => o.enc 0x33
  | .cmpltn o => o.enc 0x34
  | .cmplen o => o.enc 0x35
  | .cmpeqi o => o.enc 0x36
  | .cmpnei o => o.enc 0x37
  | .cmplti o => o.enc 0x38
  | .cmpgei o => o.enc 0x39
  | .cmpltni o => o.enc 0x3A
  | .cmpgeni o => o.enc 0x3B
  | .pand o => o.enc 0x3C
  | .por o => o.enc 0x3D
  | .pxor o => o.enc 0x3E
  | .pandn o => o.enc 0x3F
  | .pget o => o.enc 0x40
  | .pset o => o.enc 0x41
  | .br o => o.enc 0x48
  | .call o => o.enc 0x49
  | .jr o => o.enc 0x4A
  | .callr o => o.enc 0x4B
  | .loop o => o.enc 0x4C
  | .loopi o => o.enc 0x4D
  | .lbrk o => o.enc 0x4E
  | .exit o => o.enc 0x50
  | .trap o => o.enc 0x51
  | .rett o => o.enc 0x52
  | .spawn o => o.enc 0x53
  | .srd o => o.enc 0x54
  | .swr o => o.enc 0x55
  | .stamp o => o.enc 0x56
  | .hint o => o.enc 0x57
  | .rdcyc o => o.enc 0x58
  | .rdmcc o => o.enc 0x59
  | .rdptp o => o.enc 0x5A
  | .wfi o => o.enc 0x5B
  | .twait o => o.enc 0x60
  | .tsig o => o.enc 0x61
  | .tlwait o => o.enc 0x62
  | .binit o => o.enc 0x63
  | .barr o => o.enc 0x64
  | .bwait o => o.enc 0x65
  | .bsync o => o.enc 0x66
  | .sstep o => o.enc 0x67
  | .vadd o => o.enc 0x01
  | .vsub o => o.enc 0x02
  | .vadds o => o.enc 0x03
  | .vaddsn o => o.enc 0x04
  | .vsubs o => o.enc 0x05
  | .vsubsn o => o.enc 0x06
  | .vmul o => o.enc 0x07
  | .vmulh o => o.enc 0x08
  | .vmac o => o.enc 0x09
  | .vmin o => o.enc 0x0A
  | .vmax o => o.enc 0x0B
  | .vminn o => o.enc 0x0C
  | .vmaxn o => o.enc 0x0D
  | .vabsd o => o.enc 0x0E
  | .vavgn o => o.enc 0x0F
  | .vand o => o.enc 0x10
  | .vor o => o.enc 0x11
  | .vxor o => o.enc 0x12
  | .vandn o => o.enc 0x13
  | .vshl o => o.enc 0x14
  | .vshr o => o.enc 0x15
  | .vsar o => o.enc 0x16
  | .vshli o => o.enc 0x17
  | .vshri o => o.enc 0x18
  | .vsari o => o.enc 0x19
  | .vclz o => o.enc 0x1A
  | .vpopc o => o.enc 0x1B
  | .vfadd o => o.enc 0x20
  | .vfsub o => o.enc 0x21
  | .vfmul o => o.enc 0x22
  | .vfma o => o.enc 0x23
  | .vfnma o => o.enc 0x24
  | .vfmin o => o.enc 0x25
  | .vfmax o => o.enc 0x26
  | .vfabs o => o.enc 0x27
  | .vfneg o => o.enc 0x28
  | .vcmpeq o => o.enc 0x30
  | .vcmpne o => o.enc 0x31
  | .vcmplt o => o.enc 0x32
  | .vcmple o => o.enc 0x33
  | .vcmpltn o => o.enc 0x34
  | .vcmplen o => o.enc 0x35
  | .vfcmpeq o => o.enc 0x36
  | .vfcmplt o => o.enc 0x37
  | .vfcmple o => o.enc 0x38
  | .vfcmpun o => o.enc 0x39
  | .mand o => o.enc 0x3A
  | .mor o => o.enc 0x3B
  | .mxor o => o.enc 0x3C
  | .mandn o => o.enc 0x3D
  | .many o => o.enc 0x3E
  | .mall o => o.enc 0x3F
  | .vpermb o => o.enc 0x40
  | .vpermw o => o.enc 0x41
  | .vrmrg o => o.enc 0x42
  | .vrev o => o.enc 0x43
  | .vzip o => o.enc 0x44
  | .vunzip o => o.enc 0x45
  | .vbcs o => o.enc 0x46
  | .vxs o => o.enc 0x47
  | .vmovi o => o.enc 0x48
  | .vmov o => o.enc 0x49
  | .vsel o => o.enc 0x4A
  | .vcvt o => o.enc 0x50
  | .vcvtsr o => o.enc 0x51
  | .vnarrow o => o.enc 0x52
  | .vwiden o => o.enc 0x53
  | .vrng o => o.enc 0x54
  | .vredadd o => o.enc 0x58
  | .vredmax o => o.enc 0x59
  | .vredmin o => o.enc 0x5A
  | .vfredadd o => o.enc 0x5B
  | .vfredmax o => o.enc 0x5C
  | .xrcp o => o.enc 0x01
  | .xrsq o => o.enc 0x02
  | .xsqrt o => o.enc 0x03
  | .xexp2 o => o.enc 0x04
  | .xlog2 o => o.enc 0x05
  | .xsint o => o.enc 0x06
  | .xcost o => o.enc 0x07
  | .xtanh o => o.enc 0x08
  | .xsigm o => o.enc 0x09
  | .xgelu o => o.enc 0x0A
  | .mma o => o.enc 0x40
  | .mzero o => o.enc 0x41
  | .mldt o => o.enc 0x42
  | .mstt o => o.enc 0x43
  | .mdrain o => o.enc 0x44
  | .mrsum o => o.enc 0x45
  | .mmode o => o.enc 0x46
  | .mstat o => o.enc 0x47
  | .ld8 o => o.enc 0x01
  | .ld16 o => o.enc 0x02
  | .ld32 o => o.enc 0x03
  | .ld64 o => o.enc 0x04
  | .lds8 o => o.enc 0x05
  | .lds16 o => o.enc 0x06
  | .lds32 o => o.enc 0x07
  | .st8 o => o.enc 0x08
  | .st16 o => o.enc 0x09
  | .st32 o => o.enc 0x0A
  | .st64 o => o.enc 0x0B
  | .vld1 o => o.enc 0x10
  | .vld2 o => o.enc 0x11
  | .vld4 o => o.enc 0x12
  | .vst1 o => o.enc 0x13
  | .vst2 o => o.enc 0x14
  | .vst4 o => o.enc 0x15
  | .spld o => o.enc 0x18
  | .spldh o => o.enc 0x19
  | .spst o => o.enc 0x1A
  | .spsth o => o.enc 0x1B
  | .vgath o => o.enc 0x1C
  | .vscat o => o.enc 0x1D
  | .fence o => o.enc 0x20
  | .aadd o => o.enc 0x28
  | .amin o => o.enc 0x29
  | .amax o => o.enc 0x2A
  | .aminn o => o.enc 0x2B
  | .amaxn o => o.enc 0x2C
  | .aand o => o.enc 0x2D
  | .aor o => o.enc 0x2E
  | .axor o => o.enc 0x2F
  | .axchg o => o.enc 0x30
  | .acas o => o.enc 0x31
  | .afadd o => o.enc 0x32
  | .pf o => o.enc 0x38
  | .pfc o => o.enc 0x39
  | .clwb o => o.enc 0x3A
  | .clinv o => o.enc 0x3B
  | .cpy o => o.enc 0x40
  | .cpyf o => o.enc 0x41
  | .cpyt o => o.enc 0x42
  | .seqrun o => o.enc 0x43
  | .qpop o => o.enc 0x48
  | .qpush o => o.enc 0x49
  | .illegalBundle => 0
  | .dataArrival _ _ => 0
  | .landing _ => 0
  | .freezeEnd => 0
  | .waitSatisfied => 0
  | .frameOverrun => 0
  | .budgetOverrun => 0
  | .trapDelivery => 0
  | .sfuStart _ => 0
  | .sfuResult _ => 0
  | .arrayWindowSwitch _ => 0
  | .matrixEntryStart => 0
  | .matrixBlock => 0
  | .matrixEntryComplete => 0
  | .copyEntryStart => 0
  | .copyComplete => 0
  | .copyFault _ _ => 0
  | .seqrunComplete _ => 0
  | .barrierReleaseDelivery => 0
  | .superstepRelease _ => 0
  | .storeAck _ => 0
  | .fenceComplete _ => 0
  | .fenceTimeout _ => 0
  | .pageWalk _ _ => 0
  | .ownerTagCheck _ _ => 0
  | .spawnRecordRead => 0
  | .qtailWrite _ _ => 0
  | .launchRecordFetch _ => 0
  | .launchAcceptance _ => 0
  | .schedulerSelection _ => 0
  | .taskBinding _ => 0
  | .preloadComplete => 0
  | .firstIssue => 0
  | .taskRetire => 0
  | .cancel _ _ => 0
  | .cancelAtDie _ _ => 0
  | .spillMove _ => 0
  | .reservedEntryGrant _ => 0
  | .childPreemptTimeout _ => 0
  | .preempt _ => 0
  | .switch _ => 0
  | .resume _ => 0
  | .capture => 0
  | .captureComplete => 0
  | .contextRestore _ => 0
  | .retry _ => 0
  | .fail _ => 0
  | .tlbInvalidate _ => 0
  | .invalidationComplete => 0
  | .evbaseWrite _ => 0
  | .evconsWrite _ => 0
  | .switchPoint _ => 0
  | .clockPauseEnd _ => 0
  | .clctlStep _ _ => 0
  | .clctlThr _ _ => 0
  | .clctlForcewa _ _ => 0
  | .throttleApply _ => 0
  | .sensorSample _ _ => 0
  | .tripOverheatWarning _ => 0
  | .powerSample _ _ => 0
  | .limiterFallCheck => 0
  | .limiterRiseCheck => 0
  | .accountingUpdate _ => 0
  | .correctedError _ => 0
  | .clusterRetire _ => 0
  | .interrupt => 0
  | .wfiWake => 0
  | .keyWrapLoad _ => 0
  | .keyWrapDone => 0
  | .shutterFire _ => 0
  | .shutterN => 0
  | .readout _ => 0
  | .moduleReset _ => 0
  | .eyeMeasurement _ _ _ => 0
  | .laneRepair _ => 0
  | .channelRetrain _ => 0
  | .hbmrepDone _ => 0
  | .scrubRead _ => 0
  | .scrubWriteback => 0
  | .loupeWindowEnd => 0
  | .enlargerWordRead _ => 0
  | .enlargerDelivery _ => 0
  | .enlargerFailover => 0
  | .flitReceive _ => 0
  | .replayRequest _ _ => 0
  | .flitAck _ _ => 0
  | .retireMarker _ _ => 0
  | .incarnationAnnouncement _ _ => 0
  | .hibernatedAnnouncement _ _ => 0
  | .remoteRequest _ => 0
  | .remoteAnswer _ => 0
  | .retransmitTimeout _ _ => 0
  | .hibernatingTimeout _ _ => 0
  | .proofProbe _ => 0
  | .probeRequest _ _ => 0
  | .probeAnswer _ _ => 0
  | .probeTimeout _ => 0
  | .prfrel _ => 0
  | .treeStreamReceive _ => 0
  | .treeAck _ _ _ => 0
  | .fifoBind _ => 0
  | .fifoUnbind _ => 0
  | .fifoWordTransfer _ _ _ => 0
  | .timelineWrite _ _ => 0
  | .landingWindowWrite _ _ _ _ => 0
  | .bar4Access _ _ _ => 0
  | .spdmRequest _ _ => 0
  | .ptpset _ => 0
  | .ppsPulse => 0
  | .powerFailWarning => 0
  | .fire _ => 0
  | .fixerDrain => 0
  | .fixerChunk => 0
  | .contactSheetWrite => 0
  | .fixerListValidate => 0
  | .resmtrUpdate _ => 0
  | .brownOut => 0
  | .safelightHold => 0
  | .safelightExit => 0
  | .safelightDisable => 0
  | .collectiveRejoin _ _ => 0
  | .stepAnnouncement _ _ _ => 0
  | .registerWrite _ _ _ => 0
  | .linkUp _ => 0
  | .keyRotation _ => 0
  | .hostLinkDown _ => 0
  | .hostLinkUp _ => 0
  | .ptmResponse _ _ => 0
  | .channelError _ _ => 0

/-- The 32 bytes of a bundle whose slot k holds the word `w` and whose other words are NOP (R54, R61). -/
def bundleBytes (k w : Nat) : List Byte := (List.range 8).flatMap fun j => leBytes 4 (if j = k then w else 0)

/-- Decoding is tried class by class: S, M, X, V. A word belongs to a class by its slot alone (R54), so a bare word
may be an instruction of several classes; a NOP under a guard is taken last (DESIGN CHOICE, log entry 3). -/
def decodeAny (w : Nat) : Option Instr :=
  let cs : List Cls := [.s, .m, .x, .v]
  let found := cs.filterMap fun c => decodeWord c w
  let plain := found.filter fun i => match i with | .nop o => o.h.g == 0 | _ => true
  match plain with
  | i :: _ => some i
  | [] => found.head?

/-- The instruction the decoder reads from the low 32 bits of a word numbered as the opcode table numbers it. -/
def decodeTableWord (_nbits w : Nat) : Option Instr := decodeAny (w % 4294967296)

end Sys2Proof
end

