-- ==== Sys2Proof/Machine/Sparse.lean ====
section
/-! DEFINITION. Sparse maps: lists of (key, value) with strictly rising keys, and memory as such a list of bytes in
which no entry equals what an unlisted address reads as (0: R355 for HBM; DESIGN CHOICE elsewhere, log entry 2). -/

namespace Sys2Proof.Machine

namespace Sparse

/-- The value at a key, or the default `d`. -/
def get {α : Type} (d : α) : List (Nat × α) → Nat → α
  | [], _ => d
  | (k, v) :: l, a => if a = k then v else if a < k then d else get d l a

/-- The value at a key, if one is listed. -/
def find {α : Type} : List (Nat × α) → Nat → Option α
  | [], _ => none
  | (k, v) :: l, a => if a = k then some v else if a < k then none else find l a

/-- Write a key. -/
def set {α : Type} : List (Nat × α) → Nat → α → List (Nat × α)
  | [], a, x => [(a, x)]
  | (k, v) :: l, a, x =>
    if a = k then (k, x) :: l else if a < k then (a, x) :: (k, v) :: l else (k, v) :: set l a x

/-- Remove a key. -/
def del {α : Type} : List (Nat × α) → Nat → List (Nat × α)
  | [], _ => []
  | (k, v) :: l, a => if a = k then l else if a < k then (k, v) :: l else (k, v) :: del l a

/-- Keys rise strictly from above `lo`. -/
def rising {α : Type} : Option Nat → List (Nat × α) → Bool
  | _, [] => true
  | none, (k, _) :: l => rising (some k) l
  | some a, (k, _) :: l => decide (a < k) && rising (some k) l

end Sparse

/-- What an unlisted address reads as. -/
def memDefault : Byte := 0

/-- Read one byte. -/
def memGet (m : List Host.Cell) (a : Nat) : Byte := Sparse.get memDefault m a

/-- Write one byte, keeping the canonical form. -/
def memSet (m : List Host.Cell) (a : Nat) (b : Byte) : List Host.Cell :=
  if b = memDefault then Sparse.del m a else Sparse.set m a b

/-- The bytes at `a`, `a + 1`, ... -/
def memRead (m : List Host.Cell) (a n : Nat) : List Byte := (List.range n).map fun i => memGet m (a + i)

/-- Write bytes at `a`, `a + 1`, ... -/
def memWrite (m : List Host.Cell) (a : Nat) : List Byte → List Host.Cell
  | [] => m
  | b :: bs => memWrite (memSet m a b) (a + 1) bs

/-- The canonical form: addresses strictly rising, and no entry equal to what an unlisted address reads as. -/
def Memory.wf (m : List Host.Cell) : Bool := Sparse.rising none m && m.all fun c => c.2 != memDefault

end Sys2Proof.Machine
end

