-- ==== Sys2Proof/Machine/State.lean ====
section
/-! DEFINITION. State: everything the spec gives the machine (INVENTORY.md, '## State'), as plain data. One core is in
focus (`core`); the others are parked (`others`). State.reset is the machine right after a module reset. -/

namespace Sys2Proof.Machine

/-! Registers of a task (R18, R25). -/

/-- A loop counter with the addresses of its body's first and last bundles (R139); armed while count is not 0. -/
structure Lc where
  count : BitVec 32
  start : Word
  stop : Word
  deriving DecidableEq, Repr

/-- The registers of a task: R18's scalar, vector, mask, predicate and loop-counter classes and the special registers
of R25. The tokens are TKVAL. CAPAT, CPYST and QST are computed (`readSreg`). -/
structure Regs where
  s : Vector Word 64
  v : Vector Vec 32
  m : Vector Mask 16
  p : BitVec 48
  lc : Vector Lc 4
  taskid : Word
  launchid : Word
  levels : Word
  coord : Vector (BitVec 32) 8
  nbv : BitVec 8
  detm : BitVec 2
  rsig : BitVec 32
  ftsel : BitVec 3
  vrm : BitVec 3
  tkceil : BitVec 32
  tkval : BitVec 32
  abar : BitVec 8
  fbase : Word
  ssn : BitVec 32
  discf : BitVec 5
  disc : Vector (BitVec 32) 4
  ft : Vector (BitVec 32) 16
  trc : Vector Word 8
  thnd : Word
  fstat : BitVec 128
  tdisc : BitVec 128
  fepStep : BitVec 3
  fepCount : BitVec 16
  tbudget : Word
  deriving DecidableEq, Repr

/-- The register values the field maps give for module reset (R29 to R44). -/
def Regs.reset : Regs :=
  { s := Vector.replicate 64 0, v := Vector.replicate 32 0, m := Vector.replicate 16 0, p := 0,
    lc := Vector.replicate 4 { count := 0, start := 0, stop := 0 }, taskid := 0, launchid := 0, levels := 0,
    coord := Vector.replicate 8 0, nbv := 3, detm := 0, rsig := 0, ftsel := 0, vrm := 0, tkceil := 0xFFFFFFFF,
    tkval := 0, abar := 0, fbase := 0, ssn := 0, discf := 0, disc := Vector.replicate 4 0,
    ft := Vector.replicate 16 0, trc := Vector.replicate 8 0, thnd := 0, fstat := 0, tdisc := 0, fepStep := 0,
    fepCount := 0, tbudget := BitVec.allOnes 64 }

/-! Traps. -/

/-- A cause with what its trap record will hold (R41, R304). `mcc` is when it arose, `epoch` FEPOCH at that moment. -/
structure Trap where
  cause : BitVec 8
  detail : BitVec 8 := 0
  slots : BitVec 8 := 0
  addr : Word := 0
  entry : Option (Bool × BitVec 6) := none
  epoch : Word := 0
  mcc : Word := 0
  aux : Word := 0
  deriving DecidableEq, Repr

/-- How a class-I check ends: `early` causes are taken even while another slot of the bundle waits (R48, R150, R225). -/
inductive Note where
  | none
  | armed                        -- an unsuppressed LOOP or LOOPI with a nonzero count
  | skip (pc : Word)             -- a LOOP or LOOPI whose count is 0 (R139)
  | jump (pc : Word)             -- the target of a slot that writes PC (R137)
  | exit                         -- a committing EXIT
  | frozen                       -- the bundle does not issue: a freeze condition holds (R45)
  | waiting                      -- the bundle does not issue: a wait is unsatisfied (R45)
  | trap (early : Bool)          -- a trap was taken at this slot
  deriving DecidableEq, Repr

/-! Landings (R49 to R52, R155 to R157). -/

/-- A destination register. -/
inductive DstReg where
  | scalar (i : BitVec 6)
  | vector (i : BitVec 5)
  | mask (i : BitVec 4)
  | pred (i : BitVec 6)
  deriving DecidableEq, Repr

/-- A part of an access that lies in one page: virtual and physical address, bytes, KEYID. -/
structure Piece where
  va : Word
  pa : Nat
  n : Nat
  key : BitVec 16
  loc : Bool := false                 -- a LOCAL page, not CHECKED (R340)
  chk : Bool := false                 -- a CHECKED page (R251, R263)
  deriving DecidableEq, Repr

/-- What a landing comes from, with what its re-issue after a capture needs (R52). -/
inductive LandKind where
  | fixed                                               -- a V-class result: no entry, never late (R156)
  | sfu (start : Bool)                                  -- a special-function result (R157): the unit has started it
  | load (va : Word) (size : Nat) (sext : Bool)         -- a translated load
  | rows (a : Nat) (n : Nat)                            -- SPLD, SPLDH: first row and number of rows
  | gather (base : Word) (offs : Vec)                   -- VGATH
  | atomic                                              -- a returning atomic
  deriving DecidableEq, Repr

/-- A result on its way to its register: `data` goes to the bits of `wm` when `left` cycles have passed and the data
has arrived (`wait = none`; `some n`: n ticks to go). -/
structure Landing where
  id : Nat
  slot : Nat
  dst : DstReg
  data : Vec
  wm : Vec
  left : Nat
  wait : Option Nat
  err : Option Word := none          -- the address of an uncorrectable error (R201)
  lost : Bool := false               -- a request for it ended without its data: it lands any value (R366, R371)
  holds : List Nat := []             -- fences that hold the access (R208)
  parts : List Piece := []           -- the parts of a translated load, for when it is performed
  awaits : List (Nat × Nat) := []    -- remote requests whose answers are awaited, and the byte each fills from
  pc : Word := 0
  kind : LandKind := .fixed
  arrive : Option (BitVec 5) := none -- the barrier an A bit names (R36, R60)
  rsig : Option (BitVec 32) := none  -- VFREDADD's operand of the RSIG update (R32, R126)
  deriving DecidableEq, Repr

/-! The matrix queue and tiles (R174 to R197). -/

/-- A tile: cells, the sticky saturation flag and the recorded accumulator mode (R178, R179). -/
structure Tile where
  cells : Cells := 0
  sat : Bool := false
  acc : BitVec 2 := 0
  bad : List Nat := []                -- uncorrectable cells, 32 i + j (R194)
  deriving DecidableEq, Repr

/-- What an MMA or MRSUM fixes at its issue (R31, R181, R183, R192). -/
structure MmaArgs where
  arow : Nat
  brow : Nat
  kb : Nat
  ft : BitVec 32
  ss : BitVec 2
  sa : Bool
  sb : Bool
  z : Bool
  nbv : BitVec 8
  deriving DecidableEq, Repr

/-- The four queued instructions (R183). -/
inductive MOp where
  | mma (g : MmaArgs)
  | mzero (acc : BitVec 2)
  | mrsum (g : MmaArgs) (sh : BitVec 3) (neg row : Bool)
  | mmode
  deriving DecidableEq, Repr

/-- A matrix-queue entry (R183): its index, what it does, and how far it has come. `fresh` marks the issue cycle. -/
structure MEntry where
  idx : BitVec 5
  op : MOp
  tile : BitVec 7
  wait : BitVec 8 := 0
  sig : Option (BitVec 3) := none
  arrive : Option (BitVec 5) := none
  fresh : Bool := true
  running : Bool := false
  done : Nat := 0                     -- blocks processed
  blocks : List (List Row × List Row × List Row) := []  -- rows read: A, B and side table, latest first
  bad : Option Word := none           -- an uncorrectable row (R187)
  after : Nat := 0                    -- accesses named below this come before it in program order (R253)
  deriving DecidableEq, Repr

/-- An array: MODE, window code, cycles since the last change (R174, R175), physical tiles (R177). `seed` marks the
halves of the store whose unlisted tiles are indeterminate (R20). -/
structure ArraySt where
  solo : Bool := false
  win : BitVec 2 := 0
  count : Nat := 0
  set : Bool := false
  tiles : List (Nat × Tile) := []
  seedEven : Option Nat := none
  seedOdd : Option Nat := none
  deriving DecidableEq, Repr

/-! The copy queue (R215 to R226). -/

/-- The kinds of copy-queue entries. -/
inductive CopyKind where
  | cpy | cpyf | cpyt | seqrun
  deriving DecidableEq, Repr

/-- Where a copy entry stands. -/
inductive CopyPhase where
  | waiting
  | flying (left : Nat)
  | faulted (t : Trap)                 -- a COPY_FAULT not yet taken (R225)
  | asking                            -- parts of the source asked for from peers (R218)
  | sending (failed : Nat) (addr : Word)  -- writes to peers to be answered: mask and first address of the failed (R219)
  | held                              -- SEQRUN handed to the Enlarger (R221)
  | tree                              -- CPYT waiting for its children's acknowledgements (R373)
  | landed                            -- done: completes at the copy-engine step (R34)
  | paged (va : Word) (detail : BitVec 8)   -- stalled on a page fault (R328)
  deriving DecidableEq, Repr

/-- A copy-queue entry (R216, R217, R223). -/
structure CopyEntry where
  pos : BitVec 6
  num : Nat
  kind : CopyKind
  desc : Row
  sig : Option (BitVec 3)
  wait : BitVec 8
  arrive : Option (BitVec 5)
  phase : CopyPhase := .waiting
  fresh : Bool := true
  restored : Bool := false            -- restored after a capture (R224)
  toMove : List Nat := []             -- once started: rows of the scratchpad that no port has moved for it yet (R331)
  after : Nat := 0                    -- accesses named below this come before it in program order (R253)
  deriving DecidableEq, Repr

/-! Task context and core. -/

/-- The states of R45 a core's context can be in; `held` is safelight's hold in place (R399). -/
inductive CtxSt where
  | free | bound | active | frozen | waiting | draining | captured | held
  deriving DecidableEq, Repr

/-- Timeline binding (R23, R280). -/
inductive TlBind where
  | unbound | copy | module (t : BitVec 12)
  deriving DecidableEq, Repr

/-- A link FIFO (R24, R227, R374, R375). -/
structure Fifo where
  peer : Option (Nat × Nat) := none   -- peer module and channel
  inb : List Word := []
  outb : List Word := []
  err : Bool := false
  gone : Bool := false                -- the peer end is gone; ERR is set once inbound is empty
  room : Nat := 0                     -- places that a peer end in another module has granted (R375)
  deriving DecidableEq, Repr

/-- What a posted access does when the fences that hold it have completed (R208): a store's part with its bytes; an
atomic with its operands, its NBV, its PC and the landing that waits for its old value; a load into s0; or a cache
operation, which writes a line back or evicts it. -/
inductive Deferred where
  | done
  | load (p : Piece)
  | cache (p : Piece) (evict : Bool)
  | store (p : Piece) (data : List Byte)
  | atomic (op : AtomicOp) (p : Piece) (b d : Word) (nbv : BitVec 8) (ret : Option Nat) (pc : Word)
  deriving DecidableEq, Repr

/-- A posted store, atomic, CLWB or CLINV until it is acknowledged, or a load into s0 that fences hold (R199, R208).
`acc` names the access that it is a part of. -/
structure Posted where
  id : Nat
  acc : Nat := 0
  left : Nat                          -- ticks to its acknowledgement once performed
  holds : List Nat := []              -- fences that hold it
  act : Deferred := .done
  deriving DecidableEq, Repr

/-- A fence that has not completed (R208, R209). -/
structure Fence where
  id : Nat
  kind : BitVec 2
  scope : BitVec 3
  age : Nat := 0
  loads : List Nat                    -- landings awaited
  stores : List Nat                   -- posted accesses awaited
  remotes : List Nat                  -- remote requests awaited
  lost : List Nat := []               -- modules lost so far
  past : List (Nat × Nat) := []       -- accesses of other cores that it awaits: core and name (R245 to R250)
  order : Bool := false               -- it keeps an order only: `remotes` may be other cores', and no module is lost for it
  deriving DecidableEq, Repr

/-- What the issue domain waits for after a miss (R45, R198, R260): a walk, or an owner-tag check. -/
inductive Want where
  | walk (va : Word) (kind : BitVec 3)
  | tag (granules : List Nat) (store : Bool)
  deriving DecidableEq, Repr

/-- A remote request a core has outstanding (R366, R367, R400): `ackt` and `inc` are what it carries; `land` is the
landing its answer fills, and from which byte; `age` counts ticks since the latest transmission, RETRY or HIBERNATING
answer, `hib` ticks since the first HIBERNATING answer. -/
structure Remote where
  id : Nat
  module : Nat
  serial : Option (BitVec 32)         -- stores and atomics carry a serial
  ackt : BitVec 32
  inc : BitVec 16
  va : Word
  addr : Nat
  kind : RemoteKind
  keyid : BitVec 16
  order : Nat := 0                    -- its place among this module's requests to the owner (R361)
  land : Option (Nat × Nat) := none
  into : Option Nat := none           -- an engine's: the copy number, 0 for a preload, or 2^32 + SERIAL of a SPAWN
  acc : Option Nat := none            -- the access it is a part of, where no landing names that (R199, R253)
  tries : Nat := 1
  age : Nat := 0
  hib : Option Nat := none
  deriving DecidableEq, Repr

/-- What an engine's request to a peer has brought: the request's `into`, its address, and its bytes or a trap. -/
structure Fetched where
  into : Nat
  va : Word
  data : List Byte
  bad : Option Trap := none
  deriving DecidableEq, Repr

/-- The fault a core's context waits on system software for (R328): level code, address and access kind. -/
structure PageHold where
  detail : BitVec 8
  va : Word
  kind : BitVec 3
  failed : Bool := false              -- answered FAIL: the held bundle traps at its next boundary
  deriving DecidableEq, Repr

/-- A requester slot that a task holds (R367): its core and number, NEXT and ACKT. -/
structure RqHold where
  core : Nat := 0
  slot : Nat := 0
  next : BitVec 32 := 1
  ackt : BitVec 32 := 0
  deriving DecidableEq, Repr

/-- A row that a landing window has written to a task that has not issued: window, row of the window, logical row, and the
bytes written, with their mask (R384). -/
structure Landed where
  win : Nat
  row : Nat
  at_ : Nat
  data : Row
  mask : Row
  deriving DecidableEq, Repr

/-- What binding fixes about a task (R271, R277, R281). `half`: 0 or 1 for a half of each bank group, 2 for both. -/
structure Task where
  serial : BitVec 32
  index : Nat
  context : BitVec 16
  keyid : BitVec 16
  scratch : Nat
  half : Nat
  gang : Bool := false
  issued : Bool := false              -- it has made its first issue (R20)
  boundAt : Word := 0                 -- MCC of its binding cycle (R296)
  rq : RqHold := {}                   -- at its binding or staging: its requester slot (R367)
  binds : List (BitVec 4 × Option (Nat × Nat)) := []  -- while staged or captured: FIFO bindings for its next boundary (R374)
  preloaded : Bool := false
  toFill : List Nat := []             -- rows of its preload that no port has moved yet (R281, R331)
  landed : List Landed := []          -- before its first issue: what landing windows have written to its rows (R384)
  preFault : Option (Word × BitVec 8) := none
  left : Nat := 23                    -- cycles to the first issue, the binding cycle among them (R289)
  deriving DecidableEq, Repr

/-- A cached leaf (R326): tenant, first address, page bytes, entry. -/
structure TlbEntry where
  context : BitVec 16
  va : Nat
  size : Nat
  leaf : Word
  deriving DecidableEq, Repr

/-- A SPAWN's read of a child's record (R147): its name in program order, the child, the record's address, the SPAWN's PC,
the parts, and the fences it waits for. -/
structure SpawnRead where
  id : Nat
  serial : BitVec 32
  va : Word
  pc : Word
  parts : List Piece
  holds : List Nat := []
  deriving DecidableEq, Repr

/-- What a frozen context's cycle left: landing-buffer entries and requests in use, the words of each FIFO's two sides,
and a fault held for system software. What has cleared since is open to the bundle from the next cycle on (R46). -/
structure Left where
  entries : Nat := 0
  reqs : Nat := 0
  words : List (Nat × Nat) := []
  held : Bool := false
  short : Bool := false               -- the held bundle lacked room: an entry, a request, a queue's place, a tile, a FIFO word
  deriving DecidableEq, Repr

/-- Capture kinds (R312, R327). -/
inductive CapKind where
  | preempt | switch | powerFail
  deriving DecidableEq, Repr

/-- The state of a tile core, or of the management core (id 640). -/
structure Core where
  id : Nat
  st : CtxSt := .free
  r : Regs := Regs.reset
  iss : Regs := Regs.reset            -- the registers as they stood at the issue of the executing bundle (R57)
  busy : List DstReg := []            -- destinations of landings not yet made, at the issue of the bundle (R6)
  pc : Word := 0
  note : Note := .none                -- what the executing bundle's slots decided so far (model's own)
  inh : Bool := false
  fstatSet : BitVec 128 := 0          -- FSTAT bits set by hardware in this cycle (R43)
  cyc : Word := 0
  delay : Nat := 0                    -- cycles left of a handler entry (R307) or a restore (R319)
  lateFrozen : Bool := false          -- data was late in this cycle (R7)
  left : Option Left := none          -- the context was frozen at the end of its last cycle, and what it left
  gain : Left := {}                   -- what has cleared since then: not yet open to the bundle (R46)
  pend : List Trap := []              -- pending class-B causes (R306)
  kill : Option (BitVec 8) := none    -- KILL with its detail
  capReq : Option (CapKind × Nat) := none   -- a capture requested or under way: kind and save slot
  haltMcc : Word := 0                 -- MCC at the halt of a capture or a hold, and whether the task was draining then
  haltDrain : Bool := false
  reissue : List Nat := []            -- pending landings still to be issued again after a restore (R52)
  pf : Option PageHold := none
  lands : List Landing := []
  nextId : Nat := 0                   -- names landings, posted accesses and fences
  rsigM : List (BitVec 32) := []      -- RSIG updates of this cycle: entries, MDRAIN, V-class landings (R32, R126)
  rsigD : List (BitVec 32) := []
  rsigV : List (BitVec 32) := []
  sfuLast : Nat := 0                  -- cycles before the unit can start again (R157)
  mq : List MEntry := []
  mqNext : BitVec 5 := 0
  mqDid : Bool := false               -- a block has been processed in this cycle
  mqRnd : BitVec 2 := 0
  mqSat : Bool := false
  comp : Option MmaArgs := none       -- MRSUM companion (R192)
  tilePort : Nat := 0                 -- cycles before the tile port is free (R194)
  tileRows : List Nat := []           -- rows of tile transfers that no shared port has moved yet (R331)
  cq : List CopyEntry := []
  cqNext : BitVec 6 := 0
  cqNum : Nat := 1
  cqPast : Nat := 0                   -- the entry whose turn to change tokens came last in this cycle (R34)
  cqDone : List Nat := []             -- numbers completed above the timeline counter
  ctl : Nat := 0                      -- the copy timeline counter (R223)
  rows : List (Nat × Row) := []       -- physical scratchpad rows
  seed0 : Option Nat := none          -- indeterminate rows of half 0 and half 1 (R20)
  seed1 : Option Nat := none
  badWords : List Nat := []           -- uncorrectable 8-byte words, numbered from physical row 0 (R334)
  badReg : Bool := false              -- a word of the register file is uncorrectable (R419)
  rowsWas : List (Nat × Row) := []    -- the rows as the cycle began (R186)
  port : List (Nat × Nat) := []       -- rows the memory slots move through the shared ports: bank, cycles from now (R331)
  tl : Vector TlBind 16 := Vector.replicate 16 .unbound
  fifo : Vector Fifo 16 := Vector.replicate 16 {}
  arr : Vector (Option (BitVec 16)) 32 := Vector.replicate 32 none   -- arrival records (R231)
  firstReady : Vector (Option (Word × BitVec 16)) 32 := Vector.replicate 32 none  -- first ready: PC and phase (R234)
  waitOn : List Nat := []             -- what the held bundle waits on: barriers, 32 + level, 64 + module timeline
  stamps : List (Nat × Word) := []    -- STAMP slots of the held bundle and their targets (R150)
  orphan : List Nat := []             -- barriers, or 32 + level, whose wait a BINIT or a failed superstep has ended (R232, R238)
  relWait : List (Nat × Nat) := []    -- releases under way to this core: barrier, or 32 + level; cycles left (R236)
  ssArr : List (Nat × BitVec 32 × Word) := []  -- superstep arrivals: level, its phase, PC of the bundle (R237)
  stores : List Posted := []
  fences : List Fence := []
  remotes : List Remote := []
  spawns : List SpawnRead := []       -- children whose records are still to be read (R147)
  fetched : List Fetched := []        -- what an engine has from peers (R218, R281)
  wordSigs : List (BitVec 3 × BitVec 6) := []  -- tokens and entries of delivered words, for the copy-engine step (R348)
  rqCore : Nat := 0                   -- the requester slot (R367): core, slot, NEXT, ACKT
  rqSlot : Nat := 0
  rqNext : BitVec 32 := 1
  rqAckt : BitVec 32 := 0
  rqDone : List (BitVec 32) := []     -- serials answered above ACKT
  task : Option Task := none
  staged : Option Task := none
  prevCtx : Option (BitVec 16) := none  -- CONTEXT of the core's previous task (R20)
  restoring : Option Nat := none      -- the save slot the core is restoring from (R319)
  status : Option Trap := none        -- the fault that will be the completion status (R142, R284)
  trapEnded : Bool := false           -- a trap, and not EXIT, has ended the task (R142)
  resumeM0 : Option Word := none      -- MCC at the halt, until the first resumed issue moves FBASE (R316)
  l1 : List Nat := []                 -- lines held in the L1 (R214, R335)
  fbuf : List Nat := []               -- lines held in the fetch buffer (R337)
  utlb : List TlbEntry := []          -- the µTLB and the core TLB, the latest entry first (R326)
  ctlb : List TlbEntry := []
  grants : List (Nat × Bool) := []    -- CHECKED grants: 64-byte granule, for stores (R260)
  want : List Want := []              -- misses under way, and cycles until the first ends
  wantLeft : Nat := 0
  codeMem : List Host.Cell := []      -- memory as at first issue, for old or new bundles (R337)
  accept : Bool := false              -- management core: interrupts accepted (R310)
  wfi : Bool := false                 -- management core: waiting under WFI (R145)
  deriving DecidableEq, Repr

/-! Launches and the scheduler (R271 to R303). -/

/-- Where a child launch stands (R297 to R299). -/
inductive Place where
  | host                              -- from a host queue
  | pool (reserved : Bool)            -- holds a pool entry
  | spilled                           -- waits in its parent launch's spill queue
  deriving DecidableEq, Repr

/-- Where a launch stands on its way (R286, R289). -/
inductive LPhase where
  | reading (left : Nat)              -- its record is read or checked
  | accepted
  | done
  deriving DecidableEq, Repr

/-- A launch (R264, R271 to R301). -/
structure Launch where
  serial : BitVec 32
  queue : BitVec 6
  dq : Option (BitVec 3) := none      -- device queue of a SPAWN child
  place : Place := .host
  parent : Option (BitVec 32) := none
  parentIndex : Nat := 0              -- INDEX of the task that spawned it (R299)
  clv : Option Nat := none            -- its parent's CHILDLV (R300)
  avail : List Nat := []              -- the cores available at its acceptance (R273)
  claim : Option Nat := none          -- the core freed for it by a pre-emption (R299)
  record : List Byte := []            -- 256 bytes
  readErr : Option Nat := none        -- R147: offset of a failing piece of the record
  unread : Bool := false              -- its SPAWN's read has not been performed (R147, R297)
  phase : LPhase := .reading 24
  cursor : Nat := 0                   -- tasks handed over so far, in INDEX order
  back : List Nat := []               -- INDEXes returned to the head of the queue, ascending
  live : List Nat := []               -- INDEXes bound, staged, captured or being handed over
  rqKept : List (Nat × RqHold) := []  -- requester slots of tasks that came back without having issued, by INDEX (R367)
  landKept : List (Nat × List Landed) := []  -- and what landing windows had written to their rows (R384)
  bound : Nat := 0                    -- tasks bound so far, reruns not counted
  retired : Nat := 0
  reruns : Nat := 0
  rerunOf : List (Nat × Nat) := []    -- reruns bound, by INDEX
  fault : Option (Trap × Nat × Nat) := none  -- first fault: cause, INDEX, core
  failed : Bool := false              -- a task ended with a fault no rerun replaced
  stopped : Bool := false
  cancelled : Bool := false
  dts : Option Nat := none            -- PTP nanoseconds at the first binding
  tsv : Bool := false
  cycles : Word := 0
  rsigs : List (Nat × BitVec 32) := []  -- RSIG of the last instance of each task
  top : BitVec 32 := 0                -- the highest SSN any of its tasks has reached (R264)
  spillTail : Nat := 0
  ringPos : Nat := 0                  -- a spilled child's position in its parent's ring (R298)
  blocked : Nat := 0                  -- ticks its permitted cores have been held by waiters (R299)
  deriving DecidableEq, Repr

/-- A hand-off under way: launch, the INDEX and core pairs, ticks to the binding cycle (R289). -/
structure HandOff where
  serial : BitVec 32
  tasks : List (Nat × Nat)
  slots : List Nat := []              -- save slots, for captured contexts, in the order of tasks
  stage : Bool := false
  left : Nat
  at_ : Word := 0                     -- MCC of its selection (R287)
  deriving DecidableEq, Repr

/-- A cancel on its way to the dies (R295). -/
structure Cancel where
  serial : BitVec 32
  left : Nat
  dies : List Nat
  deriving DecidableEq, Repr

/-! Barriers and supersteps (R22, R231 to R238). -/

/-- A barrier instance of one domain instance of one launch; `dom` numbers the domain instance. -/
structure Barrier where
  serial : BitVec 32
  b : BitVec 5
  dom : Nat
  e : BitVec 16
  q : BitVec 8
  arrived : BitVec 16
  live : BitVec 16
  broken : Bool
  p : BitVec 16
  deriving DecidableEq, Repr

/-- A superstep instance: who has arrived, whether its communication step runs (R237). -/
structure StepInst where
  key : StepKey
  arrived : List Nat                  -- INDEXes
  comm : Bool := false
  steps : BitVec 32 := 0              -- supersteps released
  deriving DecidableEq, Repr

/-! Memory side state. -/

/-- How a 64-byte line of HBM was last written (R354, R355): KEYID and key generation; uncorrectable or not. -/
structure LineInfo where
  keyid : BitVec 16 := 0
  gen : Nat := 0
  bad : Bool := false                 -- an uncorrectable error (R334, R355)
  soft : Bool := false                -- a correctable error (R356)
  deriving DecidableEq, Repr

/-- The owner tag of a CHECKED granule (R261), with the full step and the launch kept beside it (R264). -/
structure OwnerTag where
  wv : Bool := false
  rv : Bool := false
  shared : Bool := false
  serial : BitVec 32
  step : BitVec 32
  writer : BitVec 20 := 0
  reader : BitVec 20 := 0
  deriving DecidableEq, Repr

/-- A line pinned in its slice (R341): the launch of its tag, and the page address through which it was pinned. -/
structure Pin where
  serial : BitVec 32
  context : BitVec 16
  va : Nat
  deriving DecidableEq, Repr

/-- A segment handed to the Enlarger (R221, R345). -/
structure Segment where
  id : Nat
  serial : BitVec 32
  index : Nat                         -- the issuing task
  num : Nat                           -- the number of its SEQRUN entry
  pos : BitVec 6
  first : Nat
  count : Nat
  word : Nat := 0                     -- words delivered
  read : Option (List Byte) := none   -- the word in hand, once read
  data : List Byte := []
  steps : List (StepKey × BitVec 32) := []  -- communication steps already begun at hand-over, with their numbers
  core : Nat := 0                     -- the issuing task's core at hand-over
  given : List (Nat × Nat) := []      -- rows of the word in hand that receivers have, by INDEX (R331, R345)
  after : Nat := 0                    -- as in the entry (R253)
  deriving DecidableEq, Repr

/-- The Squeegee's write-back in hand (R356, R357). -/
structure Scrub where
  line : Nat
  data : List Byte
  left : Nat := 0                     -- ticks until it is made
  stale : Bool := false               -- a write reached the line since
  deriving DecidableEq, Repr

/-! The panel (R360 to R375). -/

/-- What the module holds about another position (R365, R369). -/
structure Peer where
  inc : BitVec 16 := 0
  hib : Bool := false
  released : Option (BitVec 16) := none
  present : Bool := false
  sent : Nat := 0                     -- requests sent to it (R361)
  rxInc : BitVec 16 := 0              -- the incarnation whose requests are being received, and the order of the next
  next : Nat := 0
  waiting : List RemoteReq := []      -- requests received ahead of their turn, by order
  loads : List (Nat × AnsStatus × List Byte) := []  -- answers of its loads, by order, until it is known to have them (R256)
  deriving DecidableEq, Repr

/-- A proof-cache entry (R368, R369). -/
structure Proof where
  who : Requester
  serial : BitVec 32
  status : AnsStatus
  data : List Byte
  age : Nat := 0
  probing : Option Nat := none        -- ticks since the probe was sent
  deriving DecidableEq, Repr

/-- One direction pair of a link (R360, R362, R363). -/
structure Link where
  up : Bool := false
  txEpoch : BitVec 8 := 0
  txLive : List (BitVec 8) := [0]
  rxLive : List (BitVec 8) := [0]
  txSeq : Nat := 0
  rxSeq : Nat := 0
  replay : List (Nat × BitVec 8) := []  -- flits kept: sequence number and epoch
  tries : List (Nat × Nat) := []      -- consecutive replays, by flit
  asked : Bool := false               -- a replay from the flit that is due has been requested
  resync : Bool := false              -- the first flit after a retrain is due, whatever its number
  rotate : Nat := 0                   -- rotations deferred (R363)
  rxWait : Nat := 0                   -- receive keys loaded and deferred (R363, R425)
  deriving DecidableEq, Repr

/-- A tree stream this module forwards (R373). -/
structure Tree where
  id : Nat                            -- the root's name for it: its position is id mod 64
  parent : Nat
  waits : List Nat                    -- children that have not acknowledged
  failed : Nat := 0                   -- mask of refusing and lost modules
  core : Option (Nat × Nat) := none   -- at the root: core and copy number
  deriving DecidableEq, Repr

/-- What leaves the module for a peer, a host or another agent outside. -/
inductive OutMsg where
  | request (module : Nat) (who : Requester) (id order settled : Nat) (serial : Option (BitVec 32)) (ackt : BitVec 32)
      (reqInc ownerInc : BitVec 16) (keyid : BitVec 16) (addr : Nat) (kind : RemoteKind)
  | answer (who : Requester) (serial : BitVec 32) (status : AnsStatus) (data : List Byte)
  | probe (who : Requester) (serial : BitVec 32)
  | probeAns (module : Nat) (who : Requester) (x : ProbeAns)
  | tree (module : Nat) (id : Nat) (entry : BitVec 8) (lines : List (Nat × List Byte))
  | treeAck (module : Nat) (id : Nat) (failed : Nat)
  | replay (link seq : Nat)
  | flitAck (link seq : Nat)
  | resend (link seq : Nat) (epoch : BitVec 8)
  | retire (link : Nat) (epoch : BitVec 8)
  | announce (link : Nat) (inc : BitVec 16) (hibernated : Bool)
  | fifo (peer chan : Nat) (w : Word)
  | credit (peer chan n : Nat)
  | chanErr (peer chan : Nat)
  | msix (port : Nat) (vector : Nat)
  | hostRead (port : Nat) (data : Option (List Byte))
  | spdm (port : Nat) (data : List Byte)
  | readout (addr : Word) (data : Word)
  | step (module : Nat) (serial : BitVec 32) (v : BitVec 32)
  | stepAsk (module : Nat) (serial : BitVec 32)
  deriving DecidableEq, Repr

/-! Clusters, supply, and the rest of the module. -/

/-- A cluster's clocks (R320, R409 to R412). -/
structure Cluster where
  step : BitVec 3 := 0
  want : Option (BitVec 3) := none    -- a requested change waiting for a switch point
  throttle : Nat := 16
  wantThr : Option Nat := none
  wa : Bool := false                  -- write-assist is engaged (R411)
  forced : Bool := false              -- FORCEWA in force (R410)
  wantWa : Option Bool := none
  k : Nat := 0                        -- cycle number
  acc : Nat := 0                      -- phase of the cycle against the tick, in units of 1/33
  pause : Nat := 0                    -- ticks to the end of a pause, plus 1; 0: none (R320)
  ce : Nat := 0
  deriving DecidableEq, Repr

/-- What a save slot holds (R315, R319): a context, and how it came there. -/
structure Saved where
  core : Core
  kind : CapKind
  tiles : List (Nat × Tile)
  ready : Bool := false               -- step 6 of R313 has ended
  asked : Bool := false               -- a RESUME has been accepted
  mcc : Word := 0                     -- MCC at the halt
  sheet : Bool := false               -- restored from a contact sheet
  drop : Bool := false
  deriving DecidableEq, Repr

/-- An event-ring entry (R327). -/
structure Event where
  kind : BitVec 8
  status : BitVec 8 := 0
  core : Nat := 0
  serial : BitVec 32 := 0
  index : Nat := 0
  context : BitVec 16 := 0
  slot : Nat := 0
  va : Word := 0
  mcc : Word := 0
  deriving DecidableEq, Repr

/-- A region the Fixer drains (R390, R393, R397): STATE of its record, and how far its drain has come. -/
structure Region where
  addr : Nat
  len : Nat
  tag : Word := 0
  cls : BitVec 8 := 0
  sys : Bool := false
  state : Nat := 0
  done : Nat := 0
  off : Nat := 0                      -- where its data stand in the Fixer area
  cover : Option Nat := none          -- the earlier entry that covers bytes of it
  deriving DecidableEq, Repr

/-- Hibernation and safelight mode (R386 to R401): what the Fixer drains, the bytes used of its area, MCC and PTP time
at the warning. -/
structure Supply where
  hib : Bool := false
  draining : Bool := false
  cols : List Byte := []              -- the valid collective-group entries when every task has been captured (R397)
  regions : List Region := []
  used : Nat := 0
  image : List Host.Cell := []        -- memory and its lines, as the chunks drained so far held them
  lines : List (Nat × LineInfo) := []
  ended : Bool := false
  complete : Bool := true
  mccw : Word := 0
  ptpw : Option Nat := none
  safe : Bool := false
  shed : List Nat := []               -- dies shed
  lost : Bool := false                -- the input does not carry the module's draw
  down : Bool := false                -- the hibernation is over, and the module powered down (R388)
  deriving DecidableEq, Repr

/-- The contact sheet in storage-class memory (R396, R397, R402) with what the drained regions hold: memory and its
lines, registers, contexts, launches, timelines, proofs, peers, requester slots, barriers and supersteps. -/
structure Sheet where
  base : Nat := 0                     -- where it stands
  version : Nat := 1
  valid : Bool := false               -- written to its end, and signed
  spent : Bool := false
  complete : Bool := true
  safelight : Bool := false
  hibseq : Nat := 0
  pos : Nat := 0
  inc : BitVec 16 := 0
  mccw : Word := 0
  ptpw : Option Nat := none
  regions : List Region := []
  image : List Host.Cell := []
  lines : List (Nat × LineInfo) := []
  sealed : List Nat := []
  regs : List (Nat × Word) := []
  slots : List (Nat × Saved) := []
  launches : List Launch := []
  nextSerial : BitVec 32 := 0
  timelines : List (Nat × Word) := []
  proofs : List Proof := []
  ackts : List (Requester × BitVec 32) := []
  peers : List (Nat × Peer) := []
  rqTable : List (Nat × BitVec 32 × BitVec 32) := []
  barriers : List Barrier := []
  steps : List StepInst := []
  segs : List Segment := []
  segNext : Nat := 0
  nextReq : Nat := 0
  tags : List (Nat × OwnerTag) := []
  pins : List (Nat × Pin) := []
  landMarks : List (Nat × Nat) := []
  announced : List (BitVec 32 × Nat × Nat) := []
  deriving DecidableEq, Repr

/-- The check of a collective-group entry after a restore (R406): ticks since the restore, and the members' answers. -/
structure Rejoin where
  entry : Nat
  age : Nat := 0
  said : List (Nat × Nat) := []
  deriving DecidableEq, Repr

/-- A key-wrap action in progress (R425): KIND, INDEX and the wrapped key as they stood at GO. -/
structure KeyJob where
  kind : Nat
  index : Nat
  wrapped : List Byte
  deriving DecidableEq, Repr

/-- Why the machine stops. -/
inductive Fault where
  /-- Raised by `step` when no clock runs: the Shutter has fired or the module has powered down (R5, R53, R426), and
  no module reset comes next among the inputs, nor a restart of its own (R387). Safe: nothing can be proved of such a
  run. -/
  | clocksStopped
  deriving DecidableEq, Repr

/-- Why an instruction is refused. -/
inductive Refusal where
  /-- Raised by an arm of exec that has no meaning yet. Safe: nothing can be proved of such an instruction. -/
  | notModelled (mnemonic : String)
  deriving DecidableEq, Repr

/-- What outside agents do: a row of the opcode table, and the port over which it came as a TLP without IDE, if it came
so (R376). `done`: the bytes of a landing-window write that have found a port of the scratchpad already (R331). -/
structure Input where
  row : Instr
  bare : Option (BitVec 1) := none
  done : Nat := 0
  deriving DecidableEq, Repr

/-- Where in a tick `step` stands (model's own): R34, R233, R289 and R306 fix the order within a cycle. -/
inductive Phase where
  | tick | bind | cycle | pick | land | issue | copy | matrix | close
  deriving DecidableEq, Repr

/-- What the machine itself does when its time has come: each names the row of the opcode table that `step` then runs,
on the core it stands beside. -/
inductive Due where
  | dataArrival (id : Nat)
  | hibernatingTimeout (core : Nat) (id : Nat)
  | retransmitTimeout (core : Nat) (id : Nat)
  | fenceComplete (id : Nat)
  | fenceTimeout (id : Nat)
  | storeAck (id : Nat)
  | fifoWordTransfer (core : Nat) (q : BitVec 4)
  | launchRecordFetch (q : BitVec 6)
  | schedulerSelection (die : Nat)
  | launchAcceptance (src : RecordSource)
  | taskBinding (h : Nat)
  | cancelAtDie (die : Nat) (serial : BitVec 32)
  | spillMove (serial : BitVec 32)
  | reservedEntryGrant (serial : BitVec 32)
  | childPreemptTimeout (serial : BitVec 32)
  | superstepRelease (key : StepKey)
  | enlargerWordRead (id : Nat)
  | enlargerDelivery (id : Nat)
  | invalidationComplete
  | probeTimeout (i : Nat)
  | proofProbe (i : Nat)
  | clockPauseEnd (c : Nat)
  | switchPoint (c : Nat)
  | capture
  | safelightHold
  | trapDelivery
  | budgetOverrun
  | throttleApply (c : Nat)
  | clusterRetire (v : Word)
  | limiterFallCheck
  | limiterRiseCheck
  | loupeWindowEnd
  | scrubRead (line : Nat)
  | scrubWriteback
  | collectiveRejoin (n : Nat)
  | moduleReset (part : BootPart)
  | tripOverheatWarning (n : Nat)
  | contactSheetWrite
  | fixerChunk
  | fixerDrain
  | arrayWindowSwitch (j : Nat)
  | contextRestore (n : Nat)
  | barrierReleaseDelivery
  | sfuStart (id : Nat)
  | sfuResult (id : Nat)
  | landing (id : Nat)
  | pageWalk (va : Word) (kind : BitVec 3)
  | ownerTagCheck (granules : List Nat) (store : Bool)
  | freezeEnd
  | waitSatisfied
  | firstIssue
  | preloadComplete
  | wfiWake
  | taskRetire
  | captureComplete
  | spawnRecordRead
  deriving DecidableEq, Repr

/-- The state of the machine. -/
structure State where
  core : Core
  others : List Core := []
  phase : Phase := .tick
  turn : List Nat := []               -- cores whose cycle in this tick is still to run
  due : List (Option Nat × Due) := []  -- what is due now, in order, and the core it is for
  slot : Nat := 0
  ctr : Nat := 0
  inputs : List Input := []
  mcc : Word := 0
  ptp : Nat := 0
  ptpFrac : Nat := 0                  -- in units of 1/165000 ns
  ptpSlew : Int := 0                  -- correction still to be slewed, in the same units (R385)
  mem : List Host.Cell := []
  lines : List (Nat × LineInfo) := []
  sealed : List Nat := []             -- first lines of save slots written since a reset (R315, R354)
  keyGen : List (Nat × Nat) := []
  regs : List (Nat × Word) := []
  timelines : List (Nat × Word) := []
  arrays : List (Nat × ArraySt) := []
  clusters : List (Nat × Cluster) := []
  barriers : List Barrier := []
  steps : List StepInst := []
  launches : List Launch := []
  nextSerial : BitVec 32 := 0
  readBusy : List (Nat × Nat) := []   -- queue records being read: queue, ticks left
  readRec : List (Nat × List Byte) := []  -- records read from queues and not yet checked
  handoffs : List HandOff := []
  boundAt : List (Nat × Word) := []   -- MCC that a rerun's binding on a cluster counts for (R289, R293)
  cancels : List Cancel := []
  vt : List (Nat × Nat) := []
  eligible : List Nat := []           -- queues eligible in the last scheduler cycle (R287)
  slots : List (Nat × Saved) := []
  held : List Event := []
  evTold : Option Word := none        -- MCC of the last message for an advance of EVPROD (R376)
  dtlb : List (Nat × TlbEntry) := []  -- the dies' shared TLBs (R326)
  inval : Option Nat := none
  tags : List (Nat × OwnerTag) := []
  llc : List (Nat × Bool) := []       -- lines held in the LLC, and whether dirty (R336, R338)
  readCounts : List (Nat × Nat) := []
  pins : List (Nat × Pin) := []
  localHome : List (Nat × Nat) := []  -- lines of LOCAL pages with the die they are homed on (R340)
  segs : List Segment := []
  segNext : Nat := 0
  nextReq : Nat := 0                  -- names remote requests
  scrub : Option Scrub := none
  patrol : Nat := 0                   -- the line that the Squeegee reads next (R356)
  errLog : List Nat := []             -- lines whose failing reads were logged to the management core (R355, R356)
  misses : List (Nat × Nat) := []
  peers : List (Nat × Peer) := []
  proofs : List Proof := []
  ackts : List (Requester × BitVec 32) := []
  links : List (Nat × Link) := []
  trees : List Tree := []
  outbox : List OutMsg := []
  landMarks : List (Nat × Nat) := []  -- landing-window backing rows marked: window, row (R384)
  rqTable : List (Nat × BitVec 32 × BitVec 32) := []  -- requester slots in use: NEXT and ACKT (R367)
  hostDown : List Nat := []
  eyes : List (Nat × (BitVec 16 × BitVec 16 × BitVec 16)) := []
  laneMap : List (Nat × Nat) := []
  spares : List Nat := []             -- spare lanes that repairs have taken (R351, R353)
  tripped : List Nat := []            -- sensors in trip (R415)
  hot : List (Nat × Nat) := []        -- sensors at TRIP + 10 °C, and the MCC since which
  samples : List Nat := []            -- draw in µW at the samples of the last 20 ms, the latest first (R416)
  heldCyc : List (Nat × Nat) := []    -- cycles held since the last accounting, by core and CONTEXT (R418)
  session : Option (Nat × Nat) := none  -- port and secret of the SPDM session whose secret wraps keys (R425)
  ideKeys : List Nat := []            -- ports whose IDE keys a KEY_EXCHANGE has set up (R376, R424)
  kwJob : Option KeyJob := none
  hbmAct : Nat := 0                   -- the action of HBMREP in progress, and the lane it names (R353)
  hbmSel : Nat := 0
  rejoin : List Rejoin := []          -- collective-group entries to be checked before their contexts bind (R406)
  announced : List (BitVec 32 × Nat × Nat) := []  -- STEP last announced: launch, module, step (R405)
  supply : Supply := {}
  sheet : Sheet := {}
  boot : Option ResetPins := none     -- a module reset that has not come to STAGE 4 (R422)
  landWait : List Input := []         -- hosts' accesses that wait: a landing-window write for a bank, and those behind it (R256, R331)
  irqSet : Word := 0                  -- sources that have pended since the management core's last cycle ended (R408)
  halted : Bool := false
  deriving DecidableEq, Repr

/-- The state right after a module reset that restores nothing: no task, no launch, nothing in memory. -/
def State.reset : State := { core := { id := 0 } }

end Sys2Proof.Machine
end

