-- ==== Sys2Proof/Machine/RegMap.lean ====
section
/-! DEFINITION. RegMap: the 64-bit registers of the management core's page (R386, R407), of the system register
block (R378), of BAR2's queue pages (R381), by key, with the values they hold after a module reset. -/

namespace Sys2Proof.Machine

/-- A register of the management core's page, at its offset (R386, R407). -/
def pageKey (off : Nat) : Nat := off
/-- A register of the system register block, at its BAR0 offset (R378). -/
def blockKey (off : Nat) : Nat := 0x10000 + off

namespace Key

def fxctl : Nat := 0x00
def fxstat : Nat := 0x08
def resmtr : Nat := 0x10
def fxthr : Nat := 0x18
def fxlist : Nat := 0x20
def fxarea : Nat := 0x28
def slpol : Nat := 0x30
def cgbase : Nat := 0x38
def fxrstat : Nat := 0x40
def mien : Nat := 0x100
def mipend : Nat := 0x108
def bootst : Nat := 0x110
def dbgst : Nat := 0x118
def meas (n : Nat) : Nat := 0x120 + 8 * n
def kwctl : Nat := 0x140
def kwd (n : Nat) : Nat := 0x148 + 8 * n
def csctl : Nat := 0x170
def acctbase : Nat := 0x178
def tlimit : Nat := 0x180
def talert (n : Nat) : Nat := 0x188 + 8 * n
def tcool (n : Nat) : Nat := 0x198 + 8 * n
def shctl : Nat := 0x1A8
def clctl (c : Nat) : Nat := 0x200 + 8 * c
def clstat (c : Nat) : Nat := 0x480 + 8 * c
def temp (n : Nat) : Nat := 0x700 + 8 * n
def spare (d : Nat) : Nat := 0xA00 + 8 * d
def clret : Nat := 0xA40
def modid : Nat := blockKey 0x0000
def csbase : Nat := blockKey 0x0010
def cscount : Nat := blockKey 0x0018
def preqa : Nat := blockKey 0x0020
def preqb : Nat := blockKey 0x0028
def cancel : Nat := blockKey 0x0030
def evbase : Nat := blockKey 0x0040
def evctl : Nat := blockKey 0x0048
def evprod : Nat := blockKey 0x0050
def evcons : Nat := blockKey 0x0058
def pfresp : Nat := blockKey 0x0060
def tlbinva : Nat := blockKey 0x0068
def tlbinvb : Nat := blockKey 0x0070
def rootbase : Nat := blockKey 0x0078
def enlprog : Nat := blockKey 0x0080
def enlgt : Nat := blockKey 0x0088
def sqctl : Nat := blockKey 0x0090
def sqstat : Nat := blockKey 0x0098
def loupectl : Nat := blockKey 0x00A0
def loupebase : Nat := blockKey 0x00A8
def loupeskip : Nat := blockKey 0x00B0
def treebase : Nat := blockKey 0x00C0
def qbinda : Nat := blockKey 0x00C8
def qbindb : Nat := blockKey 0x00D0
def rqbase : Nat := blockKey 0x00D8
/-- B4BASE of a port: HP1's copy stands at 0x0100 in the management core's view (R378). -/
def b4base (port : Nat) : Nat := if port = 0 then blockKey 0x00E0 else blockKey 0x0100
def ptpctl : Nat := blockKey 0x00E8
def ptpset : Nat := blockKey 0x00F0
def prfrel : Nat := blockKey 0x00F8
/-- HP1's PTPCTL.IDEREQ, in bit 7 (R378). -/
def ptpctl1 : Nat := blockKey 0x0108
def qctl (n : Nat) : Nat := blockKey (0x1000 + 8 * n)
def wina (w : Nat) : Nat := blockKey (0x3000 + 32 * w)
def winb (w : Nat) : Nat := blockKey (0x3008 + 32 * w)
def winc (w : Nat) : Nat := blockKey (0x3010 + 32 * w)
def winstat (w : Nat) : Nat := blockKey (0x3018 + 32 * w)
/-- BAR2's queue registers (R380, R381). -/
def qring (n : Nat) : Nat := 0x20000 + 32 * n
def qtail (n : Nat) : Nat := 0x20008 + 32 * n
def qhead (n : Nat) : Nat := 0x20010 + 32 * n
/-- BAR2's timelines (R380, R382). -/
def timeline (t : Nat) : Nat := 0x100000 + 8 * t
/-- The eye-margin window and HBMREP, for which R407 lists no offset (R352, R353); Registers.eyeWindow places them. -/
def eyesel : Nat := 0x30000
def eyedata : Nat := 0x30008
def eyeth : Nat := 0x30010
def hbmrep : Nat := 0x30018

end Key

/-- The value of a register after a module reset that restores nothing: the Reset columns of R285, R312, R315, R327,
R329, R343, R352, R356, R359, R379, R381, R383, R385, R386, R408, R409, R413, R417, R420, R422; every other register
0. MODID, FMAX, BIAS and SPARE are strapped or fused, and RESMTR is measured: the values here are the model's (log
entries 4 and 5). -/
def regReset (key : Nat) : Word :=
  if key = Key.fxthr then 60000
  else if key = Key.slpol then 600 * 65536
  else if key = Key.csctl then 16 * 65536 + 256 + 40
  else if key = Key.tlimit then 1680 * 281474976710656 + 1520 * 4294967296 + 1360 * 65536
  else if 0x200 ≤ key ∧ key < 0x480 then 256 * 65536 + 16 * 16
  else if 0x480 ≤ key ∧ key < 0x700 then 16 * 256
  else if 0xA00 ≤ key ∧ key < 0xA40 then 0xFF00
  else if key = Key.evctl then 5
  else if key = Key.sqctl then 65536 + 24
  else if key = Key.loupectl then 4 * 4294967296 + 4096
  else if 0x11000 ≤ key ∧ key < 0x11200 then 1
  else if 0x20000 ≤ key ∧ key < 0x20800 ∧ key % 32 = 0 then 4
  else if key = Key.eyedata then 0x00FF000000000000
  else if key = Key.eyeth then 40 * 65536 + 10
  else 0

/-- A register's stored value. -/
def State.reg (s : State) (key : Nat) : Word := Sparse.get (regReset key) s.regs key

/-- Store a register's value. -/
def State.setReg (s : State) (key : Nat) (v : Word) : State := { s with regs := Sparse.set s.regs key v }

/-- Bits [lo + w - 1 : lo] of a register, as a number. -/
def State.rfld (s : State) (key lo w : Nat) : Nat := fld (s.reg key) lo w

/-- Replace bits [lo + w - 1 : lo]. -/
def setFld {n : Nat} (x : BitVec n) (lo w : Nat) (v : Nat) : BitVec n :=
  (x &&& ~~~(BitVec.ofNat n ((2 ^ w - 1) * 2 ^ lo))) ||| BitVec.ofNat n ((v % 2 ^ w) * 2 ^ lo)

/-- Replace a field of a register. -/
def State.setRfld (s : State) (key lo w v : Nat) : State := s.setReg key (setFld (s.reg key) lo w v)

end Sys2Proof.Machine
end

