-- ==== Sys2Proof/Machine/Ops.lean ====
section
/-! DEFINITION. Ops: the operations every meaning shares: register reads and writes, free values, the launch record,
physical memory, events, barrier arrivals, tokens, taking a trap and returning from one. -/

namespace Sys2Proof.Machine

/-- The outcome type of exec and step. -/
abbrev Out := Host.Outcome State Fault Refusal

/-- The management core's number in this model (R26, R407). -/
def mgmtId : Nat := 640

/-- The core in focus is the management core. -/
def State.mgmt (s : State) : Bool := s.core.id == mgmtId

/-- Change the core in focus. -/
def State.onCore (s : State) (f : Core → Core) : State := { s with core := f s.core }

/-- Change the registers of the core in focus. -/
def State.onRegs (s : State) (f : Regs → Regs) : State := { s with core := { s.core with r := f s.core.r } }

/-- Every core, the one in focus first. -/
def State.cores (s : State) : List Core := s.core :: s.others

/-- Change every core. -/
def State.mapCores (s : State) (f : Core → Core) : State := { s with core := f s.core, others := s.others.map f }

/-- The core with a number; a core never used stands as at reset. -/
def State.coreAt (s : State) (n : Nat) : Core :=
  match s.cores.find? (fun c => c.id == n) with
  | some c => c
  | none => { id := n }

/-- Change the core with a number. -/
def State.onCoreAt (s : State) (n : Nat) (f : Core → Core) : State :=
  if s.core.id = n then { s with core := f s.core }
  else if s.others.any (fun c => c.id == n) then
    { s with others := s.others.map fun c => if c.id = n then f c else c }
  else { s with others := s.others ++ [f { id := n }] }

/-- Bring a core into focus. -/
def State.focus (s : State) (n : Nat) : State :=
  if s.core.id = n then s
  else { s with core := s.coreAt n, others := s.core :: s.others.filter fun c => c.id != n }

/-! Free values (R4). -/

/-- An indeterminate number, told apart by the counter, the slot and a port. -/
def State.free (s : State) (port : Nat) : Nat := Config.free s.ctr (8 * port + s.slot)

/-- Move to fresh free values. -/
def State.tickCtr (s : State) : State := { s with ctr := s.ctr + 1 }

/-! Registers (R18, R19, R57). -/

/-- s[i] of a register file; s0 reads 0 (R18). -/
def Regs.getS (r : Regs) (i : BitVec 6) : Word := if i = 0 then 0 else r.s[i.toNat]'i.isLt
/-- m[i]; m0 reads all ones (R18). -/
def Regs.getM (r : Regs) (i : BitVec 4) : Mask := if i = 0 then BitVec.allOnes 128 else r.m[i.toNat]'i.isLt
/-- v[i]. -/
def Regs.getV (r : Regs) (i : BitVec 5) : Vec := r.v[i.toNat]'i.isLt
/-- p[i]; p0 reads 1 (R18). -/
def Regs.getP (r : Regs) (i : BitVec 6) : Bool := i == 0 || r.p.getLsbD i.toNat

/-- Write s[i]; a write to s0 is discarded (R19). -/
def Regs.setS (r : Regs) (i : BitVec 6) (x : Word) : Regs :=
  if i = 0 then r else { r with s := r.s.set i.toNat x i.isLt }
/-- Write m[i]; a write to m0 is discarded (R19). -/
def Regs.setM (r : Regs) (i : BitVec 4) (x : Mask) : Regs :=
  if i = 0 then r else { r with m := r.m.set i.toNat x i.isLt }
/-- Write v[i]. -/
def Regs.setV (r : Regs) (i : BitVec 5) (x : Vec) : Regs := { r with v := r.v.set i.toNat x i.isLt }
/-- Write p[i]; a write to p0 is discarded (R19). -/
def Regs.setP (r : Regs) (i : BitVec 6) (x : Bool) : Regs :=
  if i = 0 then r else { r with p := setFld r.p i.toNat 1 (bit x) }

/-- s[i] as an instruction reads it at issue: indeterminate while a landing to it is under way (R6, R57). -/
def State.rdS (s : State) (i : BitVec 6) : Word :=
  if s.core.busy.contains (.scalar i) && i != 0 then BitVec.ofNat 64 (s.free i.toNat) else s.core.iss.getS i
/-- v[i] at issue. -/
def State.rdV (s : State) (i : BitVec 5) : Vec :=
  if s.core.busy.contains (.vector i) then BitVec.ofNat 1024 (s.free (64 + i.toNat)) else s.core.iss.getV i
/-- m[i] at issue. -/
def State.rdM (s : State) (i : BitVec 4) : Mask :=
  if s.core.busy.contains (.mask i) && i != 0 then BitVec.ofNat 128 (s.free (96 + i.toNat)) else s.core.iss.getM i
/-- p[i] at issue. -/
def State.rdP (s : State) (i : BitVec 6) : Bool :=
  if s.core.busy.contains (.pred i) && i != 0 then s.free (128 + i.toNat) % 2 == 1 else s.core.iss.getP i

/-- Write s[rd] at commit. -/
def State.wrS (s : State) (i : BitVec 6) (x : Word) : State := s.onRegs fun r => r.setS i x
/-- Write p[pd] at commit. -/
def State.wrP (s : State) (i : BitVec 6) (x : Bool) : State := s.onRegs fun r => r.setP i x

/-- Write a landing's result: the bits of `wm` take `data` (R51). -/
def Regs.land (r : Regs) (d : DstReg) (data wm : Vec) : Regs :=
  match d with
  | .scalar i => r.setS i (data.setWidth 64)
  | .vector i => r.setV i ((r.getV i &&& ~~~wm) ||| (data &&& wm))
  | .mask i => r.setM i ((r.getM i &&& ~~~(wm.setWidth 128)) ||| (data.setWidth 128 &&& wm.setWidth 128))
  | .pred i => r.setP i (data.getLsbD 0)

/-- The guard of R59: p[G] at issue. -/
def State.guard (s : State) (h : Hdr) : Bool := s.rdP h.g

/-! Launches and their records (R277). -/

/-- The launch with a serial. -/
def State.launch (s : State) (n : BitVec 32) : Option Launch := s.launches.find? fun l => l.serial == n

/-- Change the launch with a serial. -/
def State.onLaunch (s : State) (n : BitVec 32) (f : Launch → Launch) : State :=
  { s with launches := s.launches.map fun l => if l.serial = n then f l else l }

/-- A field of the launch record: `n` bytes at offset `off`, little-endian (R277). -/
def Launch.f (l : Launch) (off n : Nat) : Nat := leNat ((l.record.drop off).take n)

/-- LEVELn of the record (R278). -/
def Launch.level (l : Launch) (n : Nat) : Nat := l.f (0x80 + 8 * n) 8
/-- The number of levels (R277). -/
def Launch.count (l : Launch) : Nat := l.f 0x0A 1
/-- EXTENT, DOMAIN, SCOPE, SSTEP and CORES of a level (R278). -/
def Launch.extent (l : Launch) (n : Nat) : Nat := bits (l.level n) 0 32
def Launch.domain (l : Launch) (n : Nat) : Nat := bits (l.level n) 32 3
def Launch.sstep (l : Launch) (n : Nat) : Bool := bits (l.level n) 41 1 == 1
def Launch.ncores (l : Launch) (n : Nat) : Nat := bits (l.level n) 48 16
/-- Level n is co-resident: bit n of COR (R275). -/
def Launch.cores (l : Launch) (n : Nat) : Bool := bits (l.f 0x7C 1) n 1 == 1
/-- The outermost co-resident level (R275). -/
def Launch.gangLevel (l : Launch) : Option Nat := (List.range l.count).find? fun n => l.cores n
def Launch.context (l : Launch) : BitVec 16 := BitVec.ofNat 16 (l.f 0x10 2)
def Launch.keyid (l : Launch) : BitVec 16 := BitVec.ofNat 16 (l.f 0x12 2)
/-- STOP-ON-FAULT, STAGEOK and PTP of FLAGS (R277). -/
def Launch.stopf (l : Launch) : Bool := bits (l.f 0x0E 1) 2 1 == 1
def Launch.stageok (l : Launch) : Bool := bits (l.f 0x0E 1) 1 1 == 1
def Launch.ptp (l : Launch) : Bool := bits (l.f 0x0E 1) 0 1 == 1

/-- The task of the core in focus. -/
def State.task (s : State) : Option Task := s.core.task

/-- Number of physical cores of a domain instance (R2, R272): CORE, PAIR, CLUSTER, DIE, MODULE. -/
def domSize (d : Nat) : Nat :=
  if d = 0 then 1 else if d = 1 then 2 else if d = 2 then 8 else if d = 3 then 80 else 640

/-! The cluster and the array of a core (R2). -/

def State.cluster (s : State) (c : Nat) : Cluster := Sparse.get {} s.clusters c
def State.onCluster (s : State) (c : Nat) (f : Cluster → Cluster) : State :=
  { s with clusters := Sparse.set s.clusters c (f (s.cluster c)) }
def State.arrayOf (s : State) (core : Nat) : ArraySt := Sparse.get {} s.arrays (core / 2)
def State.onArray (s : State) (core : Nat) (f : ArraySt → ArraySt) : State :=
  { s with arrays := Sparse.set s.arrays (core / 2) (f (s.arrayOf core)) }

/-! Physical memory (R322, R354, R355). -/

/-- This module's panel position (R379). -/
def State.pos (s : State) : Nat := s.rfld Key.modid 16 6
/-- This module's incarnation (R379). -/
def State.inc (s : State) : BitVec 16 := BitVec.ofNat 16 (s.rfld Key.modid 0 16)

/-- The kinds of physical memory of R322. -/
inductive PhysKind where
  | hbm | scm | peer (module : Nat) | host (port : Nat) | none
  deriving DecidableEq, Repr

/-- The memory a physical address lies in; the module's own part of the panel window is its HBM (R322). -/
def State.physKind (s : State) (pa : Nat) : PhysKind :=
  if pa < 0x8000000000 then .hbm
  else if 0x10000000000 ≤ pa ∧ pa < 0x28000000000 then .scm
  else if 0x200000000000 ≤ pa ∧ pa < 0x400000000000 then
    (let j := (pa - 0x200000000000) / 0x8000000000
     if j = s.pos then .hbm else .peer j)
  else if 0x8000000000000 ≤ pa ∧ pa < 0x9000000000000 then .host 0
  else if 0xC000000000000 ≤ pa ∧ pa < 0xD000000000000 then .host 1
  else .none

/-- The address under which memory is held: an address of the module's own part of the panel window is its HBM
address (R322). -/
def State.canon (s : State) (pa : Nat) : Nat :=
  if 0x200000000000 ≤ pa ∧ pa < 0x400000000000 ∧ s.physKind pa = .hbm then (pa - 0x200000000000) % 0x8000000000 else pa

/-- How a line of a save slot stands: written under the internal key, which no KEYID reaches (R354). -/
def slotMark : LineInfo := { keyid := 0, gen := 1000000000000 }

/-- The lines of a save slot, 2,112 KB (R315). -/
def slotLines : Nat := 33792

/-- How a line was last written; a save slot's lines, unless written since, under the internal key (R315, R354). -/
def State.lineInfo (s : State) (line : Nat) : Option LineInfo :=
  (Sparse.find s.lines line).or
    (if s.sealed.any fun a => decide (a ≤ line ∧ line < a + slotLines) then some slotMark else none)
def State.gen (s : State) (keyid : BitVec 16) : Nat := Sparse.get 0 s.keyGen keyid.toNat

/-- A line of HBM fails its read under a KEYID: uncorrectable, or written under another key (R355). -/
def State.lineBad (s : State) (line : Nat) (keyid : BitVec 16) : Bool :=
  line < 0x200000000 &&
  (match s.lineInfo line with
   | some i => i.bad || i.keyid != keyid || i.gen != s.gen keyid
   | none => false)

/-- The first line of `n` bytes at `pa` that fails its read (R355). -/
def State.badLine (s : State) (pa n : Nat) (keyid : BitVec 16) : Option Nat :=
  let a := s.canon pa
  (List.range (ceilDiv (a % 64 + n) 64)).findSome? fun i =>
    if s.lineBad (a / 64 + i) keyid then some (a / 64 + i) else none

/-- The bytes at a physical address; bytes of a failing line are indeterminate (R52, R355). -/
def State.physRead (s : State) (pa n : Nat) (keyid : BitVec 16) : List Byte :=
  let a := s.canon pa
  (List.range n).map fun i =>
    if s.lineBad ((a + i) / 64) keyid then BitVec.ofNat 8 (s.free (0x10000000000000 + a + i)) else memGet s.mem (a + i)

/-- Record that a line has been written: its copies in the L1s go, and its slice's copy is dirty (R336, R342, R354, R355,
R357). -/
def State.touchLine (s : State) (line : Nat) (keyid : BitVec 16) : State :=
  { s with
    lines := if line < 0x200000000 then Sparse.set s.lines line { keyid := keyid, gen := s.gen keyid } else s.lines
    readCounts := Sparse.del s.readCounts line
    llc := match Sparse.find s.llc line with
      | some _ => Sparse.set s.llc line true
      | none => s.llc
    core := { s.core with l1 := s.core.l1.filter (· != line) }
    others := s.others.map fun c => { c with l1 := c.l1.filter (· != line) }
    scrub := match s.scrub with
      | some x => if x.line = line then some { x with stale := true } else some x
      | none => none }

/-- A partial write to a line whose merge read fails leaves its unwritten bytes indeterminate (R355). -/
def State.mergeLine (s : State) (line : Nat) (whole : Bool) (keyid : BitVec 16) : State :=
  if s.lineBad line keyid && !whole then
    { s with
      mem := memWrite s.mem (64 * line) ((List.range 64).map fun i => BitVec.ofNat 8 (s.free (0x20000000000000 + 64 * line + i))) }
  else s

/-- Write bytes at a physical address under a KEYID (R354, R355). -/
def State.physWrite (s : State) (pa : Nat) (bs : List Byte) (keyid : BitVec 16) : State :=
  let a := s.canon pa
  let n := bs.length
  let lines := (List.range (if n = 0 then 0 else ceilDiv (a % 64 + n) 64)).map fun i => a / 64 + i
  let s1 := lines.foldl (fun t l => t.mergeLine l (decide (a ≤ 64 * l ∧ 64 * l + 64 ≤ a + n)) keyid) s
  let s2 := { s1 with mem := memWrite s1.mem a bs }
  lines.foldl (fun t l => t.touchLine l keyid) s2

/-- What an agent that is neither a copy engine nor the Fixer reads at a physical address: storage-class memory is out of
its reach (R1), and gives it indeterminate bytes (DESIGN CHOICE, log entry 84). -/
def State.agentRead (s : State) (pa n : Nat) : List Byte :=
  if s.physKind pa = .scm then (List.range n).map fun i => BitVec.ofNat 8 (s.free (0x30000000000000 + pa + i))
  else s.physRead pa n 0

/-- What such an agent writes; storage-class memory is out of its reach (R1). -/
def State.agentWrite (s : State) (pa : Nat) (bs : List Byte) : State :=
  if s.physKind pa = .scm then s else s.physWrite pa bs 0

/-- A 64-bit word at a physical address. -/
def State.physWord (s : State) (pa : Nat) : Nat := leNat (s.agentRead pa 8)

/-! Events, messages and interrupts (R327, R376, R408). -/

/-- The 32 bytes of an event (R327). -/
def Event.bytes (e : Event) : List Byte :=
  leBytes 1 e.kind.toNat ++ leBytes 1 e.status.toNat ++ leBytes 2 e.core ++ leBytes 4 e.serial.toNat ++
  leBytes 4 e.index ++ leBytes 2 e.context.toNat ++ leBytes 2 e.slot ++ leBytes 8 e.va.toNat ++ leBytes 8 e.mcc.toNat

/-- An interrupt source of the management core pends (R408). -/
def State.pendIrq (s : State) (n : Nat) : State :=
  { s.setReg Key.mipend (s.reg Key.mipend ||| BitVec.ofNat 64 (2 ^ n)) with irqSet := s.irqSet ||| BitVec.ofNat 64 (2 ^ n) }

/-- The message goes over the panel's links. -/
def OutMsg.panel : OutMsg → Bool
  | .request .. | .answer .. | .probe .. | .probeAns .. | .tree .. | .treeAck .. | .fifo .. | .credit ..
  | .chanErr .. | .step .. => true
  | _ => false

/-- A flit leaves on one of the links that are up, and stays in its replay buffer until it is acknowledged (R360, R361,
R363). Which link is not architected. -/
def State.sendFlit (s : State) : State :=
  let ups := s.links.filter fun p => p.2.up
  match ups[Config.linkFor s.ctr % max 1 ups.length]? with
  | some (k, l) =>
    { s with links := Sparse.set s.links k { l with txSeq := l.txSeq + 1, replay := l.replay ++ [(l.txSeq, l.txEpoch)] } }
  | none => s

/-- A message leaves the module; over the panel it takes a flit. -/
def State.send (s : State) (m : OutMsg) : State :=
  let t : State := { s with outbox := s.outbox ++ [m] }
  if m.panel then t.sendFlit else t

/-- Room in the event ring: it has a base, and fewer than 2^LOG2N entries stand unconsumed (R327). -/
def State.evRoom (s : State) : Bool :=
  s.reg Key.evbase != 0 &&
  decide ((s.rfld Key.evprod 0 32 + 4294967296 - s.rfld Key.evcons 0 32) % 4294967296 < 2 ^ s.rfld Key.evctl 0 5)

/-- The message for an advance of EVPROD; entries written in one tick make one advance (R376). -/
def State.tellEvent (s : State) : State :=
  if s.evTold = some s.mcc then s
  else { s with evTold := some s.mcc }.send (.msix (if s.hostDown.contains 0 then 1 else 0) 32)

/-- Write one event at EVPROD and advance it; the EVENT source pends and a message goes to a host (R327, R376). -/
def State.writeEvent (s : State) (e : Event) : State :=
  let prod := s.rfld Key.evprod 0 32
  let s1 := s.agentWrite ((s.reg Key.evbase).toNat + 32 * (prod % 2 ^ s.rfld Key.evctl 0 5)) e.bytes
  ((s1.setReg Key.evprod (BitVec.ofNat 64 ((prod + 1) % 4294967296))).pendIrq 7).tellEvent

/-- Post an event: in order, held while the ring has no room or no base (R327). -/
def State.postEvent (s : State) (e : Event) : State :=
  let e := { e with mcc := s.mcc }
  if s.held.isEmpty && s.evRoom then s.writeEvent e else { s with held := s.held ++ [e] }

/-- Write held events while there is room, oldest first (R327). -/
def State.flushEvents (s : State) : State :=
  (List.range s.held.length).foldl (fun t _ =>
    match t.held with
    | e :: es => if t.evRoom then { t with held := es }.writeEvent e else t
    | [] => t) s

/-- An event that names a core's task. -/
def taskEvent (kind status : BitVec 8) (c : Core) (t : Task) : Event :=
  { kind := kind, status := status, core := c.id, serial := t.serial, index := t.index, context := t.context }

/-! Tokens (R21, R33, R34). -/

/-- The 4-bit field of token k. -/
def tok (x : BitVec 32) (k : Nat) : Nat := fld x (4 * k) 4

/-- Set the 4-bit field of token k. -/
def setTok (x : BitVec 32) (k v : Nat) : BitVec 32 := setFld x (4 * k) 4 v

/-- The tokens of a mask. -/
def tokList (mask : BitVec 8) : List Nat := (List.range 8).filter fun k => mask.getLsbD k

/-- Every token of the mask is at least 1. -/
def tokReady (x : BitVec 32) (mask : BitVec 8) : Bool := (tokList mask).all fun k => decide (1 ≤ tok x k)

/-- Decrement every token of the mask. -/
def tokDec (x : BitVec 32) (mask : BitVec 8) : BitVec 32 :=
  (tokList mask).foldl (fun y k => setTok y k (tok y k - 1)) x

/-- The mask of the tokens of `mask` whose increment would pass its ceiling (R21). -/
def tokOver (x ceil : BitVec 32) (mask : BitVec 8) : Nat :=
  (tokList mask).foldl (fun n k => if tok x k ≥ tok ceil k then n + 2 ^ k else n) 0

/-- Increment every token of the mask. -/
def tokInc (x : BitVec 32) (mask : BitVec 8) : BitVec 32 :=
  (tokList mask).foldl (fun y k => setTok y k (tok y k + 1)) x

/-! Causes (R304, R306). -/

/-- The delivery classes of R304. -/
inductive TrapClass where
  | handler | software | capture | ends
  deriving DecidableEq, Repr

/-- The class of a cause (R304). -/
def trapClass (cause : BitVec 8) : TrapClass :=
  if cause = 0x03 then .software
  else if cause = 0x11 ∨ cause = 0x12 then .capture
  else if cause = 0x02 ∨ cause = 0x05 ∨ cause = 0x09 ∨ cause = 0x0A ∨ cause = 0x0B ∨ cause = 0x0D ∨ cause = 0x0E ∨
    cause = 0x0F then .handler
  else .ends

/-- FEPOCH of the core in focus (R37). -/
def Regs.fepoch (r : Regs) : Word := BitVec.ofNat 64 (r.fepStep.toNat * 65536 + r.fepCount.toNat)

/-- A cause as it arises now on a core: FEPOCH and MCC of this moment (R41, R306). -/
def stamp (s : State) (c : Core) (t : Trap) : Trap := { t with epoch := c.r.fepoch, mcc := s.mcc }

/-- The cause that becomes the status of a draining task: the lowest MCC, then the lower code (R142). -/
def firstCause (a : Option Trap) (b : Trap) : Trap :=
  match a with
  | none => b
  | some x => if x.mcc.toNat < b.mcc.toNat ∨ (x.mcc = b.mcc ∧ x.cause.toNat ≤ b.cause.toNat) then x else b

/-- Take INDEX back to the head of its launch (R46, R291). -/
def Launch.giveBack (l : Launch) (i : Nat) : Launch :=
  { l with live := l.live.filter (· != i), back := (l.back.filter (· < i)) ++ [i] ++ l.back.filter (i < ·) }

/-! Requester slots, and the task staged behind a core (R290, R291, R367). -/

/-- The address of a requester slot's record in the table at RQBASE (R367). -/
def State.rqAddr (s : State) (n k : Nat) : Nat := fld (s.reg Key.rqbase) 16 36 * 65536 + 16 * (n * 4096 + k)

/-- Write a requester slot's record: NEXT, ACKT and STATE (R367). -/
def State.putRq (s : State) (n k : Nat) (next ackt : BitVec 32) (st : Nat) : State :=
  if s.reg Key.rqbase = 0 then s
  else
    ({ s with rqTable := (s.rqTable.filter fun x => x.1 != n * 4096 + k) ++ [(n * 4096 + k, next, ackt)] } : State).agentWrite
      (s.rqAddr n k) (leBytes 4 next.toNat ++ leBytes 4 ackt.toNat ++ leBytes 8 st)

/-- Write the requester slot that a context holds, with a STATE (R367). -/
def State.writeRq (s : State) (c : Core) (st : Nat) : State := s.putRq c.rqCore c.rqSlot c.rqNext c.rqAckt st

/-- What has been brought for an engine is forgotten. -/
def Core.forget (c : Core) (into : Nat) : Core := { c with fetched := c.fetched.filter fun f => f.into != into }

/-- What the preload of the core's bound task, or of the one staged behind it, has asked for or brought. -/
def Core.preloadWork (c : Core) : List Remote × List Fetched :=
  (c.remotes.filter fun r => r.into == some 0, c.fetched.filter fun f => f.into == 0)

/-- A preload is discarded: what it has asked for is no longer awaited (R46, R291). -/
def Core.noPreload (c : Core) : Core :=
  { c.forget 0 with remotes := c.remotes.filter fun r => r.into != some 0 }

/-- A staged task as a context: what it has to leave behind. -/
def Task.stagedCore (t : Task) (n : Nat) : Core :=
  { id := n, task := some t, rqCore := t.rq.core, rqSlot := t.rq.slot, rqNext := t.rq.next, rqAckt := t.rq.ackt }

/-- The requester slot that a context holds (R367). -/
def Core.rq (c : Core) : RqHold := { core := c.rqCore, slot := c.rqSlot, next := c.rqNext, ackt := c.rqAckt }

/-- A task that comes back to its queue keeps the requester slot of its first binding, until it retires (R367). -/
def Launch.keepRq (l : Launch) (i : Nat) (x : RqHold) : Launch :=
  { l with rqKept := (l.rqKept.filter fun y => y.1 != i) ++ [(i, x)] }

/-- The task that a landing window names: SERIAL and INDEX (R383). -/
def State.windowTask (s : State) (w : Nat) : Nat × Nat := (s.rfld (Key.wina w) 32 32, s.rfld (Key.wina w) 0 32)

/-- The address of a window's backing row (R383, R384). -/
def State.backAt (s : State) (w row : Nat) : Nat := fld (s.reg (Key.winc w)) 16 36 * 65536 + 64 * row

/-- The row with the bytes that a window has written to it. -/
def Landed.over (x : Landed) (r : Row) : Row := r &&& ~~~x.mask ||| x.data

/-- A task goes back to its queue without having issued: what landing windows have written to its rows is kept, and enters its
rows at the next binding (R384; DESIGN CHOICE, log entry 109). -/
def Launch.keepLanded (l : Launch) (i : Nat) (xs : List Landed) : Launch :=
  { l with landKept := if xs.isEmpty then l.landKept else (l.landKept.filter fun y => y.1 != i) ++ [(i, xs)] }

/-- Take the task staged behind a core away, with its preload. -/
def State.takeStaged (s : State) (n : Nat) : State := s.onCoreAt n fun c => { c.noPreload with staged := none }

/-- The same for one that has not retired: it keeps its requester slot (R367). -/
def State.dropStaged (s : State) (n : Nat) : State :=
  match (s.coreAt n).staged with
  | some x => (s.takeStaged n).onLaunch x.serial fun l => l.keepRq x.index x.rq
  | none => s

/-- Unstage the task staged on a core (R291). -/
def State.unstage (s : State) (n : Nat) : State :=
  match (s.coreAt n).staged with
  | some t => (s.dropStaged n).onLaunch t.serial fun l => (l.giveBack t.index).keepLanded t.index t.landed
  | none => s

/-- R293: a rerun follows this ending cause of the core's task. -/
def State.rerunDue (s : State) (t : Task) (cause : BitVec 8) : Bool :=
  match s.launch t.serial with
  | none => false
  | some l =>
    let pol := bits (l.f 0x0F 1) 0 2
    let admits := (pol == 1 && cause == 0x10) || (pol == 2 && cause != 0x13)
    admits && decide (Sparse.get 0 l.rerunOf t.index < bits (l.f 0x0F 1) 2 3) && l.gangLevel.isNone &&
      !l.cancelled && !l.stopped

/-- Of a launch that will hand over no more, the hand-offs under way that `on` holds of come to nothing: their tasks never
bind, and their cores are free (R294, R296). -/
def State.dropHandOffs (s : State) (serial : BitVec 32) (on : HandOff → Bool) : State :=
  let gone := s.handoffs.filter fun h => h.serial == serial && on h
  let ids := gone.flatMap fun h => (h.tasks.drop h.slots.length).map (·.1)
  ({ s with handoffs := s.handoffs.filter fun h => !(h.serial == serial && on h) } : State).onLaunch serial fun l =>
    { l with live := l.live.filter fun i => !ids.contains i }

/-- Stop a launch: drop what has not run, on its way to a core or not, and kill what runs (R294). -/
def State.stopLaunch (s : State) (n : BitVec 32) : State :=
  let s1 := s.cores.foldl (fun t c =>
    match c.staged with
    | some x => if x.serial = n then t.unstage c.id else t
    | none => t) (s.dropHandOffs n fun _ => true)
  let s2 := s1.mapCores fun c =>
    match c.task with
    | some x => if x.serial = n ∧ c.st ≠ .free ∧ c.st ≠ .draining then { c with kill := some 0x02 } else c
    | none => c
  { s2 with
    slots := s2.slots.map fun p =>
      (p.1, if p.2.core.task.any (fun x => x.serial == n) then { p.2 with drop := true } else p.2)
    launches := s2.launches.map fun l =>
      if l.serial = n then { l with stopped := true, failed := true } else l }

/-- The launch's first fault is the one with the lowest MCC, then the lower INDEX (R284). -/
def Launch.firstFault (l : Launch) (t : Trap) (i n : Nat) : Launch :=
  { l with fault :=
      match l.fault with
      | none => some (t, i, n)
      | some (u, k, c) =>
        if u.mcc.toNat < t.mcc.toNat ∨ (u.mcc = t.mcc ∧ k ≤ i) then some (u, k, c) else some (t, i, n) }

/-- A fault that no rerun replaces stops its launch under STOPF (R294). -/
def State.stopFor (s : State) (serial : BitVec 32) : State :=
  match s.launch serial with
  | some l => if l.stopf then s.stopLaunch serial else s
  | none => s

/-- A task has retired with a fault that no rerun replaces: its launch has failed (R283). -/
def State.failLaunch (s : State) (serial : BitVec 32) : State := s.onLaunch serial fun l => { l with failed := true }

/-- A task of core `n` ends by fault `t`: the launch's first fault, the staged task, a rerun or a stop (R284, R291,
R293, R294). KILL is no fault. -/
def State.faultArises (s : State) (n : Nat) (t : Trap) : State :=
  match (s.coreAt n).task with
  | none => s
  | some k =>
    if t.cause = 0x13 then s
    else
      let s1 := s.onLaunch k.serial fun l => l.firstFault t k.index n
      if s1.rerunDue k t.cause then s1.unstage n else s1.stopFor k.serial

/-- The fault `t` goes before `u` (R142). -/
def Trap.first (t u : Trap) : Bool :=
  decide (t.mcc.toNat < u.mcc.toNat ∨ (t.mcc = u.mcc ∧ t.cause.toNat < u.cause.toNat))

/-- A cause that goes before the status `old` of a draining task takes its place: the launch's first fault, where it was
this task's, follows (R142, R284), and what R291, R293 and R294 do with the ending fault is done for it. What the cause
before it has stopped in this cycle stays stopped (DEDUCED, log entry 90). -/
def State.refault (s : State) (n : Nat) (old t : Trap) : State :=
  match (s.coreAt n).task with
  | none => s
  | some k =>
    if t.first old then
      let s1 := s.onLaunch k.serial fun l =>
        match l.fault with
        | some (u, i, c) => if i = k.index ∧ c = n ∧ t.first u then { l with fault := some (t, i, c) } else l
        | none => l
      if s1.rerunDue k t.cause then s1.unstage n else s1.stopFor k.serial
    else s

/-- A cause of a task that drains after EXIT: the first is its status; a task that a trap has ended keeps that trap (R142). -/
def State.drainCause (s : State) (n : Nat) (t : Trap) : State :=
  if (s.coreAt n).trapEnded then s
  else
    (match (s.coreAt n).status with
     | none => s.faultArises n t
     | some u => s.refault n u t).onCoreAt n fun c => { c with status := some (firstCause c.status t) }

/-- Raise a class-B cause on a core: pending while the task runs; while it drains after EXIT, the first cause is its
status; a task that a trap has ended keeps that trap (R142, R306). -/
def State.raiseB (s : State) (n : Nat) (t : Trap) : State :=
  let c := s.coreAt n
  let t := stamp s c t
  if c.st = .free then s
  else if c.st = .draining then s.drainCause n t
  else s.onCoreAt n fun c => { c with pend := c.pend ++ [t] }

/-! Barrier arrivals (R22, R36, R231 to R236). -/

/-- The domain code of a barrier (R18): b0 to b7 PAIR, b8 to b15 CLUSTER, b16 to b23 DIE, b24 to b31 MODULE. -/
def barDom (b : BitVec 5) : Nat := b.toNat / 8 + 1

/-- The cycles in which a release reaches a waiter, by domain code (R236). -/
def relCycles (d : Nat) : Nat :=
  if d = 0 then 1 else if d = 1 then 2 else if d = 2 then 4 else if d = 3 then 12 else 40

/-- The domain instance of a barrier that a core belongs to. -/
def barInst (b : BitVec 5) (core : Nat) : Nat := core / domSize (barDom b)

/-- The task of a core, or of a save slot, is a member of the launch's instance of the barrier (R231). -/
def isMember (serial : BitVec 32) (b : BitVec 5) (dom : Nat) (c : Core) : Bool :=
  (c.task.any fun t => t.serial == serial) && c.st != .free && barInst b c.id == dom

/-- The live members (R231): those bound and not retired, captured ones included; one that is being restored counts on its
core. -/
def State.liveCount (s : State) (serial : BitVec 32) (b : BitVec 5) (dom : Nat) : Nat :=
  (s.cores.filter (isMember serial b dom)).length +
    (s.slots.filter fun p =>
      isMember serial b dom { p.2.core with st := .captured } && !s.cores.any fun c => c.restoring == some p.1).length

/-- The barrier instance of the core in focus. -/
def State.barrier (s : State) (b : BitVec 5) : Option Barrier :=
  match s.core.task with
  | none => none
  | some t => s.barriers.find? fun x => x.serial == t.serial && x.b == b && x.dom == barInst b s.core.id

/-- Replace a barrier instance. -/
def State.setBarrier (s : State) (x : Barrier) : State :=
  { s with barriers :=
      (s.barriers.filter fun y => !(y.serial == x.serial && y.b == x.b && y.dom == x.dom)) ++ [x] }

/-- The break test of R235. -/
def Barrier.test (x : Barrier) : Barrier :=
  if x.arrived.toNat + x.live.toNat * x.q.toNat < x.e.toNat then { x with broken := true } else x

/-- Cycles of a release still to be counted at a core: one more where its cycle of this tick, in which the release is
made, is still to come (R236). -/
def State.relLeft (s : State) (n dom : Nat) : Nat := relCycles dom + bit (s.turn.contains n)

/-- Tell the cores that wait on a released barrier, and the one that just arrived to wait, when the release reaches
them (R236). -/
def State.release (s : State) (serial : BitVec 32) (b : BitVec 5) (dom : Nat) : State :=
  s.mapCores fun c =>
    if isMember serial b dom c && c.waitOn.contains b.toNat then
      { c with relWait := (c.relWait.filter fun p => p.1 != b.toNat) ++ [(b.toNat, s.relLeft c.id (barDom b))] }
    else c

/-- One arrival of the task of core `n` (R233): none if the barrier is uninitialised or broken. -/
def State.arriveOn (s : State) (n : Nat) (b : BitVec 5) : Option State :=
  let c := s.coreAt n
  match c.task with
  | none => none
  | some t =>
    match s.barriers.find? fun x => x.serial == t.serial && x.b == b && x.dom == barInst b n with
    | none => none
    | some x =>
      if x.broken then none
      else
        let s1 := s.onCoreAt n fun c => { c with arr := c.arr.set b.toNat (some x.p) b.isLt }
        let x1 := { x with arrived := x.arrived + 1 }
        if x1.arrived = x1.e then
          some ((s1.setBarrier { x1 with arrived := 0, p := x1.p + 1 }.test).release t.serial b x.dom)
        else some (s1.setBarrier x1.test)

/-- An A-bit arrival of core `n` at barrier `b` when its operation retires: BARRIER_ORPHANED at the next boundary if it
arrives nowhere (R233). `entry` names a queue entry. -/
def State.arriveA (s : State) (n : Nat) (b : BitVec 5) (entry : Option (Bool × BitVec 6)) : State :=
  match s.arriveOn n b with
  | some t => t
  | none => s.raiseB n { cause := 0x0B, aux := BitVec.ofNat 64 b.toNat, entry := entry }

/-- A hardware event sets FSTAT bits; they stay set against a W1C write of the same cycle (R43). -/
def State.setFstat (s : State) (x : BitVec 128) : State :=
  s.onCore fun c => { c with r := { c.r with fstat := c.r.fstat ||| x }, fstatSet := c.fstatSet ||| x }

/-- The barrier an A bit will arrive at, taken from ABAR at issue; a dropped arrival sets FSTAT.ABARDROP (R36). -/
def State.abar (s : State) (a : Bool) : Option (BitVec 5) × State :=
  if a then
    (if s.core.iss.abar.getLsbD 7 then (some (s.core.iss.abar.setWidth 5), s)
     else (none, s.setFstat 2))
  else (none, s)

/-- The arrival of an operation that retires when its bundle commits (R60). -/
def State.arriveNow (s : State) (a : Bool) : State :=
  match s.abar a with
  | (some b, t) => t.arriveA t.core.id b none
  | (none, t) => t

/-! Taking a trap (R41, R304, R307, R310, R311). -/

/-- TRC0 to TRC7 (R41). `pc` is the bundle's address, `mcc` the moment the trap is taken. -/
def trcOf (t : Trap) (pc mcc : Word) : Vector Word 8 :=
  #v[BitVec.ofNat 64 (t.cause.toNat + 256 * t.detail.toNat), t.slots.setWidth 64, pc, t.addr,
     (match t.entry with
      | some (q, i) => BitVec.ofNat 64 (128 + 64 * bit q + i.toNat)
      | none => 0),
     t.epoch, mcc, t.aux]

/-- The copy timeline counter: the largest n such that every entry numbered n or lower has completed (R223). -/
def Core.finishCopy (c : Core) (num : Nat) : Core :=
  let done := num :: c.cqDone
  let top := (List.range done.length).foldl (fun n _ => if done.contains (n + 1) then n + 1 else n) c.ctl
  { c with ctl := top, cqDone := done.filter fun n => decide (top < n) }

/-- A faulted copy entry's fault has been taken: it leaves the queue and counts as completed for the timeline (R225). -/
def Core.faultTaken (c : Core) (pos : BitVec 6) : Core :=
  match c.cq.find? fun e => e.pos == pos with
  | some e => { c with cq := c.cq.filter fun e => e.pos != pos }.finishCopy e.num
  | none => c

/-- The entries whose faults have not been taken (R225). -/
def Core.faulted (c : Core) : List (BitVec 6 × Trap) :=
  c.cq.filterMap fun e =>
    match e.phase with
    | .faulted t => some (e.pos, t)
    | _ => none

/-- Every fault held counts as taken: the task drains (R142, R225). -/
def Core.dropFaults (c : Core) : Core := c.faulted.foldl (fun d x => d.faultTaken x.1) c

/-- A task that was captured while it drained goes on draining: what was saved as pending is its status, and the faults held
count as taken (R142, R225, R313). -/
def State.drainSaved (s : State) : State :=
  if s.core.st = .draining then
    (s.core.pend ++ s.core.faulted.map (·.2)).foldl (fun t x => t.drainCause t.core.id x)
      (s.onCore fun c => { c.dropFaults with pend := [] })
  else s

/-- The task of the core in focus ends: it drains, and the cause is its status (R311). -/
def State.endTask (s : State) (t : Trap) : State :=
  (s.faultArises s.core.id t).onCore fun c =>
    { c.dropFaults with st := .draining, status := some t, trapEnded := true, pend := [], kill := none, capReq := none, pf := none,
                        waitOn := [], stamps := [], want := [], delay := 0, note := .trap false }

/-- The firmware's entry address, held in the signed image (R423): the model's own constant of the module. -/
def firmwareEntry : Word := BitVec.ofNat 64 (Config.fused 2) &&& ~~~31#64

/-- The management core restarts at the recovery entry of its boot ROM (R310, R422, R423). -/
def State.recover (s : State) : State :=
  let s1 := s.setReg Key.bootst (setFld (s.reg Key.bootst) 48 16 (s.rfld Key.bootst 48 16 + 1))
  (s1.setReg Key.mien 0).onCore fun c =>
    { c with pc := firmwareEntry, accept := true, wfi := false, st := .active, note := .trap false, lands := [],
             r := { c.r with s := Vector.replicate 64 0, p := 1,
                             lc := Vector.replicate 4 { count := 0, start := 0, stop := 0 }, thnd := 0,
                             trc := Vector.replicate 8 0 } }

/-- Enter the handler at THND: four cycles pass before its first bundle (R307). The trap abandons what the held bundle
waited for: a wait (R48), a page fault held for system software, whose access issues afresh after the return (R47), and
WFI's wait, though R145 does not name it (DEDUCED, log entry 73). -/
def State.enterHandler (s : State) (t : Trap) : State :=
  s.onCore fun c =>
    { c with r := { c.r with trc := trcOf t c.pc s.mcc }, pc := c.r.thnd, delay := 4, st := .active, waitOn := [],
             stamps := [], want := [], pf := none, wfi := false, note := .trap false }

/-- Take a trap on the core in focus, whose next bundle stands at its PC: the record is written and the cause is
delivered by its class (R304, R307, R308, R310, R311, R328). -/
def State.takeTrap (s0 : State) (t : Trap) : State :=
  let s := match t.cause, t.entry with
    | 0x0D, some (false, pos) => s0.onCore fun c => c.faultTaken pos
    | _, _ => s0
  if s.mgmt then
    (if s.core.accept then (s.enterHandler t).onCore fun c => { c with accept := false } else s.recover)
  else
    match trapClass t.cause with
    | .handler =>
      if s.core.r.thnd ≠ 0 ∧ s.core.inh = false then (s.enterHandler t).onCore fun c => { c with inh := true }
      else (s.onRegs fun r => { r with trc := trcOf t s.core.pc s.mcc }).endTask t
    | .software =>
      let s1 := s.onCore fun c =>
        { c with r := { c.r with trc := trcOf t c.pc s.mcc }, st := .frozen, note := .trap false,
                 waitOn := [], stamps := [], want := [],
                 pf := some { detail := t.detail, va := t.addr, kind := t.aux.setWidth 3 } }
      (match s.core.task with
       | some k => s1.postEvent { taskEvent 1 t.detail s.core k with va := t.addr }
       | none => s1)
    | .capture => s
    | .ends => (s.onRegs fun r => { r with trc := trcOf t s.core.pc s.mcc }).endTask t

/-- A class-I cause of the slot being executed: the record names the slot (R304, R306). -/
def State.trapSlot (s : State) (t : Trap) : State :=
  s.takeTrap (stamp s s.core { t with slots := BitVec.ofNat 8 (2 ^ s.slot) })

/-- The same, for a cause that is taken even while another slot waits (R48, R150, R225). -/
def State.trapEarly (s : State) (t : Trap) : State := (s.trapSlot t).onCore fun c => { c with note := .trap true }

/-- The return from the management core's handler (R144, R310): the next bundle is at TRC2, or 32 above it after TRAP,
and interrupts are accepted again. -/
def State.trapReturn (s : State) : State :=
  let back := if fld (s.core.iss.trc[0]) 0 8 = 2 then s.core.iss.trc[2] + 32 else s.core.iss.trc[2]
  s.onCore fun c => { c with note := .jump (back &&& ~~~31#64), accept := true }

/-! What every slot shares (R59, R60). -/

/-- The bundle does not issue: a freeze condition holds (R45). -/
def State.freeze (s : State) : State := s.onCore fun c => { c with st := .frozen, note := .frozen }

/-- The bundle does not issue: a wait is unsatisfied (R45). -/
def State.hold (s : State) : State := s.onCore fun c => { c with st := .waiting, note := .waiting }

/-- A slot whose instruction retires at commit: suppressed by a false guard, otherwise `f`; its A bit arrives either
way (R59, R60). -/
def runSlot (h : Hdr) (s : State) (f : State → State) : Out :=
  .next ((if s.guard h then f s else s).arriveNow h.a)

/-- The same, with the instruction's own checks: what `chk` answers is taken, and nothing commits (R8). -/
def runChecked (h : Hdr) (s : State) (chk : State → Option State) (f : State → State) : Out :=
  if s.guard h then
    (match chk s with
     | some t => .next t
     | none => .next ((f s).arriveNow h.a))
  else .next (s.arriveNow h.a)

/-- Decide the next PC (R137): a slot that writes PC wins over a skip, a skip over an armed loop. -/
def Note.join (a b : Note) : Note :=
  match a, b with
  | .jump x, _ => .jump x
  | .exit, _ => .exit
  | _, .jump x => .jump x
  | _, .exit => .exit
  | _, .skip x => .skip x
  | .skip x, .armed => .skip x
  | a, .none => a
  | _, b => b

/-- Note what a slot decided. -/
def State.noteNext (s : State) (n : Note) : State := s.onCore fun c => { c with note := c.note.join n }

end Sys2Proof.Machine
end

