-- ==== Sys2Proof/Machine/Operands.lean ====
section
/-! DEFINITION. Operands: every operand form: immediates, landing codes, bit fields, vector elements and masks, and the
results that land (R62 to R72, R132, R152 to R157). -/

namespace Sys2Proof.Machine

/-- sext6: a 6-bit immediate, sign-extended (R130). -/
def sext6 (i : BitVec 6) : Word := i.signExtend 64
/-- zext6: a 6-bit immediate, zero-extended (R130). -/
def zext6 (i : BitVec 6) : Word := i.setWidth 64
/-- sext12: a 12-bit immediate, sign-extended (R131). -/
def sext12 (i : BitVec 12) : Word := i.signExtend 64
/-- The branch target X + 32 × sext(disp18) (R63). -/
def branchTarget (x : Word) (d : BitVec 18) : Word := x + (d.signExtend 64 <<< 5)
/-- A PC ignores bits [4:0] of the target it is given (R55). -/
def toPc (a : Word) : Word := a &&& ~~~31#64
/-- The landing cycle of a code: (8 + L[2:0]) << L[5:3] (R71). -/
def landCycle (l : BitVec 6) : Nat := (8 + fld l 0 3) * 2 ^ fld l 3 3
/-- A store's address: a + size × sext(imm6) (R70, R202). -/
def storeAddr (a : Word) (size : Nat) (i : BitVec 6) : Word := a + BitVec.ofNat 64 size * sext6 i
/-- The first row of an MS load: floor(s[ra] / 64) (R204). -/
def loadRow (a : Word) : Int := ((a.toNat / 64 : Nat) : Int)
/-- The first row of an MS store: floor(s[ra] / 64) + sext(imm6) (R204). -/
def storeRow (a : Word) (i : BitVec 6) : Int := ((a.toNat / 64 : Nat) : Int) + i.toInt

/-- The field mask of BEXT and BINS: len low bits, len = b[13:8] + 1 (R132). -/
def fieldMask (b : Word) : Word := BitVec.ofNat 64 (2 ^ (fld b 8 6 + 1) - 1)
/-- BEXT (R132). -/
def bextOf (a b : Word) : Word := (a >>> fld b 0 6) &&& fieldMask b
/-- BINS (R132). -/
def binsOf (d a b : Word) : Word :=
  let fm := fieldMask b <<< fld b 0 6
  (d &&& ~~~fm) ||| ((a <<< fld b 0 6) &&& fm)

/-- The number of one bits among the first n (R129). -/
def popc (n x : Nat) : Nat := (List.range n).foldl (fun k i => k + x / 2 ^ i % 2) 0

/-! Vector elements (R152, R153). -/

/-- Element bits of a T code: 8, 16, 32 for 0 to 2; BF16 and FP16 16; FP32 32; 6 and 7 name the 8-bit formats. -/
def tBits (t : BitVec 3) : Nat :=
  if t = 0 then 8 else if t = 1 then 16 else if t = 2 then 32 else if t = 3 then 16 else if t = 4 then 16
  else if t = 5 then 32 else 8

/-- Element i of e bits. -/
def elt (x : Vec) (e i : Nat) : Nat := fld x (e * i) e

/-- The vector whose element i of e bits is `f i`, for i below n. -/
def buildV (e n : Nat) (f : Nat → Nat) : Vec :=
  BitVec.ofNat 1024 ((List.range n).foldr (fun i acc => f i % 2 ^ e + 2 ^ e * acc) 0)

/-- Element i of e bits is active: bit e·i/8 of the mask (R153). -/
def active (m : Mask) (e i : Nat) : Bool := m.getLsbD (e * i / 8)

/-- The bits of the active elements among the first n of e bits (R153). -/
def activeBits (m : Mask) (e n : Nat) : Vec := buildV e n fun i => if active m e i then 2 ^ e - 1 else 0

/-- A byte mask as bits of a vector. -/
def byteBits (n : Nat) (f : Nat → Bool) : Vec := buildV 8 n fun i => if f i then 255 else 0

/-! Results that land (R49, R155 to R157). -/

/-- Send a result to a register: it lands when `left` cycles have passed (R6). -/
def State.addLanding (s : State) (l : Landing) : State :=
  s.onCore fun c =>
    { c with lands := c.lands ++ [{ l with id := c.nextId, slot := s.slot, pc := c.pc }], nextId := c.nextId + 1 }

/-- A V-class result at its fixed landing cycle, with the arrival of its A bit (R155, R156). -/
def State.landV (s : State) (a : Bool) (cycles : Nat) (d : DstReg) (data wm : Vec) (rsig : Option (BitVec 32) := none) :
    State :=
  let p := s.abar a
  p.2.addLanding { id := 0, slot := 0, dst := d, data := data, wm := wm, left := cycles, wait := none, kind := .fixed,
                   arrive := p.1, rsig := rsig }

/-- The entries of the landing buffer held: all but the V-class landings (R49, R156). -/
def Core.entries (c : Core) : Nat := (c.lands.filter fun l => l.kind != .fixed).length

end Sys2Proof.Machine
end

