-- ==== Sys2Proof/Machine/Flags.lean ====
section
/-! DEFINITION. Flags: the conditions that set predicates (R134 to R136), the status bits (R42, R43), and RSIG (R126). -/

namespace Sys2Proof.Machine

/-- The register compares of R134. -/
def condEq (a b : Word) : Bool := a == b
def condNe (a b : Word) : Bool := a != b
def condLt (a b : Word) : Bool := a.slt b
def condLe (a b : Word) : Bool := a.sle b
def condLtn (a b : Word) : Bool := a.ult b
def condLen (a b : Word) : Bool := a.ule b
def condGe (a b : Word) : Bool := b.sle a
def condGen (a b : Word) : Bool := b.ule a

/-- A write of ones clears bits (W1C). -/
def w1c {n : Nat} (old v : BitVec n) : BitVec n := old &&& ~~~v

/-- One update of RSIG: rotate left by 7, then XOR (R126). -/
def rsigStep (r u : BitVec 32) : BitVec 32 := r.rotateLeft 7 ^^^ u

/-- What an operation adds to RSIG: NBV << 24 | S << 16 | F1 << 8 | F2 << 4 | C (R126). -/
def rsigWord (nbv : BitVec 8) (sc f1 f2 c : Nat) : BitVec 32 :=
  BitVec.ofNat 32 (nbv.toNat * 16777216 + sc * 65536 + f1 * 256 + f2 * 16 + c)

/-- The updates of one cycle in the order of R32: queue entries, MDRAIN, V-class landings. -/
def Core.applyRsig (c : Core) : Core :=
  { c with r := { c.r with rsig := (c.rsigM ++ c.rsigD ++ c.rsigV).foldl rsigStep c.r.rsig },
           rsigM := [], rsigD := [], rsigV := [] }

end Sys2Proof.Machine
end

