-- ==== Sys2Proof/Machine/Num.lean ====
section
/-! DEFINITION. Num: number formats, exact values, rounding, conversions and the fixed trees (04, R96 to R125). A finite
value is exact: sign, a natural significand and a power of two; rounding is one function. -/

namespace Sys2Proof.Machine

/-- A floating-point format (R97): exponent bits, fraction bits, bias; E4M3 has no infinity and one NaN fraction. -/
structure Fmt where
  eb : Nat
  fb : Nat
  bias : Nat
  e4m3 : Bool := false
  deriving DecidableEq, Repr

def fp32 : Fmt := { eb := 8, fb := 23, bias := 127 }
def bf16 : Fmt := { eb := 8, fb := 7, bias := 127 }
def fp16 : Fmt := { eb := 5, fb := 10, bias := 15 }
def fe4m3 : Fmt := { eb := 4, fb := 3, bias := 7, e4m3 := true }
def fe5m2 : Fmt := { eb := 5, fb := 2, bias := 15 }

/-- The format of a floating vector T code (R96). -/
def fmtT (t : BitVec 3) : Fmt :=
  if t = 3 then bf16 else if t = 4 then fp16 else if t = 5 then fp32 else if t = 6 then fe4m3 else fe5m2

/-- An exact value: NaN, an infinity, or (−1)^neg × m × 2^e. -/
inductive Num where
  | nan
  | inf (neg : Bool)
  | fin (neg : Bool) (m : Nat) (e : Int)
  deriving DecidableEq, Repr

namespace Fmt

/-- Width in bits. -/
def width (f : Fmt) : Nat := 1 + f.eb + f.fb
/-- The exponent of the smallest normal. -/
def emin (f : Fmt) : Int := 1 - (f.bias : Int)
/-- The exponent field of all ones. -/
def ones (f : Fmt) : Nat := 2 ^ f.eb - 1
/-- The largest finite value's encoding without its sign (R97). -/
def maxBits (f : Fmt) : Nat := if f.e4m3 then 2 ^ (f.width - 1) - 2 else f.ones * 2 ^ f.fb - 1
/-- The infinity's encoding without its sign. -/
def infBits (f : Fmt) : Nat := f.ones * 2 ^ f.fb
/-- The canonical NaN (R97, R98). -/
def nanBits (f : Fmt) : Nat := if f.e4m3 then 127 else f.ones * 2 ^ f.fb + 2 ^ (f.fb - 1)
/-- Attach a sign. -/
def sgn (f : Fmt) (neg : Bool) (x : Nat) : Nat := x + bit neg * 2 ^ (f.width - 1)

/-- The encoding is subnormal (R97). -/
def isSub (f : Fmt) (x : Nat) : Bool := bits x f.fb f.eb == 0 && bits x 0 f.fb != 0

/-- The exact value of an encoding (R97). -/
def dec (f : Fmt) (x : Nat) : Num :=
  let neg := bits x (f.width - 1) 1 == 1
  let ex := bits x f.fb f.eb
  let fr := bits x 0 f.fb
  if f.e4m3 && ex == f.ones && fr == 2 ^ f.fb - 1 then .nan
  else if !f.e4m3 && ex == f.ones then (if fr = 0 then .inf neg else .nan)
  else if ex = 0 then .fin neg fr (f.emin - f.fb)
  else .fin neg (2 ^ f.fb + fr) ((ex : Int) - f.bias - f.fb)

/-- The exact value of an operand, a subnormal taken as zero of its sign where `flush` says so (R102). -/
def operand (f : Fmt) (flush : Bool) (x : Nat) : Num :=
  if flush && f.isSub x then .fin (bits x (f.width - 1) 1 == 1) 0 0 else f.dec x

end Fmt

/-- m × 2^e in units of 2^q, rounded under a mode (R104). -/
def roundAt (mode : BitVec 2) (neg : Bool) (m : Nat) (e q : Int) : Nat :=
  if q ≤ e then m * 2 ^ (e - q).toNat
  else
    let d := (q - e).toNat
    let hi := m / 2 ^ d
    let r := m % 2 ^ d
    let up :=
      if mode = 0 then 2 * r > 2 ^ d || (2 * r == 2 ^ d && hi % 2 == 1)
      else if mode = 1 then false
      else if mode = 2 then !neg && r != 0
      else neg && r != 0
    if up then hi + 1 else hi

/-- The encoding of n × 2^q, known to be representable. -/
def Fmt.pack (f : Fmt) (neg : Bool) (n : Nat) (q : Int) : Nat :=
  if n = 0 then f.sgn neg 0
  else
    let l := Nat.log2 n
    let ex := (l : Int) + q
    if ex < f.emin then f.sgn neg (n * 2 ^ (q - (f.emin - f.fb)).toNat)
    else
      let sig := if l ≤ f.fb then n * 2 ^ (f.fb - l) else n / 2 ^ (l - f.fb)
      f.sgn neg ((ex + f.bias).toNat * 2 ^ f.fb + (sig - 2 ^ f.fb))

/-- The result of an overflow (R104). -/
def Fmt.overflow (f : Fmt) (mode : BitVec 2) (sat neg : Bool) : Nat :=
  let toMax := sat || mode == 1 || (mode == 2 && neg) || (mode == 3 && !neg)
  if toMax then f.sgn neg f.maxBits else if f.e4m3 then f.nanBits else f.sgn neg f.infBits

/-- Round an exact value once to a format (R103, R104, R108): mode, saturate bit, and whether subnormal results are
flushed. -/
def Fmt.round (f : Fmt) (mode : BitVec 2) (sat flush : Bool) (x : Num) : Nat :=
  match x with
  | .nan => f.nanBits
  | .inf neg => if f.e4m3 then (if sat then f.sgn neg f.maxBits else f.nanBits) else f.sgn neg f.infBits
  | .fin neg m e =>
    if m = 0 then f.sgn neg 0
    else
      let q0 := (Nat.log2 m : Int) + e - f.fb
      let q := if flush then q0 else max q0 (f.emin - f.fb)
      let n := roundAt mode neg m e q
      let ex := (Nat.log2 n : Int) + q
      if n = 0 then f.sgn neg 0
      else if ex < f.emin then (if flush then f.sgn neg 0 else f.pack neg n q)
      else if f.maxBits < f.pack false n q ∨ (f.ones : Int) - f.bias < ex then f.overflow mode sat neg
      else f.pack neg n q

namespace Num

/-- The sign of a zero sum of opposite-signed operands (R104). -/
def zeroSign (mode : BitVec 2) : Bool := mode == 3

/-- −x. -/
def neg : Num → Num
  | .nan => .nan
  | .inf s => .inf (!s)
  | .fin s m e => .fin (!s) m e

/-- |x|. -/
def abs : Num → Num
  | .nan => .nan
  | .inf _ => .inf false
  | .fin _ m e => .fin false m e

def isNan : Num → Bool
  | .nan => true
  | _ => false

def isZero : Num → Bool
  | .fin _ m _ => m == 0
  | _ => false

def isNeg : Num → Bool
  | .nan => false
  | .inf s => s
  | .fin s _ _ => s

/-- A signed integer times 2^e. -/
def ofScaled (i e : Int) : Num := .fin (decide (i < 0)) i.natAbs e

/-- The value in units of 2^q, for q no greater than its exponent. -/
def units (q : Int) : Num → Int
  | .fin s m e => (if s then -1 else 1) * ((m * 2 ^ (e - q).toNat : Nat) : Int)
  | _ => 0

/-- The exact sum; a zero sum takes its sign from equal signs or from the mode (R104). -/
def add (mode : BitVec 2) (a b : Num) : Num :=
  match a, b with
  | .nan, _ => .nan
  | _, .nan => .nan
  | .inf s, .inf t => if s = t then .inf s else .nan
  | .inf s, _ => .inf s
  | _, .inf t => .inf t
  | .fin s m e, .fin t n g =>
    let q := min e g
    let i := units q (.fin s m e) + units q (.fin t n g)
    if i = 0 then .fin (if s = t then s else zeroSign mode) 0 0 else ofScaled i q

/-- The exact product; zero times infinity is a NaN. -/
def mul (a b : Num) : Num :=
  match a, b with
  | .nan, _ => .nan
  | _, .nan => .nan
  | .inf s, .inf t => .inf (s != t)
  | .inf s, .fin t n _ => if n = 0 then .nan else .inf (s != t)
  | .fin s m _, .inf t => if m = 0 then .nan else .inf (s != t)
  | .fin s m e, .fin t n g => .fin (s != t) (m * n) (e + g)

/-- a × b + c, exact (VFMA, R105). -/
def fma (mode : BitVec 2) (a b c : Num) : Num := add mode (mul a b) c

/-- a < b for values that are no NaN; the zeros are equal. -/
def lt (a b : Num) : Bool :=
  match a, b with
  | .nan, _ => false
  | _, .nan => false
  | .inf s, .inf t => s && !t
  | .inf s, _ => s
  | _, .inf t => !t
  | .fin s m e, .fin t n g => decide (units (min e g) (.fin s m e) < units (min e g) (.fin t n g))

/-- a = b for values that are no NaN; the zeros are equal. -/
def eq (a b : Num) : Bool :=
  match a, b with
  | .nan, _ => false
  | _, .nan => false
  | .inf s, .inf t => s == t
  | .inf _, _ => false
  | _, .inf _ => false
  | .fin s m e, .fin t n g => units (min e g) (.fin s m e) == units (min e g) (.fin t n g)

/-- floor(log2 |x|) of a nonzero finite value. -/
def lead : Num → Int
  | .fin _ m e => (Nat.log2 m : Int) + e
  | _ => 0

/-- The signed integer nearest under a mode, clamped to [lo, hi]; NaN gives 0 (R109). -/
def toIntClamp (mode : BitVec 2) (lo hi : Int) (x : Num) : Int :=
  match x with
  | .nan => 0
  | .inf s => if s then lo else hi
  | .fin s m e =>
    let n : Int := (roundAt mode s m e 0 : Nat)
    max lo (min hi (if s then -n else n))

/-- An integer as a value; zero is +0 (R109). -/
def ofInt (i : Int) : Num := ofScaled i 0

end Num

/-- FP32 arithmetic of a NaN-free or special value: round once by RNE under NBV (R102, R104). -/
def rne32 (nbv : BitVec 8) (x : Num) : Nat := fp32.round 0 false (nbv == 1) x

/-- An FP32 operand under NBV (R102). -/
def op32 (nbv : BitVec 8) (x : Nat) : Num := fp32.operand (nbv == 1) x

/-- Subnormal operands and results of arithmetic in a T format are flushed (R102): always below 32 bits, under NBV 1 at
32. -/
def flushT (nbv : BitVec 8) (t : BitVec 3) : Bool := t != 5 || nbv == 1

/-! Conversions (R107 to R111). -/

/-- A conversion to a format is widening when the target holds every value of the source (R107). -/
def widens (src dst : Fmt) : Bool :=
  src == dst || (dst == fp32) || (src == fe4m3 && (dst == bf16 || dst == fp16)) ||
  (src == fe5m2 && (dst == bf16 || dst == fp16))

/-- Floating to floating (R107, R108): widening is exact and keeps subnormals; narrowing rounds once and flushes. -/
def cvtFF (src dst : Fmt) (mode : BitVec 2) (sat : Bool) (x : Nat) : Nat :=
  if widens src dst then dst.round 0 false false (src.dec x) else dst.round mode sat true (src.dec x)

/-- Integer to floating (R109): subnormal results do not arise. -/
def cvtIF (dst : Fmt) (mode : BitVec 2) (sat : Bool) (i : Int) : Nat := dst.round mode sat false (Num.ofInt i)

/-- Stochastic rounding of an FP32 encoding with a random lane (R111). -/
def stochastic (dst : Fmt) (nbv : BitVec 8) (sat : Bool) (x rnd : Nat) : Nat :=
  match op32 nbv x with
  | .nan => dst.nanBits
  | .inf s => if dst.e4m3 then (if sat then dst.sgn s dst.maxBits else dst.nanBits) else dst.sgn s dst.infBits
  | .fin s m e =>
    if m = 0 then dst.sgn s 0
    else
      let d := 23 - dst.fb
      let q := max ((Nat.log2 m : Int) + e) dst.emin - dst.fb
      let r := rnd % 2 ^ d
      let sh := e - q + d
      let n := if 0 ≤ sh then (m * 2 ^ sh.toNat + r) / 2 ^ d else (m + r * 2 ^ (-sh).toNat) / 2 ^ (d + (-sh).toNat)
      let ex := (Nat.log2 n : Int) + q
      if n = 0 ∨ ex < dst.emin then dst.sgn s 0
      else if dst.maxBits < dst.pack false n q ∨ (dst.ones : Int) - dst.bias < ex then
        (if sat then dst.sgn s dst.maxBits else if dst.e4m3 then dst.nanBits else dst.sgn s dst.infBits)
      else dst.pack s n q

/-- CCH-4 (R110). -/
def cch4 (key ctr : BitVec 32) : BitVec 32 :=
  let round := fun (p : BitVec 32 × BitVec 32) =>
    let x := (p.1 ^^^ p.2) * 0x85EBCA6B
    (x ^^^ (x >>> 13), p.2 * 0xC2B2AE35 + 0x27D4EB2F)
  (round (round (round (round (ctr, key))))).1

/-! Fixed trees (R124). -/

/-- One level of a fixed tree. -/
def treeLevel {α : Type} (op : α → α → α) : List α → List α
  | a :: b :: l => op a b :: treeLevel op l
  | l => l

/-- A fixed tree: levels until one value remains; `n` bounds the levels. -/
def tree {α : Type} (op : α → α → α) (d : α) : Nat → List α → α
  | _, [] => d
  | 0, a :: _ => a
  | n + 1, a :: b :: l => tree op d n (treeLevel op (a :: b :: l))
  | _ + 1, [a] => a

/-- FP32 addition of encodings by RNE (R124). -/
def add32 (nbv : BitVec 8) (a b : Nat) : Nat := rne32 nbv (Num.add 0 (op32 nbv a) (op32 nbv b))

/-- The FP32 maximum of R124 and of VFMAX: NaN if either is a NaN; +0 above −0. -/
def maxNum (a b : Num) : Num :=
  if a.isNan || b.isNan then .nan
  else if a.isZero && b.isZero then .fin (a.isNeg && b.isNeg) 0 0
  else if a.lt b then b else a

/-- The minimum of VFMIN: −0 below +0. -/
def minNum (a b : Num) : Num :=
  if a.isNan || b.isNan then .nan
  else if a.isZero && b.isZero then .fin (a.isNeg || b.isNeg) 0 0
  else if b.lt a then b else a

end Sys2Proof.Machine
end

