-- ==== Sys2Proof/Machine/Rows.lean ====
section
/-! DEFINITION. Rows: the scratchpad as logical rows (R204, R281, R330, R334) and the tile store (R177 to R179). -/

namespace Sys2Proof.Machine

/-- The physical row of a logical row: an offset of 0 or 6,144 (R281). -/
def physRow (half r : Nat) : Nat := if half = 1 then r + 6144 else r

/-- The half of its bank group a physical row lies in (R281). -/
def rowHalf (r : Nat) : Nat := if r % 12288 < 6144 then 0 else 1

/-- A physical row: written, zero, or indeterminate since binding (R20). -/
def Core.prow (c : Core) (r : Nat) : Row :=
  match Sparse.find c.rows r with
  | some x => x
  | none =>
    match (if rowHalf r = 0 then c.seed0 else c.seed1) with
    | some n => BitVec.ofNat 512 (Config.free n (1000000 + 32768 * c.id + r))
    | none => 0

/-- The placement of the core's task. -/
def Core.half (c : Core) : Nat :=
  match c.task with
  | some t => t.half
  | none => 2

/-- A logical row of the core's task. -/
def Core.row (c : Core) (r : Nat) : Row := c.prow (physRow c.half r)

/-- Write a physical row whole: it is clean afterwards (R334). -/
def Core.setProw (c : Core) (r : Nat) (x : Row) : Core :=
  { c with rows := Sparse.set c.rows r x, badWords := c.badWords.filter fun w => w / 8 != r }

/-- Write a logical row whole. -/
def Core.setRow (c : Core) (r : Nat) (x : Row) : Core := c.setProw (physRow c.half r) x

/-- A logical row holds an uncorrectable word (R334). -/
def Core.rowBad (c : Core) (r : Nat) : Bool := c.badWords.any fun w => w / 8 == physRow c.half r

/-- The word that holds a scratchpad byte address is uncorrectable (R334). -/
def Core.byteBad (c : Core) (a : Nat) : Bool := c.badWords.contains (8 * physRow c.half (a / 64) + a % 64 / 8)

/-- Rows of a placement that `n` bytes from a scratchpad byte address cover whole are clean afterwards (R334). -/
def Core.cleaned (c : Core) (half a n : Nat) : Core :=
  { c with badWords := c.badWords.filter fun w =>
      !((List.range (n / 64 + 1)).any fun i =>
        decide (64 * (ceilDiv a 64 + i) + 64 ≤ a + n) && physRow half (ceilDiv a 64 + i) == w / 8) }

/-- The task may name the row: it lies in its declared rows (R281). -/
def declared (t : Task) (r : Nat) : Bool := r < t.scratch || (12288 ≤ r && r < 12288 + t.scratch)

/-- The rows a core may name; a core without a task names none. -/
def Core.rowOk (c : Core) (r : Int) : Bool :=
  0 ≤ r && r < 24576 &&
  (match c.task with
   | some t => declared t r.toNat
   | none => false)

/-- The first of `n` rows from `r` that the task may not name. -/
def Core.badRange (c : Core) (r : Int) (n : Nat) : Option Int :=
  ((List.range n).map fun (i : Nat) => r + (i : Int)).find? fun x => !c.rowOk x

/-- The 64 bytes of a row as a number, and rows concatenated, the first lowest (R15). -/
def rowsNat (l : List Row) : Nat := l.foldr (fun x acc => x.toNat + 2 ^ 512 * acc) 0

/-- `n` logical rows from `r`. -/
def Core.rowsAt (c : Core) (r n : Nat) : List Row := (List.range n).map fun i => c.row (r + i)

/-- Replace byte b of a row. -/
def setByte (x : Row) (b : Nat) (v : Byte) : Row := setFld x (8 * b) 8 v.toNat

/-- The byte at a scratchpad byte address of the task (R204). -/
def Core.spByte (c : Core) (a : Nat) : Byte := BitVec.ofNat 8 (fld (c.row (a / 64)) (8 * (a % 64)) 8)

/-- Write bytes from a scratchpad byte address on; an uncorrectable word stays so unless the row is written whole. -/
def Core.spWrite (c : Core) (a : Nat) : List Byte → Core
  | [] => c
  | v :: l =>
    Core.spWrite { c with rows := Sparse.set c.rows (physRow c.half (a / 64)) (setByte (c.row (a / 64)) (a % 64) v) }
      (a + 1) l

/-- The scratchpad byte address of an element of VGATH or VSCAT (R206). -/
def gatherAddr (base : Word) (off : Nat) : Nat := ((base + BitVec.ofNat 64 off) &&& ~~~3#64).toNat

/-- The 32 elements of a gather (R206). -/
def Core.gather (c : Core) (base : Word) (offs : Vec) : Vec :=
  buildV 32 32 fun i =>
    let x := gatherAddr base (elt offs 32 i)
    fld (c.row (x / 64)) (8 * (x % 64)) 32

/-! Tiles (R177, R178). -/

/-- The physical tile of a task's tile name (R177). -/
def physTile (a : ArraySt) (core n : Nat) : Nat := if a.solo then n else if core % 2 = 0 then n else 64 + n

/-- A physical tile: written, zero, or indeterminate since binding (R20): then its cells and SAT are any, and ACC any of
the modes 0 to 2 (R179). -/
def ArraySt.tile (a : ArraySt) (n : Nat) : Tile :=
  match Sparse.find a.tiles n with
  | some t => t
  | none =>
    match (if n < 64 then a.seedEven else a.seedOdd) with
    | some c =>
      { cells := BitVec.ofNat 32768 (Config.free c (100000000 + n)), sat := Config.free c (100000128 + n) % 2 == 1,
        acc := BitVec.ofNat 2 (Config.free c (100000256 + n) % 3) }
    | none => {}

/-- A tile of the core in focus, by its name. -/
def State.tile (s : State) (n : Nat) : Tile :=
  (s.arrayOf s.core.id).tile (physTile (s.arrayOf s.core.id) s.core.id n)

/-- Replace a tile of the core in focus. -/
def State.setTile (s : State) (n : Nat) (t : Tile) : State :=
  s.onArray s.core.id fun a => { a with tiles := Sparse.set a.tiles (physTile a s.core.id n) t }

/-- Cell (i, j), at bits 32·(32i + j) (R178). -/
def cellAt (x : Cells) (i j : Nat) : Nat := fld x (32 * (32 * i + j)) 32

end Sys2Proof.Machine
end

