-- ==== Sys2Proof/Machine/Caches.lean ====
section
/-! DEFINITION. Caches: the L1s and the last-level cache with its home slices, read counts and pinned lines (R335, R336,
R338 to R342), and the misses that the Loupe counts (R358). No cache holds a value of its own: what they show is which
lines are present, dirty, counted or pinned. -/

namespace Sys2Proof.Machine

/-- The home slice of a line without LOCAL (R339). -/
def homeSlice (pa : Nat) : Nat :=
  [6, 13, 20, 27, 34, 41, 48].foldl (fun h lo => h ^^^ bits pa lo (if lo = 48 then 4 else 7)) 0

/-- The slice a line is homed in: one of its die's slices for a line of a LOCAL page (R339, R340). -/
def State.sliceOf (s : State) (line : Nat) : Nat :=
  match Sparse.find s.localHome line with
  | some die => die * 16 + homeSlice (64 * line) % 16
  | none => homeSlice (64 * line)

/-- A line leaves the LLC, and every L1 with it: the LLC is inclusive (R336). Its count goes with it (R342). -/
def State.evictLine (s : State) (line : Nat) : State :=
  { s with llc := Sparse.del s.llc line, readCounts := Sparse.del s.readCounts line }.mapCores fun c =>
    { c with l1 := c.l1.filter (· != line) }

/-- A line enters its slice. In a set of 24 that is full a line that is not pinned leaves first; where all are pinned the
line is not held (R336, R338, R341). -/
def State.llcPut (s : State) (line : Nat) (dirty : Bool) : State :=
  let put := fun (t : State) => { t with llc := Sparse.set t.llc line dirty }
  if s.llc.length < 24 then put s
  else
    let mates := (s.llc.map (·.1)).filter fun l =>
      s.sliceOf l == s.sliceOf line && Config.llcSet l % 2048 == Config.llcSet line % 2048
    let out := mates.filter fun l => (Sparse.find s.pins l).isNone
    if mates.length < 24 then put s
    else
      match out[Config.victim s.ctr line % max 1 out.length]? with
      | some v => put (s.evictLine v)
      | none => s

/-- The Loupe counts: it is enabled, and no power-fail warning has stopped it (R358, R389). -/
def State.loupeOn (s : State) : Bool := s.rfld Key.loupectl 40 1 == 1 && !s.supply.hib

/-- A miss that the Loupe counts (R358). -/
def State.loupeMiss (s : State) (line : Nat) : State :=
  if s.loupeOn then
    { s with misses := Sparse.set s.misses (line / 1024) (Sparse.get 0 s.misses (line / 1024) + 1) }
  else s

/-- A request finds its line in the home slice, or brings it there. Only this module's HBM is cached (R335). -/
def State.sliceLook (s : State) (line : Nat) (dirty : Bool) : State :=
  if 0x200000000 ≤ line then s
  else
    match Sparse.find s.llc line with
    | some d => { s with llc := Sparse.set s.llc line (d || dirty) }
    | none => (s.loupeMiss line).llcPut line dirty

/-- A read that reaches the slice counts a counted line down; at 0 the line and its L1 copies are invalid (R342). -/
def State.sliceRead (s : State) (line : Nat) : State :=
  let t := s.sliceLook line false
  match Sparse.find t.readCounts line with
  | some n => if n ≤ 1 then t.evictLine line else { t with readCounts := Sparse.set t.readCounts line (n - 1) }
  | none => t

/-- The core in focus reads or, with `dirty`, owns a line: a fill of its L1, of 8 ways by 128 sets, reads the slice.
The oldest lines of a full set leave. A line that the slice does not hold is in no L1 (R335, R336). -/
def State.fillLine (s : State) (line : Nat) (dirty : Bool) : State :=
  if 0x200000000 ≤ line then s
  else if s.core.l1.contains line then (if dirty then s.sliceLook line true else s)
  else
    let out := (s.core.l1.filter fun l => l % 128 == line % 128).drop 7
    let s1 := (s.onCore fun c => { c with l1 := line :: c.l1.filter fun l => !out.contains l }).sliceRead line
    match Sparse.find s1.llc line with
    | some _ => if dirty then s1.sliceLook line true else s1
    | none => s1.onCore fun c => { c with l1 := c.l1.filter (· != line) }

/-- A line of a LOCAL page is homed on the die that touches it; from the die that held it, it leaves with its L1 copies
(R340). -/
def State.homeLine (s : State) (die line : Nat) : State :=
  match Sparse.find s.localHome line with
  | some d => if d = die then s else { s.evictLine line with localHome := Sparse.set s.localHome line die }
  | none => { s with localHome := Sparse.set s.localHome line die }

/-- The lines of a piece. -/
def Piece.lines (p : Piece) (s : State) : List Nat :=
  (List.range (ceilDiv (p.pa % 64 + p.n) 64)).map fun i => s.canon p.pa / 64 + i

/-- A piece is touched from a die: its lines are homed there if its page is LOCAL. An agent on no compute die touches a line at
R339's slice, whether it has a leaf for it or not: one that another die holds comes back to it (R340). -/
def State.home (s : State) (die : Option Nat) (p : Piece) : State :=
  match die with
  | some d => if p.loc then (p.lines s).foldl (fun t l => t.homeLine d l) s else s
  | none =>
    (p.lines s).foldl (fun t l =>
      if p.loc || (Sparse.find t.localHome l).isSome then t.homeLine (homeSlice (64 * l) / 16) l else t) s

/-- A read that fails its check is logged to the management core (R355). In what form the firmware sees the log is not
given. -/
def State.logBad (s : State) (pa n : Nat) (key : BitVec 16) : State :=
  match s.badLine pa n key with
  | some line => { s with errLog := s.errLog ++ [line] }
  | none => s

/-- The core in focus reads, or with `dirty` writes, a piece through its L1 (R335). -/
def State.fill (s : State) (p : Piece) (dirty : Bool) : State :=
  if s.physKind p.pa = .hbm then
    (p.lines s).foldl (fun t l => t.fillLine l dirty)
      ((if dirty then s else s.logBad p.pa p.n p.key).home (some (s.core.id / 80)) p)
  else s

/-- An engine reads a piece at its home slice (R335, R342). -/
def State.engineRead (s : State) (die : Option Nat) (p : Piece) : State :=
  if s.physKind p.pa = .hbm then
    (p.lines s).foldl (fun t l => t.sliceRead l) ((s.logBad p.pa p.n p.key).home die p)
  else s

/-- What another agent of the module reads, under no KEYID, reaches the home slice as a read that bypasses the caches
does (R335, R342, R355, R358). -/
def State.agentLook (s : State) (pa n : Nat) : State := s.engineRead none { va := 0, pa := pa, n := n, key := 0 }

/-- An engine's write of a piece, once made, stands at its home slice (R335). -/
def State.engineWrote (s : State) (die : Option Nat) (p : Piece) : State :=
  if s.physKind p.pa = .hbm then (p.lines s).foldl (fun t l => t.sliceLook l true) (s.home die p) else s

end Sys2Proof.Machine
end

