-- ==== Sys2Proof/Machine/Translate.lean ====
section
/-! DEFINITION. Translate: virtual addresses to physical ones (R322 to R326), the owner tags of CHECKED granules (R259 to
R264), the pieces of an access, and reading and writing them. -/

namespace Sys2Proof.Machine

/-! Causes (R304, R305). -/

/-- ACCESS_VIOLATION with a detail, an address and an access kind (R305). -/
def violation (detail : BitVec 8) (va : Word) (kind : BitVec 3) : Trap :=
  { cause := 0x04, detail := detail, addr := va, aux := kind.setWidth 64 }

/-- PAGE_FAULT with a level (R305). -/
def pageFault (detail : BitVec 8) (va : Word) (kind : BitVec 3) : Trap :=
  { cause := 0x03, detail := detail, addr := va, aux := kind.setWidth 64 }

/-! Leaves (R324). -/

/-- The page bytes of a leaf at a level (R323). -/
def leafSize (level : Nat) : Nat := if level = 1 then 1073741824 else if level = 2 then 2097152 else 65536
/-- ADDR, bits [51:8], as an address. -/
def entryAddr (e : Word) : Nat := fld e 8 44 * 256
def leafChecked (e : Word) : Bool := e.getLsbD 5
def leafPinned (e : Word) : Bool := e.getLsbD 6
/-- KEYSEL, or the launch's KEYID when it is 0. -/
def leafKey (e : Word) (keyid : BitVec 16) : BitVec 16 := if fld e 52 12 = 0 then keyid else BitVec.ofNat 16 (fld e 52 12)

/-- The permissions an access kind needs: 0 to 5 as in R305; 6 and 7 are an engine's read and write (R324). -/
def leafAllows (e : Word) (kind : BitVec 3) : Bool :=
  let r := e.getLsbD 2
  let w := e.getLsbD 3
  if kind = 1 ∨ kind = 7 then w else if kind = 2 then r && w else if kind = 3 then e.getLsbD 4 else r

/-- The index bits of a level's table: low bit and number (R323). -/
def levelBits (level : Nat) : Nat × Nat :=
  if level = 0 then (39, 18) else if level = 1 then (30, 9) else if level = 2 then (21, 9) else (16, 5)

/-- The alignment of the table a non-leaf entry of a level names (R323). -/
def nextAlign (level : Nat) : Nat := if level = 2 then 256 else 4096

/-! The walk (R323, R325). -/

/-- Read a table entry: outside this module's HBM, or failing its check, it ends the walk (R325). -/
def State.entry (s : State) (pa : Nat) (outside : Trap) (va : Word) : Except Trap Word :=
  if 0x8000000000 < pa + 8 then .error outside
  else if (s.badLine pa 8 0).isSome then .error { cause := 0x10, addr := va }
  else .ok (BitVec.ofNat 64 (s.physWord pa))

/-- Walk from a table of a level to its leaf (R325). `fuel` bounds the levels left. -/
def State.walkFrom (s : State) (va : Word) (kind : BitVec 3) : Nat → Nat → Nat → Except Trap (Word × Nat)
  | 0, _, _ => .error (violation 0x06 va kind)
  | fuel + 1, level, table =>
    let i := fld va (levelBits level).1 (levelBits level).2
    match s.entry (table + 8 * i) (violation 0x06 va kind) va with
    | .error t => .error t
    | .ok e =>
      if !e.getLsbD 0 then .error (pageFault (BitVec.ofNat 8 level) va kind)
      else if e.getLsbD 1 then
        (let a := entryAddr e
         if level = 0 ∨ a % leafSize level ≠ 0 then .error (violation 0x06 va kind)
         else if leafChecked e && s.physKind a != .hbm then .error (violation 0x06 va kind)
         else .ok (e, leafSize level))
      else if level = 3 ∨ fld e 2 6 ≠ 0 ∨ fld e 52 12 ≠ 0 ∨ entryAddr e % nextAlign level ≠ 0 then
        .error (violation 0x06 va kind)
      else s.walkFrom va kind fuel (level + 1) (entryAddr e)

/-- A page walk for a tenant: the leaf and its page size, or the trap it ends in (R323, R325). -/
def State.walk (s : State) (ctx : BitVec 16) (va : Word) (kind : BitVec 3) : Except Trap (Word × Nat) :=
  match s.entry (fld (s.reg Key.rootbase) 19 33 * 524288 + 8 * ctx.toNat) (violation 0x05 va kind) va with
  | .error t => .error t
  | .ok r =>
    if !r.getLsbD 0 then .error (pageFault 4 va kind)
    else if fld r 1 20 ≠ 0 ∨ fld r 52 12 ≠ 0 then .error (violation 0x06 va kind)
    else s.walkFrom va kind 4 0 (fld r 21 31 * 2097152)

/-- How a translation ends: a physical address with its leaf and page size, a miss to walk, or a trap. -/
inductive Xl where
  | ok (pa : Nat) (leaf : Word) (size : Nat)
  | miss
  | bad (t : Trap)
  deriving DecidableEq, Repr

/-- The checks on a leaf for an access (R200, R324, R325, R364, R379, R386). -/
def State.leafCheck (s : State) (pa : Nat) (leaf : Word) (va : Word) (kind : BitVec 3) : Option Trap :=
  let engine := kind == 6 || kind == 7
  match s.physKind pa with
  | .none => some (violation 0x05 va kind)
  | .scm =>
    if !engine && kind != 5 then some (violation 0x02 va kind)
    else
      (let base := fld (s.reg Key.fxarea) 30 22 * 1073741824
       let size := s.rfld Key.fxarea 0 12 * 1073741824
       if engine && decide (base ≤ pa ∧ pa < base + size) then some (violation 0x05 va (kind &&& 1))
       else if leafAllows leaf kind then none else some (violation 0x01 va kind))
  | .peer j =>
    if !(Sparse.get {} s.peers j).present then some (violation 0x05 va kind)
    else if !leafAllows leaf kind then some (violation 0x01 va kind)
    else if (kind == 1 || kind == 2 || kind == 7) && s.reg Key.rqbase == 0 then some (violation 0x05 va kind)
    else none
  | _ => if leafAllows leaf kind then none else some (violation 0x01 va kind)

/-! The TLBs (R326). -/

/-- An entry translates an address of a tenant. -/
def TlbEntry.hits (e : TlbEntry) (ctx : BitVec 16) (va : Word) : Bool :=
  e.context == ctx && decide (e.va ≤ va.toNat ∧ va.toNat < e.va + e.size)

/-- The leaf that the µTLB of the core in focus holds for an address. -/
def State.tlbFind (s : State) (ctx : BitVec 16) (va : Word) : Option TlbEntry :=
  s.core.utlb.find? fun e => e.hits ctx va

/-- The leaf that the core TLB, or the shared TLB of its die, holds for an address. -/
def State.tlbDeep (s : State) (ctx : BitVec 16) (va : Word) : Option TlbEntry :=
  (s.core.ctlb.find? fun e => e.hits ctx va).or
    (((s.dtlb.filter fun x => x.1 == s.core.id / 80).map (·.2)).find? fun e => e.hits ctx va)

/-- A page with its leaf, as the TLBs hold it. -/
def tlbEntry (ctx : BitVec 16) (va : Word) (leaf : Word) (size : Nat) : TlbEntry :=
  { context := ctx, va := va.toNat / size * size, size := size, leaf := leaf }

/-- A leaf enters a TLB: leaves for its page go, and where the TLB is full one more; which is not given. -/
def tlbPut (pick cap : Nat) (e : TlbEntry) (l : List TlbEntry) : List TlbEntry :=
  let k := l.filter fun x => !(x.context == e.context && decide (x.va < e.va + e.size ∧ e.va < x.va + x.size))
  e :: (if k.length < cap then k else k.eraseIdx (pick % k.length))

/-- A 64-byte granule lies in the page of a leaf. -/
def State.inPage (s : State) (e : TlbEntry) (granule : Nat) : Bool :=
  let pa := s.canon (entryAddr e.leaf / e.size * e.size)
  decide (pa ≤ 64 * granule ∧ 64 * granule < pa + e.size)

/-- The µTLB of the core in focus holds these leaves; the grants held with leaves that have gone are dropped (R260,
R326). -/
def State.setUtlb (s : State) (l : List TlbEntry) : State :=
  let gone := s.core.utlb.filter fun e => !l.contains e
  s.onCore fun c => { c with utlb := l,
                             grants := c.grants.filter fun g =>
                               !(gone.any fun e => s.inPage e g.1) || l.any fun e => s.inPage e g.1 }

/-- Addresses of a tenant lie in the range of TLBINVA and TLBINVB (R329). -/
def State.invalHits (s : State) (ctx : BitVec 16) (va n : Nat) : Bool :=
  let b := s.reg Key.tlbinvb
  let base := s.rfld Key.tlbinva 16 41 * 65536
  let size := fld b 0 32 * 65536
  b.getLsbD 32 || (fld b 48 16 == ctx.toNat && (size == 0 || decide (va < base + size ∧ base < va + n)))

/-- A cached leaf lies in the range under invalidation. -/
def State.inRange (s : State) (e : TlbEntry) : Bool := s.invalHits e.context e.va e.size

/-- A leaf of the range of an invalidation in progress is not cached: its accesses wait until BUSY clears (R329; DEDUCED,
log entry 76). -/
def State.barred (s : State) (e : TlbEntry) : Bool := s.inval.isSome && s.inRange e

/-- A leaf enters the core TLB and the shared TLB of its die (R326). -/
def State.cacheDeep (s : State) (e : TlbEntry) : State :=
  if s.barred e then s else
  let die := s.core.id / 80
  let mine := (s.dtlb.filter fun x => x.1 == die).map (·.2)
  ({ s with dtlb := (s.dtlb.filter fun (x : Nat × TlbEntry) => x.1 != die) ++
      (tlbPut (Config.victim s.ctr 2) 16384 e mine).map fun x => (die, x) } : State).onCore fun c =>
    { c with ctlb := tlbPut (Config.victim s.ctr 1) 1024 e c.ctlb }

/-- Cache a leaf for the issue domain of the core in focus (R326). -/
def State.cacheLeaf (s : State) (ctx : BitVec 16) (va : Word) (leaf : Word) (size : Nat) : State :=
  let e := tlbEntry ctx va leaf size
  let t := s.cacheDeep e
  if s.barred e then s else t.setUtlb (tlbPut (Config.victim s.ctr 0) 64 e t.core.utlb)

/-- A cached leaf is still held: it is used until it is invalidated, but where the tables have changed since, it may have
been evicted (a free choice). -/
def State.stillHeld (s : State) (ctx : BitVec 16) (va : Word) (kind : BitVec 3) (e : TlbEntry) : Bool :=
  (match s.walk ctx va kind with
   | .ok (leaf, size) => leaf == e.leaf && size == e.size
   | .error _ => false) || !Config.evicted s.ctr va.toNat

/-- A leaf as an access uses it: checked, with the physical address. -/
def State.leafUse (s : State) (va : Word) (kind : BitVec 3) (leaf : Word) (size : Nat) : Except Trap (Nat × Word × Nat) :=
  let pa := entryAddr leaf / size * size + va.toNat % size
  match s.leafCheck pa leaf va kind with
  | some t => .error t
  | none => .ok (s.canon pa, leaf, size)

/-- Translate one address for an access (R322, R325, R326). -/
def State.xlate (s : State) (ctx : BitVec 16) (va : Word) (kind : BitVec 3) : Xl :=
  if fld va 57 7 ≠ 0 then .bad (violation 0x05 va kind)
  else
    match (s.tlbFind ctx va).filter (s.stillHeld ctx va kind) with
    | some e =>
      (match s.leafUse va kind e.leaf e.size with
       | .error t => .bad t
       | .ok (pa, leaf, size) => .ok pa leaf size)
    | none =>
      if (s.tlbDeep ctx va).any (s.stillHeld ctx va kind) then .miss
      else
        match s.walk ctx va kind with
        | .error t => .bad t
        | .ok _ => .miss

/-- The addresses a walk reads: the root entry, and the table entries down to its last (R323). -/
def State.walkReads (s : State) (ctx : BitVec 16) (va : Word) : List Nat :=
  let root := fld (s.reg Key.rootbase) 19 33 * 524288 + 8 * ctx.toNat
  let rec go (fuel level table : Nat) : List Nat :=
    match fuel with
    | 0 => []
    | fuel + 1 =>
      let a := table + 8 * fld va (levelBits level).1 (levelBits level).2
      let e := BitVec.ofNat 64 (s.physWord a)
      a :: (if e.getLsbD 0 && !e.getLsbD 1 && decide (level < 3) then go fuel (level + 1) (entryAddr e) else [])
  let r := BitVec.ofNat 64 (s.physWord root)
  root :: (if r.getLsbD 0 then go 4 0 (fld r 21 31 * 2097152) else [])

/-- A walk reads its entries through the LLC (R326). -/
def State.walked (s : State) (ctx : BitVec 16) (va : Word) : State :=
  (s.walkReads ctx va).foldl (fun t a => if a < 0x8000000000 then (t.logBad a 8 0).sliceRead (a / 64) else t) s

/-- A miss of the issue domain of the core in focus ends: a TLB behind the µTLB, or a walk, gives the leaf (R326). -/
def State.fillLeaf (s : State) (ctx : BitVec 16) (va : Word) (kind : BitVec 3) : State :=
  match (s.tlbDeep ctx va).filter (s.stillHeld ctx va kind) with
  | some e => s.cacheLeaf ctx va e.leaf e.size
  | none =>
    match s.walk ctx va kind with
    | .ok (leaf, size) => (s.walked ctx va).cacheLeaf ctx va leaf size
    | .error _ => s.walked ctx va

/-- PAGE_WALK (R325, R326): the miss of the core's task ends. A valid leaf is cached; a fault or a violation is not, and
the access that issues again takes it. -/
def execPageWalk (va : Word) (kind : BitVec 3) (s : State) : Out :=
  .next (match s.core.task with
    | some t => s.fillLeaf t.context va kind
    | none => s)

/-- Translate for an engine that shares no core's TLB: by a walk (R218, R326). -/
def State.sysXlate (s : State) (ctx : BitVec 16) (va : Word) (kind : BitVec 3) : Except Trap (Nat × Word × Nat) :=
  if fld va 57 7 ≠ 0 then .error (violation 0x05 va kind)
  else
    match s.walk ctx va kind with
    | .error t => .error t
    | .ok (leaf, size) => s.leafUse va kind leaf size

/-- Translate for the copy engine of the core in focus, which shares the core TLB: a miss is resolved without an effect
visible to the task (R218, R326). -/
def State.engineXlate (s : State) (ctx : BitVec 16) (va : Word) (kind : BitVec 3) : Except Trap (Nat × Word × Nat) :=
  match (s.tlbDeep ctx va).filter (s.stillHeld ctx va kind) with
  | some e => if fld va 57 7 = 0 then s.leafUse va kind e.leaf e.size else .error (violation 0x05 va kind)
  | none => s.sysXlate ctx va kind

/-- The copy engine of the core in focus has translated an address: a walk, if it took one, leaves the leaf in the core
TLB and in its die's (R326). -/
def State.engineWalked (s : State) (ctx : BitVec 16) (va : Word) (kind : BitVec 3) : State :=
  match (s.tlbDeep ctx va).filter (s.stillHeld ctx va kind), s.walk ctx va kind with
  | some _, _ => s
  | none, .ok (leaf, size) => (s.walked ctx va).cacheDeep (tlbEntry ctx va leaf size)
  | none, .error _ => s.walked ctx va

/-! The pieces of an access. -/

/-- A part of an access that lies in one page: virtual and physical address, bytes, leaf. -/
structure Span where
  va : Word
  pa : Nat
  n : Nat
  leaf : Word
  deriving DecidableEq, Repr

/-- What an access resolves to: its parts in ascending order, misses to walk, or the first trap (R200, R325). -/
inductive Access where
  | ok (l : List Span)
  | miss (va : Word)
  | bad (t : Trap)
  deriving DecidableEq, Repr

/-- The 64-byte granules of `n` bytes at a physical address. -/
def granulesOf (pa n : Nat) : List Nat := (List.range (ceilDiv (pa % 64 + n) 64)).map fun i => pa / 64 + i

/-- The line can be pinned in its slice, beside the lines `more` that the same access pins: it is pinned already, or with
it the slice pins at most 32,768 lines (R341). -/
def State.canPin (s : State) (more : List Nat) (line : Nat) : Bool :=
  let mate := fun (l : Nat) => homeSlice (64 * l) == homeSlice (64 * line)
  (Sparse.find s.pins line).isSome ||
    decide ((s.pins.filter fun p => mate p.1).length +
      (more.filter fun l => l != line && mate l && (Sparse.find s.pins l).isNone).dedup.length < 32768)

/-- The first of the lines of one access that cannot be pinned beside those before it, `more` among them (R341). -/
def State.firstUnpinned (s : State) (more : List Nat) : List Nat → Option Nat
  | [] => none
  | g :: l => if s.canPin more g then s.firstUnpinned (g :: more) l else some g

/-- The lines that a part of an access has in a CHECKED page, as the µTLB translates it, and its physical address. -/
def State.pinLines (s : State) (ctx : BitVec 16) (va : Word) (n : Nat) (kind : BitVec 3) : Nat × List Nat :=
  match (s.tlbFind ctx va).filter (s.stillHeld ctx va kind) with
  | some e =>
    if leafChecked e.leaf then
      (let pa := s.canon (entryAddr e.leaf / e.size * e.size + va.toNat % e.size)
       (pa, granulesOf pa (min n (e.size - va.toNat % e.size))))
    else (0, [])
  | none => (0, [])

/-- A part of a plain access in a CHECKED page, one of whose lines cannot be pinned beside those of the parts before it,
has no valid translation, whatever its leaf permits (R200, R260, R341). -/
def State.pinStop (s : State) (ctx : BitVec 16) (va : Word) (n : Nat) (kind : BitVec 3) (more : List Nat) : Option Trap :=
  let x := s.pinLines ctx va n kind
  (s.firstUnpinned more x.2).map fun g => pageFault 5 (va + BitVec.ofNat 64 (64 * g - x.1)) kind

/-- Resolve `n` bytes at `va`, page by page, the lower address first (R325). `plain` accesses are those that R259 checks;
`more`: the lines that the parts before these pin. `fuel` bounds the pages. -/
def State.resolve (s : State) (ctx : BitVec 16) (kind : BitVec 3) (plain : Bool) (more : List Nat) :
    Nat → Word → Nat → Access
  | 0, _, _ => .ok []
  | fuel + 1, va, n =>
    if n = 0 then .ok []
    else
      let stop := if plain then s.pinStop ctx va n kind more else none
      match stop, s.xlate ctx va kind with
      | some t, _ => .bad t
      | none, .bad t => .bad t
      | none, .miss => .miss va
      | none, .ok pa leaf size =>
        let k := min n (size - va.toNat % size)
        match s.resolve ctx kind plain (more ++ (s.pinLines ctx va n kind).2) fuel (va + BitVec.ofNat 64 k) (n - k) with
        | .ok l => .ok ({ va := va, pa := pa, n := k, leaf := leaf } :: l)
        | x => x

/-! CHECKED granules (R259 to R262, R341). -/

/-- The tag that a task finds is current: its launch and step are the task's (R262). -/
def OwnerTag.current (g : OwnerTag) (serial step : BitVec 32) : Bool :=
  fld g.serial 0 8 == fld serial 0 8 && fld g.step 0 8 == fld step 0 8

/-- The tag word of R261. -/
def OwnerTag.word (g : OwnerTag) : Word :=
  BitVec.ofNat 64 (bit g.wv * 2 ^ 63 + bit g.rv * 2 ^ 62 + bit g.shared * 2 ^ 61 + fld g.serial 0 8 * 2 ^ 52 +
    fld g.step 0 8 * 2 ^ 44 + g.writer.toNat * 2 ^ 20 + g.reader.toNat)

/-- The outcome of an access by a task on a current tag, or an empty one (R262): the tag afterwards, or a race. -/
def OwnerTag.check (g : OwnerTag) (x : BitVec 20) (store : Bool) : Option OwnerTag :=
  if g.wv && g.writer != x then none
  else if store then
    (if g.rv && (g.shared || g.reader != x) then none else some { g with wv := true, writer := x })
  else if !g.rv then some { g with rv := true, reader := x }
  else if g.reader != x then some { g with shared := true }
  else some g

/-- The tag of a granule as an access by the core's task meets it: empty unless current (R262). -/
def State.tagFor (s : State) (c : Core) (t : Task) (granule : Nat) : OwnerTag :=
  match Sparse.find s.tags granule with
  | some g => if g.current t.serial c.r.ssn then g else { serial := t.serial, step := c.r.ssn }
  | none => { serial := t.serial, step := c.r.ssn }

/-- The granules of a part of an access that lies in a CHECKED page (R259). -/
def Span.granules (p : Span) : List Nat :=
  if leafChecked p.leaf then granulesOf p.pa p.n else []

/-- What the tag check of an access finds. -/
inductive TagRes where
  | granted
  | ask (granules : List Nat)
  | bad (t : Trap)
  deriving DecidableEq, Repr

/-- The virtual address of the first byte of the access in a granule. -/
def Span.firstIn (p : Span) (granule : Nat) : Word := p.va + BitVec.ofNat 64 (64 * granule - p.pa)

/-- Check the granules of an access: a race, then missing grants (R200, R259, R260). -/
def State.tagRes (s : State) (c : Core) (t : Task) (store : Bool) (l : List Span) : TagRes :=
  let gs : List (Span × Nat) := l.flatMap fun p => p.granules.map fun g => (p, g)
  let need := gs.filter fun x => !c.grants.any fun g => g.1 == x.2 && (g.2 || !store)
  match need.find? (fun x => ((s.tagFor c t x.2).check (BitVec.ofNat 20 t.index) store).isNone) with
  | some x => .bad { cause := 0x05, addr := x.1.firstIn x.2, aux := (s.tagFor c t x.2).word }
  | none => if need.isEmpty then .granted else .ask (need.map (·.2))

/-- The tenant and the virtual address through which the core in focus reaches a granule. -/
def State.reachedAs (s : State) (granule : Nat) : BitVec 16 × Nat :=
  match s.core.utlb.find? fun e => s.inPage e granule with
  | some e => (e.context, e.va + (64 * granule - s.canon (entryAddr e.leaf / e.size * e.size)))
  | none => (0, 0)

/-- The home slice updates the tag of a granule for an access of the task in focus, and returns a grant; the line is
pinned (R260, R262, R341). -/
def State.grantTag (s : State) (store : Bool) (granule : Nat) : State :=
  match s.core.task with
  | some t =>
    (match (s.tagFor s.core t granule).check (BitVec.ofNat 20 t.index) store with
     | some g =>
       (let u : State := { s with
          tags := Sparse.set s.tags granule g,
          pins := Sparse.set s.pins granule
            (match Sparse.find s.pins granule with
             | some p => { p with serial := t.serial }
             | none => { serial := t.serial, context := (s.reachedAs granule).1, va := (s.reachedAs granule).2 }) }
        u.onCore fun c =>
          { c with grants := (c.grants.filter fun x => x.1 != granule) ++
              [(granule, store || c.grants.any fun x => x.1 == granule && x.2)] })
     | none => s)
  | none => s

/-- The home slices check the granules of one access together: all are granted, or, where one conflicts or cannot be
pinned, no tag changes (R260 to R262). -/
def State.checkTags (s : State) (granules : List Nat) (store : Bool) : State :=
  let ok := fun (g : Nat) =>
    s.core.task.any fun t => ((s.tagFor s.core t g).check (BitVec.ofNat 20 t.index) store).isSome
  if granules.all ok && (s.firstUnpinned [] granules).isNone then granules.foldl (fun t g => t.grantTag store g) s else s

/-- OWNER_TAG_CHECK (R262). -/
def execOwnerTagCheck (granules : List Nat) (store : Bool) (s : State) : Out := .next (s.checkTags granules store)

/-! The access of an issuing slot (R198, R200). -/

/-- The issue domain freezes for a miss (R45, R198, R260). -/
def State.freezeFor (s : State) (w : Want) : State := s.freeze.onCore fun c => { c with want := c.want ++ [w] }

/-- Resolve an access of the task in focus: its parts, or the state in which its slot traps or freezes. `plain` accesses
are those that R259 checks. -/
def State.reach (s : State) (va : Word) (n : Nat) (kind : BitVec 3) (plain : Bool) : Except State (List Span) :=
  match s.core.task with
  | none => .error (s.trapSlot (violation 0x05 va kind))
  | some t =>
    match s.resolve t.context kind plain [] (n + 1) va n with
    | .bad x => .error (s.trapSlot x)
    | .miss v => .error (s.freezeFor (.walk v kind))
    | .ok l =>
      if !plain then .ok l
      else
        match s.tagRes s.core t (kind == 1) l with
        | .bad x => .error (s.trapSlot x)
        | .ask g => .error (s.freezeFor (.tag g (kind == 1)))
        | .granted => .ok l

/-- The KEYID of the core's task (R277). -/
def Core.keyid (c : Core) : BitVec 16 :=
  match c.task with
  | some t => t.keyid
  | none => 0

/-- A part lies in another module's memory (R364). -/
def State.peerOf (s : State) (p : Span) : Option Nat :=
  match s.physKind p.pa with
  | .peer j => some j
  | _ => none

/-- The bytes of the parts of an access, under their keys. -/
def State.readSpans (s : State) (keyid : BitVec 16) (l : List Span) : List Byte :=
  l.flatMap fun p => s.physRead p.pa p.n (leafKey p.leaf keyid)

/-- The virtual address of the first byte that fails its read (R201, R355). -/
def State.badSpan (s : State) (keyid : BitVec 16) (l : List Span) : Option Word :=
  l.findSome? fun p =>
    (s.badLine p.pa p.n (leafKey p.leaf keyid)).map fun line =>
      p.va + BitVec.ofNat 64 (64 * line - s.canon p.pa)

/-- Split bytes over the parts of an access. -/
def splitSpans (keyid : BitVec 16) : List Span → List Byte → List (Nat × BitVec 16 × List Byte)
  | [], _ => []
  | p :: l, bs => (p.pa, leafKey p.leaf keyid, bs.take p.n) :: splitSpans keyid l (bs.drop p.n)

/-- Write bytes to physical addresses under their keys. -/
def State.writeParts (s : State) (l : List (Nat × BitVec 16 × List Byte)) : State :=
  l.foldl (fun t p => t.physWrite p.1 p.2.2 p.2.1) s

end Sys2Proof.Machine
end

