-- ==== Sys2Proof/Machine/Access.lean ====
section
/-! DEFINITION. Access: performing loads, stores and atomics (R199, R208, R210 to R213), remote requests (R364, R366,
R367), fences (R208, R209), and landings (R6, R49 to R51, R157, R201). -/

namespace Sys2Proof.Machine

/-! Small changes to the core in focus. -/

/-- Change the landing with a name. -/
def State.onLanding (s : State) (id : Nat) (f : Landing → Landing) : State :=
  s.onCore fun c => { c with lands := c.lands.map fun l => if l.id = id then f l else l }

/-- Its data has arrived (R49). -/
def Landing.arrived (l : Landing) : Bool := l.wait.isNone && l.awaits.isEmpty && l.holds.isEmpty

/-- What the module holds about a position (R365). -/
def State.peer (s : State) (j : Nat) : Peer := Sparse.get {} s.peers j

/-- Change what the module holds about a position. -/
def State.onPeer (s : State) (j : Nat) (f : Peer → Peer) : State := { s with peers := Sparse.set s.peers j (f (s.peer j)) }

/-! Remote requests (R364, R366, R367). -/

/-- A requester's identity (R366). -/
def State.who (s : State) (c : Core) : Requester := { module := s.pos, core := c.rqCore, slot := c.rqSlot }

/-- The requests to a module below this one's first unanswered wait for no answer any more (R361). -/
def State.settledTo (s : State) (r : Remote) : Nat :=
  ((s.cores ++ s.slots.map fun p => p.2.core).flatMap (·.remotes)).foldl
    (fun n x => if x.module = r.module then min n x.order else n) r.order

/-- The message of a request: the request is the same at every transmission (R366); what the ingress orders it by tells
how far the requests before it are settled (R361). -/
def State.reqMsg (s : State) (c : Core) (r : Remote) : OutMsg :=
  .request r.module (s.who c) r.id r.order (s.settledTo r) r.serial r.ackt s.inc r.inc r.keyid r.addr r.kind

/-- A request carries a serial: every store and atomic does, no load (R366). -/
def bearing : RemoteKind → Bool
  | .load _ => false
  | _ => true

/-- A fence that awaits an access awaits the request it has become, where its scope reaches a peer (R208, R209). -/
def Fence.joins (f : Fence) (awaited : Bool) (req : Nat) : Fence :=
  if awaited = true ∧ 5 ≤ f.scope.toNat then { f with remotes := f.remotes ++ [req] } else f

/-- Send a request of the core in focus to another module: for `land`, or for an engine (`into`). -/
def State.request (s : State) (j addr : Nat) (va : Word) (keyid : BitVec 16) (kind : RemoteKind)
    (land : Option (Nat × Nat)) (into : Option Nat) : State :=
  let c := s.core
  let r : Remote :=
    { id := s.nextReq, module := j, serial := if bearing kind then some c.rqNext else none, ackt := c.rqAckt,
      inc := (s.peer j).inc, va := va, addr := addr, kind := kind, keyid := keyid, order := (s.peer j).sent, land := land,
      into := into }
  ((({ s with nextReq := s.nextReq + 1 } : State).onPeer j fun p => { p with sent := p.sent + 1 }).onCore fun c =>
    { c with remotes := c.remotes ++ [r], rqNext := if bearing kind then c.rqNext + 1 else c.rqNext,
             fences := match land with
               | some (i, _) => c.fences.map fun f => f.joins (f.loads.contains i) s.nextReq
               | none => c.fences }).send (s.reqMsg c r)

/-- The module that a physical address of the panel window lies in, and the offset in its part (R322, R364). -/
def State.peerAt (s : State) (pa : Nat) : Option (Nat × Nat) :=
  match s.physKind pa with
  | .peer j => some (j, (pa - 0x200000000000) % 0x8000000000)
  | _ => none

/-- Send a request to the module whose memory a piece lies in. -/
def State.sendRemote (s : State) (p : Piece) (kind : RemoteKind) (land : Option (Nat × Nat)) (into : Option Nat) : State :=
  match s.peerAt p.pa with
  | some (j, a) => s.request j a p.va p.key kind land into
  | none => s

/-- A serial is answered: ACKT covers every serial up to it that is answered (R367). -/
def Core.answered (c : Core) (serial : BitVec 32) : Core :=
  let done := serial :: c.rqDone
  let top := done.foldl (fun a _ => if done.contains (a + 1) then a + 1 else a) c.rqAckt
  { c with rqAckt := top, rqDone := done.filter fun x => decide (0 < (x - top).toNat ∧ (x - top).toNat ≤ 1073741824) }

/-! Performing (R199, R202, R210 to R213). -/

/-- The bytes an atomic acts on (R211). -/
def atomicSize : AtomicOp → Nat
  | .fadd => 4
  | _ => 8

/-- The word an atomic leaves (R210, R212). -/
def atomicNew (op : AtomicOp) (nbv : BitVec 8) (old b d : Word) : Word :=
  match op with
  | .add => old + b
  | .min => if b.slt old then b else old
  | .max => if old.slt b then b else old
  | .minn => if b.ult old then b else old
  | .maxn => if old.ult b then b else old
  | .and => old &&& b
  | .or => old ||| b
  | .xor => old ^^^ b
  | .xchg => b
  | .cas => if old = d then b else old
  | .fadd => BitVec.ofNat 64 (add32 nbv (fld old 0 32) (fld b 0 32))

/-- The atomic writes: all do, but a compare-and-swap that fails. -/
def atomicWrites (op : AtomicOp) (old d : Word) : Bool := op != .cas || old == d

/-- Ticks until an access performed now is acknowledged or its data is here (not architected, R445). -/
def State.memWait (s : State) : Nat := Config.memTicks s.ctr % 1000000

/-- Perform a store's part (R199): in this module, or through a request to a peer. -/
def State.doStore (s : State) (p : Piece) (data : List Byte) : State :=
  match s.physKind p.pa with
  | .peer _ => s.sendRemote p (.store data) none none
  | _ => (s.physWrite p.pa data p.key).fill p true

/-- Perform an atomic at the point of execution (R210, R213); a word that fails its check is left as it is, and
MEMORY_ERROR follows. -/
def State.doAtomic (s : State) (op : AtomicOp) (p : Piece) (b d : Word) (nbv : BitVec 8) (ret : Option Nat) (pc : Word) :
    State :=
  match s.physKind p.pa with
  | .peer _ =>
    let s1 := s.sendRemote p (.atomic op b d nbv) (ret.map fun i => (i, 0)) none
    (match ret with
     | some i => s1.onLanding i fun l => { l with awaits := [(s.nextReq, 0)], wait := none, holds := [] }
     | none => s1)
  | _ =>
    let give := fun (t : State) (x : Vec) (err : Option Word) =>
      match ret with
      | some i => t.onLanding i fun l => { l with data := x, wait := some s.memWait, err := err, holds := [] }
      | none => t
    match s.badLine p.pa p.n p.key with
    | some _ =>
      let s1 := give (s.fill p false) 0 (some p.va)
      if ret.isNone then s1.raiseB s1.core.id { cause := 0x10, addr := p.va, aux := pc } else s1
    | none =>
      let old := BitVec.ofNat 64 (leNat (s.physRead p.pa p.n p.key))
      let s1 := s.fill p false
      let s2 := if atomicWrites op old d then s1.physWrite p.pa (leBytes p.n (atomicNew op nbv old b d).toNat) p.key else s1
      give s2 (old.setWidth 1024) none

/-- Perform a load (R202, R203): the parts in this module are read now, a peer's are asked for. -/
def State.doLoad (s : State) (id : Nat) (parts : List Piece) : State :=
  let step := fun (a : State × Nat) (p : Piece) =>
    match s.physKind p.pa with
    | .peer _ =>
      ((a.1.onLanding id fun l => { l with awaits := l.awaits ++ [(a.1.nextReq, a.2)] }).sendRemote p (.load p.n)
        (some (id, a.2)) none, a.2 + p.n)
    | _ =>
      let x := leNat (a.1.physRead p.pa p.n p.key)
      let bad := (a.1.badLine p.pa p.n p.key).map fun line =>
        p.va + BitVec.ofNat 64 (64 * line - a.1.canon p.pa)
      ((a.1.fill p false).onLanding id fun l =>
        { l with data := l.data ||| BitVec.ofNat 1024 (x * 2 ^ (8 * a.2)), err := l.err.or bad }, a.2 + p.n)
  let s1 := (parts.foldl step (s, 0)).1
  s1.onLanding id fun l => { l with holds := [], wait := if l.awaits.isEmpty then some s.memWait else none }

/-! Fences (R207 to R209). -/

/-- A fence awaits an access that has not been performed: another fence holds it, or a peer has not answered. -/
def Fence.blocks (f : Fence) (c : Core) : Bool :=
  !f.remotes.isEmpty || !f.past.isEmpty || (c.lands.any fun l => f.loads.contains l.id && !l.holds.isEmpty) ||
    (c.stores.any fun p => (f.stores ++ f.loads).contains p.id && !p.holds.isEmpty) ||
    c.spawns.any fun x => f.loads.contains x.id

/-- A fence still holds an access of the core. -/
def Fence.holding (f : Fence) (c : Core) : Bool :=
  (c.lands.any fun l => l.holds.contains f.id) || (c.stores.any fun p => p.holds.contains f.id) ||
    c.spawns.any fun x => x.holds.contains f.id

/-- The fences that hold an access issued now: every kind holds stores and atomics, and all but REL hold loads. A fence
that awaits nothing unperformed holds what is issued now only behind what it still holds, so that accesses keep their
order (R199, R243); otherwise they are performed at once. -/
def Core.holders (c : Core) (load : Bool) : List Nat :=
  (c.fences.filter fun f => (f.blocks c || f.holding c) && !(load && f.kind == 1)).map (·.id)

/-- The accesses of a core that its fences hold, by core and name. -/
def Core.heldIds (c : Core) : List (Nat × Nat) :=
  ((c.lands.filter fun l => !l.holds.isEmpty).map fun l => (c.id, l.id)) ++
    (c.stores.filter fun p => !p.holds.isEmpty).map fun p => (c.id, p.id)

/-- An acquire of the core in focus (R246): its later accesses are performed after every access that fences of other
cores hold at this moment, among them all that the releases it meets cover (R245, R247, R248). -/
def State.acquire (s : State) : State :=
  let past := s.others.flatMap Core.heldIds
  if past.isEmpty then s
  else s.onCore fun c =>
    { c with fences := c.fences ++ [{ id := c.nextId, kind := 2, scope := 0, loads := [], stores := [], remotes := [],
                                      past := past }], nextId := c.nextId + 1 }

/-- Two pieces share a single-copy unit, 32 bytes of memory: an agent's accesses to one keep their order (R241, R244). -/
def State.meet (s : State) (p q : Piece) : Bool :=
  let a := s.canon p.pa
  let b := s.canon q.pa
  decide (a / 32 ≤ (b + q.n - 1) / 32 ∧ b / 32 ≤ (a + p.n - 1) / 32)

/-- The bytes a held access writes. -/
def Posted.target (p : Posted) : Option Piece :=
  match p.act with
  | .done => none
  | .load _ => none
  | .cache _ _ => none
  | .store q _ => some q
  | .atomic _ q _ _ _ _ _ => some q

/-- The bytes a held access reaches. -/
def Posted.piece (p : Posted) : Option Piece :=
  match p.act with
  | .load q => some q
  | .cache q _ => some q
  | _ => p.target

/-- A load into s0 that fences hold. -/
def Posted.isLoad (p : Posted) : Bool :=
  match p.act with
  | .load _ => true
  | _ => false

/-- The pieces of the accesses that fences hold, loads and the records of children among them, with those fences. -/
def Core.heldPieces (c : Core) : List (Piece × List Nat) :=
  (c.lands.flatMap fun l => l.parts.map fun p => (p, l.holds)) ++
    (c.stores.flatMap fun p => (p.piece.map fun q => (q, p.holds)).toList) ++
    c.spawns.flatMap fun x => x.parts.map fun p => (p, x.holds)

/-- The fences that hold an earlier access of the task to a unit of these pieces: a load of them waits too (R199, R243,
R244). On CHECKED pages, where tasks see sequential consistency, a load waits for every held access there (R258). -/
def State.behind (s : State) (parts : List Piece) : List Nat :=
  ((s.core.heldPieces.filter fun x => parts.any fun p => s.meet p x.1 || (p.chk && x.1.chk)).flatMap (·.2)).dedup

/-- A piece lies in a peer's memory. -/
def State.isAway (s : State) (p : Piece) : Bool :=
  match s.physKind p.pa with
  | .peer _ => true
  | _ => false

/-- A posted access that is to go to a peer. -/
def State.postedAway (s : State) (p : Posted) : Bool := p.piece.any s.isAway

/-- A load or returning atomic that is to go, or has gone, to a peer. -/
def State.loadAway (s : State) (l : Landing) : Bool :=
  !l.awaits.isEmpty || (!l.holds.isEmpty && l.parts.any s.isAway) ||
    s.core.stores.any fun p =>
      match p.act with
      | .atomic _ q _ _ _ (some i) _ => i == l.id && s.isAway q
      | _ => false

/-- What a fence of a kind and scope awaits, of the accesses before it (R208): a fence of MODULE scope or narrower waits
on no peer (R209). A returning atomic is both a store and a load. -/
def State.newFence (s : State) (kind : BitVec 2) (scope : BitVec 3) : Fence :=
  let wide := decide (5 ≤ scope.toNat)
  let c := s.core
  let loads := c.lands.filter fun l =>
    (match l.kind with
     | .fixed => false
     | .sfu _ => false
     | _ => true) && !l.arrived && (wide || !s.loadAway l)
  let posted := c.stores.filter fun p => wide || !s.postedAway p
  { id := c.nextId, kind := kind, scope := scope,
    loads := if kind = 1 then []
      else loads.map (·.id) ++ (posted.filter (·.isLoad)).map (·.id) ++
        (c.spawns.filter fun x => wide || !x.parts.any s.isAway).map (·.id),
    stores := if kind = 0 then [] else (posted.filter fun p => !p.isLoad).map (·.id),
    remotes := if !wide then []
      else (c.remotes.filter fun r => r.into.isNone && ((bearing r.kind && kind != 0) ||
        ((r.land.isSome || !bearing r.kind) && kind != 1))).map (·.id) }

/-- What a fence orders beyond what R208 makes it await: a release covers the task's earlier loads too (R245), and at PANEL
and SYSTEM scope what the task has acquired from others (R248), for which the model takes every access of another task that
is held or awaits a peer at this moment (DEDUCED, log entry 18). It holds what the fence holds, and no module counts as
lost for it. -/
def State.orderFence (s : State) (id : Nat) (kind : BitVec 2) (scope : BitVec 3) : Fence :=
  let own := s.newFence 0 scope
  let others := decide (5 ≤ scope.toNat ∧ kind ≠ 0)
  { id := id, kind := kind, scope := scope, order := true, stores := [],
    loads := if kind = 1 then own.loads else [],
    remotes := (if kind = 1 then own.remotes else []) ++
      (if others then (s.others ++ s.slots.map fun p => p.2.core).flatMap fun c =>
        (c.remotes.filter fun r => r.into.isNone).map (·.id) else []),
    past := if others then s.others.flatMap Core.heldIds else [] }

/-- FENCE SC, MODULE, which every atomic on a CHECKED page has before and after it (R251, R263); it is kept only where
it has something to hold. `own`: the landing of the atomic it stands before. -/
def State.scModule (s : State) (own : Option Nat) : State :=
  let g := s.newFence 3 4
  let f := { g with loads := g.loads.filter fun i => own != some i }
  if f.blocks s.core then s.onCore fun c => { c with fences := c.fences ++ [f], nextId := c.nextId + 1 } else s

/-- A store issues (R199): performed, or held by fences. -/
def State.issueStore (s : State) (p : Piece) (data : List Byte) : State :=
  let holds := s.core.holders false
  let id := s.core.nextId
  let post := fun (t : State) (act : Deferred) =>
    t.onCore fun c => { c with nextId := id + 1, stores := c.stores ++ [{ id := id, acc := id, left := s.memWait, holds := holds, act := act }] }
  if holds.isEmpty then
    (match s.physKind p.pa with
     | .peer _ => s.doStore p data
     | _ => post (s.doStore p data) .done)
  else post s (.store p data)

/-- An atomic issues (R210, R213): performed, or held by fences. -/
def State.issueRelaxed (s : State) (op : AtomicOp) (p : Piece) (b d : Word) (nbv : BitVec 8) (ret : Option Nat) : State :=
  let holds := s.core.holders false
  let id := s.core.nextId
  let post := fun (t : State) (act : Deferred) =>
    t.onCore fun c => { c with nextId := id + 1, stores := c.stores ++ [{ id := id, acc := id, left := s.memWait, holds := holds, act := act }] }
  if holds.isEmpty then
    (match s.physKind p.pa, ret with
     | .peer _, _ => s.doAtomic op p b d nbv ret s.core.pc
     | _, some _ => s.doAtomic op p b d nbv ret s.core.pc
     | _, none => post (s.doAtomic op p b d nbv none s.core.pc) .done)
  else
    let s1 := post s (.atomic op p b d nbv ret s.core.pc)
    match ret with
    | some i => s1.onLanding i fun l => { l with holds := holds }
    | none => s1

/-- An atomic issues: on a CHECKED page it is SC at MODULE scope (R251, R263), elsewhere relaxed. -/
def State.issueAtomic (s : State) (op : AtomicOp) (p : Piece) (b d : Word) (nbv : BitVec 8) (ret : Option Nat) : State :=
  if p.chk then ((s.scModule ret).issueRelaxed op p b d nbv ret).scModule none else s.issueRelaxed op p b d nbv ret

/-- A line is written back: its bytes are in memory already, and the slice's copy is clean (R214). -/
def State.cleanLine (s : State) (line : Nat) : State :=
  match Sparse.find s.llc line with
  | some _ => { s with llc := Sparse.set s.llc line false }
  | none => s

/-- CLWB or CLINV acts on its line, which is touched from the core's die (R214, R340). -/
def State.cacheOp (s : State) (p : Piece) (evict : Bool) : State :=
  if s.physKind p.pa = .hbm then
    (let t := s.home (some (s.core.id / 80)) p
     if evict then t.evictLine (s.canon p.pa / 64) else t.cleanLine (s.canon p.pa / 64))
  else s

/-- Perform what a freed posted access waited to do. -/
def State.perform (s : State) (p : Posted) : State :=
  let drop := fun (t : State) => t.onCore fun c =>
    { c with stores := c.stores.filter fun x => x.id != p.id,
             remotes := c.remotes.map fun r => if s.nextReq ≤ r.id ∧ r.land = none then { r with acc := some p.acc } else r,
             fences := if t.nextReq = s.nextReq then c.fences
               else c.fences.map fun f => f.joins ((f.stores ++ f.loads).contains p.id) s.nextReq }
  let posted := fun (t : State) => t.onCore fun c =>
    { c with stores := c.stores.map fun x => if x.id = p.id then { x with act := .done, left := s.memWait } else x }
  match p.act with
  | .done => s
  | .load q =>
    (match s.physKind q.pa with
     | .peer _ => drop (s.sendRemote q (.load q.n) none none)
     | _ => drop (s.fill q false))
  | .cache q evict => posted (s.cacheOp q evict)
  | .store q data =>
    (match s.physKind q.pa with
     | .peer _ => drop (s.doStore q data)
     | _ => posted (s.doStore q data))
  | .atomic op q b d nbv ret pc =>
    (match s.physKind q.pa, ret with
     | .peer _, _ => drop (s.doAtomic op q b d nbv ret pc)
     | _, some _ => drop (s.doAtomic op q b d nbv ret pc)
     | _, none => posted (s.doAtomic op q b d nbv none pc))

/-! Engines' transfers (R218, R225, R253, R281). -/

/-- The access that a request of the task is a part of has a name below one. -/
def Remote.before (r : Remote) (after : Nat) : Bool :=
  r.into.isNone && ((r.land.map (·.1)).or r.acc).all fun n => decide (n < after)

/-- An access of the core that precedes a point of its program, given by the next access's name there, has not been
performed: fences hold it, a peer has not answered it, or it is to be issued again (R52, R253). What a captured task is to
issue again is not awaited: it reads memory as it will stand then (R52). -/
def Core.unperformed (c : Core) (after : Nat) : Bool :=
  (c.lands.any fun l => decide (l.id < after) && (!l.holds.isEmpty || (c.st != .captured && c.reissue.contains l.id))) ||
    (c.stores.any fun p => decide (p.id < after) && !p.holds.isEmpty) ||
    (c.spawns.any fun x => decide (x.id < after)) ||
    (c.fences.any fun f => decide (f.id < after) && !f.past.isEmpty) ||
    c.remotes.any fun r => r.before after

/-- The part of an access that starts at a translated address. -/
def mkPiece (va : Word) (pa n : Nat) (leaf : Word) (keyid : BitVec 16) : Piece :=
  { va := va, pa := pa, n := n, key := leafKey leaf keyid, loc := leaf.getLsbD 7 && !leafChecked leaf,
    chk := leafChecked leaf }

/-- The pieces of an access. -/
def pieces (keyid : BitVec 16) (l : List Span) : List Piece := l.map fun p => mkPiece p.va p.pa p.n p.leaf keyid

/-- The parts of `n` bytes at an address under a translation, up to the first that fails. -/
def partsBy (x : Word → Except Trap (Nat × Word × Nat)) (keyid : BitVec 16) : Nat → Word → Nat → List Piece × Option Trap
  | 0, _, _ => ([], none)
  | fuel + 1, va, n =>
    if n = 0 then ([], none)
    else
      match x va with
      | .error t => ([], some t)
      | .ok (pa, leaf, size) =>
        let k := min n (size - va.toNat % size)
        let r := partsBy x keyid fuel (va + BitVec.ofNat 64 k) (n - k)
        (mkPiece va pa k leaf keyid :: r.1, r.2)

/-- The parts of `n` bytes as the copy engine of the core in focus translates them; kinds 6 and 7 read and write. -/
def State.vparts (s : State) (ctx keyid : BitVec 16) (kind : BitVec 3) (va : Word) (n : Nat) : List Piece × Option Trap :=
  partsBy (fun a => s.engineXlate ctx a kind) keyid (n / 65536 + 2) va n

/-- What the engine has of a part: its bytes, up to the first that fails, and the trap of that one. A peer's part has been
brought by the request for it (R218). -/
def State.partBytes (s : State) (into : Nat) (p : Piece) : List Byte × Option Trap :=
  match s.peerAt p.pa with
  | some _ =>
    (match s.core.fetched.find? fun f => f.into == into && f.va == p.va with
     | some f => (f.data, f.bad)
     | none => ([], none))
  | none =>
    match s.badLine p.pa p.n p.key with
    | some line =>
      let m := 64 * line - s.canon p.pa
      (s.physRead p.pa m p.key, some { cause := 0x0D, addr := p.va + BitVec.ofNat 64 m })
    | none => (s.physRead p.pa p.n p.key, none)

/-- The bytes of parts in order, up to the first that fails. -/
def State.partsBytes (s : State) (into : Nat) : List Piece → List Byte × Option Trap
  | [] => ([], none)
  | p :: l =>
    let x := s.partBytes into p
    match x.2 with
    | some t => (x.1, some t)
    | none =>
      let r := s.partsBytes into l
      (x.1 ++ r.1, r.2)

/-- Read `n` bytes at a virtual address with the copy engine: the bytes before the first that fails, and its trap. -/
def State.vread (s : State) (ctx keyid : BitVec 16) (into : Nat) (va : Word) (n : Nat) : List Byte × Option Trap :=
  let d := s.vparts ctx keyid 6 va n
  let r := s.partsBytes into d.1
  (r.1, r.2.or d.2)

/-- The parts that lie in peers' memory and have not been brought. -/
def State.toFetch (s : State) (into : Nat) (l : List Piece) : List Piece :=
  l.filter fun p => (s.peerAt p.pa).isSome && !s.core.fetched.any fun f => f.into == into && f.va == p.va

/-- Ask the peers for parts. -/
def State.askFor (s : State) (into : Nat) (l : List Piece) : State :=
  l.foldl (fun t p => t.sendRemote p (.load p.n) none (some into)) s

/-- Requests of an engine are unanswered. -/
def Core.awaits (c : Core) (into : Nat) : Bool := c.remotes.any fun r => r.into == some into

/-- The reads of parts by the copy engine of the core in focus, as the TLBs and the caches see them (R326, R342). -/
def State.sawRead (s : State) (ctx : BitVec 16) (l : List Piece) : State :=
  l.foldl (fun t p => (t.engineWalked ctx p.va 6).engineRead (some (t.core.id / 80)) p) s

/-- Write bytes over parts with the copy engine of the core in focus; a peer's leave as requests (R218, R366). -/
def State.writePieces (s : State) (ctx : BitVec 16) (into : Nat) : List Piece → List Byte → State
  | [], _ => s
  | p :: l, bs =>
    let t := s.engineWalked ctx p.va 7
    let u := match s.peerAt p.pa with
      | some _ => t.sendRemote p (.store (bs.take p.n)) none (some into)
      | none => (t.physWrite p.pa (bs.take p.n) p.key).engineWrote (some (t.core.id / 80)) p
    u.writePieces ctx into l (bs.drop p.n)

/-! The record read of SPAWN (R147, R297, R298). -/

/-- The record with the parent's CONTEXT and KEYID (R147, R298). -/
def childRecord (p : Launch) (bs : List Byte) : List Byte := bs.take 16 ++ (p.record.drop 16).take 4 ++ bs.drop 20

/-- What an engine's request is for: the record of the child with a serial. -/
def spawnInto (serial : BitVec 32) : Nat := 4294967296 + serial.toNat

/-- A spilled child's record is written at its position of its parent's ring (R298). -/
def State.writeRing (s : State) (p : Launch) (pos : Nat) (bs : List Byte) : State :=
  let va := BitVec.ofNat 64 (p.f 0x58 8 + 256 * pos)
  match s.sysXlate p.context va 1 with
  | .ok (pa, leaf, _) =>
    let x := mkPiece va pa bs.length leaf p.keyid
    ((s.walked p.context va).physWrite pa bs x.key).engineWrote none x
  | .error _ => s

/-- Perform a SPAWN's record read (R147): parts in peers' memory are asked for first. The child's checks count from here
(R297); a failing piece is noted with the child, and MEMORY_ERROR is raised in the parent. -/
def State.readSpawn (s : State) (x : SpawnRead) : State :=
  let into := spawnInto x.serial
  let ask := s.toFetch into x.parts
  if !ask.isEmpty then s.askFor into ask
  else
    let r := s.partsBytes into x.parts
    let s1 := (x.parts.foldl (fun (t : State) p => t.fill p false) s).onCore fun c =>
      { c with spawns := c.spawns.filter fun y => y.id != x.id }.forget into
    let s2 := match r.2 with
      | some t => if t.cause = 0x0D then s1.raiseB s1.core.id { cause := 0x10, addr := x.va, aux := x.pc } else s1
      | none => s1
    match s.core.task.bind fun t => s.launch t.serial, s.launch x.serial with
    | some p, some l =>
      let bs := childRecord p (r.1 ++ List.replicate (256 - r.1.length) 0)
      let s3 := s2.onLaunch x.serial fun l =>
        { l with record := bs, readErr := r.2.map fun t => (t.addr - x.va).toNat, unread := false }
      if l.place = .spilled then s3.writeRing p l.ringPos bs else s3
    | _, _ => s2

/-! Fences end (R208, R209). -/

/-- Perform the held access with a name: a posted one, a load, or a SPAWN's read. -/
def State.performId (s : State) (id : Nat) : State :=
  match s.core.stores.find? fun p => p.id == id with
  | some p => s.perform p
  | none =>
    match s.core.lands.find? fun l => l.id == id with
    | some l => if l.parts.isEmpty then s else s.doLoad id l.parts
    | none =>
      match s.core.spawns.find? fun x => x.id == id with
      | some x => s.readSpawn x
      | none => s

/-- A fence ends (R208, R209): the accesses it alone still held are performed in program order; lost modules are
marked. -/
def State.endFence (s : State) (f : Fence) (lost : List Nat) : State :=
  let off := fun (l : List Nat) => l.filter (· != f.id)
  let last := fun (l : List Nat) => l.contains f.id && (off l).isEmpty
  let freedL := (s.core.lands.filter fun l => last l.holds && !l.parts.isEmpty).map (·.id)
  let freedS := (s.core.stores.filter fun p => last p.holds).map (·.id)
  let freedX := (s.core.spawns.filter fun x => last x.holds).map (·.id)
  let s1 := s.onCore fun c =>
    { c with fences := c.fences.filter fun g => g.id != f.id,
             lands := c.lands.map fun l => { l with holds := off l.holds },
             stores := c.stores.map fun p => { p with holds := off p.holds },
             spawns := c.spawns.map fun x => { x with holds := off x.holds } }
  let s2 := ((freedL ++ freedS ++ freedX).insertionSort (· ≤ ·)).foldl (fun t id => t.performId id) s1
  if lost.isEmpty then s2
  else s2.setFstat (lost.foldl (fun (x : BitVec 128) j => x ||| BitVec.ofNat 128 (2 ^ (64 + j))) 1)

/-- Everything a fence awaits has completed (R208). -/
def Fence.ready (f : Fence) (c : Core) : Bool :=
  f.remotes.isEmpty && f.past.isEmpty && !(c.lands.any fun l => f.loads.contains l.id && !l.arrived) &&
    !(c.stores.any fun p => (f.stores ++ f.loads).contains p.id) && !c.spawns.any fun x => f.loads.contains x.id

/-- FENCE_COMPLETE (R208, R209). -/
def execFenceComplete (id : Nat) (s : State) : Out :=
  .next (match s.core.fences.find? fun f => f.id == id with
    | some f => if f.ready s.core then s.endFence f f.lost else s
    | none => s)

/-- FENCE_TIMEOUT (R209): 200 µs after its issue a PANEL or SYSTEM fence completes; a module whose answer it still
awaits is lost for it. -/
def execFenceTimeout (id : Nat) (s : State) : Out :=
  .next (match s.core.fences.find? fun f => f.id == id with
    | some f =>
      if 5 ≤ f.scope.toNat ∧ 660000 ≤ f.age then
        s.endFence f (if f.order then []
          else f.lost ++ (s.core.remotes.filter fun r => f.remotes.contains r.id).map (·.module))
      else s
    | none => s)

/-- STORE_ACK (R199): a posted store that has been performed is acknowledged. -/
def execStoreAck (id : Nat) (s : State) : Out :=
  .next (s.onCore fun c =>
    { c with stores := c.stores.filter fun p => !(p.id == id && p.act == .done && p.holds.isEmpty) })

/-! Landings (R6, R49 to R51, R60, R155 to R157, R201). -/

/-- DATA_ARRIVAL (R49, R201): the data waits in its entry, with or without an uncorrectable error. -/
def execDataArrival (id : Nat) (err : Bool) (s : State) : Out :=
  .next (s.onLanding id fun l =>
    if l.awaits.isEmpty && l.holds.isEmpty then
      { l with wait := none,
               err := if err then l.err.or (some ((l.parts.map (·.va)).headD 0)) else l.err }
    else l)

/-- The value a landing writes: sign-extended for LDS8 to LDS32. -/
def Landing.value (l : Landing) : Vec :=
  match l.kind with
  | .load _ n true =>
    let x := l.data.toNat % 2 ^ (8 * n)
    if 2 ^ (8 * n) ≤ 2 * x then BitVec.ofNat 1024 (2 ^ 64 + x - 2 ^ (8 * n)) else BitVec.ofNat 1024 x
  | _ => l.data

/-- A landing takes effect: its register is written, its entry freed, RSIG updated, its arrival made; an uncorrectable
error is raised at the next boundary, its value indeterminate (R201), and so is that of a request that ended without its
data (R366, R371). -/
def State.land (s : State) (l : Landing) : State :=
  let data := if l.err.isSome || l.lost then BitVec.ofNat 1024 (s.free (268435456 + l.id)) else l.value
  let s1 := s.onCore fun c =>
    { c with lands := c.lands.filter fun x => x.id != l.id, r := c.r.land l.dst data l.wm,
             rsigV := match l.rsig with
               | some u => c.rsigV ++ [u]
               | none => c.rsigV }
  let s2 := match l.arrive with
    | some b => s1.arriveA s1.core.id b none
    | none => s1
  match l.err with
  | some a => s2.raiseB s2.core.id { cause := 0x10, addr := a, aux := l.pc }
  | none => s2

/-- LANDING (R6, R51): a result whose landing cycle has come, and whose data has arrived, is written. -/
def execLanding (id : Nat) (s : State) : Out :=
  .next (match s.core.lands.find? fun l => l.id == id with
    | some l => if l.left = 0 ∧ l.arrived = true then s.land l else s
    | none => s)

/-- SFU_START (R157): the unit starts a waiting operation; its result is ready 24 cycles on. -/
def execSfuStart (id : Nat) (s : State) : Out :=
  .next (s.onLanding id fun l =>
    match l.kind with
    | .sfu false => { l with kind := .sfu true, wait := some 24 }
    | _ => l)

/-- SFU_RESULT (R157): the result of an operation is ready and is written. -/
def execSfuResult (id : Nat) (s : State) : Out :=
  .next (match s.core.lands.find? fun l => l.id == id with
    | some l =>
      (match l.kind with
       | .sfu true => if l.left = 0 ∧ l.wait = some 0 then s.land l else s
       | _ => s)
    | none => s)

/-! Scratchpad reads on their way (R205, R206, R332, R334). -/

/-- The scratchpad byte address of a row. -/
def rowAddr (r : Int) : Word := BitVec.ofInt 64 (64 * r)

/-- One cycle more under write-assist (R332). -/
def State.waCycles (s : State) : Nat := bit (s.cluster (s.core.id / 8)).wa

/-- The first uncorrectable row among n (R334). -/
def Core.firstBadRow (c : Core) (rows : List Nat) : Option Word :=
  (rows.find? c.rowBad).map fun r => rowAddr (r : Int)

/-- The bank of a row (R330). -/
def rowBank (r : Nat) : Nat := 8 * (r / 12288) + r % 8

/-- The largest number of distinct rows in one bank (R332). -/
def mostInBank (rows : List Nat) : Nat :=
  let u := rows.dedup
  (List.range 16).foldl (fun k b => max k (u.filter fun r => rowBank r == b).length) 0

/-- The memory slots move rows through the shared ports, two of a bank in a cycle (R331, R332). -/
def State.usePort (s : State) (rows : List Nat) : State :=
  let u := rows.dedup
  s.onCore fun c =>
    { c with port := c.port ++ (List.range 16).flatMap fun b =>
        (u.filter fun r => rowBank r == b).zipIdx.map fun x => (b, x.2 / 2) }

/-- `n` rows from one on. -/
def rowRun (r n : Nat) : List Nat := (List.range n).map (r + ·)

/-- A bank's shared port has a row left over in this cycle (R331). -/
def Core.portRoom (c : Core) (b : Nat) : Bool := decide ((c.port.filter fun p => p == (b, 0)).length < 2)

/-- The shared port moves a row in this cycle. -/
def Core.takePort (c : Core) (row : Nat) : Core := { c with port := c.port ++ [(rowBank row, 0)] }

/-- A lower rank's requests in this cycle: each row whose bank has one left over moves, the others wait (R331). That it
presents its first 64 at once, in the order of its bytes, is not given (DESIGN CHOICE, log entry 122). The rows that wait. -/
def Core.serve (c : Core) (rows : List Nat) : Core × List Nat :=
  let r := (rows.take 64).foldl (fun (x : Core × List Nat) row =>
    if x.1.portRoom (rowBank row) then (x.1.takePort row, x.2) else (x.1, x.2 ++ [row])) (c, [])
  (r.1, r.2 ++ rows.drop 64)

/-- Of `n` rows from one on, how many the ports move in this cycle, in ascending order (R331, R345). -/
def Core.serveRun (c : Core) (row : Nat) : Nat → Core × Nat
  | 0 => (c, 0)
  | n + 1 =>
    if c.portRoom (rowBank row) then
      (let r := (c.takePort row).serveRun (row + 1) n
       (r.1, r.2 + 1))
    else (c, 0)

/-- The cycles of a gather to its data, without write-assist (R332). -/
def gatherCycles (base : Word) (offs : Vec) : Nat :=
  6 + ceilDiv (mostInBank ((List.range 32).map fun i => gatherAddr base (elt offs 32 i) / 64)) 2 - 1

/-- The first address of a gather that meets an uncorrectable word (R201, R334). -/
def Core.gatherBad (c : Core) (base : Word) (offs : Vec) : Option Word :=
  (((List.range 32).map fun i => gatherAddr base (elt offs 32 i)).find? c.byteBad).map (BitVec.ofNat 64 ·)

end Sys2Proof.Machine
end

