-- ==== Sys2Proof/Machine/Scalar.lean ====
section
/-! DEFINITION. Scalar, predicate and control instructions (05, R127 to R151), but for SPAWN and STAMP's family of waits
(Sync). Each reads its sources at issue and takes effect at commit (R127). -/

namespace Sys2Proof.Machine

/-- An SR-format result (R129). -/
def scalarRR (o : SROp) (s : State) (f : Word → Word → Word) : Out :=
  runSlot o.h s fun t => t.wrS o.rd (f (s.rdS o.ra) (s.rdS o.rb))

/-- An SI-format result (R130). -/
def scalarRI (o : SIOp) (s : State) (f : Word → BitVec 6 → Word) : Out :=
  runSlot o.h s fun t => t.wrS o.rd (f (s.rdS o.ra) o.imm)

/-- A compare of two registers (R134). -/
def compareRR (o : CmpOp) (s : State) (f : Word → Word → Bool) : Out :=
  runSlot o.h s fun t => t.wrP o.pd (f (s.rdS o.ra) (s.rdS o.rb))

/-- A compare with an immediate (R134). -/
def compareRI (o : CmpIOp) (s : State) (f : Word → BitVec 6 → Bool) : Out :=
  runSlot o.h s fun t => t.wrP o.pd (f (s.rdS o.ra) o.imm)

/-- A predicate operation (R135). -/
def predOp (o : PredOp) (s : State) (f : Bool → Bool → Bool) : Out :=
  runSlot o.h s fun t => t.wrP o.pd (f (s.rdP o.pa) (s.rdP o.pb))

/-- Signed quotient, truncated; −1 for a zero divisor; −2^63 / −1 wraps to −2^63 (R129). -/
def divs (a b : Word) : Word := if b = 0 then BitVec.allOnes 64 else BitVec.ofInt 64 (a.toInt.tdiv b.toInt)
/-- Unsigned quotient; all ones for a zero divisor (R129). -/
def divu (a b : Word) : Word := if b = 0 then BitVec.allOnes 64 else BitVec.ofNat 64 (a.toNat / b.toNat)
/-- Unsigned remainder; a for a zero divisor (R129). -/
def remu (a b : Word) : Word := if b = 0 then a else BitVec.ofNat 64 (a.toNat % b.toNat)
/-- The high half of the signed product (R129). -/
def mulh (a b : Word) : Word := BitVec.ofInt 64 (a.toInt * b.toInt / 18446744073709551616)
/-- The high half of the unsigned product (R129). -/
def mulhu (a b : Word) : Word := BitVec.ofNat 64 (a.toNat * b.toNat / 18446744073709551616)
/-- The number of leading zero bits (R129). -/
def clz64 (a : Word) : Nat := if a = 0 then 64 else 63 - Nat.log2 a.toNat
/-- NOP: its only effect is the arrival of its A bit, which its guard decides (R61). -/
def execNop (o : NopOp) (s : State) : Out := .next (s.arriveNow (o.h.a && s.guard o.h))
/-- NOP of the V class (R61). -/
def execNopV (o : NopVOp) (s : State) : Out := .next (s.arriveNow o.a)

/-- ADD (R129). -/
def execAdd (o : SROp) (s : State) : Out := scalarRR o s fun a b => a + b
/-- SUB (R129). -/
def execSub (o : SROp) (s : State) : Out := scalarRR o s fun a b => a - b
/-- MUL (R129). -/
def execMul (o : SROp) (s : State) : Out := scalarRR o s fun a b => a * b
/-- MULH (R129). -/
def execMulh (o : SROp) (s : State) : Out := scalarRR o s mulh
/-- MULHU (R129). -/
def execMulhu (o : SROp) (s : State) : Out := scalarRR o s mulhu
/-- DIVS (R129). -/
def execDivs (o : SROp) (s : State) : Out := scalarRR o s divs
/-- DIVU (R129). -/
def execDivu (o : SROp) (s : State) : Out := scalarRR o s divu
/-- REMU (R129). -/
def execRemu (o : SROp) (s : State) : Out := scalarRR o s remu
/-- AND (R129). -/
def execAnd (o : SROp) (s : State) : Out := scalarRR o s fun a b => a &&& b
/-- OR (R129). -/
def execOr (o : SROp) (s : State) : Out := scalarRR o s fun a b => a ||| b
/-- XOR (R129). -/
def execXor (o : SROp) (s : State) : Out := scalarRR o s fun a b => a ^^^ b
/-- ANDN (R129). -/
def execAndn (o : SROp) (s : State) : Out := scalarRR o s fun a b => a &&& ~~~b
/-- SHL: the count is b[5:0] (R129). -/
def execShl (o : SROp) (s : State) : Out := scalarRR o s fun a b => a <<< fld b 0 6
/-- SHR (R129). -/
def execShr (o : SROp) (s : State) : Out := scalarRR o s fun a b => a >>> fld b 0 6
/-- SAR (R129). -/
def execSar (o : SROp) (s : State) : Out := scalarRR o s fun a b => a.sshiftRight (fld b 0 6)
/-- ROL (R129). -/
def execRol (o : SROp) (s : State) : Out := scalarRR o s fun a b => a.rotateLeft (fld b 0 6)
/-- MIN (R129). -/
def execMin (o : SROp) (s : State) : Out := scalarRR o s fun a b => if b.slt a then b else a
/-- MAX (R129). -/
def execMax (o : SROp) (s : State) : Out := scalarRR o s fun a b => if a.slt b then b else a
/-- MINN (R129). -/
def execMinn (o : SROp) (s : State) : Out := scalarRR o s fun a b => if b.ult a then b else a
/-- MAXN (R129). -/
def execMaxn (o : SROp) (s : State) : Out := scalarRR o s fun a b => if a.ult b then b else a
/-- CLZ (R129). -/
def execClz (o : SR2Op) (s : State) : Out := runSlot o.h s fun t => t.wrS o.rd (BitVec.ofNat 64 (clz64 (s.rdS o.ra)))
/-- POPC (R129). -/
def execPopc (o : SR2Op) (s : State) : Out :=
  runSlot o.h s fun t => t.wrS o.rd (BitVec.ofNat 64 (popc 64 (s.rdS o.ra).toNat))
/-- SEL: the guard selects and never suppresses (R133). -/
def execSel (o : SROp) (s : State) : Out :=
  .next ((s.wrS o.rd (if s.guard o.h then s.rdS o.ra else s.rdS o.rb)).arriveNow o.h.a)
/-- BEXT (R132). -/
def execBext (o : SROp) (s : State) : Out := scalarRR o s bextOf
/-- BINS reads rd (R132). -/
def execBins (o : SROp) (s : State) : Out := scalarRR o s fun a b => binsOf (s.rdS o.rd) a b

/-- ADDI (R130). -/
def execAddi (o : SIOp) (s : State) : Out := scalarRI o s fun a i => a + sext6 i
/-- SHLI (R130). -/
def execShli (o : SIOp) (s : State) : Out := scalarRI o s fun a i => a <<< i.toNat
/-- SHRI (R130). -/
def execShri (o : SIOp) (s : State) : Out := scalarRI o s fun a i => a >>> i.toNat
/-- SARI (R130). -/
def execSari (o : SIOp) (s : State) : Out := scalarRI o s fun a i => a.sshiftRight i.toNat
/-- ANDI (R130). -/
def execAndi (o : SIOp) (s : State) : Out := scalarRI o s fun a i => a &&& sext6 i
/-- ORI (R130). -/
def execOri (o : SIOp) (s : State) : Out := scalarRI o s fun a i => a ||| sext6 i
/-- XORI (R130). -/
def execXori (o : SIOp) (s : State) : Out := scalarRI o s fun a i => a ^^^ sext6 i
/-- ROLI (R130). -/
def execRoli (o : SIOp) (s : State) : Out := scalarRI o s fun a i => a.rotateLeft i.toNat

/-- MOVI (R131). -/
def execMovi (o : SKOp) (s : State) : Out := runSlot o.h s fun t => t.wrS o.rd (sext12 o.imm)
/-- MOVK (R131). -/
def execMovk (o : SKOp) (s : State) : Out :=
  runSlot o.h s fun t => t.wrS o.rd ((s.rdS o.rd <<< 12) ||| o.imm.setWidth 64)
/-- ADDK (R131). -/
def execAddk (o : SKOp) (s : State) : Out := runSlot o.h s fun t => t.wrS o.rd (s.rdS o.rd + sext12 o.imm)

/-- CMPEQ (R134). -/
def execCmpeq (o : CmpOp) (s : State) : Out := compareRR o s condEq
/-- CMPNE (R134). -/
def execCmpne (o : CmpOp) (s : State) : Out := compareRR o s condNe
/-- CMPLT (R134). -/
def execCmplt (o : CmpOp) (s : State) : Out := compareRR o s condLt
/-- CMPLE (R134). -/
def execCmple (o : CmpOp) (s : State) : Out := compareRR o s condLe
/-- CMPLTN (R134). -/
def execCmpltn (o : CmpOp) (s : State) : Out := compareRR o s condLtn
/-- CMPLEN (R134). -/
def execCmplen (o : CmpOp) (s : State) : Out := compareRR o s condLen
/-- CMPEQI (R134). -/
def execCmpeqi (o : CmpIOp) (s : State) : Out := compareRI o s fun a i => condEq a (sext6 i)
/-- CMPNEI (R134). -/
def execCmpnei (o : CmpIOp) (s : State) : Out := compareRI o s fun a i => condNe a (sext6 i)
/-- CMPLTI (R134). -/
def execCmplti (o : CmpIOp) (s : State) : Out := compareRI o s fun a i => condLt a (sext6 i)
/-- CMPGEI (R134). -/
def execCmpgei (o : CmpIOp) (s : State) : Out := compareRI o s fun a i => condGe a (sext6 i)
/-- CMPLTNI (R134). -/
def execCmpltni (o : CmpIOp) (s : State) : Out := compareRI o s fun a i => condLtn a (zext6 i)
/-- CMPGENI (R134). -/
def execCmpgeni (o : CmpIOp) (s : State) : Out := compareRI o s fun a i => condGen a (zext6 i)

/-- PAND (R135). -/
def execPand (o : PredOp) (s : State) : Out := predOp o s fun a b => a && b
/-- POR (R135). -/
def execPor (o : PredOp) (s : State) : Out := predOp o s fun a b => a || b
/-- PXOR (R135). -/
def execPxor (o : PredOp) (s : State) : Out := predOp o s fun a b => a != b
/-- PANDN (R135). -/
def execPandn (o : PredOp) (s : State) : Out := predOp o s fun a b => a && !b
/-- PGET: bit i is p[i] (R136). -/
def execPget (o : RdOp) (s : State) : Out :=
  runSlot o.h s fun t =>
    t.wrS o.rd (BitVec.ofNat 64 ((List.range 48).foldl (fun n i => n + bit (s.rdP (BitVec.ofNat 6 i)) * 2 ^ i) 0))
/-- PSET: p1 to p47 take bits 1 to 47 (R136). -/
def execPset (o : RaOp) (s : State) : Out :=
  runSlot o.h s fun t => t.onRegs fun r =>
    { r with p := ((s.rdS o.ra).setWidth 48 &&& ~~~1#48) ||| (r.p &&& 1#48) }

/-- BR (R138). -/
def execBr (o : BrOp) (s : State) : Out :=
  runSlot o.h s fun t => t.noteNext (.jump (branchTarget s.core.pc o.disp))
/-- CALL: the link is the address of the next bundle (R138). -/
def execCall (o : BrOp) (s : State) : Out :=
  runSlot o.h s fun t => (t.wrS 63 (s.core.pc + 32)).noteNext (.jump (branchTarget s.core.pc o.disp))
/-- JR (R138). -/
def execJr (o : RaOp) (s : State) : Out := runSlot o.h s fun t => t.noteNext (.jump (toPc (s.rdS o.ra)))
/-- CALLR reads its source before the link is written (R138). -/
def execCallr (o : RaOp) (s : State) : Out :=
  runSlot o.h s fun t => (t.wrS 63 (s.core.pc + 32)).noteNext (.jump (toPc (s.rdS o.ra)))

/-- Arm loop counter N with a count, or skip its body when the count is 0 (R137, R139). -/
def armLoop (s t : State) (n : BitVec 2) (count : BitVec 32) (len : BitVec 10) : State :=
  let start := s.core.pc + 32
  let stop := s.core.pc + BitVec.ofNat 64 (32 * (len.toNat + 1))
  (t.onRegs fun r => { r with lc := r.lc.set n.toNat { count := count, start := start, stop := stop } n.isLt }).noteNext
    (if count = 0 then .skip (stop + 32) else .armed)

/-- LOOP takes its count from s[ra][31:0] (R139). -/
def execLoop (o : LoopOp) (s : State) : Out := runSlot o.h s fun t => armLoop s t o.lc ((s.rdS o.ra).setWidth 32) o.len
/-- LOOPI takes its count from imm6 (R139). -/
def execLoopi (o : LoopIOp) (s : State) : Out := runSlot o.h s fun t => armLoop s t o.lc (o.imm.setWidth 32) o.len

/-- LBRK leaves an armed loop and the loops armed inside it, as the counters stood at issue (R57, R141). Where a LOOP or
LOOPI of the same bundle arms the counter of such an inner loop, both write it, and R141 does not say which stands: the
later slot's does (DESIGN CHOICE, log entry 92). -/
def execLbrk (o : LcOp) (s : State) : Out :=
  runSlot o.h s fun t =>
    let l := s.core.iss.lc[o.lc.toNat]'o.lc.isLt
    if l.count = 0 then t.noteNext (.jump (s.core.pc + 32))
    else
      let inside := fun (x : Lc) =>
        decide (l.start.toNat ≤ x.start.toNat ∧ x.start.toNat ≤ l.stop.toNat ∧ l.start.toNat ≤ x.stop.toNat ∧
          x.stop.toNat ≤ l.stop.toNat)
      let clear := fun (i : Nat) (x : Lc) =>
        if i = o.lc.toNat ∨ (s.core.iss.lc.toArray[i]?.any fun y => y.count != 0 && inside y) then { x with count := 0 } else x
      (t.onRegs fun r => { r with lc := r.lc.mapFinIdx fun i x _ => clear i x }).noteNext (.jump (l.stop + 32))

/-- A cause that only the other kind of agent may raise (R128). -/
def privilege (s : State) (bad : Bool) : Option State := if bad then some (s.trapSlot { cause := 0x14 }) else none

/-- EXIT on the core in focus: it drains, and the first pending class-B cause is its status (R142, R225). -/
def State.exitTask (s : State) : State :=
  let held := s.core.pend ++ s.core.faulted.map (·.2)
  let s1 := s.onCore fun c => { c.dropFaults with st := .draining, note := c.note.join .exit, pend := [] }
  match held with
  | [] => s1
  | t :: ts =>
    let u := ts.foldl (fun a b => firstCause (some a) b) t
    (s1.faultArises s.core.id u).onCore fun c => { c with status := some u }

/-- EXIT (R142). -/
def execExit (o : Hdr) (s : State) : Out := runChecked o s (fun t => privilege t t.mgmt) State.exitTask
/-- TRAP: the cause with imm12 in AUX (R143). -/
def execTrap (o : ImmOp) (s : State) : Out :=
  runChecked o.h s (fun t => some (t.trapSlot { cause := 0x02, aux := o.imm.setWidth 64 })) id
/-- RETT: the return of the management core's handler (R144). -/
def execRett (o : Hdr) (s : State) : Out := runChecked o s (fun t => privilege t (!t.mgmt)) State.trapReturn
/-- WFI: after commit the core waits until an enabled source is pending (R145). -/
def execWfi (o : Hdr) (s : State) : Out :=
  runChecked o s (fun t => privilege t (!t.mgmt)) fun t =>
    if t.reg Key.mien &&& t.reg Key.mipend = 0 then t.onCore fun c => { c with wfi := true } else t

/-! Special registers (R25 to R44, R148). -/

/-- CPYST (R44). -/
def Core.cpyst (c : Core) : Word :=
  let faulted := c.cq.find? fun e => match e.phase with | .faulted _ => true | _ => false
  let busy := c.cq.any fun e =>
    match e.phase with
    | .flying _ => true
    | .paged _ _ => true
    | .asking => true
    | .sending _ _ => true
    | .tree => true
    | .landed => e.kind != .seqrun
    | _ => false
  BitVec.ofNat 64 (c.cq.length + 128 * bit busy +
    (match faulted with
     | some e => 256 + 512 * e.pos.toNat
     | none => 0))

/-- QST (R44): BOUND, INEMPTY, OUTFULL, ERR of each FIFO. At first issue every FIFO is empty, and it reads INEMPTY 1 as R44 has
it, where R25's table gives 0 (DEDUCED, log entry 116). -/
def Core.qst (c : Core) : Word :=
  BitVec.ofNat 64 ((List.range 16).foldl (fun n i =>
    match c.fifo[i]? with
    | some f => n + 16 ^ i * (bit f.peer.isSome + 2 * bit f.inb.isEmpty + 4 * bit (decide (64 ≤ f.outb.length)) +
        8 * bit f.err)
    | none => n) 0)

/-- CAPAT: PEER 5, HOST 3, HBM 5, SCRATCH 6 (R44). -/
def capat : Word := 0x5356

/-- What SRD reads from a special register at issue (R25, R148). -/
def readSreg (s : State) (n : Nat) : Word :=
  let r := s.core.iss
  if n = 0x000 then r.taskid
  else if n = 0x001 then r.launchid
  else if n = 0x002 then r.levels
  else if 0x008 ≤ n ∧ n ≤ 0x00F then (r.coord.getD (n - 8) 0).setWidth 64
  else if n = 0x010 then r.nbv.setWidth 64
  else if n = 0x011 then r.detm.setWidth 64
  else if n = 0x012 then r.rsig.setWidth 64
  else if n = 0x013 then r.ftsel.setWidth 64
  else if n = 0x014 then r.vrm.setWidth 64
  else if n = 0x015 then r.tkceil.setWidth 64
  else if n = 0x016 then r.tkval.setWidth 64
  else if n = 0x017 then r.abar.setWidth 64
  else if n = 0x018 then r.fbase
  else if n = 0x019 then r.ssn.setWidth 64
  else if n = 0x01A then capat
  else if n = 0x01B then r.discf.setWidth 64
  else if 0x01C ≤ n ∧ n ≤ 0x01F then (r.disc.getD (n - 0x1C) 0).setWidth 64
  else if 0x020 ≤ n ∧ n ≤ 0x02F then (r.ft.getD (n - 0x20) 0).setWidth 64
  else if 0x030 ≤ n ∧ n ≤ 0x037 then r.trc.getD (n - 0x30) 0
  else if n = 0x038 then r.thnd
  else if n = 0x03A then r.fstat.setWidth 64
  else if n = 0x03B then (r.fstat >>> 64).setWidth 64
  else if n = 0x03C then r.tdisc.setWidth 64
  else if n = 0x03D then (if (s.arrayOf s.core.id).solo then (r.tdisc >>> 64).setWidth 64 else 0)
  else if n = 0x03E then s.core.cpyst
  else if n = 0x03F then s.core.qst
  else if n = 0x040 then r.fepoch
  else r.tbudget

/-- The registers a task cannot write (R25). -/
def sregRO (n : Nat) : Bool :=
  n ≤ 0x002 || (0x008 ≤ n && n ≤ 0x010) || n == 0x019 || n == 0x01A || (0x030 ≤ n && n ≤ 0x037) || n == 0x03E ||
  n == 0x03F || n == 0x040 || n == 0x041

/-- The registers the management core implements: TRC0 to TRC7 and THND (R26). -/
def sregMgmt (n : Nat) : Bool := 0x030 ≤ n && n ≤ 0x038

/-- What SWR writes: the RW and W1C fields of a register (R26, R29, R33, R35, R37, R39, R42). -/
def writeSreg (s : State) (n : Nat) (x : Word) : State :=
  s.onRegs fun r =>
    if n = 0x011 then (if r.detm.getLsbD 0 then { r with detm := setFld r.detm 1 1 (fld x 1 1) } else r)
    else if n = 0x012 then { r with rsig := x.setWidth 32 }
    else if n = 0x013 then { r with ftsel := x.setWidth 3 }
    else if n = 0x014 then { r with vrm := x.setWidth 3 }
    else if n = 0x015 then { r with tkceil := x.setWidth 32 }
    else if n = 0x016 then { r with tkval := x.setWidth 32 }
    else if n = 0x017 then { r with abar := x.setWidth 8 &&& 0x9F }
    else if n = 0x018 then { r with fbase := x }
    else if n = 0x01B then { r with discf := w1c r.discf (x.setWidth 5) }
    else if 0x01C ≤ n ∧ n ≤ 0x01F then { r with disc := r.disc.setIfInBounds (n - 0x1C) (x.setWidth 32 &&& 0xFFFF7FFF) }
    else if 0x020 ≤ n ∧ n ≤ 0x02F then { r with ft := r.ft.setIfInBounds (n - 0x20) (x.setWidth 32 &&& 0x07FFFFFF) }
    else if n = 0x038 then { r with thnd := x &&& 0x01FFFFFFFFFFFFE0 }
    else if n = 0x03A then { r with fstat := w1c r.fstat ((x &&& 0xF).setWidth 128) }
    else if n = 0x03B then { r with fstat := w1c r.fstat (x.setWidth 128 <<< 64) }
    else if n = 0x03C then { r with tdisc := setFld r.tdisc 0 64 x.toNat }
    else if n = 0x03D then { r with tdisc := setFld r.tdisc 64 64 x.toNat }
    else r

/-- SRD (R148); on the management core only TRC0 to TRC7 and THND exist (R26). -/
def execSrd (o : SKOp) (s : State) : Out :=
  runChecked o.h s (fun t => privilege t (t.mgmt && !sregMgmt o.imm.toNat)) fun t => t.wrS o.rd (readSreg s o.imm.toNat)

/-- SWR (R26, R148): a write to an RO register traps PRIVILEGE; a write to THND clears INH (R308). -/
def execSwr (o : SKOp) (s : State) : Out :=
  runChecked o.h s (fun t => privilege t (sregRO o.imm.toNat || (t.mgmt && !sregMgmt o.imm.toNat))) fun t =>
    let u := writeSreg t o.imm.toNat (s.rdS o.rd)
    if o.imm = 0x038 ∧ s.mgmt = false then u.onCore fun c => { c with inh := false } else u

/-- HINT: advice, and no state (R151). -/
def execHint (o : ImmOp) (s : State) : Out := runSlot o.h s id

/-- RDCYC (R53, R149). -/
def execRdcyc (o : RdOp) (s : State) : Out := runSlot o.h s fun t => t.wrS o.rd s.core.cyc
/-- RDMCC (R53, R149). -/
def execRdmcc (o : RdOp) (s : State) : Out := runSlot o.h s fun t => t.wrS o.rd s.mcc
/-- RDPTP: all ones while the clock has not been set (R149). -/
def execRdptp (o : RdOp) (s : State) : Out :=
  runSlot o.h s fun t =>
    t.wrS o.rd (if s.rfld Key.ptpctl 2 1 = 1 then BitVec.ofNat 64 s.ptp else BitVec.allOnes 64)

end Sys2Proof.Machine
end

