-- ==== Sys2Proof/Machine/Sync.lean ====
section
/-! DEFINITION. Sync: STAMP and its overrun (R150), tokens and timelines (R228 to R230), barriers (R231 to R236) and
supersteps (R237, R238, R264, R405). -/

namespace Sys2Proof.Machine

/-- The bundle is held by a wait on barrier `n`, level `n - 32`, or module timeline `n - 64`. -/
def State.holdOn (s : State) (n : Nat) : State := s.hold.onCore fun c => { c with waitOn := c.waitOn ++ [n] }

/-! STAMP (R150). -/

/-- The target T = FBASE + 16 × imm12, modulo 2^64 (R150). -/
def stampTarget (fbase : Word) (imm : BitVec 12) : Word := fbase + 16#64 * imm.setWidth 64

/-- MCC has passed T + 15 under DETM.ARM (R150). -/
def overrun (arm : Bool) (mcc t : Word) : Bool := arm && decide (t.toNat + 15 < mcc.toNat)

/-- STAMP holds its bundle until MCC reaches the target, and traps FRAME_OVERRUN when the window is missed (R150). -/
def execStamp (o : ImmOp) (s : State) : Out :=
  let t := stampTarget s.core.iss.fbase o.imm
  runChecked o.h s (fun u =>
    if u.mgmt then privilege u true
    else if overrun (s.core.iss.detm.getLsbD 1) s.mcc t then some (u.trapEarly { cause := 0x0A, aux := t })
    else if s.mcc.toNat < t.toNat then
      some (u.hold.onCore fun c => { c with stamps := c.stamps ++ [(s.slot, t)] })
    else none) id

/-- FRAME_OVERRUN (R150): MCC has passed the window of a target of the held bundle, which traps at its boundary with
the lower overrun target in TRC7. -/
def execFrameOverrun (s : State) : Out :=
  .next (match s.core.stamps.filter fun x => overrun (s.core.r.detm.getLsbD 1) s.mcc x.2 with
    | [] => s
    | x :: l =>
      let low := l.foldl (fun t y => if y.2.toNat < t.toNat then y.2 else t) x.2
      let slots := (x :: l).foldl (fun (m : BitVec 8) y => m ||| BitVec.ofNat 8 (2 ^ y.1)) 0
      s.takeTrap (stamp s s.core { cause := 0x0A, slots := slots, aux := low }))

/-! Tokens and timelines (R225, R229, R230). -/

/-- The copy fault that TWAIT takes: the entry's signal token is in the mask (R225). -/
def Core.tokenFault (c : Core) (mask : BitVec 8) : Option Trap :=
  c.cq.findSome? fun e =>
    match e.phase, e.sig with
    | .faulted t, some k => if mask.getLsbD k.toNat then some t else none
    | _, _ => none

/-- TWAIT waits until every token in its mask is at least 1, and decrements them (R229). The test is made on the values
that an SWR to TKVAL of the bundle leaves. -/
def execTwait (o : TokOp) (s : State) : Out :=
  runChecked o.h s (fun u =>
    match u.core.tokenFault o.mask with
    | some t => some (u.trapEarly t)
    | none => if tokReady u.core.r.tkval o.mask then none else some u.hold)
    fun u => u.onRegs fun r => { r with tkval := tokDec r.tkval o.mask }

/-- TSIG increments every token in its mask, or traps TOKEN_OVERFLOW (R21, R229). -/
def execTsig (o : TokOp) (s : State) : Out :=
  runChecked o.h s (fun u =>
    let m := tokOver u.core.r.tkval u.core.r.tkceil o.mask
    if m = 0 then none else some (u.trapSlot { cause := 0x09, aux := BitVec.ofNat 64 m }))
    fun u => u.onRegs fun r => { r with tkval := tokInc r.tkval o.mask }

/-- The counter a timeline index is bound to (R23, R280). -/
def State.counter (s : State) : TlBind → Word
  | .unbound => 0
  | .copy => BitVec.ofNat 64 s.core.ctl
  | .module t => Sparse.get 0 s.timelines t.toNat

/-- TLWAIT waits until the bound counter is at least s[ra] (R230); on the copy timeline it takes the fault of an entry
that its value reaches (R225). -/
def execTlwait (o : TlOp) (s : State) : Out :=
  runChecked o.h s (fun u =>
    let v := s.rdS o.ra
    let b := s.core.tl[o.tl.toNat]'o.tl.isLt
    let fault := if b = .copy then u.core.cq.findSome? fun e =>
        match e.phase with
        | .faulted t => if e.num ≤ v.toNat then some t else none
        | _ => none
      else none
    match b, fault with
    | .unbound, _ => some (u.trapSlot { cause := 0x08, aux := v })
    | _, some t => some (u.trapEarly t)
    | .copy, none => if v.toNat ≤ (u.counter b).toNat then none else some (u.holdOn (64 + 4096))
    | .module t, none => if v.toNat ≤ (u.counter b).toNat then none else some (u.holdOn (64 + t.toNat))) id

/-! Barriers (R231 to R236). -/

/-- BARRIER_ORPHANED at a waiting or arriving instruction (R233, R238). -/
def orphaned (n : Nat) : Trap := { cause := 0x0B, aux := BitVec.ofNat 64 n }

/-- The launch of the core in focus may use a barrier: its domain is no wider than that of the outermost co-resident
level (R276). -/
def State.barrierUsable (s : State) (b : BitVec 5) : Bool :=
  match s.core.task with
  | none => false
  | some t =>
    match s.launch t.serial with
    | none => false
    | some l =>
      match l.gangLevel with
      | some n => decide (barDom b ≤ l.domain n)
      | none => false

/-- Initialise a barrier: counts, phase 0, every member's record cleared, and the waiting members orphaned (R232,
R235). -/
def State.initBarrier (s : State) (b : BitVec 5) (e : BitVec 16) (q : BitVec 8) : State :=
  match s.core.task with
  | none => s
  | some t =>
    let dom := barInst b s.core.id
    let x : Barrier := { serial := t.serial, b := b, dom := dom, e := e, q := q, arrived := 0,
                         live := BitVec.ofNat 16 (s.liveCount t.serial b dom), broken := false, p := 0 }
    let clear := fun (c : Core) =>
      { c with arr := c.arr.set b.toNat none b.isLt, firstReady := c.firstReady.set b.toNat none b.isLt,
               relWait := c.relWait.filter fun p => p.1 != b.toNat,
               orphan := if c.waitOn.contains b.toNat then c.orphan ++ [b.toNat] else c.orphan }
    let s1 := s.setBarrier x.test
    { s1.mapCores fun c => if isMember t.serial b dom c then clear c else c with
      slots := s1.slots.map fun p =>
        if isMember t.serial b dom { p.2.core with st := .captured } then (p.1, { p.2 with core := clear p.2.core })
        else p }

/-- BINIT (R232, R276). -/
def execBinit (o : BinitOp) (s : State) : Out :=
  let v := s.rdS o.ra
  runChecked o.h s (fun u =>
    if fld v 24 40 ≠ 0 ∨ fld v 0 16 = 0 ∨ u.barrierUsable o.b = false then
      some (u.trapSlot { cause := 0x08, aux := v })
    else none) fun u =>
    match u.barrier o.b with
    | some x =>
      if x.broken = false ∧ x.e.toNat = fld v 0 16 ∧ x.q.toNat = fld v 16 8 then u
      else u.initBarrier o.b (BitVec.ofNat 16 (fld v 0 16)) (BitVec.ofNat 8 (fld v 16 8))
    | none => u.initBarrier o.b (BitVec.ofNat 16 (fld v 0 16)) (BitVec.ofNat 8 (fld v 16 8))

/-- BARR arrives at its commit (R233). -/
def execBarr (o : BarOp) (s : State) : Out :=
  runChecked o.h s (fun u =>
    match u.arriveOn u.core.id o.b with
    | some _ => none
    | none => some (u.trapSlot (orphaned o.b.toNat))) fun u =>
    match u.arriveOn u.core.id o.b with
    | some t => t
    | none => u

/-- A wait for the phase of a barrier to pass `ref` (R234 to R236): none when it has, or the state in which the bundle
traps or waits. -/
def State.phaseWait (s : State) (b : BitVec 5) (ref : BitVec 16) : Option State :=
  match s.barrier b with
  | none => some (s.trapEarly (orphaned b.toNat))
  | some x =>
    if x.p ≠ ref then
      (if s.core.relWait.any fun p => p.1 == b.toNat then some (s.holdOn b.toNat) else none)
    else if x.broken then some (s.trapEarly (orphaned b.toNat))
    else some (s.holdOn b.toNat)

/-- The wait on a barrier has been ended by a BINIT: the trap takes the mark away (R232). -/
def State.orphanTrap (s : State) (n : Nat) : Option State :=
  if s.core.orphan.contains n then
    some ((s.onCore fun c => { c with orphan := c.orphan.filter (· != n) }).trapEarly (orphaned n))
  else none

/-- The record and the first-ready mark of a barrier are cleared when its wait issues (R234), which is an acquire
(R246). -/
def State.clearWait (s : State) (b : BitVec 5) : State :=
  (s.onCore fun c =>
    { c with arr := c.arr.set b.toNat none b.isLt, firstReady := c.firstReady.set b.toNat none b.isLt }).acquire

/-- Mark the phase at which a waiting bundle first became ready (R234). -/
def State.markReady (s : State) (b : BitVec 5) (p : BitVec 16) : State :=
  s.onCore fun c => { c with firstReady := c.firstReady.set b.toNat (some (c.pc, p)) b.isLt }

/-- The first-ready mark of this bundle. -/
def State.readyMark (s : State) (b : BitVec 5) : Option (BitVec 16) :=
  match s.core.firstReady[b.toNat]'b.isLt with
  | some (pc, p) => if pc = s.core.pc then some p else none
  | none => none

/-- BWAIT (R234). -/
def execBwait (o : BarOp) (s : State) : Out :=
  runChecked o.h s (fun u =>
    match u.orphanTrap o.b.toNat, u.barrier o.b with
    | some t, _ => some t
    | none, none => some (u.trapSlot (orphaned o.b.toNat))
    | none, some x =>
      match u.core.arr[o.b.toNat]'o.b.isLt, u.readyMark o.b with
      | some p, _ => u.phaseWait o.b p
      | none, some p => u.phaseWait o.b p
      | none, none => (u.markReady o.b x.p).phaseWait o.b x.p) fun u => u.clearWait o.b

/-- BSYNC arrives when its bundle first becomes ready without a record of the current phase, and waits (R233, R234). -/
def execBsync (o : BarOp) (s : State) : Out :=
  runChecked o.h s (fun u =>
    match u.orphanTrap o.b.toNat, u.barrier o.b with
    | some t, _ => some t
    | none, none => some (u.trapSlot (orphaned o.b.toNat))
    | none, some x =>
      match u.core.arr[o.b.toNat]'o.b.isLt, u.readyMark o.b with
      | some p, some _ => u.phaseWait o.b p
      | rec, _ =>
        if rec = some x.p then (u.markReady o.b x.p).phaseWait o.b x.p
        else
          match ((u.markReady o.b x.p).holdOn o.b.toNat).arriveOn u.core.id o.b with
          | some t => some t
          | none => some (u.trapSlot (orphaned o.b.toNat))) fun u => u.clearWait o.b

/-- BARRIER_RELEASE_DELIVERY (R236): the releases that have reached the core are delivered; its bundle may issue. -/
def execBarrierReleaseDelivery (s : State) : Out :=
  .next (s.onCore fun c => { c with relWait := c.relWait.filter fun p => p.2 != 0 })

/-- WAIT_SATISFIED (R46): a waiting context becomes active; its bundle is evaluated again and issues if every wait is
satisfied. -/
def execWaitSatisfied (s : State) : Out :=
  .next (if s.core.st = .waiting then s.onCore fun c => { c with st := .active } else s)

/-- FREEZE_END (R7, R46): a frozen context whose awaited condition has cleared becomes active; its bundle is evaluated
again. -/
def execFreezeEnd (s : State) : Out :=
  .next (if s.core.st = .frozen ∧ s.core.lateFrozen = false ∧ s.core.pf = none then
    s.onCore fun c => { c with st := .active }
  else s)

/-! Supersteps (R12, R237, R238). -/

/-- The tasks of one instance of level n: the product of the extents from n inward (R271). -/
def Launch.span (l : Launch) (n : Nat) : Nat :=
  ((List.range l.count).filter fun m => decide (n ≤ m)).foldl (fun p m => p * l.extent m) 1

/-- The instance of level n that holds a task (R271). -/
def Launch.inst (l : Launch) (n index : Nat) : Nat := index / max 1 (l.span n)

/-- A byte of the record. -/
def Launch.b (l : Launch) (off : Nat) : Nat := l.f off 1

/-- Under a PANEL level the launch covers only COORD0 = PCOORD (R274). -/
def Launch.panel (l : Launch) : Bool := decide (0 < l.count) && l.domain 0 == 5
/-- The INDEX of its first task on this module, and of the first past its last. -/
def Launch.first (l : Launch) : Nat := if l.panel then l.b 0x17 * l.span 1 else 0
def Launch.past (l : Launch) : Nat := if l.panel then (l.b 0x17 + 1) * l.span 1 else l.span 0

/-- Every context that is bound: on a core, or in a save slot. -/
def State.ctxs (s : State) : List Core :=
  (s.cores.filter fun c => c.task.isSome && c.st != .free) ++ s.slots.map fun p => p.2.core

/-- The context is a member of a superstep instance (R238). -/
def State.inStep (s : State) (key : StepKey) (c : Core) : Bool :=
  match c.task, s.launch key.serial with
  | some t, some l => t.serial == key.serial && l.inst key.level t.index == key.inst
  | _, _ => false

/-- Change every context of a superstep instance, captured ones included. -/
def State.onMembers (s : State) (key : StepKey) (f : Core → Core) : State :=
  { s.mapCores fun c => if s.inStep key c && c.st != .free then f c else c with
    slots := s.slots.map fun p => if s.inStep key p.2.core then (p.1, { p.2 with core := f p.2.core }) else p }

/-- A superstep instance. -/
def State.stepInst (s : State) (key : StepKey) : StepInst :=
  match s.steps.find? fun x => x.key == key with
  | some x => x
  | none => { key := key, arrived := [] }

/-- Replace a superstep instance. -/
def State.setStep (s : State) (x : StepInst) : State :=
  { s with steps := (s.steps.filter fun y => y.key != x.key) ++ [x] }

/-- When every live member has arrived, the communication step begins (R237). -/
def State.stepCheck (s : State) (key : StepKey) : State :=
  let x := s.stepInst key
  let ms := s.ctxs.filter (s.inStep key)
  if !x.comm && !ms.isEmpty && ms.all fun c => c.task.any fun t => x.arrived.contains t.index then
    s.setStep { x with comm := true }
  else s

/-- A superstep fails: every member that has arrived at it traps BARRIER_ORPHANED, and SSN stays (R238). So does one whose
handler runs meanwhile, which R238 does not name: it traps when it comes back to its SSTEP (DESIGN CHOICE, log entry 111). -/
def State.stepFail (s : State) (key : StepKey) : State :=
  let x := s.stepInst key
  let mine := fun (a : Nat × BitVec 32 × Word) => a.1 == key.level && a.2.1 == x.steps
  (s.onMembers key fun c =>
    if c.ssArr.any mine then
      { c with ssArr := c.ssArr.filter fun a => !mine a, orphan := c.orphan ++ [32 + key.level] }
    else c).setStep { x with arrived := [], comm := false }

/-- The superstep arrival of the task in focus at an instance: recorded with its phase, and counted (R237). -/
def State.stepArrive (s : State) (key : StepKey) (index : Nat) : State :=
  let x := s.stepInst key
  ((s.onCore fun c =>
    { c with ssArr := c.ssArr.filter (fun a => a.1 != key.level) ++ [(key.level, x.steps, c.pc)] }).setStep
      { x with arrived := x.arrived ++ [index] }).stepCheck key

/-- SSTEP n makes the superstep arrival and waits for the release (R237). The arrival is recorded as for BSYNC: a bundle
that finds a record of the current phase does not arrive again, one that finds an older phase's does (R234). -/
def execSstep (o : LvOp) (s : State) : Out :=
  let n := o.n.toNat
  runChecked o.h s (fun u =>
    match u.core.task with
    | none => some (u.trapSlot { cause := 0x08 })
    | some t =>
      match u.launch t.serial with
      | none => some (u.trapSlot { cause := 0x08 })
      | some l =>
        if l.count ≤ n ∨ l.cores n = false ∨ l.sstep n = false then some (u.trapSlot { cause := 0x08 })
        else
          let key : StepKey := { serial := t.serial, level := n, inst := l.inst n t.index }
          let now := (u.stepInst key).steps
          match u.orphanTrap (32 + n), u.core.ssArr.find? fun a => a.1 == n with
          | some x, _ => some x
          | none, some (_, p, pc) =>
            if p = now then
              some ((u.holdOn (32 + n)).onCore fun c =>
                { c with ssArr := c.ssArr.map fun a => if a.1 = n then (n, p, c.pc) else a })
            else if pc ≠ u.core.pc then some ((u.holdOn (32 + n)).stepArrive key t.index)
            else if u.core.relWait.any fun p => p.1 == 32 + n then some (u.holdOn (32 + n))
            else none
          | none, none => some ((u.holdOn (32 + n)).stepArrive key t.index))
    fun u => (u.onCore fun c => { c with ssArr := c.ssArr.filter fun a => a.1 != n }).acquire

/-- A transfer word of the Enlarger's program (R343, R344). -/
def State.transferWord (s : State) (i : Nat) : List Byte := s.agentRead (fld (s.reg Key.enlprog) 5 47 * 32 + 32 * i) 32

/-- The tag of a transfer word: level and step (R344). -/
def wordTag (w : List Byte) : Option (Nat × Nat) :=
  let x := leNat ((w.drop 20).take 4)
  if bits x 31 1 = 1 then some (bits x 28 3, bits x 0 16) else none

/-- Field of a transfer word (R344). -/
def wordField (w : List Byte) (off n : Nat) : Nat := leNat ((w.drop off).take n)

/-- The superstep instance a word's tag names: that of its first receiver (R346). Level 0 has one (R271); where no task of
this module is the first receiver, it is that of the issuing task, of INDEX `from_` (DESIGN CHOICE, log entry 87). -/
def Launch.wordKey (l : Launch) (from_ : Nat) (w : List Byte) (level : Nat) : StepKey :=
  let i := wordField w 12 4
  { serial := l.serial, level := level,
    inst := if level = 0 then 0 else l.inst level (if l.first ≤ i ∧ i < l.past then i else from_) }

/-- A segment still holds a word tagged for a step at an instance (R346): the one in hand, or one still to be read. -/
def State.segTagged (s : State) (l : Launch) (g : Segment) (key : StepKey) (step : Nat) : Bool :=
  (List.range (g.count - g.word)).any fun i =>
    let w := match i, g.read with
      | 0, some w => w
      | _, _ => s.transferWord (g.first + g.word + i)
    match wordTag w with
    | some (level, n) => n == step % 65536 && l.wordKey g.index w level == key
    | none => false

/-- The address of an entry of the collective-group table (R405). -/
def State.groupAt (s : State) (n : Nat) : Nat := fld (s.reg Key.cgbase) 11 41 * 2048 + 32 * n

/-- The valid entries of the collective-group table (R405). -/
def State.groups (s : State) : List Nat :=
  (List.range 64).filter fun n => bits (leNat (s.agentRead (s.groupAt n + 4) 1)) 7 1 == 1

/-- SERIAL, LEVEL and MEMBERS of an entry. -/
def State.groupOf (s : State) (n : Nat) : Nat × Nat × Nat :=
  (leNat (s.agentRead (s.groupAt n) 4), bits (leNat (s.agentRead (s.groupAt n + 4) 1)) 0 3,
   leNat (s.agentRead (s.groupAt n + 8) 8))

/-- The least of a list. -/
def least : List Nat → Option Nat
  | [] => none
  | x :: l => some (l.foldl min x)

/-- The collective-group table is read at its home slices (R335, R405). -/
def State.sawGroups (s : State) : State := s.agentLook (s.groupAt 0) 2048

/-- A member of a group, this module among them, has announced its STEP: MINSTEP and MAXSTEP of the launch's groups become
the least and the greatest of what the members have announced (R405). An announcement counts for the launch whose SERIAL
here is the one it carries; that peers give a launch the same SERIAL is not said (DESIGN CHOICE, log entry 112). -/
def State.noteStep (s0 : State) (pos : Nat) (serial : BitVec 32) (v : Nat) : State :=
  let s := s0.sawGroups
  let said := (s.announced.filter fun x => !(x.1 == serial && x.2.1 == pos)) ++ [(serial, pos, v)]
  let s1 : State := { s with announced := said }
  s1.groups.foldl (fun (t : State) n =>
    let g := t.groupOf n
    if g.1 = serial.toNat ∧ bits g.2.2 pos 1 = 1 then
      let l := (said.filter fun x => x.1 == serial && bits g.2.2 x.2.1 1 == 1).map (·.2.2)
      t.agentWrite (t.groupAt n + 20) (leBytes 4 ((least l).getD 0) ++ leBytes 4 (l.foldl max 0))
    else t) s1

/-- Update the collective-group entries of a level: STEP is the least SSN of its instances, and every member hears of it
(R405). -/
def State.collective (s0 : State) (serial : BitVec 32) (level : Nat) : State :=
  let s := s0.sawGroups
  let cs := s.ctxs.filter fun c => c.task.any fun t => t.serial == serial
  let step := cs.foldl (fun (n : Nat) c => min n c.r.ssn.toNat) 4294967295
  let mine := s.groups.filter fun n => (s.groupOf n).1 == serial.toNat && (s.groupOf n).2.1 == level
  let t := mine.foldl (fun (u : State) n =>
    let mem := (u.groupOf n).2.2
    (List.range 64).foldl (fun v j =>
      if bits mem j 1 = 1 ∧ j ≠ s.pos then v.send (.step j serial (BitVec.ofNat 32 step)) else v)
      (u.agentWrite (u.groupAt n + 16) (leBytes 4 step))) s
  if mine.isEmpty then t else t.noteStep s.pos serial step

/-- The communication step of an instance has ended: no word tagged for it is left, every member's posted stores are
performed, and no member is captured, or held in place, which captures it where it is (R237, R238, R346, R399). -/
def State.commDone (s : State) (key : StepKey) : Bool :=
  let ms := s.ctxs.filter (s.inStep key)
  let ssn := match ms with
    | c :: _ => c.r.ssn
    | [] => 0
  (s.stepInst key).comm &&
    (s.segs.all fun g => !(g.serial == key.serial && !g.steps.contains (key, ssn) &&
      (s.launch key.serial).any fun l => s.segTagged l g key ssn.toNat)) &&
    (ms.all fun c => c.st != .captured && c.st != .held && (c.stores.all fun p => p.act == .done) &&
      c.remotes.all fun r => r.serial.isNone || r.into.isSome) &&
    !(s.slots.any fun p => s.inStep key p.2.core)

/-- The launch's highest SSN, raised by a release (R264): the tags 128 or more steps below it are voided. -/
def State.raiseTop (s : State) (serial : BitVec 32) : State :=
  let new := (s.ctxs.filter fun c => c.task.any fun t => t.serial == serial).foldl
    (fun (n : BitVec 32) c => if n.toNat < c.r.ssn.toNat then c.r.ssn else n) 0
  match s.launch serial with
  | some l =>
    if l.top.toNat < new.toNat then
      { s.onLaunch serial fun l => { l with top := new } with
        tags := s.tags.filter fun g => !(g.2.serial == serial && decide (g.2.step.toNat + 128 ≤ new.toNat)) }
    else s
  | none => s

/-- SUPERSTEP_RELEASE (R237, R264): SSN.STEP of every member increments, grants lapse, tags 128 steps old are voided, and
the release starts towards each waiting member. -/
def execSuperstepRelease (key : StepKey) (s : State) : Out :=
  .next (if s.commDone key then
    let dom := match s.launch key.serial with
      | some l => l.domain key.level
      | none => 0
    let x := s.stepInst key
    ((s.onMembers key fun c =>
      { c with r := { c.r with ssn := c.r.ssn + 1 }, grants := [],
               relWait := if c.waitOn.contains (32 + key.level) then c.relWait ++ [(32 + key.level, relCycles dom)]
                          else c.relWait }).setStep { x with arrived := [], comm := false, steps := x.steps + 1 }).raiseTop
      key.serial |>.collective key.serial key.level
  else s)

end Sys2Proof.Machine
end

