-- ==== Sys2Proof/Machine/Launch.lean ====
section
/-! DEFINITION. Launch: launch records and their checks (R271 to R281, R446), completion (R282 to R284, R288), SPAWN
(R146, R147, R297 to R300), selection, hand-off and binding (R286 to R290), retirement (R46, R293, R301) and
cancellation (R295, R296). -/

namespace Sys2Proof.Machine

/-! Records (R277, R278). -/

/-- COORDn of an INDEX (R271). -/
def Launch.coord (l : Launch) (n i : Nat) : Nat := i / max 1 (l.span (n + 1)) % max 1 (l.extent n)

/-- The checks of one level word (R446): the bytes it names, given the domain outside it. -/
def Launch.levelRejects (l : Launch) (n outer : Nat) : List Nat :=
  let w := l.level n
  let off := 0x80 + 8 * n
  let d := l.domain n
  let scope := bits w 36 3
  (if bits w 35 1 + bits w 39 1 ≠ 0 then [off + 4] else []) ++
  (if bits w 40 1 + bits w 42 6 ≠ 0 then [off + 5] else []) ++
  (if l.extent n = 0 ∨ 5 < d ∨ scope = 7 ∨ outer < d ∨ scope < d ∨ (d = 5 ∧ n ≠ 0) ∨
      (l.sstep n = true ∧ l.cores n = false) ∨ (d = 5 ∧ (l.cores n = true ∨ l.sstep n = true ∨ l.ncores n ≠ 0)) ∨
      (d ≤ 4 ∧ domSize d < l.ncores n) then [off] else [])

/-- The level at which the running product of extents first exceeds 2^32 (R446). -/
def Launch.productRejects (l : Launch) : List Nat :=
  match (List.range l.count).find? fun n =>
    decide (4294967296 < ((List.range (n + 1)).foldl (fun p m => p * l.extent m) 1)) with
  | some n => [0x80 + 8 * n]
  | none => []

/-- COR runs from its lowest set bit to the innermost level, and names no level beyond it (R275, R278). -/
def Launch.corOk (l : Launch) : Bool :=
  let n := l.count
  decide (l.b 0x7C < 2 ^ n) &&
    (match l.gangLevel with
     | some g => (List.range n).all fun m => l.cores m == decide (g ≤ m)
     | none => true)

/-- The lowest byte of the first `n` bytes from `off` that is not zero. -/
def Launch.nonzero (l : Launch) (off n : Nat) : List Nat :=
  ((List.range n).filter fun i => l.b (off + i) != 0).map (off + ·)

/-- One byte of a field that must be below `k`. -/
def Launch.under (l : Launch) (off k : Nat) : List Nat := if l.b off < k then [] else [off]

/-- The bytes named by the failing checks of R279 and R446. `clv` is the parent's CHILDLV; `spillOk` says that the spill
range is mapped writable and PINNED. -/
def Launch.rejects (l : Launch) (clv : Option Nat) (spillOk : Bool) : List Nat :=
  let cnt := l.count
  let lv := min cnt 8
  (if l.b 0 % 32 ≠ 0 then [0] else []) ++ l.under 7 2 ++
  (if l.b 8 = 0 ∨ 3 < l.b 8 then [8] else []) ++
  (if 4 ≤ l.b 9 ∨ l.b 9 = 2 then [9] else []) ++
  (if cnt = 0 ∨ 8 < cnt then [0x0A] else []) ++
  l.under 0x0B 8 ++ l.under 0x0C 2 ++ (if l.b 0x0C = 0 then l.under 0x0D 4 else []) ++ l.under 0x0E 8 ++
  (if 32 ≤ l.b 0x0F ∨ bits (l.b 0x0F) 0 2 = 3 then [0x0F] else []) ++
  (if l.f 0x14 2 = 0 ∨ 12288 < l.f 0x14 2 then [0x14] else []) ++
  l.under 0x16 16 ++
  (match clv with
   | some p => if p ≤ l.b 0x16 then [0x16] else []
   | none => []) ++
  (if l.panel then (if l.extent 0 ≤ l.b 0x17 then [0x17] else []) else l.under 0x17 1) ++
  ((List.range 8).filter fun n => decide (bits (l.f 0x1C 4) (4 * n) 4 < bits (l.f 0x18 4) (4 * n) 4)).map
    (fun n => 0x18 + n / 2) ++
  (if l.b 0x20 % 32 ≠ 0 then [0x20] else []) ++ l.under 0x27 2 ++
  ((List.range 4).filter fun n => decide (128 ≤ l.b (0x31 + 4 * n))).map (fun n => 0x31 + 4 * n) ++
  (if bits (l.b 0x49) 4 3 ≠ 0 then [0x49] else []) ++ (if bits (l.b 0x4B) 4 3 ≠ 0 then [0x4B] else []) ++
  l.under 0x58 1 ++ (if l.b 0x60 % 64 ≠ 0 then [0x60] else []) ++
  (if l.f 0x4C 4 ≠ 0 ∧ spillOk = false then [0x58] else []) ++
  (let r := l.f 0x78 2
   let n := l.f 0x7A 2
   let d := l.f 0x14 2
   if n = 0 ∨ r + n ≤ d ∨ (12288 ≤ r ∧ r + n ≤ 12288 + d) then [] else [0x78]) ++
  (if l.corOk then [] else [0x7C]) ++ l.nonzero 0x7D 3 ++
  (List.range lv).flatMap (fun n =>
    l.levelRejects n ((List.range n).foldl (fun m i => min m (l.domain i)) 5)) ++
  l.productRejects ++
  ((List.range 8).filter fun n => decide (lv ≤ n ∧ l.level n ≠ 0)).map (fun n => 0x80 + 8 * n) ++
  (List.range 16).flatMap (fun n =>
    let t := l.f (0xC0 + 2 * n) 2
    (if bits t 14 2 = 3 then [0xC0 + 2 * n] else []) ++ (if bits t 12 2 ≠ 0 then [0xC1 + 2 * n] else []) ++
    (if bits t 14 2 ≠ 2 ∧ bits t 0 12 ≠ 0 then [if bits t 0 8 ≠ 0 then 0xC0 + 2 * n else 0xC1 + 2 * n] else [])) ++
  l.nonzero 0xE0 32

/-! Permitted cores (R273, R275). -/

/-- A logical cluster has a physical one, is not being retired, and its die is not shed (R273, R398, R420, R421). -/
def State.clusterUp (s : State) (c : Nat) : Bool :=
  s.rfld (Key.spare (c / 10)) (17 + c % 10) 1 == 0 && !s.supply.shed.contains (c / 10) &&
    !(s.rfld Key.clret 8 1 == 1 && s.rfld Key.clret 0 7 == c)

/-- The available cores of the module (R273). -/
def State.available (s : State) : List Nat := (List.range 640).filter fun n => s.clusterUp (n / 8)

/-- A set of cores narrowed level by level: allowed cores, and the instance reached: its domain and number. -/
structure Reach where
  allowed : List Nat
  dom : Nat
  k : Nat
  deriving DecidableEq, Repr

/-- The instances of a level's domain inside the one reached that hold an allowed core, ascending (R273). -/
def Reach.insts (r : Reach) (d : Nat) : List Nat :=
  if d = r.dom then [r.k] else
    (r.allowed.map (· / domSize d)).foldl (fun l k => if l.contains k then l else l ++ [k]) []

/-- Enter instance k of a level's domain (R273). -/
def Launch.enter (l : Launch) (n : Nat) (r : Reach) (k : Nat) : Reach :=
  let d := l.domain n
  let a := r.allowed.filter fun c => c / domSize d == k
  let m := l.ncores n
  { allowed := if m = 0 then a else a.filter fun c => decide (c < k * domSize d + m), dom := d, k := k }

/-- One level for a coordinate (R273). -/
def Launch.narrow (l : Launch) (i : Nat) (r : Reach) (n : Nat) : Reach :=
  if l.domain n = 5 then r
  else
    match (r.insts (l.domain n))[l.coord n i % max 1 (r.insts (l.domain n)).length]? with
    | some k => l.enter n r k
    | none => { r with allowed := [] }

/-- The permitted cores of a task, ascending, as fixed at acceptance (R273). -/
def Launch.permitted (l : Launch) (i : Nat) : List Nat :=
  ((List.range l.count).foldl (l.narrow i) { allowed := l.avail, dom := 4, k := 0 }).allowed

/-- Its permitted cores that are available now (R398, R421). -/
def State.permitted (s : State) (l : Launch) (i : Nat) : List Nat :=
  (l.permitted i).filter fun n => s.clusterUp (n / 8)

/-- Assign tasks in INDEX order, each to the lowest permitted core that `free` holds of and that is not yet taken
(R275). -/
def State.assign (s : State) (l : Launch) (free : Nat → Bool) : List Nat → List (Nat × Nat) → Option (List (Nat × Nat))
  | [], acc => some acc
  | i :: is, acc =>
    match (s.permitted l i).find? fun c => free c && !acc.any fun x => x.2 == c with
    | some c => s.assign l free is (acc ++ [(i, c)])
    | none => none

/-- The gang that holds a task (R271, R275). -/
def Launch.gang (l : Launch) (i : Nat) : List Nat :=
  match l.gangLevel with
  | some g => (List.range (l.span g)).map fun k => i / max 1 (l.span g) * l.span g + k
  | none => [i]

/-- Indexes that differ in every way in which placement can differ: each coordinate outside `n` below 640, beyond which
the instances it selects repeat (R273). -/
def Launch.samples (l : Launch) : Nat → List Nat
  | 0 => [0]
  | n + 1 =>
    let d := if l.domain n = 5 then [l.b 0x17] else List.range (min (l.extent n) 640)
    (l.samples n).flatMap fun i => d.map fun c => i + c * l.span (n + 1)

/-- RESOURCE_UNAVAILABLE (R273, R275): a task without a permitted core, or a gang that cannot be placed. -/
def State.unplaceable (s : State) (l : Launch) : Bool :=
  match l.gangLevel with
  | none => (l.samples l.count).any fun i => (s.permitted l i).isEmpty
  | some g =>
    decide (640 < l.span g) ||
      (l.samples g).any fun i => (s.assign l (fun _ => true) (l.gang i) []).isNone

/-! Completion (R282 to R284, R288). -/

/-- The status of a launch that has ended (R283). -/
def Launch.status (l : Launch) : Nat :=
  if l.cancelled then (if l.bound = 0 then 0x02 else 0x03) else if l.failed then 0x01 else 0x00

/-- Seconds and nanoseconds of a PTP time. -/
def ptpBytes (t : Nat) : List Byte × List Byte := (leBytes 6 (t / 1000000000), leBytes 4 (t % 1000000000))

/-- The completion record (R282). `rej` is a status that overrides the launch's own, with its DETAIL. -/
def Launch.record64 (l : Launch) (now : Nat) (rej : Option (Nat × Nat)) : List Byte :=
  let status := match rej with
    | some x => x.1
    | none => l.status
  let f := match rej, l.fault with
    | some x, _ => (0, x.2, 0, 0)
    | none, some (t, i, c) => (t.cause.toNat, t.detail.toNat, i, c)
    | none, none => (0, 0, 0, 0)
  let tsv := l.ptp && l.tsv
  let d := match l.dts with
    | some t => if tsv then t else 0
    | none => 0
  let now := if tsv then now else 0
  leBytes 8 (l.queue.toNat * 4294967296 + l.serial.toNat) ++ leBytes 1 status ++ leBytes 1 f.1 ++ leBytes 1 f.2.1 ++
  leBytes 1 (bit tsv + 2 * bit l.stopped) ++ leBytes 4 f.2.2.1 ++ (ptpBytes d).1 ++ leBytes 2 f.2.2.2 ++
  (ptpBytes d).2 ++ (ptpBytes now).2 ++ (ptpBytes now).1 ++ leBytes 2 l.reruns ++ leBytes 8 l.cycles.toNat ++
  leBytes 4 (l.rsigs.foldl (fun (x : BitVec 32) p => x ^^^ p.2) 0).toNat ++ leBytes 4 l.retired ++ leBytes 8 0

/-- Write the completion record, or post RECORD_LOST (R288). -/
def State.writeRecord (s : State) (l : Launch) (rej : Option (Nat × Nat)) : State :=
  let crec := BitVec.ofNat 64 (l.f 0x60 8)
  if crec = 0 then s
  else
    let lost := s.postEvent { kind := 7, serial := l.serial, context := l.context, va := crec }
    match s.sysXlate l.context crec 1 with
    | .ok (pa, leaf, _) =>
      (match s.physKind pa with
       | .peer _ => lost
       | _ =>
         let x := mkPiece crec pa 64 leaf l.keyid
         ((s.walked l.context crec).physWrite pa (l.record64 s.ptp rej) x.key).engineWrote none x)
    | .error _ => lost

/-- Advance a module timeline to at least a value (R288, R382). -/
def State.raiseTimeline (s : State) (t v : Nat) : State :=
  if (Sparse.get 0 s.timelines t : Word).toNat < v then
    { s with timelines := Sparse.set s.timelines t (BitVec.ofNat 64 v) }
  else s

/-- The requester slots of tasks that were dropped without having issued are free (R367). -/
def State.freeKept (s : State) (l : Launch) : State :=
  l.rqKept.foldl (fun t x => t.putRq x.2.core x.2.slot x.2.next x.2.ackt 0) s

/-- A launch completes (R288): its record, its DONEI timeline, the host's vector; its tags are voided and their lines
unpinned (R264, R341); its barriers, supersteps and pool entry go with it. -/
def State.complete (s : State) (l : Launch) (rej : Option (Nat × Nat)) : State :=
  let s1 := { s with tags := s.tags.filter fun g => g.2.serial != l.serial,
                     pins := s.pins.filter fun p => p.2.serial != l.serial }
  let s2 := (s1.freeKept l).writeRecord l rej
  let s3 := if bits (l.f 0x4A 2) 15 1 = 1 then s2.raiseTimeline (bits (l.f 0x4A 2) 0 12) (l.f 0x50 8) else s2
  let s4 := if l.place = .host ∧ s3.rfld (Key.qring l.queue.toNat) 11 1 = 1 then
      s3.send (.msix (l.queue.toNat / 32) (l.queue.toNat % 32)) else s3
  { s4 with launches := s4.launches.filter fun x => x.serial != l.serial,
            barriers := s4.barriers.filter fun x => x.serial != l.serial,
            steps := s4.steps.filter fun x => x.key.serial != l.serial }

/-- Every task of the launch has retired or been dropped, and none is pending (R301). -/
def Launch.ended (l : Launch) : Bool :=
  l.phase == .accepted && l.live.isEmpty &&
    (l.stopped || l.cancelled || (l.back.isEmpty && decide (l.past ≤ l.cursor)))

/-- Complete a launch if it has ended. -/
def State.completeIfEnded (s : State) (serial : BitVec 32) : State :=
  match s.launch serial with
  | some l => if l.ended then s.complete l none else s
  | none => s

/-! Submission (R289, R381). -/

/-- The host address of a queue's record (R381): its port's host memory. -/
def State.queueRecord (s : State) (q n : Nat) : Nat :=
  let base := fld (s.reg (Key.qring q)) 12 52 * 4096
  let ring := 2 ^ s.rfld (Key.qring q) 0 5
  (if q < 32 then 0x8000000000000 else 0xC000000000000) + (base + 256 * (n % ring)) % 281474976710656

/-- A host queue is served (R285, R315, R351, R388, R422). -/
def State.queueServed (s : State) (q : Nat) : Bool :=
  s.rfld (Key.qctl q) 7 1 == 1 && decide (640 ≤ s.rfld Key.cscount 0 13) && s.rfld Key.bootst 0 3 == 4 &&
    s.rfld Key.bootst 40 8 == 0 && !s.supply.hib

/-- Begin the read of a queue's next record where one waits and none is being read (R381). -/
def State.beginReads (s : State) : State :=
  (List.range 64).foldl (fun t q =>
    if t.rfld (Key.qtail q) 0 32 ≠ t.rfld (Key.qhead q) 0 32 ∧ t.queueServed q = true ∧
        (t.readBusy.any fun x => x.1 == q) = false then { t with readBusy := t.readBusy ++ [(q, 24)] } else t) s

/-- A write of QTAIL (R381): a tail more than a ring ahead of the head is ignored. The read begins in this tick. -/
def State.writeTail (s : State) (q : Nat) (v : Word) : State :=
  let tail := fld v 0 32
  let head := s.rfld (Key.qhead q) 0 32
  if (tail + 4294967296 - head) % 4294967296 ≤ 2 ^ s.rfld (Key.qring q) 0 5 then
    (s.setReg (Key.qtail q) (BitVec.ofNat 64 tail)).beginReads
  else s

/-- QTAIL_WRITE (R381). -/
def execQtailWrite (q : BitVec 6) (v : Word) (s : State) : Out := .next (s.writeTail q.toNat v)

/-- LAUNCH_RECORD_FETCH (R289, R381): the scheduler has read the queue's next record, at its home slices (R335). -/
def execLaunchRecordFetch (q : BitVec 6) (s : State) : Out :=
  let a := s.queueRecord q.toNat (s.rfld (Key.qhead q.toNat) 0 32)
  .next { s.agentLook a 256 with readRec := Sparse.set s.readRec q.toNat (s.agentRead a 256) }

/-- The 64 KB pages of the spill range (R279). -/
def Launch.spillPages (l : Launch) : List Word :=
  let n := l.f 0x4C 4
  let base := l.f 0x58 8
  if n = 0 then []
  else (List.range (ceilDiv (base % 65536 + 256 * n) 65536)).map fun i => BitVec.ofNat 64 (base / 65536 * 65536 + 65536 * i)

/-- A page of the spill range is mapped writable and PINNED (R279). -/
def State.spillPageOk (s : State) (l : Launch) (va : Word) : Bool :=
  match s.sysXlate l.context va 1 with
  | .ok (_, leaf, _) => leafPinned leaf
  | .error _ => false

/-- The spill range is mapped writable and PINNED (R279). -/
def State.spillOk (s : State) (l : Launch) : Bool := l.spillPages.all (s.spillPageOk l)

/-- The walks of the check, up to the first page that fails it, read their entries at their home slices (R326, R335). -/
def State.spillWalked (s : State) (l : Launch) : List Word → State
  | [] => s
  | va :: rest => if s.spillPageOk l va then (s.walked l.context va).spillWalked l rest else s.walked l.context va

/-- The end of the checks on a launch (R273, R275, R279): accepted, rejected, or unplaceable. -/
def State.judge (s0 : State) (l : Launch) (clv : Option Nat) : State :=
  let l := { l with phase := .accepted, avail := s0.available }
  let s := s0.spillWalked l l.spillPages
  match least (l.rejects clv (s.spillOk l)) with
  | some off => ({ s with launches := s.launches ++ [l] }).complete l (some (0x05, off))
  | none =>
    if s.unplaceable l then ({ s with launches := s.launches ++ [l] }).complete l (some (0x04, 0))
    else { s with launches := s.launches ++ [{ l with cursor := l.first }] }

/-- LAUNCH_ACCEPTANCE (R279, R446): the record is checked, and accepted with a LAUNCHID or rejected. -/
def execLaunchAcceptance (src : RecordSource) (s : State) : Out :=
  .next (match src with
    | .queue q =>
      (match Sparse.find s.readRec q.toNat with
       | some bs =>
         let l : Launch := { serial := s.nextSerial, queue := q, record := bs }
         let s1 := { s with nextSerial := s.nextSerial + 1, readRec := Sparse.del s.readRec q.toNat,
                            readBusy := s.readBusy.filter fun x => x.1 != q.toNat }
         (s1.setReg (Key.qhead q.toNat)
           (BitVec.ofNat 64 ((s.rfld (Key.qhead q.toNat) 0 32 + 1) % 4294967296))).judge l none
       | none => s)
    | .child n =>
      (match s.launch n with
       | some l =>
         let s1 := { s with launches := s.launches.filter fun x => x.serial != n }
         (match l.phase, l.readErr with
          | .reading _, some off =>
            ({ s1 with launches := s1.launches ++ [l] }).complete { l with phase := .accepted } (some (0x05, off))
          | .reading _, none =>
            s1.judge { l with dq := some (BitVec.ofNat 3 (l.b 0x0B)) } l.clv
          | _, _ => s)
       | none => s))

/-! SPAWN (R146, R147, R297, R298). -/

/-- Pool entries held (R297). -/
def State.poolUsed (s : State) (reserved : Bool) : Nat :=
  (s.launches.filter fun l => l.place == .pool reserved).length

/-- The checks of SPAWN at issue (R128, R146). -/
def spawnCheck (a : Word) (s : State) : Option State :=
  if s.mgmt then privilege s true
  else if fld a 0 8 ≠ 0 then some (s.trapSlot { cause := 0x08, aux := a })
  else
    match s.reach a 256 4 false with
    | .error t => some t
    | .ok _ => none

/-- A position of a launch's spill ring holds no child (R298). -/
def State.ringFree (s : State) (p : Launch) (pos : Nat) : Bool :=
  !s.launches.any fun l => l.place == .spilled && l.parent == some p.serial && l.ringPos == pos

/-- Place a child: the pool, the parent's spill queue at its tail, or nowhere (R146, R298). -/
def State.placeChild (s : State) (child : Launch) (p : Launch) : Option (Launch × State × Nat) :=
  if s.poolUsed false < 3840 then some ({ child with place := .pool false }, s, 0)
  else if p.f 0x4C 4 ≠ 0 ∧ s.ringFree p p.spillTail = true then
    some ({ child with place := .spilled, ringPos := p.spillTail },
      s.onLaunch p.serial fun p => { p with spillTail := (p.spillTail + 1) % p.f 0x4C 4 }, 1)
  else none

/-- A SPAWN's record read is issued (R147): a release at MODULE scope, so what the task's fences hold is performed before
it, and its later stores after it; and a load, which the fences that hold loads, or an earlier store to its bytes, hold
too. What nothing holds is read now, before any later store of its own bundle (R56). -/
def State.startSpawn (s : State) (serial : BitVec 32) (va : Word) (parts : List Piece) : State :=
  let c := s.core
  let f := { s.newFence 3 4 with kind := 1 }
  let own := f.blocks c
  let x : SpawnRead :=
    { id := c.nextId + 1, serial := serial, va := va, pc := c.pc, parts := parts,
      holds := (c.holders true ++ s.behind parts ++ (if own then [f.id] else [])).dedup }
  let t := s.onCore fun c => { c with spawns := c.spawns ++ [x], nextId := c.nextId + 2,
                                      fences := if own then c.fences ++ [f] else c.fences }
  if x.holds.isEmpty then t.readSpawn x else t

/-- SPAWN at commit: the child is placed, and its record is read, or it is refused (R146, R147). -/
def State.spawn (s : State) (rd : BitVec 6) (a : Word) (l : List Span) : State :=
  let refused := s.wrS rd (BitVec.ofNat 64 (2 ^ 63))
  match s.core.task with
  | none => refused
  | some t =>
    match s.launch t.serial with
    | none => refused
    | some p =>
      let n := s.nextSerial
      let child : Launch :=
        { serial := n, queue := p.queue, parent := some p.serial, parentIndex := t.index, clv := some (p.b 0x16),
          record := [], unread := true }
      match s.placeChild child p with
      | none => refused
      | some (c, u, place) =>
        (({ u with nextSerial := n + 1, launches := u.launches ++ [c] } : State).startSpawn n a (pieces p.keyid l)).wrS rd
          (BitVec.ofNat 64 (4294967296 * place + n.toNat))

/-- SPAWN (R146). -/
def execSpawn (o : SR2Op) (s : State) : Out :=
  let a := s.rdS o.ra
  runChecked o.h s (spawnCheck a) fun t =>
    match t.reach a 256 4 false with
    | .ok l => t.spawn o.rd a l
    | .error u => u

/-- The reads that can be performed: no fence holds them, and nothing they have asked for is awaited. -/
def Core.spawnsDue (c : Core) : List SpawnRead := c.spawns.filter fun x => x.holds.isEmpty && !c.awaits (spawnInto x.serial)

/-- SPAWN_RECORD_READ (R147): the record read of the oldest SPAWN that can be performed. -/
def execSpawnRecordRead (s : State) : Out :=
  .next (match s.core.spawnsDue with
    | x :: _ => s.readSpawn x
    | [] => s)

/-- The child is the oldest spilled one of its parent (R298). -/
def State.oldestSpilled (s : State) (c : Launch) : Bool :=
  match s.launches.find? fun l => l.place == .spilled && l.parent == c.parent with
  | some l => l.serial == c.serial
  | none => false

/-- A spilled child moves into a pool entry: its record is read from its position of the ring, at its home slices, and the
position is then free (R298, R335). Where the parent launch has completed, or the ring is no longer mapped, of which R298
says nothing, the record is the one that was spilled (DESIGN CHOICE, log entry 89). -/
def State.moveIn (s : State) (c : Launch) (reserved : Bool) : State :=
  let kept := (s, c.record, (none : Option Nat))
  let rd := match c.parent.bind s.launch with
    | some p =>
      let va := BitVec.ofNat 64 (p.f 0x58 8 + 256 * c.ringPos)
      (match s.sysXlate p.context va 0 with
       | .ok (pa, leaf, _) =>
         let x := mkPiece va pa 256 leaf p.keyid
         ((s.walked p.context va).engineRead none x, s.physRead pa 256 x.key,
          (s.badLine pa 256 x.key).map fun line => 64 * line - s.canon pa)
       | .error _ => kept)
    | none => kept
  rd.1.onLaunch c.serial fun l =>
    { l with place := .pool reserved, phase := .reading 24, record := rd.2.1, readErr := c.readErr.or rd.2.2 }

/-- SPILL_MOVE (R298): a spilled child moves into a free non-reserved entry, in ring order. -/
def execSpillMove (serial : BitVec 32) (s : State) : Out :=
  .next (match s.launch serial with
    | some l =>
      if l.place = .spilled ∧ l.unread = false ∧ s.poolUsed false < 3840 ∧ s.oldestSpilled l = true then s.moveIn l false
      else s
    | none => s)

/-- The child's parent task waits on the timeline the child will advance (R299). -/
def State.parentBlocked (s : State) (c : Launch) : Bool :=
  bits (c.f 0x4A 2) 15 1 == 1 && s.cores.any fun k =>
    k.st == .waiting && k.waitOn.contains (64 + bits (c.f 0x4A 2) 0 12) &&
      k.task.any fun t => some t.serial == c.parent && t.index == c.parentIndex

/-- RESERVED_ENTRY_GRANT (R299). -/
def execReservedEntryGrant (serial : BitVec 32) (s : State) : Out :=
  .next (match s.launch serial with
    | some l =>
      if l.place = .spilled ∧ l.unread = false ∧ s.poolUsed true < 256 ∧ s.parentBlocked l = true then s.moveIn l true
      else s
    | none => s)

/-! Selection (R286, R287, R290, R319). -/

/-- A launch's queue in the numbering of R287: DQ0 to DQ7 are 64 to 71. -/
def Launch.q (l : Launch) : Nat :=
  match l.dq with
  | some d => 64 + d.toNat
  | none => l.queue.toNat

/-- The launch has tasks to hand over. -/
def Launch.undispatched (l : Launch) : Bool :=
  l.phase == .accepted && !l.stopped && !l.cancelled && (!l.back.isEmpty || decide (l.cursor < l.past))

/-- Its next task, or its next gang; of a gang whose members came back to the queue, those (R271, R286, R291). -/
def Launch.next (l : Launch) : List Nat :=
  match l.back with
  | i :: _ => (l.gang i).filter l.back.contains
  | [] => l.gang l.cursor

/-- The launch waits for the check of its collective group (R406). -/
def State.rejoining (s : State) (serial : BitVec 32) : Bool :=
  s.rejoin.any fun x => leNat (s.agentRead (fld (s.reg Key.cgbase) 11 41 * 2048 + 32 * x.entry) 4) == serial.toNat

/-- A context of the core is captured, or its capture has been requested. -/
def Core.inCapture (c : Core) : Bool := c.task.isSome && c.restoring.isNone && (c.st == .captured || c.capReq.isSome)

/-- A member of the gang of task i of a launch is captured or being captured: the members that came back to the queue are
bound with it (R303). -/
def State.gangHeld (s : State) (l : Launch) (i : Nat) : Bool :=
  let mine := fun (c : Core) => c.task.any fun u => u.serial == l.serial && (l.gang i).contains u.index
  l.gangLevel.isSome && (s.slots.any (fun p => mine p.2.core) || s.cores.any fun c => c.inCapture && mine c)

/-- The number of the gang that holds a task; where the launch has none, each task is by itself (R271, R275). -/
def Launch.gangNo (l : Launch) (i : Nat) : Nat :=
  match l.gangLevel with
  | some g => i / max 1 (l.span g)
  | none => i

/-- The captured contexts of a launch that may be bound again, in the sets that are bound in one cycle: each by itself, or
those of a whole gang, all of them ready (R303, R319). -/
def State.rebinds (s : State) (l : Launch) : List (List (Nat × Saved)) :=
  if s.rejoining l.serial then [] else
  let no := fun (c : Core) => (c.task.filter fun t => t.serial == l.serial).map fun t => l.gangNo t.index
  let ok := fun (p : Nat × Saved) => p.2.ready && !p.2.drop && (p.2.kind == .preempt || p.2.asked || p.2.sheet)
  let nos := (s.slots.filter ok).foldl (fun (a : List Nat) p =>
    match no p.2.core with
    | some k => if a.contains k then a else a ++ [k]
    | none => a) []
  nos.filterMap fun k =>
    let g := s.slots.filter fun p => no p.2.core == some k
    if g.all ok && !s.cores.any (fun c => c.inCapture && no c == some k) then some g else none

/-- A change of the cluster's step is deferred for a task with DETM.EN (R320, R410). -/
def State.clusterPend (s : State) (c : Nat) : Bool :=
  (s.cluster c).want.isSome || (s.cluster c).wantThr.isSome || (s.cluster c).wantWa.isSome

/-- A core holds no task, and no hand-off, capture or restore is in progress on it (R287). -/
def State.coreFree (s : State) (n : Nat) : Bool :=
  let c := s.coreAt n
  c.st == .free && c.task.isNone && c.staged.isNone &&
    !(s.handoffs.any fun h => h.tasks.any fun x => x.2 == n)

/-- Two launches ask for the same MODE and L; L counts only under PAIRED (R174). -/
def Launch.sameMode (l m : Launch) : Bool := l.b 0x0C == m.b 0x0C && (l.b 0x0C == 1 || l.b 0x0D == m.b 0x0D)

/-- A core holds no task, and its matrix queue no entry (R174). -/
def State.coreIdle (s : State) (n : Nat) : Bool :=
  let c := s.coreAt n
  c.st == .free && c.task.isNone && c.staged.isNone && c.mq.isEmpty

/-- The array of a core suits a launch, or may change: neither core of the pair holds a task (R174). A task on its way to
the pair counts as held, with the MODE and L of its launch. -/
def State.modeOk (s : State) (l : Launch) (n : Nat) : Bool :=
  let a := s.arrayOf n
  (s.handoffs.all fun h =>
    !(h.tasks.any fun x => x.2 / 2 == n / 2) ||
      (match s.launch h.serial with
       | some m => l.sameMode m
       | none => true)) &&
  ((a.set && a.solo == (l.b 0x0C == 1) && (a.solo || a.win.toNat == l.b 0x0D)) ||
    (s.coreIdle (n / 2 * 2) && s.coreIdle (n / 2 * 2 + 1)))

/-- A cluster takes a task of the launch: no change of its step is deferred that a task with DETM.EN would hold up
(R320). -/
def State.takesDetm (s : State) (l : Launch) (n : Nat) : Bool := !(bits (l.b 9) 0 1 == 1 && s.clusterPend (n / 8))

/-- A core can take a task of a launch now (R174, R287, R320); one that a pre-emption frees for a child is the child's
(R299). -/
def State.canBind (s : State) (l : Launch) (n : Nat) : Bool :=
  s.coreFree n && s.modeOk l n && s.takesDetm l n &&
    !(s.launches.any fun m => m.serial != l.serial && m.claim == some n)

/-- A task may be staged behind the task of the core: none is, and that task runs and is not to be captured (R290, R291). -/
def Core.takesStaged (c : Core) : Bool :=
  c.staged.isNone && (c.st == .active || c.st == .frozen || c.st == .waiting || c.st == .bound) && c.capReq.isNone

/-- A task of a launch may be staged behind the active task of a core (R290). -/
def State.canStage (s : State) (l : Launch) (n : Nat) : Bool :=
  let c := s.coreAt n
  c.takesStaged && !(s.handoffs.any fun h => h.tasks.any fun x => x.2 == n) &&
    l.stageok && l.gangLevel.isNone && decide (l.f 0x14 2 ≤ 6144) && s.modeOk l n && s.takesDetm l n &&
    (match c.task with
     | some t => decide (t.scratch ≤ 6144) && !t.gang
     | none => false)

/-- What a queue would hand over: launch, tasks with cores, save slots, staged or not. -/
structure Pick where
  serial : BitVec 32
  tasks : List (Nat × Nat)
  slots : List Nat
  stage : Bool
  deriving DecidableEq, Repr

/-- The instance of the co-resident level's domain that a gang occupies holds no other task of the launch (R275). -/
def State.gangAlone (s : State) (l : Launch) (a : List (Nat × Nat)) : Bool :=
  match l.gangLevel, a with
  | some g, x :: _ =>
    let d := domSize (l.domain g)
    let mates := l.gang x.1
    let other := (s.cores.filter fun c => c.st != .free && c.task.any fun t =>
        t.serial == l.serial && !mates.contains t.index).map (·.id) ++
      ((s.handoffs.filter fun h => h.serial == l.serial).flatMap fun h => h.tasks.filter fun y => !mates.contains y.1).map (·.2)
    !(other.any fun c => a.any fun x => x.2 / d == c / d)
  | _, _ => true

/-- Place contexts that are to be bound again in one cycle, and with them the members of their gang that came back to the
queue (R303, R319): the captured ones first, in the order of their slots. -/
def State.placeRebind (s : State) (l : Launch) (rb : List (Nat × Saved)) : Option Pick :=
  let ids := rb.filterMap fun p => p.2.core.task.map (·.index)
  match ids with
  | [] => none
  | i :: _ =>
    let all := ids ++ (if l.gangLevel.isSome then l.back.filter (l.gang i).contains else [])
    match s.assign l (s.canBind l) (all.insertionSort (· ≤ ·)) [] with
    | some a =>
      if s.gangAlone l a then
        some { serial := l.serial, slots := rb.map (·.1), stage := false,
               tasks := all.filterMap fun i => a.find? fun x => x.1 == i }
      else none
    | none => none

/-- Every captured task or gang of a launch that can be bound now (R303). -/
def State.pickRebinds (s : State) (l : Launch) : List Pick := (s.rebinds l).filterMap (s.placeRebind l)

/-- Place a launch's next task or gang; a task may be staged only where no permitted core is free (R275, R287). None binds
while the launch's collective group is checked (R406). -/
def State.pickNext (s : State) (l : Launch) : Option Pick :=
  let ids := l.next
  if ids.any (s.gangHeld l) || s.rejoining l.serial then none
  else
    match s.assign l (s.canBind l) ids [] with
    | some a => if s.gangAlone l a then some { serial := l.serial, tasks := a, slots := [], stage := false } else none
    | none =>
      if l.gangLevel.isSome then none
      else
        match ids with
        | i :: _ =>
          if (s.permitted l i).any s.coreFree then none
          else
            ((s.permitted l i).find? (s.canStage l)).map fun c =>
              { serial := l.serial, tasks := [(i, c)], slots := [], stage := true }
        | [] => none

/-- The head of a queue is eligible but for its cores (R285, R286). -/
def State.headOk (s : State) (l : Launch) : Bool :=
  (bits (l.f 0x48 2) 15 1 == 0 ||
    decide (l.f 0x40 8 ≤ (Sparse.get 0 s.timelines (bits (l.f 0x48 2) 0 12) : Word).toNat)) &&
  (l.dq.isSome || (s.queueServed l.queue.toNat && s.rfld (Key.qctl l.queue.toNat) 6 1 == 0))

/-- Tasks of the launch that are not captured ones are on their way to their binding cycles (R286). -/
def State.handingOver (s : State) (l : Launch) : Bool :=
  s.handoffs.any fun h => h.serial == l.serial && decide (h.slots.length < h.tasks.length)

/-- What a queue offers: contexts of its launches to bind again, and the next task of its head, the oldest launch with a
task that has not been bound; a launch's captured contexts go ahead of its own undispatched tasks only (R286, R319). -/
def State.offer (s : State) (q : Nat) : List Pick :=
  let again := (s.launches.filter fun l => l.q == q).flatMap s.pickRebinds
  again ++
    (match s.launches.find? fun l => l.q == q && (l.undispatched || s.handingOver l) with
     | some l =>
       if l.undispatched && s.headOk l && !(again.any fun p => p.serial == l.serial) then (s.pickNext l).toList else []
     | none => [])

/-- Priority of a launch (R277). -/
def Launch.prio (l : Launch) : Nat := bits (l.b 0x0B) 0 3

/-- The offers of the queues that hold launches, each at its launch's priority. -/
def State.offers (s : State) : List (Nat × Pick × Nat) :=
  let qs := s.launches.foldl (fun (a : List Nat) l => if a.contains l.q then a else a ++ [l.q]) []
  qs.flatMap fun q => (s.offer q).map fun p =>
    (q, p, match s.launch p.serial with
      | some l => l.prio
      | none => 0)

/-- A queue's virtual time. -/
def State.vtOf (s : State) (q : Nat) : Nat := Sparse.get 0 s.vt q

/-- Queues that become eligible take the least virtual time of their priority (R287). -/
def State.refreshVt (s : State) (os : List (Nat × Pick × Nat)) : State :=
  let vt := os.foldl (fun vt o =>
    if s.eligible.contains o.1 then vt
    else
      match least ((os.filter fun x => x.2.2 == o.2.2 && s.eligible.contains x.1).map fun x => s.vtOf x.1) with
      | some v => Sparse.set vt o.1 (max (s.vtOf o.1) v)
      | none => vt) s.vt
  { s with vt := vt, eligible := (os.map (·.1)).dedup }

/-- `a` goes before `b`: higher priority, then less virtual time, then lower queue number (R287). -/
def State.before (s : State) (a b : Nat × Pick × Nat) : Bool :=
  decide (b.2.2 < a.2.2 ∨ (a.2.2 = b.2.2 ∧ (s.vtOf a.1 < s.vtOf b.1 ∨ (s.vtOf a.1 = s.vtOf b.1 ∧ a.1 < b.1))))

/-- Hand a selection over: its cores are reserved, its queue pays, its tasks are on their way (R287, R289). Tasks that
had been bound before and came back to the queue bind at once (the example of R294). -/
def State.handOver (s : State) (q : Nat) (p : Pick) : State :=
  let w := if q < 64 then s.rfld (Key.qctl q) 0 5 else 16
  let ids := (p.tasks.drop p.slots.length).map (·.1)
  let back : Bool := (s.launch p.serial).any fun l => ids.any l.back.contains
  let s1 : State := { s with
    vt := Sparse.set s.vt q (s.vtOf q + p.tasks.length * 720720 / max 1 w),
    handoffs := s.handoffs ++ [{ serial := p.serial, tasks := p.tasks, slots := p.slots, stage := p.stage,
                                 left := if back && p.slots.isEmpty then 0 else 33, at_ := s.mcc }],
    slots := s.slots.map fun x => if p.slots.contains x.1 then (x.1, { x.2 with ready := false }) else x }
  s1.onLaunch p.serial fun l =>
    { l with live := l.live ++ ids, back := l.back.filter fun i => !ids.contains i, claim := none,
             cursor := if back then l.cursor else l.cursor + ids.length }

/-- A selection of this tick has taken a die (R287). -/
def State.dieTaken (s : State) (die : Nat) : Bool :=
  s.handoffs.any fun h => h.at_ == s.mcc && h.tasks.any fun x => x.2 / 80 == die

/-- An offer binds on a die: a gang, on every die it spans (R287). -/
def onDie (die : Nat) (o : Nat × Pick × Nat) : Bool := o.2.1.tasks.any fun x => x.2 / 80 == die

/-- The best of the offers that bind on a die (R287). -/
def State.bestOn (s : State) (os : List (Nat × Pick × Nat)) (die : Nat) : Option (Nat × Pick × Nat) :=
  match os.filter (onDie die) with
  | [] => none
  | o :: l => some (l.foldl (fun a b => if s.before b a then b else a) o)

/-- SCHEDULER_SELECTION (R287): the best eligible head that binds on a die is handed to its dispatcher. A gang takes the
selection of every die it spans: it is handed over with its lowest die's, once it is the best on each of them, and until
then it holds that die's selection (DEDUCED, log entry 68). -/
def execSchedulerSelection (die : Nat) (s : State) : Out :=
  .next (
    let os := s.offers
    let s1 := if die = 0 then s.refreshVt os else s
    match s1.bestOn os die with
    | none => s1
    | some b =>
      let dies := (List.range 8).filter fun d => onDie d b
      if s.supply.hib = false ∧ least dies = some die ∧
          (dies.all fun d => !s1.dieTaken d && s1.bestOn os d == some b) = true then s1.handOver b.1 b.2.1
      else s1)

/-! Binding (R18, R20, R25, R46, R281, R289). -/

/-- The registers of a task at its first issue, but for FBASE (R18, R25). -/
def Launch.regs (l : Launch) (core i : Nat) (step : BitVec 3) : Regs :=
  { Regs.reset with
    p := 1,
    taskid := BitVec.ofNat 64 (l.context.toNat * 2 ^ 48 + core * 2 ^ 32 + i),
    launchid := BitVec.ofNat 64 (l.queue.toNat * 2 ^ 32 + l.serial.toNat),
    levels := BitVec.ofNat 64 (l.count + (List.range l.count).foldl (fun n k => n + l.domain k * 2 ^ (3 * k + 4)) 0),
    coord := Vector.ofFn fun k => if k.val < l.count then BitVec.ofNat 32 (l.coord k.val i) else 0,
    nbv := BitVec.ofNat 8 (l.b 8), detm := BitVec.ofNat 2 (l.b 9), tkceil := BitVec.ofNat 32 (l.f 0x1C 4),
    tkval := BitVec.ofNat 32 (l.f 0x18 4), thnd := BitVec.ofNat 64 (l.f 0x20 8),
    disc := Vector.ofFn fun k => BitVec.ofNat 32 (l.f (0x30 + 4 * k.val) 4),
    fepStep := step,
    tbudget := if l.f 0x28 8 = 0 then BitVec.allOnes 64 else BitVec.ofNat 64 (l.f 0x28 8) }

/-- The timeline bindings of a launch (R280). -/
def Launch.tls (l : Launch) : Vector TlBind 16 :=
  Vector.ofFn fun k =>
    let t := l.f (0xC0 + 2 * k.val) 2
    if bits t 14 2 = 1 then .copy else if bits t 14 2 = 2 then .module (BitVec.ofNat 12 t) else .unbound

/-- Task i of a launch, in a placement (R281). -/
def Launch.mkTask (l : Launch) (i half : Nat) : Task :=
  { serial := l.serial, index := i, context := l.context, keyid := l.keyid, scratch := l.f 0x14 2, half := half,
    gang := l.gangLevel.isSome, preloaded := l.f 0x7A 2 == 0, toFill := rowRun (l.f 0x78 2) (l.f 0x7A 2) }

/-- The rows of a placement read as they do at a first issue: zero, or indeterminate when the core's previous task had
the same CONTEXT (R20). -/
def Core.freshRows (c : Core) (half : Nat) (prev : Option (BitVec 16)) (ctx : BitVec 16) (ctr : Nat) : Core :=
  let seed := if prev = some ctx then some ctr else none
  { c with rows := c.rows.filter fun p => !(half == 2 || rowHalf p.1 == half),
           badWords := if prev = some ctx then c.badWords
             else c.badWords.filter fun w => !(half == 2 || rowHalf (w / 8) == half),
           seed0 := if half = 1 then c.seed0 else seed, seed1 := if half = 0 then c.seed1 else seed }

/-- The requester slots of a core that are held: by contexts, by staged tasks, and by tasks that came back to their queues
(R367). -/
def State.heldRq (s : State) (n : Nat) : List Nat :=
  ((s.ctxs.map Core.rq ++ s.cores.filterMap (fun c => c.staged.map (·.rq)) ++
    s.launches.flatMap fun l => l.rqKept.map (·.2)).filter fun x => x.core == n).map (·.slot)

/-- The lowest free requester slot of a core (R367). -/
def State.freeRq (s : State) (n : Nat) : Nat :=
  let used := s.heldRq n
  match (List.range (used.length + 1)).find? fun k => !used.contains k with
  | some k => k
  | none => used.length

/-- Take a core's lowest free requester slot: NEXT and ACKT go on from its record, or start at 1 and 0 when the slot is
unused; it is held from now on (R367). -/
def State.newRq (s : State) (n : Nat) : State × RqHold :=
  let k := s.freeRq n
  let x := match s.rqTable.find? fun x => x.1 == n * 4096 + k with
    | some x =>
      if s.reg Key.rqbase = 0 then x.2
      else (BitVec.ofNat 32 (leNat (s.agentRead (s.rqAddr n k) 4)), BitVec.ofNat 32 (leNat (s.agentRead (s.rqAddr n k + 4) 4)))
    | none => (1, 0)
  (s.putRq n k x.1 x.2 1, { core := n, slot := k, next := x.1, ackt := x.2 })

/-- The requester slot of task i at its binding or staging on core n: that of its first binding, where it has been bound
before without issuing, else a new one (R367). -/
def State.takeRq (s : State) (serial : BitVec 32) (i n : Nat) : State × RqHold :=
  match (s.launch serial).bind fun l => l.rqKept.find? fun x => x.1 == i with
  | some x => (s.onLaunch serial fun l => { l with rqKept := l.rqKept.filter fun y => y.1 != i }, x.2)
  | none => (if s.reg Key.rqbase = 0 then s else s.agentLook (s.rqAddr n (s.freeRq n)) 16).newRq n

/-- What a core keeps from one task to the next: its registers as they stand, its rows, its caches and TLBs, its previous
CONTEXT, the task staged behind the one that goes, and that one's preload. -/
def Core.cleared (c : Core) : Core :=
  { id := c.id, r := c.r, iss := c.iss, pc := c.pc, rows := c.rows, seed0 := c.seed0, seed1 := c.seed1, badWords := c.badWords, prevCtx := c.prevCtx,
    l1 := c.l1, utlb := c.utlb, ctlb := c.ctlb, staged := c.staged,
    remotes := if c.staged.isSome then c.preloadWork.1 else [],
    fetched := if c.staged.isSome then c.preloadWork.2 else [] }

/-- The CONTEXT of the core's latest task that issued (R20). -/
def Core.lastCtx (c : Core) : Option (BitVec 16) :=
  match c.task with
  | some t => if t.issued then some t.context else c.prevCtx
  | none => c.prevCtx

/-- The core in the state its task leaves it in. -/
def Core.vacated (c : Core) : Core := { c.cleared with prevCtx := c.lastCtx }

/-- Set MODE and L of a core's pair when they change, or at the first binding; windows are counted from there (R174,
R175). -/
def State.setMode (s : State) (l : Launch) (n : Nat) : State :=
  s.onArray n fun a =>
    let solo := l.b 0x0C == 1
    let win := BitVec.ofNat 2 (l.b 0x0D)
    if a.set && a.solo == solo && (solo || a.win == win) then a
    else { a with solo := solo, win := win, count := 0, set := true }

/-- A task of the launch is bound. The first binding takes the dispatch timestamp (R282, R289). -/
def Launch.noteBound (l : Launch) (s : State) (rerun : Bool) : Launch :=
  let first := l.bound == 0 && l.dts.isNone
  { l with bound := if rerun then l.bound else l.bound + 1,
           dts := if first then some s.ptp else l.dts,
           tsv := if first then s.rfld Key.ptpctl 2 1 == 1 else l.tsv }

/-- A rerun of task i is due: it counts, and the task is live again (R293). -/
def Launch.noteRerun (l : Launch) (i : Nat) : Launch :=
  { l with reruns := l.reruns + 1, live := l.live ++ [i],
           rerunOf := Sparse.set l.rerunOf i (Sparse.get 0 l.rerunOf i + 1) }

/-- A task's context on a core, bound, with the requester slot it holds (R18, R25, R280). -/
def State.seat (s : State) (l : Launch) (c : Core) (t : Task) : Core :=
  let regs := l.regs c.id t.index (s.cluster (c.id / 8)).step
  { c with st := .bound, task := some t, r := regs, iss := regs, tl := l.tls, pc := BitVec.ofNat 64 (l.f 0 8),
           rqCore := t.rq.core, rqSlot := t.rq.slot, rqNext := t.rq.next, rqAckt := t.rq.ackt, rqDone := [] }

/-- A member joins the barriers of its domain instances: it is live from its binding on (R231). -/
def State.joinBarriers (s : State) (serial : BitVec 32) (n : Nat) : State :=
  { s with barriers := s.barriers.map fun x =>
      if x.serial = serial ∧ x.dom = barInst x.b n then { x with live := x.live + 1 }.test else x }

/-- What a window has written to a row of a placement enters it. -/
def Core.landRow (c : Core) (half : Nat) (x : Landed) : Core :=
  c.setProw (physRow half x.at_) (x.over (c.prow (physRow half x.at_)))

/-- Until its first issue a task keeps what windows have written to its rows (R384). -/
def Task.noteLanded (t : Task) (serial index : Nat) (xs : List Landed) : Task :=
  if t.serial.toNat = serial ∧ t.index = index ∧ t.issued = false then { t with landed := t.landed ++ xs } else t

/-- The same for the task on a core, and the one staged behind it. -/
def Core.noteLanded (c : Core) (serial index : Nat) (xs : List Landed) : Core :=
  { c with task := c.task.map fun t => t.noteLanded serial index xs,
           staged := c.staged.map fun t => t.noteLanded serial index xs }

/-- What was kept of landing windows' writes for a task that comes from its queue again (R384). -/
def Launch.landedOf (l : Launch) (i : Nat) : List Landed := ((l.landKept.find? fun y => y.1 == i).map (·.2)).getD []

/-- Task i is bound or staged: nothing is kept for it any more. -/
def Launch.noteTaken (l : Launch) (s : State) (i : Nat) (rerun : Bool) : Launch :=
  { l.noteBound s rerun with landKept := l.landKept.filter fun y => y.1 != i }

/-- At the binding, staging or restore of a task on core n, the marked backing rows of its landing windows are written to its
rows, ascending, and the marks are cleared (R384). -/
def State.landBacked (s : State) (n : Nat) (t : Task) : State :=
  (List.range 64).foldl (fun u w =>
    if u.windowTask w = (t.serial.toNat, t.index) then
      (List.range 1024).foldl (fun v k =>
        if v.landMarks.contains (w, k) then
          let a := v.backAt w k
          let x : Landed := { win := w, row := k, at_ := v.rfld (Key.winb w) 0 15 + k,
                              data := BitVec.ofNat 512 (leNat (v.agentRead a 64)), mask := BitVec.allOnes 512 }
          ({ v.agentLook a 64 with landMarks := v.landMarks.filter (· != (w, k)) } : State).onCoreAt n fun c =>
            (c.landRow t.half x).noteLanded t.serial.toNat t.index [x]
        else v) u
    else u) s

/-- Bind task i of a launch to a core (R289): its context stands as at first issue. It takes the halves that no staged task
holds (R281). -/
def State.bindTask (s : State) (l : Launch) (i n : Nat) (rerun : Bool) : State :=
  let q := (s.setMode l n).takeRq l.serial i n
  let half :=
    if 6144 < l.f 0x14 2 then 2
    else
      match (s.coreAt n).staged with
      | some x => if x.half = 0 then 1 else 0
      | none => 0
  let t : Task := { l.mkTask i half with boundAt := s.mcc, rq := q.2, landed := l.landedOf i }
  (((q.1.onCoreAt n fun c => t.landed.foldl (fun c x => c.landRow half x)
    (q.1.seat l (c.cleared.freshRows half c.prevCtx l.context s.ctr) t)).joinBarriers l.serial n).landBacked n t).onLaunch
      l.serial fun l => l.noteTaken s i rerun

/-- Stage task i of a launch behind the active task of a core: it takes the other halves (R290). -/
def State.stageTask (s : State) (l : Launch) (i n : Nat) (rerun : Bool) : State :=
  let c := s.coreAt n
  let half := match c.task with
    | some t => if t.half = 0 then 1 else 0
    | none => 0
  let q := s.takeRq l.serial i n
  let t : Task := { l.mkTask i half with boundAt := s.mcc, rq := q.2, landed := l.landedOf i }
  ((q.1.onCoreAt n fun c => t.landed.foldl (fun c x => c.landRow half x)
    { c.freshRows half (c.task.map (·.context)) l.context s.ctr with staged := some t }).landBacked n t).onLaunch
      l.serial fun l => l.noteTaken s i rerun

/-- A member moves from core `m` to core `n`: it leaves the barriers of the domain instances that hold `m` alone, and joins
those that hold `n` (R231, R235). Its arrival records stay its own (DESIGN CHOICE, log entry 124). -/
def State.moveBarriers (s : State) (serial : BitVec 32) (m n : Nat) : State :=
  { s with barriers := s.barriers.map fun x =>
      if x.serial ≠ serial ∨ barInst x.b m = barInst x.b n then x
      else if x.dom = barInst x.b m then { x with live := x.live - 1 }.test
      else if x.dom = barInst x.b n then { x with live := x.live + 1 }.test
      else x }

/-- A captured context is put back on a core; CONTEXT_RESTORE completes it (R303, R319). -/
def State.bindSaved (s : State) (slot n : Nat) : State :=
  match Sparse.find s.slots slot with
  | none => s
  | some x =>
    let t := match x.core.task with
      | some k => s.moveBarriers k.serial x.core.id n
      | none => s
    ({ t with slots := Sparse.set t.slots slot { x with core := { x.core with id := n } } } : State).onCoreAt n fun c =>
      { x.core with id := n, st := .captured, rows := c.rows, seed0 := c.seed0, seed1 := c.seed1, badWords := c.badWords,
                    prevCtx := c.prevCtx, l1 := c.l1, utlb := c.utlb, ctlb := c.ctlb, fbuf := [], staged := none,
                    delay := 16, restoring := some slot }

/-- What a hand-off binds: a captured context, a task staged, or a task bound. -/
def State.bindOne (s : State) (x : HandOff) (i : Nat) (p : Nat × Nat) : State :=
  match s.launch x.serial, x.slots[i]? with
  | some l, some slot => (s.setMode l p.2).bindSaved slot p.2
  | some l, none => if x.stage then s.stageTask l p.1 p.2 false else s.bindTask l p.1 p.2 false
  | none, _ => s

/-- The cores of a hand-off are no longer there for it: a cluster has left the available set (R398, R421), or the task
behind which one was to be staged runs no longer (R290). -/
def State.handOffStale (s : State) (x : HandOff) : Bool :=
  x.tasks.any fun p => !s.clusterUp (p.2 / 8) || (x.stage && !(s.coreAt p.2).takesStaged)

/-- A hand-off comes to nothing: its tasks go back to the head of their queue, and its captured contexts are bindable
again (DESIGN CHOICE, log entry 91). -/
def State.handBack (s : State) (x : HandOff) : State :=
  ({ s with slots := s.slots.map fun p => if x.slots.contains p.1 then (p.1, { p.2 with ready := true }) else p } :
    State).onLaunch x.serial fun l => (x.tasks.drop x.slots.length).foldl (fun l p => l.giveBack p.1) l

/-- The sheet is marked SPENT, in its header's FLAGS too (R396, R402). -/
def State.spendSheet (s : State) : State :=
  let a := s.sheet.base + 6
  { s with
    mem := if s.sheet.valid then memSet s.mem a (memGet s.mem a ||| 4) else s.mem
    sheet := { s.sheet with spent := true } }

/-- A sheet that can still be restored from: a restore from it has issued no task yet (R402). -/
def Sheet.usable (h : Sheet) : Bool := h.valid && !h.spent

/-- TASK_BINDING (R289, R290, R296): the binding cycle of a hand-off; before the first one after a restore the sheet is marked
SPENT (R402). Tasks of a launch that has been cancelled or
stopped meanwhile never bind; its captured contexts are dropped in their slots (R318). -/
def execTaskBinding (h : Nat) (s : State) : Out :=
  .next (match s.handoffs[h]? with
    | none => s
    | some x =>
      let s1 := { s with handoffs := s.handoffs.eraseIdx h }
      let ids := (x.tasks.drop x.slots.length).map (·.1)
      match s1.launch x.serial with
      | none => s1
      | some l =>
        if l.stopped || l.cancelled then
          (s1.onLaunch x.serial fun l => { l with live := l.live.filter fun i => !ids.contains i }).completeIfEnded x.serial
        else if s1.handOffStale x then s1.handBack x
        else x.tasks.zipIdx.foldl (fun t p => t.bindOne x p.2 p.1) (if s1.sheet.usable then s1.spendSheet else s1))

/-! Before first issue (R281, R289). -/

/-- The preload of a task: the address of its source and its bytes (R281). -/
def Launch.preload (l : Launch) (i : Nat) : Word × Nat := (BitVec.ofNat 64 (l.f 0x68 8 + i * l.f 0x70 8), 64 * l.f 0x7A 2)

/-- A task ends before its first issue: it drains with nothing outstanding (R46, R281). -/
def State.endUnissued (s : State) (t : Trap) : State :=
  (s.faultArises s.core.id t).onCore fun c =>
    { c.noPreload with st := .draining, status := if t.cause = 0x13 then none else some t, kill := none, capReq := none,
                       pf := none }

/-- The task whose preload the core is to make: the bound one, else the one staged behind its active task (R281, R290). -/
def Core.preloading (c : Core) : Option (Task × Bool) :=
  let mine := c.task.filter fun t => c.st == .bound && !t.preloaded
  match mine with
  | some t => some (t, false)
  | none => (c.staged.filter fun t => !t.preloaded).map fun t => (t, true)

/-- Change the task whose preload the core is making. -/
def Core.onPreload (c : Core) (staged : Bool) (f : Task → Task) : Core :=
  if staged then { c with staged := c.staged.map f } else { c with task := c.task.map f }

/-- FIRST_ISSUE (R18, R20, R25, R46, R289): fetch and preload are complete; the task becomes active. Its first issue is
an acquire (R246). Under SOLO the even core owns every tile (R176). -/
def execFirstIssue (s : State) : Out :=
  .next (match s.core.task with
    | none => s
    | some t =>
      if s.core.st ≠ .bound ∨ t.preloaded = false ∨ t.left ≠ 0 then s
      else
        let same := s.core.prevCtx == some t.context
        let odd := s.core.id % 2 == 1
        let s2 := s.onArray s.core.id fun a =>
          let seed := if same then some s.ctr else none
          if a.solo && odd then a
          else { a with tiles := a.tiles.filter fun p => !(a.solo || (decide (64 ≤ p.1) == odd)),
                        seedEven := if a.solo || !odd then seed else a.seedEven,
                        seedOdd := if a.solo || odd then seed else a.seedOdd }
        ((s2.fillLeaf t.context s.core.pc 3).acquire).onCore fun c =>
          { c with st := .active, cyc := 0, codeMem := s.mem, task := some { t with issued := true, landed := [] },
                   r := { c.r with fbase := s.mcc &&& ~~~15#64, fepStep := (s.cluster (c.id / 8)).step, fepCount := 0 } })

/-! Retirement (R46, R142, R288, R293, R301). -/

/-- A draining task has nothing outstanding (R46, R142). -/
def Core.drained (c : Core) : Bool :=
  c.st == .draining && c.cq.isEmpty && c.stores.isEmpty && (c.remotes.all fun r => r.into == some 0) && c.mq.isEmpty &&
    c.spawns.isEmpty &&
    !(c.lands.any fun l => l.arrive.isSome)

/-- A member leaves its barriers: the live counts fall, and the break test is made (R231, R235). -/
def State.leaveBarriers (s : State) (serial : BitVec 32) (n : Nat) : State :=
  { s with barriers := s.barriers.map fun x =>
      if x.serial = serial ∧ x.dom = barInst x.b n then { x with live := x.live - 1 }.test else x }

/-- A member leaves its supersteps, which may complete without it (R238). -/
def State.leaveSteps (s : State) (l : Launch) (index : Nat) : State :=
  (List.range l.count).foldl (fun t n =>
    if l.sstep n then t.stepCheck { serial := l.serial, level := n, inst := l.inst n index } else t) s

/-- The peer end is gone: outbound words are discarded, and ERR is set once inbound is empty (R375). -/
def Fifo.cut (f : Fifo) : Fifo := { f with outb := [], gone := true, err := f.inb.isEmpty }

/-- A FIFO's other end hears that this end is gone: in this module at once, in another by a message (R375). -/
def State.tellGone (s : State) (f : Fifo) : State :=
  match f.peer with
  | some (m, ch) =>
    if m = s.pos then
      let cut := fun (g : Fifo) =>
        if g.peer = some (m, ch) then g.cut else g
      { s.mapCores fun c => { c with fifo := c.fifo.map cut } with
        slots := s.slots.map fun p => (p.1, { p.2 with core := { p.2.core with fifo := p.2.core.fifo.map cut } }) }
    else s.send (.chanErr m ch)
  | none => s

/-- Change a FIFO. -/
def Core.onFifo (c : Core) (q : BitVec 4) (f : Fifo → Fifo) : Core :=
  { c with fifo := c.fifo.set q.toNat (f (c.fifo[q.toNat]'q.isLt)) q.isLt }

/-- A FIFO of the core in focus takes a new binding, or none, and loses its buffers; a peer in another module is granted
the places of its inbound side (R374, R375). -/
def State.bindFifo (s : State) (q : BitVec 4) (peer : Option (Nat × Nat)) : State :=
  let t := (s.tellGone (s.core.fifo[q.toNat]'q.isLt)).onCore fun c => c.onFifo q fun _ => { peer := peer }
  match peer with
  | some (m, ch) => if m = s.pos then t else t.send (.credit m ch 64)
  | none => t

/-- The other ends of the task's FIFOs learn that it is gone (R375). -/
def State.dropFifos (s : State) (c : Core) : State := c.fifo.toList.foldl State.tellGone s

/-- The accounts of a retired instance: counts, cycles, its RSIG (R282). -/
def Launch.account (l : Launch) (c : Core) (i : Nat) : Launch :=
  { l with retired := l.retired + 1, cycles := l.cycles + c.cyc, live := l.live.filter (· != i),
           rsigs := (l.rsigs.filter fun p => p.1 != i) ++ [(i, c.r.rsig)] }

/-- A context of a launch leaves its launch, its barriers, its supersteps and its FIFOs. -/
def State.leave (s : State) (c : Core) (t : Task) : State :=
  let s1 := (s.writeRq c 0).dropFifos c
  let s2 := (s1.onLaunch t.serial fun l => l.account c t.index).leaveBarriers t.serial c.id
  match s2.launch t.serial with
  | some l => s2.leaveSteps l t.index
  | none => s2

/-- The task staged behind a core retires without having issued; its requester slot is free (R367). -/
def State.retireStaged (s : State) (n : Nat) : State :=
  match (s.coreAt n).staged with
  | some x => (s.takeStaged n).leave (x.stagedCore n) x
  | none => s

/-- The preload of the task staged behind the core in focus has failed: the task ends before its first issue, with
nothing outstanding; a rerun is staged in its place, on the same core (R281, R293). -/
def State.endStaged (s : State) (t : Trap) : State :=
  match s.core.staged with
  | none => s
  | some x =>
    let n := s.core.id
    let s1 := (s.onLaunch x.serial fun l => l.firstFault t x.index n).retireStaged n
    let s2 := match s1.launch x.serial with
      | some l => if s1.rerunDue x t.cause then (s1.onLaunch x.serial fun l => l.noteRerun x.index).stageTask l x.index n true
                  else (s1.failLaunch x.serial).stopFor x.serial
      | none => s1
    s2.completeIfEnded x.serial

/-- PRELOAD_COMPLETE (R281, R290, R328): the rows of the bound task, or of the one staged behind the active task, are
filled once the ports have moved them (R331), and what landing windows have written to them meanwhile stays (R384); parts in
peers' memory are asked for first. A missing translation is posted as KIND 2 and held; any other failure ends the task with
COPY_FAULT. -/
def execPreloadComplete (s : State) : Out :=
  .next (match s.core.preloading with
    | none => s
    | some (t, staged) =>
      match s.launch t.serial with
      | none => s
      | some l =>
        let x := l.preload t.index
        let parts := (s.vparts l.context l.keyid 6 x.1 x.2).1
        let ask := s.toFetch 0 parts
        if s.core.awaits 0 then s
        else if !ask.isEmpty then s.askFor 0 ask
        else if !t.toFill.isEmpty && (s.vread l.context l.keyid 0 x.1 x.2).2.isNone then s
        else
          let r := s.vread l.context l.keyid 0 x.1 x.2
          let s1 := (s.sawRead l.context parts).onCore fun c => c.forget 0
          match r.2 with
          | none =>
            ((List.range (l.f 0x7A 2)).foldl (fun u k =>
              u.onCore fun c => c.setProw (physRow t.half (l.f 0x78 2 + k)) (BitVec.ofNat 512 (leNat ((r.1.drop (64 * k)).take 64))))
              (s1.onCore fun c => c.onPreload staged fun t => { t with preloaded := true })).onCore fun c =>
                t.landed.foldl (fun c x => c.landRow t.half x) c
          | some e =>
            if e.cause = 0x03 then
              (s1.onCore fun c => c.onPreload staged fun t => { t with preFault := some (e.addr, e.detail) }).postEvent
                { taskEvent 2 e.detail s.core t with va := e.addr }
            else
              let f := if e.cause = 0x0D then e else { cause := 0x0D, addr := e.addr }
              if staged then s1.endStaged (stamp s s.core f) else s1.endUnissued (stamp s s.core f))

/-- At its first boundary the FIFOs of the task in focus take the bindings made while it was staged or captured (R374). -/
def State.applyBinds (s : State) : State :=
  match s.core.task with
  | some x => x.binds.foldl (fun u b => u.bindFifo b.1 b.2) (s.onCore fun c => { c with task := some { x with binds := [] } })
  | none => s

/-- The task staged behind a core becomes the core's task, and its FIFOs take the bindings made meanwhile (R46, R290, R374).
Where the task before it never issued, the rows its preload has not filled are as an earlier task left them (R20). -/
def State.activateStaged (s : State) (before : Task) : State :=
  match s.core.staged with
  | none => s
  | some x =>
    match s.launch x.serial with
    | none => s
    | some l =>
      let seed := if s.core.prevCtx = some x.context then some s.ctr else none
      let d := if before.issued then s.core
        else if x.half = 0 then { s.core with seed0 := seed } else { s.core with seed1 := seed }
      ({ s with core := s.seat l { d with staged := none } x } : State).applyBinds

/-- TASK_RETIRE (R46): the core is freed; a rerun takes it at once, or else the staged task becomes active on it (R290,
R293); where the core's cluster has left the available set, the rerun waits in its queue (R398, R421); the launch may have failed (R283), and may complete (R288). -/
def execTaskRetire (s : State) : Out :=
  .next (match s.core.task with
    | none => s
    | some t =>
      if s.core.drained = false then s
      else
        let c := s.core
        let rerun := c.status.any fun x => s.rerunDue t x.cause
        let fails := c.status.any fun x => x.cause != 0x13 && !rerun
        let s1 := ((if fails then s.failLaunch t.serial else s).onCore Core.vacated).leave c t
        let s2 := match s1.launch t.serial with
          | some l =>
            if rerun && !s1.clusterUp (c.id / 8) then
              (s1.onLaunch t.serial fun l => (l.noteRerun t.index).giveBack t.index).activateStaged t
            else if rerun then
              { (s1.onLaunch t.serial fun l => l.noteRerun t.index).bindTask l t.index c.id true with
                boundAt := Sparse.set s1.boundAt (c.id / 8) (s.mcc + 1) }
            else s1.activateStaged t
          | none => s1.activateStaged t
        s2.completeIfEnded t.serial)

/-! Cancellation (R295, R296). -/

/-- The launch that a writer may cancel (R379). -/
def cancelAllowed (wr : Writer) (l : Launch) : Bool :=
  match wr with
  | .mgmt => true
  | .hp0 => l.parent.isNone && decide (l.queue.toNat < 32)
  | .hp1 => l.parent.isNone && decide (32 ≤ l.queue.toNat)

/-- A write to CANCEL (R295, R379): a launch not yet handed to any die ends at once; else every die hears of it 32 ticks
later. -/
def State.cancel (s : State) (wr : Writer) (v : Word) : State :=
  let n := BitVec.ofNat 32 (fld v 0 32)
  match s.launch n with
  | none => s
  | some l =>
    if !cancelAllowed wr l then s
    else if l.live.isEmpty = true ∧ l.bound = 0 then s.complete { l with cancelled := true, phase := .accepted } none
    else { s with cancels := s.cancels ++ [{ serial := n, left := 32, dies := List.range 8 }] }

/-- CANCEL (R295). -/
def execCancel (wr : Writer) (v : Word) (s : State) : Out := .next (s.cancel wr v)

/-- A captured context is dropped: its slot is freed, as is a core being restored from it, and its task counts as
retired (R318). -/
def State.dropSaved (s : State) (slot : Nat) : State :=
  match Sparse.find s.slots slot with
  | none => s
  | some x =>
    let s1 := { s with slots := Sparse.del s.slots slot }.mapCores fun c =>
      if c.restoring = some slot then c.cleared else c
    match x.core.task with
    | some t => (s1.leave x.core t).completeIfEnded t.serial
    | none => s1

/-- The captured contexts of launches that have been cancelled or stopped are dropped (R294, R296, R318). -/
def State.sweepSaved (s : State) : State :=
  let gone := s.slots.filter fun p =>
    p.2.drop || p.2.core.task.any fun t => (s.launch t.serial).any fun l => l.stopped || l.cancelled
  gone.foldl (fun t p => t.dropSaved p.1) s

/-- CANCEL_AT_DIE (R296): a cancel arrives at a die: undispatched tasks never bind; those staged before this cycle are
dropped; those staged in it, and bound, active, frozen and waiting ones, are killed; captured ones are dropped. -/
def execCancelAtDie (die : Nat) (serial : BitVec 32) (s : State) : Out :=
  .next (
    let s1 := (s.onLaunch serial fun l => { l with cancelled := true }).dropHandOffs serial fun h =>
      h.tasks.any fun x => x.2 / 80 == die
    let s2 := s1.cores.foldl (fun (t : State) c =>
      match c.staged with
      | some x =>
        if x.serial = serial ∧ c.id / 80 = die then
          (if x.boundAt = s.mcc then t.retireStaged c.id
           else (t.dropStaged c.id).onLaunch serial fun l => { l with live := l.live.filter (· != x.index) })
        else t
      | none => t) s1
    let s3 := s2.mapCores fun c =>
      match c.task with
      | some x =>
        if x.serial = serial ∧ c.id / 80 = die ∧ c.st ≠ .free ∧ c.st ≠ .draining then { c with kill := some 0x01 } else c
      | none => c
    let drop := (s3.slots.filter fun p =>
      p.2.core.id / 80 == die && p.2.core.task.any fun t => t.serial == serial).map (·.1)
    let s4 := drop.foldl (fun t n => t.dropSaved n) s3
    let hear : Cancel → Cancel := fun c =>
      if c.serial = serial then { c with dies := c.dies.filter (· != die) } else c
    let s5 : State := { s4 with cancels := (s4.cancels.map hear).filter fun c => !c.dies.isEmpty }
    s5.completeIfEnded serial)

end Sys2Proof.Machine
end

