-- ==== Sys2Proof/Machine/Sum.lean ====
section
/-! DEFINITION. Sum: operand pairs, block-align summation and its fall-back shapes, and the cells of MMA and MRSUM
(R100, R112 to R121, R180, R191, R192). -/

namespace Sys2Proof.Machine

/-- Fields of an FT entry (R29). -/
def ftA (ft : BitVec 32) : Nat := fld ft 0 4
def ftB (ft : BitVec 32) : Nat := fld ft 4 4
def ftAcc (ft : BitVec 32) : Nat := fld ft 8 2
def ftGroup (ft : BitVec 32) : Nat := fld ft 10 2
def ftSide (ft : BitVec 32) : Nat := fld ft 12 15

/-- What the kinds of pairs have in common (R112). -/
inductive PairKind where
  | float | gqFloat | gqInt | int
  deriving DecidableEq, Repr

/-- A pair of R112 and R180: depth, rows per A-block and per B-block, summation kind. -/
structure Pair where
  d : Nat
  ra : Nat
  rb : Nat
  kind : PairKind
  deriving DecidableEq, Repr

/-- The pairs MMA accepts, by matrix format codes (R112, R180). -/
def pairOf (a b : Nat) : Option Pair :=
  if a = 0 ∧ b = 0 then some ⟨1, 2, 2, .float⟩
  else if (a = 1 ∧ b = 1) ∨ (a = 2 ∧ b = 2) then some ⟨4, 4, 4, .float⟩
  else if a = 1 ∧ b = 7 then some ⟨4, 4, 2, .gqFloat⟩
  else if a = 1 ∧ b = 8 then some ⟨4, 4, 1, .gqFloat⟩
  else if (a = 3 ∨ a = 4) ∧ (b = 3 ∨ b = 4) then some ⟨8, 4, 4, .float⟩
  else if a = 5 ∧ b = 5 then some ⟨8, 4, 4, .int⟩
  else if a = 5 ∧ b = 7 then some ⟨8, 4, 4, .gqInt⟩
  else if a = 5 ∧ b = 8 then some ⟨8, 4, 2, .gqInt⟩
  else if a = 6 ∧ b = 6 then some ⟨16, 4, 4, .int⟩
  else none

/-- The pair, accumulator mode, SS, GROUP and signedness bits agree (R112, R113). -/
def mmaOk (ft : BitVec 32) (ss : BitVec 2) (sa sb : Bool) : Option Pair :=
  match pairOf (ftA ft) (ftB ft) with
  | none => none
  | some p =>
    let ok := match p.kind with
      | .float => ftAcc ft == 0 && ftGroup ft == 0 && !sa && !sb
      | .gqFloat => ftAcc ft == 0 && ftGroup ft != 0 && !sa && !sb
      | .gqInt => ftAcc ft == 0 && ftGroup ft != 0 && ss == 0 && !sb
      | .int => (ftAcc ft == 1 || ftAcc ft == 2) && ftGroup ft == 0 && ss == 0
    if ok then some p else none

/-- Elements per group (R115). -/
def groupSize (ft : BitVec 32) : Nat := 16 * 2 ^ ftGroup ft

/-- The width of a matrix format in bits (R96). -/
def mBits (f : Nat) : Nat :=
  if f = 0 then 32 else if f = 1 ∨ f = 2 then 16 else if f = 6 ∨ f = 8 then 4 else if f = 9 then 16
  else if f = 10 then 32 else 8

/-- The floating format of a matrix format code 0 to 4 (R96). -/
def mFmt (f : Nat) : Fmt :=
  if f = 0 then fp32 else if f = 1 then bf16 else if f = 2 then fp16 else if f = 3 then fe4m3 else fe5m2

/-- A floating operand of MMA (R102). -/
def mOperand (nbv : BitVec 8) (f x : Nat) : Num := (mFmt f).operand (f != 0 || nbv == 1) x

/-- An integer operand of w bits (R100, R113). -/
def mInt (w : Nat) (signed : Bool) (x : Nat) : Int :=
  if signed && decide (2 ^ (w - 1) ≤ x) then (x : Int) - ((2 ^ w : Nat) : Int) else (x : Int)

/-! Block-align summation (R118 to R121). -/

/-- W of R121. -/
def keepBits (nbv : BitVec 8) : Int := if nbv = 1 then 27 else if nbv = 2 then 30 else 36
/-- FINAL of R121: RTZ under NBV 1. -/
def finalMode (nbv : BitVec 8) : BitVec 2 := if nbv = 1 then 1 else 0
/-- Products of one summation unit (R112, R121). -/
def unitSize (nbv : BitVec 8) (p : Pair) : Nat :=
  let v := if nbv = 1 then 1 else if nbv = 2 then 2 else 4
  if p.d = 1 then 2 * v else if p.d = 4 then 4 * v else 8 * v

/-- The sign and magnitude of a value in units of 2^lsb, truncated toward zero (R118). -/
def truncUnits (lsb : Int) (x : Num) : Int :=
  match x with
  | .fin s m e =>
    let n := if lsb ≤ e then m * 2 ^ (e - lsb).toNat else m / 2 ^ (lsb - e).toNat
    if s then -(n : Int) else (n : Int)
  | _ => 0

/-- The special cases of a unit (R119). -/
def specialCase (l : List Num) : Option Num :=
  if l.any Num.isNan then some .nan
  else
    let infs := l.filter fun x => match x with | .inf _ => true | _ => false
    match infs with
    | [] => none
    | x :: _ => if infs.all fun y => y == x then some x else some .nan

/-- block_align: one unit added to the accumulator (R118). -/
def blockAlign (nbv : BitVec 8) (c : Nat) (t : List Num) : Nat :=
  let cv := op32 nbv c
  match specialCase (cv :: t) with
  | some x => fp32.round 0 false false x
  | none =>
    let all := cv :: t
    if all.all Num.isZero then (if all.all Num.isNeg then 0x80000000 else 0)
    else
      let leads := (all.filter fun x => !x.isZero).map Num.lead
      let emax := leads.foldl max (leads.headD 0)
      let lsb := emax - keepBits nbv
      let sum := all.foldl (fun a x => a + truncUnits lsb x) 0
      if sum = 0 then 0 else fp32.round (finalMode nbv) false (nbv == 1) (Num.ofScaled sum lsb)

/-- Units of `n` in ascending order; `k` bounds their number. -/
def chunks {α : Type} (n : Nat) : Nat → List α → List (List α)
  | 0, _ => []
  | k + 1, l => if l.isEmpty then [] else l.take n :: chunks n k (l.drop n)

/-- The FP32 accumulator after K products under a shape (R118, R120). `ab` are the operands, their products the terms. -/
def fp32Sum (nbv : BitVec 8) (unit : Nat) (ss : BitVec 2) (c : Nat) (ab : List (Num × Num)) : Nat :=
  if ss = 0 then
    (chunks unit ab.length (ab.map fun p => Num.mul p.1 p.2)).foldl (blockAlign nbv) c
  else if ss = 1 then
    let leaves := ab.map fun p => rne32 nbv (Num.mul p.1 p.2)
    add32 nbv c (tree (add32 nbv) 0 leaves.length leaves)
  else ab.foldl (fun a p => rne32 nbv (Num.fma 0 p.1 p.2 (op32 nbv a))) c

/-- The stored INT32 value and whether it clamped (R114). -/
def intAcc (acc : Nat) (x : Int) : Nat × Bool :=
  let lo : Int := -2147483648
  let hi : Int := 2147483647
  if acc = 2 then
    (let y := max lo (min hi x)
     ((y % 4294967296).toNat, decide (y ≠ x)))
  else ((x % 4294967296).toNat, false)

/-- A 32-bit cell as a signed integer. -/
def cellInt (x : Nat) : Int := mInt 32 true x

/-! The operands of an entry, from the rows its blocks read (R180, R186). -/

/-- The operand blocks of an entry in order: A, B and side-table rows, each as one number. -/
structure Blocks where
  a : List Nat
  b : List Nat
  side : List Nat      -- one number per group (two rows)
  deriving DecidableEq, Repr

/-- The blocks as read, oldest first. -/
def blocksOf (l : List (List Row × List Row × List Row)) : Blocks :=
  { a := l.reverse.map fun x => rowsNat x.1, b := l.reverse.map fun x => rowsNat x.2.1,
    side := (l.reverse.filter fun x => !x.2.2.isEmpty).map fun x => rowsNat x.2.2 }

/-- Element (r, k) of an operand whose blocks hold r·d + kk (R180). -/
def operandElt (blks : List Nat) (d w r k : Nat) : Nat := bits (blks.getD (k / d) 0) (w * (r * d + k % d)) w

/-- The side-table entry of group g and column j: scale and zero point (R115, R116). -/
def sideEntry (bl : Blocks) (g j : Nat) : Num × Nat :=
  let x := bits (bl.side.getD g 0) (32 * j) 32
  (fp16.operand true (bits x 0 16), bits x 16 8)

/-- One cell of MMA (R191): its new value, and whether it clamped. -/
def mmaCell (g : MmaArgs) (p : Pair) (bl : Blocks) (old i j : Nat) : Nat × Bool :=
  let k := p.d * (g.kb + 1)
  let fa := ftA g.ft
  let fb := ftB g.ft
  let a := fun n => operandElt bl.a p.d (mBits fa) i n
  let b := fun n => operandElt bl.b p.d (mBits fb) j n
  let c := if g.z then 0 else old
  let size := groupSize g.ft
  match p.kind with
  | .int =>
    let sum := (List.range k).foldl (fun (x : Int) n => x + mInt (mBits fa) g.sa (a n) * mInt (mBits fb) g.sb (b n)) 0
    intAcc (ftAcc g.ft) (cellInt c + sum)
  | .float =>
    (fp32Sum g.nbv (unitSize g.nbv p) g.ss c
      ((List.range k).map fun n => (mOperand g.nbv fa (a n), mOperand g.nbv fb (b n))), false)
  | .gqFloat =>
    (fp32Sum g.nbv (unitSize g.nbv p) g.ss c
      ((List.range k).map fun n =>
        let e := sideEntry bl (n / size) j
        (mOperand g.nbv fa (a n), Num.mul (Num.ofInt ((b n : Int) - e.2)) e.1)), false)
  | .gqInt =>
    let groups := (List.range (k / size)).map fun q =>
      let e := sideEntry bl q j
      let sum := (List.range size).foldl (fun (x : Int) n =>
        x + mInt 8 g.sa (a (q * size + n)) * ((b (q * size + n) : Int) - e.2)) 0
      (Num.ofInt sum, e.1)
    (fp32Sum g.nbv 1 0 c groups, false)

/-- The tile after an MMA (R191). -/
def mmaTile (g : MmaArgs) (bl : Blocks) (t : Tile) : Tile :=
  match pairOf (ftA g.ft) (ftB g.ft) with
  | none => t
  | some p =>
    let cells := (List.range 1024).map fun n => mmaCell g p bl (cellAt t.cells (n / 32) (n % 32)) (n / 32) (n % 32)
    { t with cells := BitVec.ofNat 32768 (cells.foldr (fun x acc => x.1 % 4294967296 + 4294967296 * acc) 0)
             sat := t.sat || cells.any fun x => x.2
             acc := BitVec.ofNat 2 (ftAcc g.ft) }

/-- The tile after an MRSUM of its companion's operand (R192). -/
def mrsumTile (g : MmaArgs) (sh : Nat) (neg row : Bool) (bl : Blocks) (t : Tile) : Tile :=
  match pairOf (ftA g.ft) (ftB g.ft) with
  | none => t
  | some p =>
    let k := p.d * (g.kb + 1)
    let sum := fun (r : Nat) =>
      (List.range k).foldl (fun (x : Int) n =>
        x + (if row then mInt (mBits (ftA g.ft)) g.sa (operandElt bl.a p.d (mBits (ftA g.ft)) r n)
             else mInt (mBits (ftB g.ft)) g.sb (operandElt bl.b p.d (mBits (ftB g.ft)) r n))) 0
    let sums := (List.range 32).map sum
    let cells := (List.range 1024).map fun n =>
      let x := sums.getD (if row then n / 32 else n % 32) 0 * ((2 ^ sh : Nat) : Int)
      intAcc (ftAcc g.ft) (cellInt (cellAt t.cells (n / 32) (n % 32)) + (if neg then -x else x))
    { t with cells := BitVec.ofNat 32768 (cells.foldr (fun x acc => x.1 % 4294967296 + 4294967296 * acc) 0)
             sat := t.sat || cells.any fun x => x.2 }

end Sys2Proof.Machine
end

