-- ==== Sys2Proof/Machine/Matrix.lean ====
section
/-! DEFINITION. Matrix: the matrix queue and the X-class matrix instructions (07, R174 to R197). -/

namespace Sys2Proof.Machine

/-- Encodings of the trap causes of R190. -/
def causeDescriptor : BitVec 8 := 0x08
def causeFormat : BitVec 8 := 0x07
def causeBank : BitVec 8 := 0x06
def causeAccess : BitVec 8 := 0x04

/-- The FT entry in use at issue (R29, R31). -/
def State.ftInUse (s : State) : BitVec 32 :=
  let r := s.core.iss
  if r.ftsel.getLsbD 2 then r.ft.getD ((r.lc.getD (fld r.ftsel 0 2) ⟨0, 0, 0⟩).count.toNat % 16) 0 else r.ft[0]

/-- BUSY of a tile: the queue entries that name it (R179). -/
def Core.tileBusy (c : Core) (t : Nat) : Nat :=
  (c.mq.filter fun e => e.tile.toNat == t && (match e.op with | .mmode => false | _ => true)).length

/-- An ACCESS_VIOLATION for a row outside the declared rows: its byte address and the access kind (R190). -/
def rowFault (r : Int) (kind : Nat) : Trap :=
  { cause := causeAccess, detail := 0x03, addr := BitVec.ofInt 64 (64 * r), aux := BitVec.ofNat 64 kind }

/-- The rows a matrix instruction names, checked against the declared rows (R190, order 5): first row, number of rows and
access kind of each range. Where several ranges offend, the first offending row is that of the first range in the order
in which R190 names them: A, B, side table; MDRAIN's destination, its parameters (DEDUCED, log entry 62). -/
def Core.rowsFault (c : Core) (l : List (Int × Nat × Nat)) : Option Trap :=
  l.findSome? fun x =>
    match c.badRange x.1 x.2.1 with
    | some r => some (rowFault r x.2.2)
    | none => none

/-- The range of rows a matrix operand may lie in (R182): group A or group B. -/
def inGroup (g lo n : Nat) : Bool := 12288 * g ≤ lo && lo + n ≤ 12288 * (g + 1)

/-- MMA's fields from s[sd] and the word (R181). -/
def mmaArgs (o : MmaOp) (s : State) (x : Word) : MmaArgs :=
  { arow := fld x 0 15, brow := fld x 15 15, kb := fld x 30 10, ft := s.ftInUse, ss := o.ss, sa := o.sa, sb := o.sb,
    z := o.z, nbv := s.core.iss.nbv }

/-- The number of side-table groups of an MMA (R115). -/
def groupsOf (g : MmaArgs) (p : Pair) : Nat := if ftGroup g.ft = 0 then 0 else p.d * (g.kb + 1) / groupSize g.ft

/-- The checks of MMA in order (R190). -/
def mmaCheck (o : MmaOp) (s : State) (x : Word) : Option Trap :=
  let g := mmaArgs o s x
  if fld x 52 12 ≠ 0 then some { cause := causeDescriptor, aux := x }
  else
    match mmaOk g.ft g.ss g.sa g.sb with
    | none => some { cause := causeFormat, aux := x }
    | some p =>
      let k := p.d * (g.kb + 1)
      let ng := groupsOf g p
      let na := (g.kb + 1) * p.ra
      let nb := (g.kb + 1) * p.rb
      if ftGroup g.ft ≠ 0 ∧ (k % groupSize g.ft ≠ 0 ∨ 24576 < ftSide g.ft + 2 * ng) then
        some { cause := causeDescriptor, aux := x }
      else if !inGroup 0 g.arow na || !inGroup 1 g.brow nb then some { cause := causeBank, aux := x }
      else s.core.rowsFault [(g.arow, na, 0), (g.brow, nb, 0), (ftSide g.ft, 2 * ng, 0)]

/-- Enqueue an entry at the next position (R183). -/
def State.enqueue (s : State) (e : MEntry) : State :=
  s.onCore fun c =>
    { c with mq := c.mq ++ [{ e with idx := c.mqNext, after := c.nextId }], mqNext := c.mqNext + 1 }

/-- A queued matrix instruction: it freezes while the queue is full, is checked, and enqueues at commit (R183, R190). -/
def queued (h : Hdr) (s : State) (chk : Option Trap) (e : MEntry) (f : State → State) : Out :=
  if s.guard h then
    (if 32 ≤ s.core.mq.length then .next s.freeze
     else
       match chk with
       | some t => .next (s.trapSlot t)
       | none =>
         let p := s.abar h.a
         .next (f (p.2.enqueue { e with arrive := p.1 })))
  else .next (s.arriveNow h.a)

/-- MMA (R191): the descriptor, the FT entry and the flags are fixed at issue. -/
def execMma (o : MmaOp) (s : State) : Out :=
  let x := s.rdS o.sd
  let g := mmaArgs o s x
  queued o.h s (mmaCheck o s x)
    { idx := 0, op := .mma g, tile := o.tile, wait := BitVec.ofNat 8 (fld x 40 8),
      sig := if x.getLsbD 51 then some (BitVec.ofNat 3 (fld x 48 3)) else none }
    fun t => t.onCore fun c => { c with comp := some g }

/-- MZERO (R193). -/
def execMzero (o : MzeroOp) (s : State) : Out :=
  queued o.h s (if o.acc = 3 then some { cause := causeFormat } else none) { idx := 0, op := .mzero o.acc, tile := o.tile } id

/-- MRSUM: the companion is the last unsuppressed MMA of an integer pair (R192). -/
def execMrsum (o : MrsumOp) (s : State) : Out :=
  let chk : Option Trap :=
    match s.core.comp with
    | none => some { cause := causeFormat }
    | some g =>
      match pairOf (ftA g.ft) (ftB g.ft) with
      | some p =>
        if p.kind = .int then
          s.core.rowsFault [(g.arow, (g.kb + 1) * p.ra, 0), (g.brow, (g.kb + 1) * p.rb, 0)]
        else some { cause := causeFormat }
      | none => some { cause := causeFormat }
  match s.core.comp with
  | none => queued o.h s chk { idx := 0, op := .mmode, tile := o.tile } id
  | some g => queued o.h s chk { idx := 0, op := .mrsum g o.sh o.neg o.row, tile := o.tile } id

/-- MMODE sets the queue mode at issue; its entry orders its arrival (R193). -/
def execMmode (o : MmodeOp) (s : State) : Out :=
  queued o.h s none { idx := 0, op := .mmode, tile := 0 } fun t =>
    t.onCore fun c => { c with mqRnd := o.rnd, mqSat := o.sat }

/-- A direct instruction on a tile: it freezes while the tile is busy or the tile port is not free, is checked, and
takes effect at commit (R190, R194); the tile port's requests for its `rows` go to the shared ports (R331). -/
def direct (h : Hdr) (s : State) (tile : BitVec 7) (chk : Option Trap) (rows : List Nat) (f : State → State) : Out :=
  if s.guard h then
    (if s.core.tileBusy tile.toNat ≠ 0 ∨ s.core.tilePort ≠ 0 then .next s.freeze
     else
       match chk with
       | some t => .next (s.trapSlot t)
       | none => .next (((f s).onCore fun c => { c with tilePort := 16, tileRows := c.tileRows ++ rows }).arriveNow h.a))
  else .next (s.arriveNow h.a)

/-- The checks MLDT and MSTT share: reserved bits, the range of 64 rows, the declared rows (R190, R194). -/
def tileRowsCheck (s : State) (x : Word) (acc : BitVec 2) (kind : Nat) : Option Trap :=
  if fld x 15 49 ≠ 0 then some { cause := causeDescriptor, aux := x }
  else if acc = 3 then some { cause := causeFormat, aux := x }
  else if 24576 < fld x 0 15 + 64 then some { cause := causeDescriptor, aux := x }
  else s.core.rowsFault [((fld x 0 15 : Nat), 64, kind)]

/-- The first of `n` rows from `r` with an uncorrectable word (R194). -/
def Core.firstBad (c : Core) (r n : Nat) : Option Nat := ((List.range n).map (r + ·)).find? c.rowBad

/-- MLDT copies 64 rows into the cells, clears SAT and sets ACC (R194). -/
def execMldt (o : MldtOp) (s : State) : Out :=
  let x := s.rdS o.sd
  let r := fld x 0 15
  direct o.h s o.tile (tileRowsCheck s x o.acc 0) (rowRun r 64) fun t =>
    let cells : Cells := BitVec.ofNat 32768 (rowsNat (t.core.rowsAt r 64))
    match t.core.firstBad r 64 with
    | none => t.setTile o.tile.toNat { cells := cells, sat := false, acc := o.acc }
    | some q =>
      (t.setTile o.tile.toNat { cells := BitVec.ofNat 32768 (t.free 20000), sat := false, acc := o.acc }).raiseB t.core.id
        { cause := 0x10, addr := BitVec.ofNat 64 (64 * q), aux := t.core.pc }

/-- Write consecutive logical rows. -/
def Core.setRows (c : Core) (r : Nat) (l : List Row) : Core :=
  (l.zipIdx).foldl (fun d x => d.setRow (r + x.2) x.1) c

/-- Row i of a run of rows held as one number. -/
def rowOf (x i : Nat) : Row := BitVec.ofNat 512 (x / 2 ^ (512 * i))

/-- The cells as they are read: an uncorrectable one is indeterminate (R194). -/
def Tile.shown (t : Tile) (open_ : Nat) : Cells :=
  t.bad.foldl (fun x i => setFld x (32 * i) 32 (bits open_ (32 * i) 32)) t.cells

/-- TRC3 of the MEMORY_ERROR of an MSTT or MDRAIN, of which R194 says 'in the same way': the byte address of the
destination row of the first uncorrectable cell, `w` bits a cell (DESIGN CHOICE, log entry 85). -/
def drainErrAddr (r first w : Nat) : Word := BitVec.ofNat 64 (64 * r + first * w / 8 / 64 * 64)

/-- MSTT copies the cells into 64 rows and changes no tile state (R194). -/
def execMstt (o : MsttOp) (s : State) : Out :=
  let x := s.rdS o.sd
  let r := fld x 0 15
  direct o.h s o.tile (tileRowsCheck s x 0 1) (rowRun r 64) fun t =>
    let tile := t.tile o.tile.toNat
    let n := (tile.shown (t.free 20001)).toNat
    let u := t.onCore fun c => c.setRows r ((List.range 64).map (rowOf n))
    match tile.bad with
    | [] => u
    | b :: bs => u.raiseB t.core.id
        { cause := 0x10, addr := drainErrAddr r (bs.foldl min b) 32, aux := t.core.pc }

/-! MDRAIN (R195, R196). -/

/-- The destination formats of MDRAIN (R195). -/
def drainFmtOk (f : Nat) : Bool := f ≤ 5 || f == 9 || f == 10
/-- A floating destination (R195). -/
def drainFloat (f : Nat) : Bool := f ≤ 4

/-- The range of an integer format (R100). -/
def intRange (w : Nat) (uns : Bool) : Int × Int :=
  if uns then (0, ((2 ^ w : Nat) : Int) - 1) else (-((2 ^ (w - 1) : Nat) : Int), ((2 ^ (w - 1) : Nat) : Int) - 1)

/-- The column parameters m and s (R196). -/
def drainParam (p j : Nat) : Int × Nat := (cellInt (bits p (64 * j) 32), bits p (64 * j + 32) 6)

/-- One cell of MDRAIN (R196). -/
def drainCell (acc : BitVec 2) (f : Nat) (mode : BitVec 2) (sat req uns : Bool) (zo : Int) (p x j : Nat) : Nat :=
  let w := mBits f
  let rng := intRange w uns
  if acc = 0 then
    (if drainFloat f then (if f = 0 then x else cvtFF fp32 (mFmt f) mode sat x)
     else
       let i := (fp32.dec x).toIntClamp mode (-2147483648) 2147483647 + zo
       (max rng.1 (min rng.2 i) % ((2 ^ w : Nat) : Int)).toNat)
  else if drainFloat f then cvtIF (mFmt f) mode sat (cellInt x)
  else
    let q := drainParam p j
    let y := if req then (cellInt x * q.1 + (if q.2 = 0 then 0 else ((2 ^ (q.2 - 1) : Nat) : Int))) / ((2 ^ q.2 : Nat) : Int)
             else cellInt x
    (max rng.1 (min rng.2 (y + zo)) % ((2 ^ w : Nat) : Int)).toNat

/-- The checks of MDRAIN in order (R190, R195). -/
def drainCheck (o : MdrainOp) (s : State) (x : Word) : Option Trap :=
  let f := fld x 46 4
  let orow := fld x 0 15
  let prow := fld x 15 15
  let n := 2 * mBits f
  let d : Trap := { cause := causeDescriptor, aux := x }
  if fld x 50 14 ≠ 0 ∨ drainFmtOk f = false then some d
  else if o.req && ((s.tile o.tile.toNat).acc == 0 || drainFloat f) then some d
  else if o.uns && drainFloat f then some d
  else if 24576 < orow + n ∨ (o.req = true ∧ 24576 < prow + 4) then some d
  else s.core.rowsFault ([((orow : Int), n, 1)] ++ if o.req then [((prow : Int), 4, 0)] else [])

/-- The rows that MDRAIN moves: its parameters, under REQ, and its destination. -/
def drainRows (o : MdrainOp) (x : Word) : List Nat :=
  (if o.req then rowRun (fld x 15 15) 4 else []) ++ rowRun (fld x 0 15) (2 * mBits (fld x 46 4))

/-- MDRAIN converts a tile and writes it row-major; it updates RSIG at commit (R195, R196). The destination bytes of an
uncorrectable cell are indeterminate (R194). Uncorrectable parameter rows are used as stored, without an error: neither
R194 nor R334 names them (DESIGN CHOICE, log entry 85). -/
def execMdrain (o : MdrainOp) (s : State) : Out :=
  let x := s.rdS o.sd
  direct o.h s o.tile (drainCheck o s x) (drainRows o x) fun t =>
    let f := fld x 46 4
    let w := mBits f
    let tile := t.tile o.tile.toNat
    let open_ := t.free 20002
    let lost := fun (i : Nat) => tile.bad.any fun b => b * w / 8 == i * w / 8
    let zo := (BitVec.ofNat 16 (fld x 30 16)).toInt
    let p := rowsNat (t.core.rowsAt (fld x 15 15) 4)
    let out := (List.range 1024).foldr (fun i acc =>
      (if lost i then bits open_ (w * i) w
       else drainCell tile.acc f t.core.mqRnd t.core.mqSat o.req o.uns zo p (cellAt tile.cells (i / 32) (i % 32)) (i % 32) %
         2 ^ w) + 2 ^ w * acc) 0
    let u := t.onCore fun c =>
      { c.setRows (fld x 0 15) ((List.range (2 * w)).map (rowOf out)) with
        rsigD := c.rsigD ++ [rsigWord c.iss.nbv 4 f 0 tile.acc.toNat] }
    match tile.bad with
    | [] => u
    | b :: bs => u.raiseB t.core.id
        { cause := 0x10, addr := drainErrAddr (fld x 0 15) (bs.foldl min b) w, aux := t.core.pc }

/-- MSTAT (R197). -/
def execMstat (o : MstatOp) (s : State) : Out :=
  runSlot o.h s fun t =>
    let a := s.arrayOf s.core.id
    let tile := s.tile o.tile.toNat
    t.wrS o.rd (BitVec.ofNat 64 (bit tile.sat + 2 * tile.acc.toNat + 64 * s.core.tileBusy o.tile.toNat +
      4096 * s.core.mq.length + 262144 * (if a.solo then 0 else a.win.toNat) + 1048576 * bit a.solo +
      2097152 * s.core.mqRnd.toNat + 8388608 * bit s.core.mqSat))

/-! The queue's own steps (R184 to R187). -/

/-- The array serves the core's queue in this cycle (R175, R176). -/
def State.served (s : State) : Bool :=
  let a := s.arrayOf s.core.id
  if a.solo then s.core.id % 2 == 0 else a.count / 2 ^ (a.win.toNat + 3) % 2 == s.core.id % 2

/-- The blocks an entry processes (R184). -/
def MEntry.blocksDue (e : MEntry) : Nat :=
  match e.op with
  | .mma g => g.kb + 1
  | .mrsum g _ _ _ => g.kb + 1
  | .mzero _ => 1
  | .mmode => 0

/-- The head entry can start in this cycle (R184). -/
def State.canStart (s : State) : Bool :=
  match s.core.mq with
  | e :: _ =>
    !e.running && !e.fresh && (s.served || e.op == .mmode) && tokReady s.core.r.tkval e.wait &&
      (e.op == .mmode || !s.core.mqDid)
  | [] => false

/-- Change the head entry. -/
def State.onHead (s : State) (f : MEntry → MEntry) : State :=
  s.onCore fun c =>
    { c with mq := match c.mq with
        | e :: l => f e :: l
        | [] => [] }

/-- A signal of a queue entry: the token is incremented, or TOKEN_OVERFLOW is raised and it keeps its value (R185). -/
def State.signal (s : State) (k : BitVec 3) (entry : Bool × BitVec 6) : State :=
  let m : BitVec 8 := BitVec.ofNat 8 (2 ^ k.toNat)
  if tokOver s.core.r.tkval s.core.r.tkceil m = 0 then s.onRegs fun r => { r with tkval := tokInc r.tkval m }
  else s.raiseB s.core.id { cause := 0x09, entry := some entry, aux := BitVec.ofNat 64 (2 ^ k.toNat) }

/-- The entry rewrites every cell from zero, so that no cell is uncorrectable any more (R191, R193). -/
def MEntry.anew (e : MEntry) : Bool :=
  match e.op with
  | .mma g => g.z
  | .mzero _ => true
  | _ => false

/-- The tile after the head entry (R191 to R193); an uncorrectable row leaves every cell indeterminate, and SAT as it was
(R4, R187). Of an uncorrectable cell of the tile R191 and R192 say nothing: an entry that adds to it uses the stored bits,
and the cell stays uncorrectable; one that starts from zero makes it good (DESIGN CHOICE, log entry 85). -/
def MEntry.result (e : MEntry) (open_ : Nat) (t : Tile) : Tile :=
  let bl := blocksOf e.blocks
  let v := match e.op with
    | .mma g => mmaTile g bl t
    | .mrsum g sh neg row => mrsumTile g sh.toNat neg row bl t
    | .mzero acc => { cells := 0, sat := false, acc := acc }
    | .mmode => t
  let u := if e.anew then { v with bad := [] } else v
  if e.bad.isSome then { u with cells := BitVec.ofNat 32768 open_, sat := t.sat } else u

/-- The head entry completes: its tile, its signal, its arrival, RSIG, and its error if a row was uncorrectable
(R184 to R187). -/
def State.completeHead (s : State) : State :=
  match s.core.mq with
  | [] => s
  | e :: l =>
    let q : Bool × BitVec 6 := (true, e.idx.setWidth 6)
    let s0 := s.onCore fun c => { c with mq := l }
    let s1 := match e.op with
      | .mmode => s0
      | _ => s0.setTile e.tile.toNat (e.result (s.free 20003) (s.tile e.tile.toNat))
    let s2 := match e.op with
      | .mma g => s1.onCore fun c =>
          { c with rsigM := c.rsigM ++ [rsigWord g.nbv g.ss.toNat (ftA g.ft) (ftB g.ft) (ftAcc g.ft)] }
      | _ => s1
    let s3 := match e.sig with
      | some k => s2.signal k q
      | none => s2
    let s4 := match e.arrive with
      | some b => s3.arriveA s3.core.id b (some q)
      | none => s3
    match e.bad with
    | some a => s4.raiseB s4.core.id { cause := 0x10, addr := a, entry := some q }
    | none => s4

/-- MATRIX_ENTRY_START (R184): the head entry takes its tokens and starts; MMODE completes where it would start. An
entry that cannot start is left as it is. -/
def execMatrixEntryStart (s : State) : Out :=
  .next (if s.canStart then
    (match s.core.mq with
     | e :: _ =>
       if e.op = .mmode then s.completeHead
       else (s.onHead fun e => { e with running := true }).onRegs fun r => { r with tkval := tokDec r.tkval e.wait }
     | [] => s)
  else s)

/-- The rows block b of an entry reads: A, B, and the side-table rows of a group it begins (R116, R180, R186). An MRSUM
reads its companion's rows (R192), A and B, though it sums one of them; so an uncorrectable word of either counts, and
TRC3 is the first such row in the order A, B, side table (DEDUCED, log entry 62). -/
def MEntry.rowsOf (e : MEntry) (b : Nat) : List Nat × List Nat × List Nat :=
  let of := fun (g : MmaArgs) (p : Pair) (side : Bool) =>
    (((List.range p.ra).map fun i => g.arow + b * p.ra + i), ((List.range p.rb).map fun i => g.brow + b * p.rb + i),
     if side && ftGroup g.ft != 0 && b * p.d % groupSize g.ft == 0 then
       [ftSide g.ft + 2 * (b * p.d / groupSize g.ft), ftSide g.ft + 2 * (b * p.d / groupSize g.ft) + 1]
     else [])
  match e.op with
  | .mma g => (match pairOf (ftA g.ft) (ftB g.ft) with | some p => of g p true | none => ([], [], []))
  | .mrsum g _ _ _ => (match pairOf (ftA g.ft) (ftB g.ft) with | some p => of g p false | none => ([], [], []))
  | _ => ([], [], [])

/-- A row as a block reads it: where it was stored to in this cycle, as it was or as it is, a free choice (R186). -/
def State.rowNow (s : State) (r : Nat) : Row :=
  let was := { s.core with rows := s.core.rowsWas }.row r
  if was ≠ s.core.row r ∧ s.free (32768 + r) % 2 = 1 then was else s.core.row r

/-- An access that precedes the entry in its task's program has not been performed: the entry reads no row yet (R253). -/
def MEntry.early (e : MEntry) (c : Core) : Bool :=
  match e.op with
  | .mma _ => c.unperformed e.after
  | .mrsum _ _ _ _ => c.unperformed e.after
  | _ => false

/-- The head entry processes a block in this cycle: it runs, the array serves the queue, which has processed none in the
cycle yet, and what precedes it has been performed (R184, R186, R253). -/
def State.blockDue (s : State) : Bool :=
  match s.core.mq with
  | e :: _ => e.running && decide (e.done < e.blocksDue) && s.served && !s.core.mqDid && !e.early s.core
  | [] => false

/-- The running head entry processes its next block, reading its rows now (R186). -/
def State.blockNow (s : State) : State :=
  match s.core.mq with
  | e :: _ =>
    let rows := e.rowsOf e.done
    let rd := fun (l : List Nat) => l.map s.rowNow
    let bad := ((rows.1 ++ rows.2.1 ++ rows.2.2).find? s.core.rowBad).map fun r => BitVec.ofNat 64 (64 * r)
    s.onHead fun e =>
      { e with done := e.done + 1, blocks := (rd rows.1, rd rows.2.1, rd rows.2.2) :: e.blocks, bad := e.bad.or bad }
  | [] => s

/-- MATRIX_BLOCK (R184, R186): the running head entry processes one block in a served cycle. -/
def execMatrixBlock (s : State) : Out :=
  .next (if s.blockDue then s.blockNow.onCore fun c => { c with mqDid := true } else s)

/-- MATRIX_ENTRY_COMPLETE (R184): in the cycle after its last block the head entry completes. -/
def execMatrixEntryComplete (s : State) : Out :=
  .next (match s.core.mq with
    | e :: _ => if e.running && e.done == e.blocksDue && !s.core.mqDid then s.completeHead else s
    | [] => s)

/-- ARRAY_WINDOW_SWITCH (R175): one cycle of an array in use passes, and with it, every L cycles, the served core. -/
def execArrayWindowSwitch (j : Nat) (s : State) : Out :=
  .next { s with arrays := s.arrays.map fun p => if p.1 = j ∧ p.2.set then (j, { p.2 with count := p.2.count + 1 }) else p }

end Sys2Proof.Machine
end

