-- ==== Sys2Proof/Machine/Engine.lean ====
section
/-! DEFINITION. Engine: the copy queue (R215 to R226), CPYF and CPYT (R219, R220, R372, R373), and the Enlarger (R343 to
R349). -/

namespace Sys2Proof.Machine

/-! Contexts by task. -/

/-- Run an operation with another context in focus, and put the focus back. -/
def State.asCore (s : State) (c : Core) (f : State → State) : State × Core :=
  let t := f { s with core := c, others := s.core :: s.others }
  match t.others with
  | o :: os => ({ t with core := o, others := os }, t.core)
  | [] => (t, t.core)

/-- Run an operation on the context of a task: `f` on its core, `g` in its save slot; a task without one is left alone. -/
def State.withTaskAt (s : State) (serial : BitVec 32) (index : Nat) (f g : State → State) : State :=
  let mine := fun (c : Core) => c.task.any fun t => t.serial == serial && t.index == index
  match s.cores.find? fun c => c.st != .free && mine c with
  | some c => (f (s.focus c.id)).focus s.core.id
  | none =>
    match s.slots.find? fun p => mine p.2.core with
    | some p =>
      let r := s.asCore p.2.core g
      { r.1 with slots := r.1.slots.map fun q => if q.1 = p.1 then (q.1, { q.2 with core := r.2 }) else q }
    | none => s

/-- Run an operation on the context of a task, wherever it is. -/
def State.withTask (s : State) (serial : BitVec 32) (index : Nat) (f : State → State) : State :=
  s.withTaskAt serial index f f

/-! Descriptors (R216, R217). -/

/-- Bytes [off, off + n) of a row, as a number. -/
def rowField (r : Row) (off n : Nat) : Nat := fld r (8 * off) (8 * n)

def CopyEntry.src (e : CopyEntry) : Word := BitVec.ofNat 64 (rowField e.desc 0 8)
def CopyEntry.dst (e : CopyEntry) : Word := BitVec.ofNat 64 (rowField e.desc 8 8)
def CopyEntry.len (e : CopyEntry) : Nat := rowField e.desc 16 4
def CopyEntry.nl (e : CopyEntry) : Nat := rowField e.desc 20 2
/-- SK and DK: the source, the destination, is scratchpad. -/
def CopyEntry.sk (e : CopyEntry) : Bool := bits (rowField e.desc 22 1) 0 2 == 1
def CopyEntry.dk (e : CopyEntry) : Bool := bits (rowField e.desc 22 1) 2 2 == 1
/-- START: 0 for SEQRUN, whose bytes are zero there. -/
def CopyEntry.start (e : CopyEntry) : Nat := rowField e.desc 40 8
/-- PEERS or TREE. -/
def CopyEntry.peers (e : CopyEntry) : Nat := rowField e.desc 48 8
/-- Source and destination of line l (R218). -/
def CopyEntry.srcLine (e : CopyEntry) (l : Nat) : Word := e.src + BitVec.ofNat 64 l * BitVec.ofNat 64 (rowField e.desc 24 8)
def CopyEntry.dstLine (e : CopyEntry) (l : Nat) : Word := e.dst + BitVec.ofNat 64 l * BitVec.ofNat 64 (rowField e.desc 32 8)

/-- `n` bytes at a scratchpad byte address lie in declared rows: of one bank group, unless every row is declared (R216,
R281). -/
def rangeOk (t : Task) (a : Word) (n : Nat) : Bool :=
  n == 0 ||
    (decide (a.toNat + n ≤ 1572864) && declared t (a.toNat / 64) && declared t ((a.toNat + n - 1) / 64) &&
      (t.scratch == 12288 || decide (a.toNat / 64 < 12288) == decide ((a.toNat + n - 1) / 64 < 12288)))

/-- The grant of a CONTEXT: GFIRST and GCOUNT (R343). -/
def State.grant (s : State) (ctx : BitVec 16) : Nat × Nat :=
  let a := fld (s.reg Key.enlgt) 19 33 * 524288 + 8 * ctx.toNat
  (leNat (s.agentRead a 4), leNat (s.agentRead (a + 4) 4))

/-- A descriptor row passes its checks (R216, R217, R343). -/
def State.descOk (s : State) (t : Task) (kind : CopyKind) (r : Row) : Bool :=
  let e : CopyEntry := { pos := 0, num := 0, kind := kind, desc := r, sig := none, wait := 0, arrive := none }
  match kind with
  | .seqrun =>
    let g := s.grant t.context
    let first := rowField r 0 4
    let count := rowField r 4 4
    rowField r 8 56 == 0 && decide (1 ≤ count ∧ g.1 ≤ first ∧ first + count ≤ g.1 + g.2)
  | _ =>
    let k := rowField r 22 1
    decide (bits k 0 2 ≤ 1 ∧ bits k 2 2 ≤ 1 ∧ bits k 4 4 = 0) && rowField r 23 1 == 0 && rowField r 56 8 == 0 &&
      (match kind with
       | .cpy => e.peers == 0
       | .cpyf => e.peers != 0 && !e.dk
       | _ => decide (e.peers < 256) && !e.dk) &&
      (List.range (e.nl + 1)).all fun l =>
        (!e.sk || rangeOk t (e.srcLine l) e.len) && (!e.dk || rangeOk t (e.dstLine l) e.len)

/-- The checks of a copy instruction at issue (R216, R379). -/
def copyCheck (kind : CopyKind) (a : Word) (s : State) : Option State :=
  let row := a.toNat / 64
  let bad := { cause := 0x08, aux := BitVec.ofNat 64 row }
  match s.core.task with
  | none => some (s.trapSlot bad)
  | some t =>
    if 64 ≤ s.core.cq.length then some s.freeze
    else if declared t row = false ∨ s.descOk t kind (s.core.row row) = false then some (s.trapSlot bad)
    else if kind = .cpyt ∧ s.reg Key.treebase = 0 then
      some (s.trapSlot (violation 0x05 (BitVec.ofNat 64 (rowField (s.core.row row) 8 8)) 1))
    else none

/-- The next queue position: the first in circular order that no entry holds (R216). -/
def Core.nextPos (c : Core) : BitVec 6 :=
  (((List.range 64).map fun i => c.cqNext + BitVec.ofNat 6 i).find? fun p => !c.cq.any fun e => e.pos == p).getD c.cqNext

/-- Enqueue a copy entry at commit (R216, R223). -/
def State.enqueueCopy (s : State) (kind : CopyKind) (o : CpyOp) (a : Word) : State :=
  let p := s.abar o.h.a
  p.2.onCore fun c =>
    { c with
      cq := c.cq ++ [{ pos := c.nextPos, num := c.cqNum, kind := kind, desc := c.row (a.toNat / 64),
                       sig := if o.sen then some o.k else none, wait := o.wait, arrive := p.1, after := c.nextId }],
      cqNext := c.nextPos + 1, cqNum := c.cqNum + 1 }

/-- What the copy instructions share: the A bit arrives when the entry completes (R60). -/
def copyInstr (kind : CopyKind) (o : CpyOp) (s : State) : Out :=
  let a := s.rdS o.ra
  if s.guard o.h then
    (match copyCheck kind a s with
     | some t => .next t
     | none => .next (s.enqueueCopy kind o a))
  else .next (s.arriveNow o.h.a)

/-- CPY (R218). -/
def execCpy (o : CpyOp) (s : State) : Out := copyInstr .cpy o s
/-- CPYF (R219). -/
def execCpyf (o : CpyOp) (s : State) : Out := copyInstr .cpyf o s
/-- CPYT (R220). -/
def execCpyt (o : CpyOp) (s : State) : Out := copyInstr .cpyt o s
/-- SEQRUN (R221): its check reads the grant table at its home slice (R335, R343). -/
def execSeqrun (o : CpyOp) (s : State) : Out :=
  match s.core.task with
  | some t =>
    if s.guard o.h then
      copyInstr .seqrun o (s.agentLook (fld (s.reg Key.enlgt) 19 33 * 524288 + 8 * t.context.toNat) 8)
    else copyInstr .seqrun o s
  | none => copyInstr .seqrun o s

/-! Moving bytes (R218, R225). -/

/-- Read `n` bytes of the task's scratchpad: they end before the first uncorrectable word. -/
def Core.spRead (c : Core) (a n : Nat) : List Byte × Option Trap :=
  match (List.range n).find? fun i => c.byteBad (a + i) with
  | some m => ((List.range m).map fun i => c.spByte (a + i), some { cause := 0x0D, addr := BitVec.ofNat 64 (a + m) })
  | none => ((List.range n).map fun i => c.spByte (a + i), none)

/-- Write bytes to the task's scratchpad; a row written whole is clean (R334). What a copy with a signal token writes in a
cycle counts as written before every block of it, one that its token starts among them (R34, R186). -/
def Core.spStore (c : Core) (signals : Bool) (a : Nat) (bs : List Byte) : Core :=
  { (c.spWrite a bs).cleaned c.half a bs.length with
    rowsWas := if signals then ({ c with rows := c.rowsWas }.spWrite a bs).rows else c.rowsWas }

/-- The lines of a copy that move anything. -/
def CopyEntry.lines (e : CopyEntry) : Nat := if e.len = 0 then 0 else e.nl + 1

/-- The parts of the first `n` lines of a source in memory, up to the first that fails. -/
def State.copyParts (s : State) (t : Task) (e : CopyEntry) : Nat → List Piece × Option Trap
  | 0 => ([], none)
  | n + 1 =>
    let before := s.copyParts t e n
    match before.2 with
    | some _ => before
    | none =>
      let r := if e.sk then ([], none) else s.vparts t.context t.keyid 6 (e.srcLine n) e.len
      (before.1 ++ r.1, r.2)

/-- The bytes of the copy's source, line by line, up to the first that fails. -/
def State.copySource (s : State) (t : Task) (e : CopyEntry) : Nat → List (List Byte) × Option Trap
  | 0 => ([], none)
  | n + 1 =>
    let before := s.copySource t e n
    match before.2 with
    | some _ => before
    | none =>
      let r := if e.sk then s.core.spRead (e.srcLine n).toNat e.len
        else s.vread t.context t.keyid e.num (e.srcLine n) e.len
      (before.1 ++ [r.1], r.2)

/-- Bytes for scratchpad from an address on: those that lie in the source, in scratchpad too, are indeterminate (R218). -/
def State.blurRows (s : State) (e : CopyEntry) (a : Word) (bs : List Byte) : List Byte :=
  bs.zipIdx.map fun x =>
    if e.sk && (List.range e.lines).any fun l => decide ((a + BitVec.ofNat 64 x.2 - e.srcLine l).toNat < e.len) then
      BitVec.ofNat 8 (s.free (1048577 + 2 * (a.toNat + x.2)))
    else x.1

/-- Bytes for parts in memory: those whose physical addresses lie in the source are indeterminate (R218). -/
def State.blurParts (s : State) (src : List Piece) : List Piece → List Byte → List Byte
  | [], _ => []
  | p :: l, bs =>
    ((bs.take p.n).zipIdx.map fun x =>
      if src.any fun q => decide (q.pa ≤ p.pa + x.2 ∧ p.pa + x.2 < q.pa + q.n) then
        BitVec.ofNat 8 (s.free (1048577 + 2 * (p.pa + x.2)))
      else x.1) ++ s.blurParts src l (bs.drop p.n)

/-- Write the lines of a copy in order, up to the first that fails. -/
def State.copyLines (s : State) (t : Task) (e : CopyEntry) (src : List Piece) : Nat → List (List Byte) → State × Option Trap
  | _, [] => (s, none)
  | l, bs :: rest =>
    let a := e.dstLine l
    if e.dk then (s.onCore fun c => c.spStore e.sig.isSome a.toNat (s.blurRows e a bs)).copyLines t e src (l + 1) rest
    else
      let d := s.vparts t.context t.keyid 7 a bs.length
      let u := s.writePieces t.context e.num d.1 (s.blurParts src d.1 bs)
      match d.2 with
      | some x => (u, some x)
      | none => u.copyLines t e src (l + 1) rest

/-- Write a part of a stream in this module's HBM, under KEYID 0; none lies beyond it (R354, R372, R373). -/
def State.deliver (s : State) (x : Nat × List Byte) : State × Bool :=
  if x.1 + x.2.length ≤ 0x8000000000 then
    ((s.physWrite x.1 x.2 0).engineWrote none { va := 0, pa := x.1, n := x.2.length, key := 0 }, true)
  else (s, false)

/-- Send a copy's lines to every module of PEERS, the streams interleaved line by line; this module's own is written at
once (R219, R372). The mask is this module's bit where it has no memory at DST. -/
def State.sendStreams (s : State) (e : CopyEntry) (lines : List (List Byte)) : State × Nat :=
  lines.zipIdx.foldl (fun u x =>
    let a := (e.dstLine x.2).toNat
    (List.range 64).foldl (fun (v : State × Nat) j =>
      if bits e.peers j 1 = 0 then v
      else if j = s.pos then
        (let d := v.1.deliver (a, x.1)
         (d.1, if d.2 then v.2 else 2 ^ j))
      else (v.1.request j a (e.dstLine x.2) 0 (.store x.1) none (some e.num), v.2)) u) (s, 0)

/-- A tree-table entry (R373): CHILD, FLAGS, PARENT, and whether its reserved bits are zero. -/
def State.treeEntry (s : State) (i : Nat) : Nat × Nat × Nat × Bool :=
  let a := fld (s.reg Key.treebase) 12 40 * 4096 + 16 * i
  let fl := leNat (s.agentRead (a + 8) 1)
  let par := leNat (s.agentRead (a + 9) 1)
  (leNat (s.agentRead a 8), fl, par % 64, decide (fl < 4 ∧ par < 64) && leNat (s.agentRead (a + 10) 6) == 0)

/-- The read of a tree-table entry reaches its home slice (R335). -/
def State.sawTree (s : State) (i : Nat) : State := s.agentLook (fld (s.reg Key.treebase) 12 40 * 4096 + 16 * i) 16

/-- The modules of a mask, without this one, whose bit must be 0 (R373). A set one fails no check, which R373 does not say: the
stream is forwarded to the others (DESIGN CHOICE, log entry 119). -/
def State.children (s : State) (mask : Nat) : List Nat := (List.range 64).filter fun j => bits mask j 1 == 1 && j != s.pos

/-- Send a tree stream to its children (R373). -/
def State.forward (s : State) (mask id : Nat) (entry : BitVec 8) (lines : List (Nat × List Byte)) : State :=
  (s.children mask).foldl (fun u j => u.send (.tree j id entry lines)) s

/-- Write a stream's parts under DELIVER (R373). -/
def State.deliverAll (s : State) (lines : List (Nat × List Byte)) : State × Bool :=
  lines.foldl (fun u x =>
    let d := u.1.deliver x
    (d.1, u.2 && d.2)) (s, true)

/-! The queue (R222 to R225). -/

/-- Change a copy entry of the core in focus. -/
def State.onEntry (s : State) (pos : BitVec 6) (f : CopyEntry → CopyEntry) : State :=
  s.onCore fun c => { c with cq := c.cq.map fun e => if e.pos = pos then f e else e }

/-- The engine's order: START, then number (R222). -/
def CopyEntry.before (a b : CopyEntry) : Bool := decide (a.start < b.start ∨ (a.start = b.start ∧ a.num ≤ b.num))

/-- The first waiting entry in the engine's order (R222). -/
def Core.firstCopy (c : Core) : Option CopyEntry :=
  (c.cq.filter fun e => e.phase == .waiting).foldl (fun a e =>
    match a with
    | none => some e
    | some x => if x.before e then some x else some e) none

/-- The engine is occupied: a copy is in flight, or a fault has not been taken (R222, R225). -/
def Core.engineBusy (c : Core) : Bool :=
  c.cq.any fun e =>
    match e.phase with
    | .flying _ => true
    | .asking => true
    | .sending _ _ => true
    | .paged _ _ => true
    | .tree => true
    | .landed => e.kind != .seqrun
    | .faulted _ => true
    | _ => false

/-- An entry completes: it leaves the queue, its token is signalled, its A bit arrives, the timeline advances (R223). -/
def State.finishEntry (s : State) (e : CopyEntry) : State :=
  let s1 := s.onCore fun c => ({ c with cq := c.cq.filter fun x => x.num != e.num }.finishCopy e.num).forget e.num
  let s2 := match e.sig with
    | some k => s1.signal k (false, e.pos)
    | none => s1
  match e.arrive with
  | some b => s2.arriveA s2.core.id b (some (false, e.pos))
  | none => s2

/-- A copy's fault is held for the task: for a TWAIT when SEN is set, else at the next boundary; a draining task takes it
as its status (R142, R225). -/
def State.holdFault (s0 : State) (e : CopyEntry) (addr aux : Word) : State :=
  let s := s0.onCore fun c => c.forget e.num
  let t := stamp s s.core { cause := 0x0D, addr := addr, aux := aux, entry := some (false, e.pos) }
  if s.core.st = .draining then (s.raiseB s.core.id t).onCore fun c => c.faultTaken e.pos
  else
    let s1 := s.onEntry e.pos fun x => { x with phase := .faulted t }
    if e.sig.isSome then s1 else s1.raiseB s.core.id t

/-- A copy whose leaf maps into the Fixer area stops, and ACCESS_VIOLATION ends its task at the next boundary, or is a
draining task's status (R386). TRC4 names the entry, as for every cause of one (DEDUCED, log entry 86). -/
def State.copyViolates (s0 : State) (e : CopyEntry) (t : Trap) : State :=
  let s := s0.onCore fun c => c.forget e.num
  let u := s.raiseB s.core.id { t with entry := some (false, e.pos) }
  if s.core.st = .draining then u.onCore fun c => c.faultTaken e.pos
  else u.onEntry e.pos fun x => { x with phase := .faulted (stamp s s.core { t with entry := some (false, e.pos) }) }

/-- The trap is that of a copy into the Fixer area: `leafCheck` gives it an access kind of its own (R386). -/
def Trap.inArea (t : Trap) : Bool := t.cause == 0x04 && t.detail == 0x05 && decide (t.aux.toNat ≤ 1)

/-- A copy in flight that meets a missing translation stalls, and KIND 2 is posted (R328); under a POWER_FAIL capture, or
in a hibernation, it stops (R313, R388). Any other trap stops it. -/
def State.copyStops (s : State) (e : CopyEntry) (t : Trap) : State :=
  if t.inArea then s.copyViolates e t
  else if t.cause = 0x03 ∧ (s.supply.hib || s.core.capReq.any fun k => k.1 == .powerFail) = false then
    let s1 := s.onEntry e.pos fun x => { x with phase := .paged t.addr t.detail }
    match s.core.task with
    | some k => s1.postEvent { taskEvent 2 t.detail s.core k with va := t.addr }
    | none => s1
  else s.holdFault e t.addr (if t.cause = 0x0D then t.aux else 0)

/-- Start a CPYT at the root: its own entry is checked, the stream is written here under DELIVER and forwarded; it
completes when every child has acknowledged (R220, R373). -/
def State.startTree (s0 : State) (e : CopyEntry) (lines : List (List Byte)) : State :=
  let s := s0.sawTree (e.peers % 256)
  let x := s.treeEntry (e.peers % 256)
  if bits x.2.1 0 1 = 0 ∨ x.2.2.1 ≠ s.pos ∨ x.2.2.2 = false then s.holdFault e 0 (BitVec.ofNat 64 (2 ^ s.pos))
  else
    let id := 64 * s.nextReq + s.pos
    let out := lines.zipIdx.map fun y => ((e.dstLine y.2).toNat, y.1)
    let d := if bits x.2.1 1 1 = 1 then s.deliverAll out else (s, true)
    let u := { d.1 with nextReq := s.nextReq + 1 }.forward x.1 id (BitVec.ofNat 8 e.peers) out
    let failed := if d.2 then 0 else 2 ^ s.pos
    if (s.children x.1).isEmpty then (if d.2 then u.finishEntry e else u.holdFault e 0 (BitVec.ofNat 64 failed))
    else
      { u.onEntry e.pos (fun y => { y with phase := .tree }) with
        trees := u.trees ++ [{ id := id, parent := s.pos, waits := s.children x.1, failed := failed,
                               core := some (s.core.id, e.num) }] }

/-- The bytes of a copy move: to memory and rows at once, to peers by requests that it then awaits (R218 to R220). -/
def State.moveCopy (s : State) (t : Task) (e : CopyEntry) (parts : List Piece) : State :=
  let src := s.copySource t e e.lines
  let s1 := s.sawRead t.context parts
  let sent := fun (u : State) (m : Nat) =>
    if u.core.awaits e.num then u.onEntry e.pos fun x => { x with phase := .sending m 0 }
    else if m = 0 then u.finishEntry e
    else u.holdFault e 0 (BitVec.ofNat 64 m)
  match e.kind with
  | .cpy =>
    let r := s1.copyLines t e parts 0 src.1
    (match r.2.or src.2 with
     | some x => r.1.copyStops e x
     | none => sent r.1 0)
  | .cpyf =>
    (match src.2 with
     | some x => s1.copyStops e x
     | none =>
       let r := s1.sendStreams e src.1
       sent r.1 r.2)
  | _ =>
    (match src.2 with
     | some x => s1.copyStops e x
     | none => s1.startTree e src.1)

/-- The rows that `n` bytes at a scratchpad byte address touch. -/
def rangeRows (a n : Nat) : List Nat := if n = 0 then [] else rowRun (a / 64) ((a + n - 1) / 64 - a / 64 + 1)

/-- The rows a copy reads and writes. -/
def CopyEntry.rows (e : CopyEntry) : List Nat :=
  (List.range e.lines).flatMap fun l =>
    (if e.sk then rangeRows (e.srcLine l).toNat e.len else []) ++ if e.dk then rangeRows (e.dstLine l).toNat e.len else []

/-- The copy engine has an entry's bytes to move now: the accesses before it have been performed (R253). -/
def CopyEntry.moves (e : CopyEntry) (c : Core) : Bool := e.phase == .flying 0 && e.len != 0 && !c.unperformed e.after

/-- What the copy engine can do with an entry now: move its bytes, once the accesses before it have been performed (R253)
and its requests for rows have found the ports (R331), or take the answers it awaits, or complete it. -/
def CopyEntry.ready (e : CopyEntry) (c : Core) : Bool :=
  match e.phase with
  | .flying 0 => e.len == 0 || (e.moves c && e.toMove.isEmpty)
  | .asking => !c.awaits e.num
  | .sending _ _ => !c.awaits e.num
  | .landed => true
  | _ => false

/-- A delivered word of an entry has a token to signal (R348). -/
def Core.worded (c : Core) (e : CopyEntry) : Bool := c.wordSigs.any fun x => x.2 == e.pos

/-- An entry has a token to signal or something to complete in this cycle. -/
def CopyEntry.due (e : CopyEntry) (c : Core) : Bool := e.ready c || c.worded e

/-- Delivered words of an entry, or of entries that have left the queue, signal their tokens (R348). -/
def State.wordTokens (s : State) (of : Option (BitVec 6)) : State :=
  let mine := fun (x : BitVec 3 × BitVec 6) => of.all fun p => x.2 == p
  (s.core.wordSigs.filter mine).foldl (fun t x => t.signal x.1 (false, x.2))
    (s.onCore fun c => { c with wordSigs := c.wordSigs.filter fun x => !mine x })

/-- COPY_COMPLETE (R218 to R220, R223): the copy in flight moves its bytes and completes, or stops at the first byte that
fails; parts that lie with peers are asked for first, and what goes to peers is awaited. A SEQRUN that the Enlarger has
reported complete, and a CPYT whose tree has, complete here. The entries change tokens in queue order, a SEQRUN those of
its delivered words first (R34, R348). -/
def execCopyComplete (s0 : State) : Out :=
  let first := s0.core.cq.find? fun e => e.due s0.core
  let s := (s0.wordTokens (first.map (·.pos))).onCore fun c =>
    { c with cqPast := (first.map fun e => max c.cqPast e.num).getD c.cqPast }
  .next (match first.filter fun e => e.ready s.core, s.core.task with
    | some e, some t =>
      (match e.phase with
       | .landed => s.finishEntry e
       | .sending m a => if m = 0 then s.finishEntry e else s.holdFault e a (BitVec.ofNat 64 m)
       | _ =>
         if e.len = 0 then s.finishEntry e
         else
           let parts := (s.copyParts t e e.lines).1
           let ask := s.toFetch e.num parts
           if ask.isEmpty then s.moveCopy t e parts
           else (s.askFor e.num ask).onEntry e.pos fun x => { x with phase := .asking })
    | _, _ => s)

/-- An entry can move its bytes or complete, or has a delivered word's token to signal (R34). -/
def State.copyEnds (s : State) : Bool := (s.core.cq.any fun e => e.due s.core) || !s.core.wordSigs.isEmpty

/-- The copy queue once all that ends in this cycle has ended; `fuel` bounds the steps. -/
def State.afterEnds (s : State) : Nat → State
  | 0 => s
  | fuel + 1 =>
    if s.copyEnds then
      (match execCopyComplete s with
       | .next t => t.afterEnds fuel
       | _ => s)
    else s

/-- An entry stands in the queue before every one that has a token to signal or something to complete: its turn to take
tokens comes first (R34). -/
def State.startsBefore (s : State) (e : CopyEntry) : Bool :=
  (s.core.cq.find? fun d => d.due s.core).any fun d => decide (e.num < d.num)

/-- No copy is in flight, or that in flight completes in this cycle (R222): where its turn comes only after the entry's, that
is seen ahead. -/
def State.engineFree (s : State) (e : CopyEntry) : Bool :=
  !s.core.engineBusy || (s.startsBefore e && !(s.afterEnds (2 * s.core.cq.length + 2)).core.engineBusy)

/-- The first entry can start in this cycle (R222): its tokens are there when its turn comes, and that is not past (R34). -/
def State.copyDue (s : State) : Bool :=
  match s.core.firstCopy with
  | some e =>
    !e.fresh && decide (e.start ≤ s.mcc.toNat) && tokReady s.core.r.tkval e.wait &&
      (e.wait == 0 || decide (s.core.cqPast ≤ e.num)) && s.engineFree e
  | none => false

/-- COPY_ENTRY_START (R221, R222, R224): the first entry takes its tokens and starts; a SEQRUN hands its segment over. -/
def execCopyEntryStart (s : State) : Out :=
  .next (match s.core.firstCopy, s.core.task with
    | some e, some t =>
      if !s.copyDue then s
      else
        let s1 := (s.onRegs fun r => { r with tkval := tokDec r.tkval e.wait }).onCore fun c =>
          { c with cqPast := max c.cqPast e.num }
        let late := s.core.r.detm.getLsbD 1 && e.start != 0 && !e.restored && decide (e.start + 15 < s.mcc.toNat)
        let s2 := if late then
            s1.raiseB s.core.id { cause := 0x0A, entry := some (false, e.pos), aux := BitVec.ofNat 64 e.start }
          else s1
        (match e.kind with
         | .seqrun =>
           let begun := s2.steps.filterMap fun x =>
             if x.key.serial = t.serial ∧ x.comm = true then
               (match s2.ctxs.find? (s2.inStep x.key) with
                | some c => some (x.key, c.r.ssn)
                | none => none)
             else none
           let g : Segment := { id := s2.segNext, serial := t.serial, index := t.index, num := e.num, pos := e.pos,
                                first := rowField e.desc 0 4, count := rowField e.desc 4 4, steps := begun,
                                after := e.after }
           { s2.onEntry e.pos (fun e => { e with phase := .held }) with segs := s2.segs ++ [g], segNext := s2.segNext + 1 }
         | _ => s2.onEntry e.pos fun x =>
             { x with phase := .flying (if e.len = 0 then 0 else max 1 (Config.copyTicks s.ctr)), toMove := e.rows })
    | _, _ => s)

/-- The requests of the tile port, then those of the copy engine, meet the shared ports in this cycle, after the memory slots'
(R331): for the copy in flight, and then for a preload (R281). -/
def Core.servePorts (c : Core) : Core :=
  let t := c.serve c.tileRows
  let c1 := { t.1 with tileRows := t.2 }
  let c2 := match c1.cq.find? fun e => e.moves c1 with
    | some e =>
      let r := c1.serve e.toMove
      { r.1 with cq := r.1.cq.map fun (x : CopyEntry) => if x.num = e.num then { x with toMove := r.2 } else x }
    | none => c1
  match c2.preloading with
  | some (k, staged) =>
    let r := c2.serve k.toFill
    r.1.onPreload staged fun k => { k with toFill := r.2 }
  | none => c2

/-- COPY_FAULT (R219, R225): the copy in flight stops, with an address and a module mask. -/
def execCopyFault (addr aux : Word) (s : State) : Out :=
  .next (match s.core.cq.find? fun e =>
      (match e.phase with
       | .flying _ => true
       | .asking => true
       | .sending _ _ => true
       | .paged _ _ => true
       | .tree => true
       | _ => false) with
    | some e => s.holdFault e addr aux
    | none => s)

/-- SEQRUN_COMPLETE (R221): the Enlarger reports a segment complete. The entry completes at the copy-engine step. -/
def execSeqrunComplete (num : Nat) (s : State) : Out :=
  .next (match s.core.cq.find? fun e => e.num == num && e.phase == .held with
    | some e => s.onEntry e.pos fun x => { x with phase := .landed }
    | none => s)

/-! The Enlarger (R343 to R349). -/

/-- A segment in the Enlarger's hands. -/
def State.seg (s : State) (id : Nat) : Option Segment := s.segs.find? fun g => g.id == id

/-- Change a segment. -/
def State.onSeg (s : State) (id : Nat) (f : Segment → Segment) : State :=
  { s with segs := s.segs.map fun g => if g.id = id then f g else g }

/-- The steps released so far at a superstep instance; where every member has retired, as the instance counts them. -/
def State.ssnOf (s : State) (key : StepKey) : Nat :=
  match s.ctxs.find? (s.inStep key) with
  | some c => c.r.ssn.toNat
  | none => (s.stepInst key).steps.toNat

/-- An undeliverable word stops its segment: the SEQRUN fails with COPY_FAULT, and so does the superstep in progress at
the level of a tagged word (R347). The words behind it go with the segment, those tagged for other supersteps too: R347 stops
the segment, and does not say that their steps fail (DESIGN CHOICE, log entry 110). -/
def State.segFail (s : State) (g : Segment) (w : List Byte) (addr : Word) : State :=
  let s1 := { s with segs := s.segs.filter fun x => x.id != g.id }
  let s2 := s1.withTask g.serial g.index fun u =>
    match u.core.cq.find? fun e => e.num == g.num with
    | some e => u.holdFault e addr (BitVec.ofNat 64 (g.first + g.word))
    | none => u
  match wordTag w, s2.launch g.serial with
  | some (level, _), some l => s2.stepFail (l.wordKey g.index w level)
  | _, _ => s2

/-- A word is well formed (R344, R347). -/
def Launch.wordOk (l : Launch) (w : List Byte) : Bool :=
  wordField w 0 8 % 64 == 0 && decide (wordField w 0 8 < 2 ^ 57 ∧ bits (wordField w 8 2) 0 15 < 24576 ∧
    wordField w 8 2 < 32768 ∧ wordField w 10 2 < 32768 ∧ wordField w 16 2 < 640) && wordField w 18 2 != 0 &&
  bits (wordField w 20 4) 16 12 == 0 && bits (wordField w 24 2) 3 12 == 0 && wordField w 26 6 == 0 &&
  (match wordTag w with
   | some (level, _) => decide (level < l.count) && l.sstep level
   | none => true)

/-- An access of the issuing task that precedes the segment's SEQRUN has not been performed (R253). -/
def State.segEarly (s : State) (g : Segment) : Bool :=
  s.ctxs.any fun c => (c.task.any fun t => t.serial == g.serial && t.index == g.index) && c.unperformed g.after

/-- ENLARGER_WORD_READ (R343, R345, R347): the Enlarger reads its next transfer word and the word's source, both at their
home slices (R335). A missing translation is waited for: R347 resolves it, and R328 names no form in which the Enlarger
tells system software of it, so no event is posted and the word is tried again every tick (DESIGN CHOICE, log entry 87).
The Enlarger reaches HBM alone (chapter 12's table, R1): a source elsewhere is a violation (DEDUCED, log entry 24). -/
def execEnlargerWordRead (id : Nat) (s0 : State) : Out :=
  .next (match s0.seg id with
    | none => s0
    | some g =>
      if g.read.isSome || s0.segEarly g then s0
      else
        let w := s0.transferWord (g.first + g.word)
        match s0.launch g.serial with
        | none => { s0 with segs := s0.segs.filter fun x => x.id != id }
        | some l =>
          let s := s0.agentLook (fld (s0.reg Key.enlprog) 5 47 * 32 + 32 * (g.first + g.word)) 32
          if !l.wordOk w then s.segFail g w 0
          else
            let n := 64 * (bits (wordField w 8 2) 0 15 + 1)
            let d := partsBy (fun a => s.sysXlate l.context a 6) l.keyid (n / 65536 + 2)
              (BitVec.ofNat 64 (wordField w 0 8)) n
            match d.1.find? fun p => s.physKind p.pa != .hbm with
            | some p => s.segFail g w p.va
            | none =>
              let r := s.partsBytes 0 d.1
              let u := d.1.foldl (fun (t : State) p => (t.walked l.context p.va).engineRead none p) s
              match r.2.or d.2 with
              | some t => if t.cause = 0x03 then s0 else u.segFail g w t.addr
              | none => u.onSeg id fun g => { g with read := some w, data := r.1 })

/-- The receivers of a word, by INDEX (R344). -/
def receivers (w : List Byte) : List Nat :=
  (List.range (wordField w 16 2 + 1)).map fun i => wordField w 12 4 + i * wordField w 18 2

/-- Where a receiver stands: on a core, staged on one, captured, retired, or not yet bound. -/
inductive RecvAt where
  | core (n : Nat) (half : Nat)
  | captured
  | retired
  | unbound
  deriving DecidableEq, Repr

/-- Find a receiver (R347). -/
def State.recvAt (s : State) (l : Launch) (i : Nat) : RecvAt :=
  let is := fun (t : Task) => t.serial == l.serial && t.index == i
  match s.cores.find? fun c => c.st != .free && c.task.any is with
  | some c => if c.st = .captured ∨ c.st = .held then .captured else .core c.id c.half
  | none =>
    match s.cores.find? fun c => c.staged.any is with
    | some c => .core c.id ((c.staged.map (·.half)).getD 0)
    | none =>
      if s.slots.any fun p => p.2.core.task.any is then .captured
      else if l.rsigs.any (fun p => p.1 == i) && !l.live.contains i then .retired
      else .unbound

/-- Write the word's rows to a receiver that has the first `k` of them, in ascending order, each whole, as far as its ports
move them in this cycle (R331, R345): the rows that it has then. -/
def State.giveRows (s : State) (n half first k : Nat) (data : List Byte) : State × Nat :=
  let r := (s.coreAt n).serveRun (first + k) (data.length / 64 - k)
  (s.onCoreAt n fun _ => (rowRun k r.2).foldl (fun c i =>
    c.setProw (physRow half (first + i)) (BitVec.ofNat 512 (leNat ((data.drop (64 * i)).take 64)))) r.1, k + r.2)

/-- The rows of the word in hand that a receiver has. -/
def Segment.has (g : Segment) (i : Nat) : Nat := ((g.given.find? fun x => x.1 == i).map (·.2)).getD 0

/-- One cycle of the word's delivery: each receiver takes the rows that its ports move; a retired one is skipped, and a captured
one takes none until it is restored (R331, R345, R347). -/
def State.giveWord (s : State) (l : Launch) (g : Segment) (w : List Byte) : State × List (Nat × Nat) :=
  let first := wordField w 10 2 % 32768
  (receivers w).foldl (fun (u : State × List (Nat × Nat)) i =>
    match s.recvAt l i with
    | .core n half =>
      let p := u.1.giveRows n half first (g.has i) g.data
      (p.1, u.2 ++ [(i, p.2)])
    | .retired => (u.1, u.2 ++ [(i, g.data.length / 64)])
    | _ => (u.1, u.2 ++ [(i, g.has i)])) (s, [])

/-- A tagged word's turn (R346, R347): deliver it now, wait, or it is undeliverable. -/
inductive Turn where
  | now | later | never
  deriving DecidableEq, Repr

/-- The turn of the word in hand: words tagged for one step go in the order of their segments (R345, R346). Steps are
compared modulo 65,536; of the circle R346 does not say where the past ends and the future begins: the half behind
SSN.STEP is past (DESIGN CHOICE, log entry 87). -/
def State.wordTurn (s : State) (l : Launch) (g : Segment) (w : List Byte) : Turn :=
  match wordTag w with
  | none => .now
  | some (level, step) =>
    let key := l.wordKey g.index w level
    let ssn := s.ssnOf key
    if ssn % 65536 = step then
      (if g.steps.contains (key, BitVec.ofNat 32 ssn) then .never
       else if (s.stepInst key).comm && !s.segs.any fun x =>
           x.serial == g.serial && decide (x.id < g.id) && !x.steps.contains (key, BitVec.ofNat 32 ssn) &&
             s.segTagged l x key ssn then .now
       else .later)
    else if (ssn + 65536 - step) % 65536 < 32768 then .never
    else .later

/-- A delivered word's token is signalled at the copy-engine step of the issuing task, at once in a saved context
(R34, R348). -/
def State.wordSignal (s : State) (g : Segment) (w : List Byte) : State :=
  let sg := wordField w 24 2
  if bits sg 15 1 = 1 then
    s.withTaskAt g.serial g.index
      (fun u => u.onCore fun c => { c with wordSigs := c.wordSigs ++ [(BitVec.ofNat 3 sg, g.pos)] })
      (fun u => u.signal (BitVec.ofNat 3 sg) (false, g.pos))
  else s

/-- The segment has delivered its last word: its SEQRUN completes at the copy-engine step, at once in a saved context
(R221, R226). -/
def State.segDone (s : State) (g : Segment) : State :=
  let mine := fun (e : CopyEntry) => e.num == g.num && e.phase == .held
  ({ s with segs := s.segs.filter fun x => x.id != g.id } : State).withTaskAt g.serial g.index
    (fun u => u.onCore fun c => { c with cq := c.cq.map fun e => if mine e then { e with phase := .landed } else e })
    (fun u =>
      match u.core.cq.find? mine with
      | some e => u.finishEntry e
      | none => u)

/-- ENLARGER_DELIVERY (R331, R345 to R348): the word in hand is written to its receivers. When every one has all its rows, its
token is signalled once, and the segment moves on; after its last word its SEQRUN completes. -/
def execEnlargerDelivery (id : Nat) (s : State) : Out :=
  .next (match s.seg id with
    | none => s
    | some g =>
      match g.read, s.launch g.serial with
      | some w, some l =>
        let rows := g.data.length / 64
        (match s.wordTurn l g w with
         | .never => s.segFail g w 0
         | .later => s
         | .now =>
           if ((receivers w).map (s.recvAt l)).contains .unbound ||
               !((List.range rows).all fun k => declared (l.mkTask 0 0) (wordField w 10 2 % 32768 + k)) then s.segFail g w 0
           else
             let r := s.giveWord l g w
             if r.2.all fun x => decide (rows ≤ x.2) then
               let s2 := r.1.wordSignal g w
               if g.word + 1 = g.count then s2.segDone g
               else s2.onSeg id fun g => { g with word := g.word + 1, read := none, data := [], given := [] }
             else r.1.onSeg id fun g => { g with given := r.2 })
      | _, _ => s)

/-- ENLARGER_FAILOVER (R349): the standby takes over; words in hand are read again, and what was signalled stays. -/
def execEnlargerFailover (s : State) : Out :=
  .next { s.setRfld Key.enlgt 0 1 1 with segs := s.segs.map fun g => { g with read := none, data := [], given := [] } }

end Sys2Proof.Machine
end

