-- ==== Sys2Proof/Machine/Fabric.lean ====
section
/-! DEFINITION. Fabric: the Soestuz links (R360 to R363), incarnations (R365), exactly-once remote operations (R366 to
R371, R389, R400), tree streams (R373), and link FIFOs (R374, R375). -/

namespace Sys2Proof.Machine

/-- Run an operation with core `n` in focus, and put the focus back. -/
def State.atCore (s : State) (n : Nat) (f : State → State) : State := (f (s.focus n)).focus s.core.id

/-! Links (R360, R362, R363). -/

def State.link (s : State) (k : Nat) : Link := Sparse.get {} s.links k
def State.onLink (s : State) (k : Nat) (f : Link → Link) : State := { s with links := Sparse.set s.links k (f (s.link k)) }

/-- The number of the flit that is due: after a retrain, that of the first one to arrive, since the flits before it may be
lost with the sender's buffer (R360; DESIGN CHOICE, log entry 97). -/
def Link.dueSeq (l : Link) (f : Flit) : Nat := if l.resync then max l.rxSeq f.seq else l.rxSeq

/-- FLIT_RECEIVE (R360, R362, R363): the flit that is due, whose check and tag verify under a live epoch, is taken and
acknowledged. Any other is discarded. The due flit's failure, or its absence, is answered by one request for a replay from
it; the flits that only follow it ask for no other. -/
def execFlitReceive (f : Flit) (s : State) : Out :=
  let l := s.link f.link
  let due := l.dueSeq f
  let good := f.ok && l.rxLive.contains f.epoch
  .next (if l.up = false ∨ f.seq < due then s
    else if good = true ∧ f.seq = due then
      (s.onLink f.link fun l => { l with rxSeq := due + 1, asked := false, resync := false }).send (.flitAck f.link f.seq)
    else if l.asked = true ∧ f.seq ≠ due then s
    else (s.onLink f.link fun l => { l with rxSeq := due, asked := true, resync := false }).send (.replay f.link due))

/-- REPLAY_REQUEST (R360, R363): the flits from the requested one on are sent again under their first epochs; more than
16 consecutive replays of one flit take the link down, and its buffer is discarded. -/
def execReplayRequest (link : Nat) (seq : Nat) (s : State) : Out :=
  let l := s.link link
  let n := Sparse.get 0 l.tries seq + 1
  .next (if l.up = false then s
    else if 16 < n then s.onLink link fun l => { l with up := false, replay := [], tries := [] }
    else
      (l.replay.filter fun f => decide (seq ≤ f.1)).foldl (fun t f => t.send (.resend link f.1 f.2))
        (s.onLink link fun l => { l with tries := Sparse.set l.tries seq n }))

/-- Rotate a direction to the next epoch; deferred while two epochs are live (R363). -/
def Link.rotateKey (l : Link) : Link :=
  if 2 ≤ l.txLive.length then { l with rotate := l.rotate + 1 }
  else { l with txEpoch := l.txEpoch + 1, txLive := l.txLive ++ [l.txEpoch + 1] }

/-- A receive key is loaded for the next epoch; deferred while two epochs are live (R363, R425). -/
def Link.loadKey (l : Link) : Link :=
  if 2 ≤ l.rxLive.length then { l with rxWait := l.rxWait + 1 }
  else { l with rxLive := l.rxLive ++ [l.rxLive.getLastD 0 + 1] }

/-- The retire marker goes out, on a link that is up, once no flit of the older epoch is kept; a rotation that waited then
begins (R363). `fuel` bounds the epochs. -/
def State.retireEpochs (s : State) (k : Nat) : Nat → State
  | 0 => s
  | fuel + 1 =>
    let l := s.link k
    match l.txLive with
    | e :: rest =>
      if rest.isEmpty || !l.up || l.replay.any fun f => f.2 == e then s
      else
        ((s.onLink k fun l =>
          let m := { l with txLive := rest }
          if 0 < m.rotate then { m with rotate := m.rotate - 1 }.rotateKey else m).send (.retire k e)).retireEpochs k fuel
    | [] => s

/-- The retire markers that are due (R363). -/
def State.retireEpoch (s : State) (k : Nat) : State := s.retireEpochs k ((s.link k).rotate + 1)

/-- FLIT_ACK (R360, R363): acknowledged flits leave the replay buffer. -/
def execFlitAck (link : Nat) (seq : Nat) (s : State) : Out :=
  .next ((s.onLink link fun l =>
    { l with replay := l.replay.filter fun f => decide (seq < f.1),
             tries := l.tries.filter fun f => decide (seq < f.1) }).retireEpoch link)

/-- RETIRE_MARKER (R363): the receiver discards the key of the retired epoch; a key that waited is then live. -/
def execRetireMarker (link : Nat) (epoch : BitVec 8) (s : State) : Out :=
  .next (s.onLink link fun l =>
    let m := { l with rxLive := l.rxLive.filter (· != epoch) }
    if 0 < m.rxWait ∧ m.rxLive.length < 2 then { m with rxWait := m.rxWait - 1 }.loadKey else m)

/-- KEY_ROTATION (R363): the transmitter rotates on its own. -/
def execKeyRotation (link : Nat) (s : State) : Out := .next ((s.onLink link Link.rotateKey).retireEpoch link)

/-- LINK_UP (R360, R363, R365): the link may carry traffic, and the module announces its incarnation on it. Its buffer is
empty, so that no flit of an older epoch is kept. -/
def execLinkUp (link : Nat) (s : State) : Out :=
  .next (((s.onLink link fun l =>
    { l with up := true, replay := [], tries := [], asked := false, resync := true }).send
      (.announce link s.inc s.supply.hib)).retireEpoch link)

/-! Incarnations (R365, R369). -/

/-- Retire the proof-cache entries of a module (R368, R369). -/
def State.retireProofs (s : State) (j : Nat) : State := { s with proofs := s.proofs.filter fun p => p.who.module != j }

/-- Nothing is held of a module's requesters: its entries are retired, and no acknowledged-through value is held until its
next request (R368, R369). -/
def State.forgetPeer (s : State) (j : Nat) : State :=
  let t := s.retireProofs j
  { t with ackts := t.ackts.filter fun x => x.1.module != j }

/-- Learn the incarnation of a position: a new one retires every entry of the old; where the position was held as
hibernated, probing begins again 10 ms later (R365, R369). -/
def State.learn (s : State) (j : Nat) (inc : BitVec 16) (hib : Bool) : State :=
  let back := (s.peer j).hib && !hib
  let s1 := if (s.peer j).inc = inc then s else s.forgetPeer j
  let s2 := s1.onPeer j fun p => { p with inc := inc, hib := hib, present := true }
  { s2 with proofs := s2.proofs.map fun p =>
      if back && p.who.module == j then { p with age := 0, probing := none } else p }

/-- INCARNATION_ANNOUNCEMENT (R365, R369, R400): the hold of a hibernated module ends. -/
def execIncarnationAnnouncement (pos : Nat) (inc : BitVec 16) (s : State) : Out :=
  .next ((s.learn pos inc false).mapCores fun c =>
    { c with remotes := c.remotes.map fun r => if r.module = pos then { r with hib := none } else r })

/-- HIBERNATED_ANNOUNCEMENT (R365): the sender is held as hibernated. -/
def execHibernatedAnnouncement (pos : Nat) (inc : BitVec 16) (s : State) : Out := .next (s.learn pos inc true)

/-! The owner's side (R368, R370, R371, R389). -/

/-- A store meets uncorrectable data: a line that it writes in part fails its read (R371). -/
def State.partBad (s : State) (pa n : Nat) (keyid : BitVec 16) : Bool :=
  let a := s.canon pa
  (List.range (ceilDiv (a % 64 + n) 64)).any fun i =>
    let l := a / 64 + i
    !decide (a ≤ 64 * l ∧ 64 * l + 64 ≤ a + n) && s.lineBad l keyid

/-- Perform a request in this module's HBM (R366, R371): its status and data. A read that fails its check is logged
(R355). -/
def State.serve (s : State) (q : RemoteReq) : State × AnsStatus × List Byte :=
  let n := match q.kind with
    | .load n => n
    | .store d => d.length
    | .atomic op _ _ _ => atomicSize op
  let p : Piece := { va := 0, pa := q.addr, n := n, key := q.keyid }
  if 0x8000000000 < q.addr + n then (s, .address, [])
  else
    match q.kind with
    | .load n =>
      let t := s.engineRead none p
      if (s.badLine q.addr n q.keyid).isSome then (t, .ownerMemory, []) else (t, .done, s.physRead q.addr n q.keyid)
    | .store d =>
      if s.partBad q.addr n q.keyid then (s.logBad q.addr n q.keyid, .ownerMemory, [])
      else ((s.physWrite q.addr d q.keyid).engineWrote none p, .done, [])
    | .atomic op b d nbv =>
      if (s.badLine q.addr n q.keyid).isSome then (s.engineRead none p, .ownerMemory, [])
      else
        let old := BitVec.ofNat 64 (leNat (s.physRead q.addr n q.keyid))
        let s1 := if atomicWrites op old d then
            (s.physWrite q.addr (leBytes n (atomicNew op nbv old b d).toNat) q.keyid).engineWrote none p
          else s.engineRead none p
        (s1, .done, leBytes n old.toNat)

/-- The acknowledged-through value held for an identity. -/
def State.acktOf (s : State) (w : Requester) : Option (BitVec 32) := (s.ackts.find? fun x => x.1 == w).map (·.2)

/-- The proof-cache entry of a serial. -/
def State.proofOf (s : State) (w : Requester) (serial : BitVec 32) : Option Proof :=
  s.proofs.find? fun p => p.who == w && p.serial == serial

/-- Take a requester's incarnation and acknowledged-through value, and retire what they cover (R368). -/
def State.takeAckt (s : State) (q : RemoteReq) : State :=
  let s1 := if q.reqInc = (s.peer q.who.module).inc then s
    else
      (s.forgetPeer q.who.module).onPeer q.who.module fun p => { p with inc := q.reqInc, released := none }
  let a := (s1.acktOf q.who).getD q.ackt
  let up := decide (1 ≤ (q.ackt - a).toNat ∧ (q.ackt - a).toNat ≤ 1073741824)
  let top := if up then q.ackt else a
  { s1 with
    ackts := (s1.ackts.filter fun x => x.1 != q.who) ++ [(q.who, top)]
    proofs := s1.proofs.filter fun p =>
      !(up && p.who == q.who && decide (1 ≤ (p.serial - a).toNat ∧ (p.serial - a).toNat ≤ (q.ackt - a).toNat)) }

/-- The owner performs a request whose turn has come, answers it from its proof cache, or refuses it (R368, R370, R371,
R389). A load that comes again gets the answer of its first performance, so that it is not performed after a later store of
its requester (R250, R256; DEDUCED, log entry 123). -/
def State.answerReq (s : State) (q : RemoteReq) : State :=
  let say := fun (t : State) (x : AnsStatus) (d : List Byte) => t.send (.answer q.who q.serial x d)
  match q.kind with
    | .load _ =>
      if s.supply.hib || s.supply.safe then say s .hibernating []
      else if q.ownerInc ≠ s.inc then say s .unknownOutcome []
      else
        (match (s.peer q.who.module).loads.find? fun x => x.1 == q.order with
         | some x => say s x.2.1 x.2.2
         | none =>
           let r := s.serve q
           say (r.1.onPeer q.who.module fun p => { p with loads := p.loads ++ [(q.order, r.2)] }) r.2.1 r.2.2)
    | _ =>
      if s.supply.hib || s.supply.safe then
        (match s.proofOf q.who q.serial with
         | some p => say s p.status p.data
         | none => say s .hibernating [])
      else if q.ownerInc ≠ s.inc ∨ (s.peer q.who.module).released = some q.reqInc then say s .unknownOutcome []
      else
        let s1 := s.takeAckt q
        let d := (q.serial - (s1.acktOf q.who).getD 0).toNat
        if d = 0 ∨ 1073741824 < d then s1
        else
          match s1.proofOf q.who q.serial with
          | some p => say s1 p.status p.data
          | none =>
            if 32768 ≤ s1.proofs.length then say s1 .retry []
            else
              let r := s1.serve q
              say { r.1 with proofs := r.1.proofs ++
                [{ who := q.who, serial := q.serial, status := r.2.1, data := r.2.2 }] } r.2.1 r.2.2

/-- The answer that puts a request off: it is not performed, and will be sent again (R368, R389). -/
def State.putsOff (s : State) (q : RemoteReq) : Option AnsStatus :=
  match q.kind with
  | .load _ => if s.supply.hib || s.supply.safe then some .hibernating else none
  | _ =>
    if s.supply.hib || s.supply.safe then (if (s.proofOf q.who q.serial).isSome then none else some .hibernating)
    else if q.ownerInc ≠ s.inc ∨ (s.peer q.who.module).released = some q.reqInc then none
    else
      let t := s.takeAckt q
      let d := (q.serial - (t.acktOf q.who).getD 0).toNat
      if d = 0 ∨ 1073741824 < d ∨ (t.proofOf q.who q.serial).isSome = true ∨ t.proofs.length < 32768 then none
      else some .retry

/-- The requests of a module whose turn has come, in order (R361). One that is put off keeps its turn, and those after it
are put off in the same way, so that none is performed before it (DEDUCED, log entry 98). `at_` is the next in order,
`off` how they are put off, and `fuel` bounds them. -/
def State.takeTurns (s : State) (j at_ : Nat) (off : Option AnsStatus) : Nat → State
  | 0 => s
  | fuel + 1 =>
    match (s.peer j).waiting with
    | [] => s
    | q :: l =>
      if at_ < q.order then s
      else
        let t := s.onPeer j fun p => { p with waiting := l }
        let rest := fun (u : State) (o : Option AnsStatus) => u.takeTurns j (max at_ (q.order + 1)) o fuel
        match off with
        | some x => rest (t.send (.answer q.who q.serial x [])) off
        | none =>
          let o := t.putsOff q
          rest ((if o.isSome then t else t.onPeer j fun p => { p with next := max p.next (q.order + 1) }).answerReq q) o

/-- REMOTE_REQUEST (R361, R368, R370, R371, R389): the owner's ingress restores the order in which the requester module
issued its requests; each is answered in its turn. -/
def execRemoteRequest (q : RemoteReq) (s : State) : Out :=
  let j := q.who.module
  let t := s.onPeer j fun p =>
    let o := if p.rxInc = q.reqInc then p else { p with rxInc := q.reqInc, next := 0, waiting := [], loads := [] }
    { o with next := max o.next q.settled, loads := o.loads.filter fun x => decide (q.settled ≤ x.1),
             waiting := ((o.waiting.filter fun x => x.order != q.order) ++ [q]).insertionSort fun a b => a.order ≤ b.order }
  .next (t.takeTurns j (t.peer j).next none (t.peer j).waiting.length)

/-- Change the i-th entry of the proof cache. -/
def State.onProof (s : State) (i : Nat) (f : Proof → Proof) : State := { s with proofs := s.proofs.modify i f }

/-- PROOF_PROBE (R369): an entry that has stood for 10 ms makes the owner probe its requester, unless that module is
held as hibernated. -/
def execProofProbe (i : Nat) (s : State) : Out :=
  .next (match s.proofs[i]? with
    | some p =>
      if 33000000 ≤ p.age ∧ p.probing = none ∧ (s.peer p.who.module).hib = false then
        (s.onProof i fun p => { p with probing := some 0 }).send (.probe p.who p.serial)
      else s
    | none => s)

/-- PROBE_REQUEST (R369): this module answers from the record of a requester slot, resident or captured. -/
def execProbeRequest (who : Requester) (from_ : Nat) (s : State) : Out :=
  .next (if s.supply.hib then s.send (.probeAns from_ who .hibernating)
    else
      let v := match s.ctxs.find? fun c => c.rqCore == who.core && c.rqSlot == who.slot with
        | some c => c.rqAckt
        | none =>
          match s.rqTable.find? fun x => x.1 == who.core * 4096 + who.slot with
          | some x => x.2.2
          | none => 0
      s.send (.probeAns from_ who (.ackt v s.inc)))

/-- PROBE_ANSWER (R369): the entry is retired where ACKT covers it, and kept otherwise; a new incarnation retires every
entry of the module. -/
def execProbeAnswer (i : Nat) (x : ProbeAns) (s : State) : Out :=
  .next (match s.proofs[i]? with
    | none => s
    | some p =>
      if p.probing = none then s
      else
        match x with
        | .hibernating => s.onProof i fun p => { p with age := 0, probing := none }
        | .ackt v inc =>
          if inc ≠ (s.peer p.who.module).inc then s.learn p.who.module inc false
          else if (v - p.serial).toNat < 2147483648 then { s with proofs := s.proofs.eraseIdx i }
          else s.onProof i fun p => { p with age := 0, probing := none })

/-- PROBE_TIMEOUT (R369): without an answer for 1 s, a module not held as hibernated counts as restarted. -/
def execProbeTimeout (i : Nat) (s : State) : Out :=
  .next (match s.proofs[i]? with
    | some p =>
      (match p.probing with
       | some n =>
         if 3300000000 ≤ n ∧ (s.peer p.who.module).hib = false then s.forgetPeer p.who.module else s
       | none => s)
    | none => s)

/-- A write to PRFREL (R369, R379): the entries of a module held as hibernated are released. -/
def State.prfrel (s : State) (v : Word) : State :=
  let j := fld v 0 6
  if v.getLsbD 7 = true ∧ (s.peer j).hib = true then
    (s.retireProofs j).onPeer j fun p => { p with released := some p.inc }
  else s

/-- PRFREL (R369). -/
def execPrfrel (v : Word) (s : State) : Out := .next (s.prfrel v)

/-! The requester's side (R366, R367, R370, R371, R400). -/

/-- The wait of the core in focus on a request ends: its serial counts as answered, the fences hear of it, its landing
has its data, or lands any value (R366, R371). `lost`: the fences count the module as lost (R209). -/
def State.endRemote (s : State) (r : Remote) (data : Option (List Byte)) (lost : Bool) : State :=
  let fill := fun (l : Landing) =>
    match r.land with
    | some (i, off) =>
      if l.id = i then
        let aw := l.awaits.filter fun a => a.1 != r.id
        { l with data := l.data ||| BitVec.ofNat 1024 (leNat (data.getD []) * 2 ^ (8 * off)), awaits := aw,
                 lost := l.lost || data.isNone, wait := if aw.isEmpty then none else l.wait }
      else l
    | none => l
  let hear := fun (f : Fence) =>
    if f.remotes.contains r.id then
      { f with remotes := f.remotes.filter (· != r.id), lost := if lost && !f.order then f.lost ++ [r.module] else f.lost }
    else f
  s.onCore fun c =>
    let d := match r.serial with
      | some n => c.answered n
      | none => c
    { d with remotes := d.remotes.filter fun x => x.id != r.id, lands := d.lands.map fill, fences := d.fences.map hear }

/-- An engine has its bytes from a peer, or the trap that stands for them. -/
def State.bring (s : State) (r : Remote) (data : List Byte) (bad : Option Trap) : State :=
  match r.into with
  | some n => s.onCore fun c => { c with fetched := c.fetched ++ [{ into := n, va := r.va, data := data, bad := bad }] }
  | none => s

/-- A request of the core in focus is answered with data. -/
def State.answeredRemote (s : State) (r : Remote) (data : List Byte) : State :=
  let t := s.endRemote r (some data) false
  if bearing r.kind then t else t.bring r data none

/-- A copy's write to a peer has failed: the module joins the copy's mask (R219, R225). -/
def CopyEntry.writeFailed (e : CopyEntry) (r : Remote) : CopyEntry :=
  match e.phase with
  | .sending m a => { e with phase := .sending (m ||| 2 ^ r.module) (if m = 0 then r.va else a) }
  | _ => e

/-- The wait of the core in focus on a request ends with a cause: it is raised (R366, R371), or, for a copy or a preload,
becomes its COPY_FAULT, which names the module but where the owner's data was uncorrectable (R219, R225, R281). -/
def State.failRemote (s : State) (r : Remote) (t : Trap) (lost : Bool) : State :=
  let u := s.endRemote r none lost
  match r.into with
  | none => u.raiseB u.core.id t
  | some n =>
    if 4294967296 ≤ n then (u.bring r [] (some t)).raiseB u.core.id t
    else if bearing r.kind then
      u.onCore fun c => { c with cq := c.cq.map fun e => if e.num = n then e.writeFailed r else e }
    else
      u.bring r [] (some { cause := 0x0D, addr := r.va,
                           aux := if t.cause = 0x0E ∧ t.detail = 2 then 0 else BitVec.ofNat 64 (2 ^ r.module) })

/-- FABRIC_ERROR (R371). -/
def fabricError (detail : BitVec 8) (r : Remote) : Trap :=
  { cause := 0x0E, detail := detail, addr := r.va, aux := (r.serial.getD 0).setWidth 64 }

/-- Change a request of the core in focus. -/
def State.onRemote (s : State) (id : Nat) (f : Remote → Remote) : State :=
  s.onCore fun c => { c with remotes := c.remotes.map fun r => if r.id = id then f r else r }

/-- Run an operation on a request that a core has outstanding. -/
def State.withRemote (s : State) (n id : Nat) (f : State → Remote → State) : State :=
  if s.cores.any fun c => c.id == n then
    s.atCore n fun t =>
      match t.core.remotes.find? fun r => r.id == id with
      | some r => f t r
      | none => t
  else s

/-- REMOTE_ANSWER (R366, R370, R371, R400): an answer ends the wait, with data or with FABRIC_ERROR; RETRY and
HIBERNATING do not. -/
def execRemoteAnswer (x : RemoteAns) (s : State) : Out :=
  .next (s.withRemote x.core x.id fun t r =>
    match x.status with
    | .done => t.answeredRemote r x.data
    | .retry => t.onRemote x.id fun r => { r with tries := 0, age := 0, hib := none }
    | .hibernating => t.onRemote x.id fun r => { r with tries := 0, age := 0, hib := r.hib.or (some 0) }
    | .unknownOutcome => t.failRemote r (fabricError 1 r) true
    | .ownerMemory => t.failRemote r (fabricError 2 r) false
    | .address => t.failRemote r (fabricError 4 r) false)

/-- RETRANSMIT_TIMEOUT (R366, R400): 20 µs without an answer. The request is sent again, unchanged; after the eighth
counted transmission PEER_LOST ends the wait; the silence of an owner held as hibernated is a HIBERNATING answer. -/
def execRetransmitTimeout (core : Nat) (id : Nat) (s : State) : Out :=
  .next (s.withRemote core id fun t r =>
    if r.age < 66000 then t
    else if r.tries ≠ 0 ∧ (t.peer r.module).hib = true then
      t.onRemote id fun r => { r with tries := 0, age := 0, hib := r.hib.or (some 0) }
    else if r.tries < 8 then
      (t.onRemote id fun r => { r with tries := r.tries + 1, age := 0 }).send (t.reqMsg t.core r)
    else t.failRemote r { cause := 0x0F, addr := r.va, aux := BitVec.ofNat 64 r.module } true)

/-- HIBERNATING_TIMEOUT (R400): after 1 s of HIBERNATING answers, or of a hibernated owner's silence, the wait ends. -/
def execHibernatingTimeout (core : Nat) (id : Nat) (s : State) : Out :=
  .next (s.withRemote core id fun t r =>
    match r.hib with
    | some n => if n < 3300000000 then t else t.failRemote r (fabricError 3 r) true
    | none => t)

/-! Tree streams (R373). -/

/-- A tree stream's subtree has ended: the root's copy completes at its copy-engine step, or fails; any other module tells
its parent which modules failed. -/
def State.endTree (s : State) (t : Tree) : State :=
  let s1 := { s with trees := s.trees.filter fun x => x.id != t.id }
  match t.core with
  | none => s1.send (.treeAck t.parent t.id t.failed)
  | some (n, num) =>
    let act := fun (u : State) =>
      match u.core.cq.find? fun e => e.num == num && e.phase == .tree with
      | some e =>
        if t.failed = 0 then u.onEntry e.pos fun e => { e with phase := .landed }
        else u.holdFault e 0 (BitVec.ofNat 64 t.failed)
      | none => u
    s1.atCore n act

/-- TREE_STREAM_RECEIVE (R373): the entry is read once and checked; the stream is written under DELIVER and forwarded to
every child, or refused. -/
def execTreeStreamReceive (x : TreeStream) (s0 : State) : Out :=
  let s := s0.sawTree x.entry.toNat
  let e := s.treeEntry x.entry.toNat
  .next (if bits e.2.1 0 1 = 0 ∨ e.2.2.1 ≠ x.sender ∨ e.2.2.2 = false then s.send (.treeAck x.sender x.id (2 ^ s.pos))
    else
      let d := if bits e.2.1 1 1 = 1 then s.deliverAll x.lines else (s, true)
      let u := d.1.forward e.1 x.id x.entry x.lines
      let failed := if d.2 then 0 else 2 ^ s.pos
      if (s.children e.1).isEmpty then u.send (.treeAck x.sender x.id failed)
      else { u with trees := u.trees ++ [{ id := x.id, parent := x.sender, waits := s.children e.1, failed := failed }] })

/-- TREE_ACK (R373): a child acknowledges its subtree, with the mask of the modules in it that refused or were lost. -/
def execTreeAck (id : Nat) (from_ : Nat) (failed : Nat) (s : State) : Out :=
  .next (match s.trees.find? fun t => t.id == id with
    | none => s
    | some t =>
      let u := { t with waits := t.waits.filter (· != from_), failed := t.failed ||| failed }
      if u.waits.isEmpty then s.endTree u
      else { s with trees := s.trees.map fun x => if x.id = id then u else x })

/-! Link FIFOs (R374, R375). -/

/-- The task has a context, bound or captured, or is staged, which is bound too (R45, R374). -/
def State.hasTask (s : State) (serial : BitVec 32) (index : Nat) : Bool :=
  let is := fun (t : Task) => t.serial == serial && t.index == index
  s.ctxs.any (fun c => c.task.any is) || s.cores.any fun c => c.staged.any is

/-- A binding that waits for the next boundary of the task in focus (R374). -/
def State.bindLater (s : State) (q : BitVec 4) (peer : Option (Nat × Nat)) : State :=
  s.onCore fun c => { c with task := c.task.map fun t => { t with binds := t.binds ++ [(q, peer)] } }

/-- A write to QBINDB acts on the task that QBINDA names: its FIFO takes a new binding, or none, and loses its buffers, at its
next boundary; that is the first one of a staged task, and of a captured or held one the first after it resumes, until which
its end grants no credit (R375). Without such a task a REFUSED event is posted (R374). -/
def State.setFifo (s : State) (v : Word) (peer : Option (Nat × Nat)) : State :=
  let a := s.reg Key.qbinda
  let serial := BitVec.ofNat 32 (fld a 32 32)
  let index := fld a 0 32
  let q := BitVec.ofNat 4 (fld v 0 4)
  let later := fun (c : Core) => { c with staged := c.staged.map fun t =>
    if t.serial = serial ∧ t.index = index then { t with binds := t.binds ++ [(q, peer)] } else t }
  if s.hasTask serial index then
    (s.mapCores later).withTaskAt serial index
      (fun u => if u.core.st = .captured ∨ u.core.st = .held then u.bindLater q peer else u.bindFifo q peer)
      fun u => u.bindLater q peer
  else s.postEvent { kind := 4, status := 1, serial := serial, index := index }

/-- FIFO_BIND (R374). -/
def execFifoBind (v : Word) (s : State) : Out :=
  .next (if v.getLsbD 63 then s else s.setFifo v (some (fld v 8 6, fld v 16 12)))

/-- FIFO_UNBIND (R374). -/
def execFifoUnbind (v : Word) (s : State) : Out := .next (if v.getLsbD 63 then s.setFifo v none else s)

/-- The FIFO of a context that is an end of a channel to a module. -/
def Core.fifoOf (c : Core) (p : Nat × Nat) : Option (BitVec 4) :=
  ((List.range 16).find? fun k => (c.fifo[k]?.map (·.peer)) == some (some p)).map (BitVec.ofNat 4)

/-- Change this module's end of a channel to another, on a core or in a save slot (R374, R375). -/
def State.onChannel (s : State) (p : Nat × Nat) (f : Fifo → Fifo) : State :=
  let g := fun (c : Core) => match c.fifoOf p with
    | some q => c.onFifo q f
    | none => c
  match s.cores.find? fun c => c.st != .free && (c.fifoOf p).isSome with
  | some c => s.onCoreAt c.id g
  | none =>
    match s.slots.find? fun x => (x.2.core.fifoOf p).isSome with
    | some x => { s with slots := Sparse.set s.slots x.1 { x.2 with core := g x.2.core } }
    | none => s

/-- A context that takes words of its FIFOs' peers now: one captured, or held in place, keeps its buffers (R313, R375,
R399). -/
def Core.fifoLive (c : Core) : Bool := c.st != .free && c.st != .captured && c.st != .held

/-- The other end of a channel inside this module: core and FIFO (R374). -/
def State.otherEnd (s : State) (n : Nat) (q : BitVec 4) (ch : Nat) : Option (Nat × BitVec 4) :=
  (s.cores.filter Core.fifoLive).findSome? fun c =>
    ((List.range 16).find? fun k =>
      (c.fifo[k]?.map (·.peer)) == some (some (s.pos, ch)) && !(c.id == n && k == q.toNat)).map
      fun k => (c.id, BitVec.ofNat 4 k)

/-- The oldest outbound word of a core's FIFO leaves, where the other side has a free place. -/
def State.fifoOut (s : State) (core : Nat) (q : BitVec 4) : State :=
  let f := (s.coreAt core).fifo[q.toNat]'q.isLt
  match f.peer, f.outb with
  | some (m, ch), w :: rest =>
    let take := fun (t : State) => t.onCoreAt core fun c => c.onFifo q fun f => { f with outb := rest, room := f.room - 1 }
    if m = s.pos then
      (match s.otherEnd core q ch with
       | some (n, k) =>
         let g := (s.coreAt n).fifo[k.toNat]'k.isLt
         if g.inb.length < 64 then
           (take s).onCoreAt n fun c => c.onFifo k fun g => { g with inb := g.inb ++ [w] }
         else s
       | none => s)
    else if f.room = 0 then s
    else (take s).send (.fifo m ch w)
  | _, _ => s

/-- FIFO_WORD_TRANSFER (R375): the oldest outbound word leaves, where the other side has a free place; a word from a peer
module enters the inbound side of its channel's end; or a peer module grants free places. A peer keeps to the places it is
granted. -/
def execFifoWordTransfer (who which : Nat) (x : FifoMove) (s : State) : Out :=
  .next (match x with
    | .out => s.fifoOut who (BitVec.ofNat 4 which)
    | .word w =>
      s.onChannel (who, which) fun f => if f.inb.length < 64 then { f with inb := f.inb ++ [w] } else f
    | .room n => s.onChannel (who, which) fun f => { f with room := f.room + n })

/-- CHANNEL_ERROR (R375): the peer end is gone. -/
def execChannelError (peer chan : Nat) (s : State) : Out := .next (s.onChannel (peer, chan) Fifo.cut)

end Sys2Proof.Machine
end

