-- ==== Sys2Proof/Machine/Capture.lean ====
section
/-! DEFINITION. Capture: requests, captures and restores of contexts (R52, R303, R312 to R319), answers to page faults
(R328), invalidation of translations (R329), and the event ring's registers (R327). -/

namespace Sys2Proof.Machine

/-! Requests (R291, R299, R303, R312, R315, R318). -/

/-- The free save slots from 640 up, ascending (R315). -/
def State.freeSlots (s : State) : List Nat :=
  let used := s.slots.map (·.1) ++ s.cores.filterMap fun c => c.capReq.map (·.2)
  (List.range (s.rfld Key.cscount 0 13)).filter fun n => decide (640 ≤ n) && !used.contains n

/-- Where a task of a launch stands for a capture request. -/
inductive Standing where
  | staged (n : Nat)
  | bound (n : Nat)
  | running (n : Nat)
  | draining (n : Nat)
  | captured (n : Nat)
  deriving DecidableEq, Repr

/-- Find a task: on a core, staged on one, or in a save slot. -/
def State.standing (s : State) (serial : BitVec 32) (i : Nat) : Option Standing :=
  let is := fun (t : Task) => t.serial == serial && t.index == i
  match s.cores.find? fun c => c.st != .free && c.task.any is with
  | some c =>
    if c.st = .bound then some (.bound c.id)
    else if c.st = .draining then some (.draining c.id)
    else if c.st = .captured ∨ c.st = .held ∨ c.capReq.isSome = true then some (.captured c.id)
    else some (.running c.id)
  | none =>
    match s.cores.find? fun c => c.staged.any is with
    | some c => some (.staged c.id)
    | none => (s.slots.find? fun p => p.2.core.task.any is).map fun p => .captured p.2.core.id

/-- A bound task that has not issued goes back to the head of its queue, and the task staged behind it with it (R46,
R312); it keeps its requester slot until it retires (R367). It is no member of its barriers and supersteps until it is bound
again, which R46 and R238 do not say of a superstep (DESIGN CHOICE, log entry 108). -/
def State.unbind (s0 : State) (n : Nat) : State :=
  let s := s0.unstage n
  let c := s.coreAt n
  match c.task with
  | some t =>
    ((s.onCoreAt n fun c => c.noPreload.vacated).leaveBarriers t.serial n).onLaunch t.serial fun l =>
      ((l.giveBack t.index).keepRq t.index c.rq).keepLanded t.index t.landed
  | none => s

/-- Request the capture of the task on a core into a slot; the task staged behind it is unstaged (R291, R312). -/
def State.askCapture (s : State) (kind : CapKind) (n slot : Nat) : State :=
  (s.unstage n).onCoreAt n fun c => { c with capReq := some (kind, slot) }

/-- Post a REFUSED event for a named task (R312, R327). -/
def State.refuse (s : State) (status : BitVec 8) (n : Nat) (serial : BitVec 32) (i : Nat) : State :=
  let ctx := match s.launch serial with
    | some l => l.context
    | none => 0
  s.postEvent { kind := 4, status := status, core := n, serial := serial, index := i, context := ctx }

/-- A capture request meets one task, or one gang whole: the tasks to be captured take slots together or not at all;
`named` tasks that are neither captured nor unbound are refused (R303, R312). -/
def State.captureGroup (s : State) (kind : CapKind) (serial : BitVec 32) (named : Nat → Bool) (g : List Nat) : State :=
  let slots := s.freeSlots
  let run := g.filterMap fun i =>
    match s.standing serial i with
    | some (.running n) => some (i, n)
    | _ => none
  let fits := decide (run.length ≤ slots.length)
  let s1 := g.foldl (fun t i =>
    let no := fun (st : BitVec 8) (n : Nat) => if named i then t.refuse st n serial i else t
    match s.standing serial i with
    | some (.staged n) => t.unstage n
    | some (.bound n) => t.unbind n
    | some (.draining n) => no 2 n
    | some (.captured n) => no 4 n
    | some (.running n) => if fits then t else no 3 n
    | none => t) s
  if fits then (run.zip slots).foldl (fun t x => t.askCapture kind x.1.2 x.2) s1 else s1

/-- The tasks of a launch that are bound, staged or captured, ascending. -/
def State.presentTasks (s : State) (l : Launch) : List Nat :=
  (l.live.filter fun i => (s.standing l.serial i).isSome).insertionSort (· ≤ ·)

/-- A write to PREQB of kind 1 or 2 (R312): the tasks named by PREQA, or every one of the launch, with their gangs. -/
def State.requestCapture (s : State) (kind : CapKind) (v : Word) : State :=
  let a := s.reg Key.preqa
  let serial := BitVec.ofNat 32 (fld a 32 32)
  let index := fld a 0 32
  let all := v.getLsbD 2
  match s.launch serial with
  | none => s.refuse 1 0 serial (if all then 0 else index)
  | some l =>
    let here := s.presentTasks l
    let named := fun (i : Nat) => all || i == index
    if !here.any named then s.refuse 1 0 serial (if all then 0 else index)
    else
      let groups := (here.filter named).foldl (fun (gs : List (List Nat)) i =>
        if gs.any (·.contains i) then gs else gs ++ [(l.gang i).filter here.contains]) []
      groups.foldl (fun t g => t.captureGroup kind serial named g) s

/-- PREEMPT (R312). -/
def execPreempt (v : Word) (s : State) : Out :=
  .next (if fld v 0 2 = 1 then s.requestCapture .preempt v else s)
/-- SWITCH (R312). -/
def execSwitch (v : Word) (s : State) : Out :=
  .next (if fld v 0 2 = 2 then s.requestCapture .switch v else s)

/-- CHILD_PREEMPT_TIMEOUT (R299): a child in a reserved entry has found its permitted cores held by waiting tasks for
100 µs: the lowest-priority one that waits on a TLWAIT is pre-empted, and its core is kept for the child. -/
def execChildPreemptTimeout (serial : BitVec 32) (s : State) : Out :=
  .next (match s.launch serial with
    | none => s
    | some l =>
      if l.place ≠ .pool true ∨ l.blocked < 330000 then s
      else
        let s1 := s.onLaunch serial fun l => { l with blocked := 0 }
        let prio : Core → Nat := fun c => match c.task.bind fun t => s.launch t.serial with
          | some k => k.prio
          | none => 0
        let cand := s.cores.filter fun c =>
          c.st == .waiting && c.capReq.isNone && c.waitOn.any (fun w => decide (64 ≤ w)) &&
            (s.permitted l (l.next.headD l.cursor)).contains c.id
        match cand with
        | [] => s1
        | c :: cs =>
          let low := cs.foldl (fun a b => if prio b < prio a ∨ (prio b = prio a ∧ b.id < a.id) then b else a) c
          match low.task.bind (fun t => (s.launch t.serial).map fun k => (t, k)) with
          | some (t, k) =>
            let s2 := s1.captureGroup .preempt t.serial (fun _ => false) (k.gang t.index)
            if (s2.coreAt low.id).capReq.isSome then s2.onLaunch serial fun l => { l with claim := some low.id } else s2
          | none => s1)

/-! The halt (R52, R156, R157, R188, R313). -/

/-- The cycles until a landing that settles would have been written: an arrived entry is written at once (R52). -/
def Landing.due (l : Landing) : Nat :=
  match l.kind with
  | .fixed => l.left
  | .sfu _ => max l.left (l.wait.getD 0)
  | _ => 0

/-- Step 2 of R313: arrived entries are written at once, then the V-class and special-function results in the cycles they
were due, in program order within a cycle (R51, R52, R156, R157), each with its RSIG update (R32); what is still pending is issued again in program order: a load, which
no fence awaits until then, and a remote atomic; the special-function unit is idle. -/
def State.settleLands (s : State) : State :=
  let now := fun (l : Landing) =>
    match l.kind with
    | .fixed => true
    | .sfu _ => true
    | .atomic => l.awaits.isEmpty && l.holds.isEmpty
    | _ => l.arrived
  let s0 := s.onCore Core.applyRsig
  let s1 := ((s0.core.lands.filter now).insertionSort fun a b => a.due ≤ b.due).foldl
    (fun t l => (t.land l).onCore Core.applyRsig) s0
  let pend := fun (l : Landing) =>
    match l.kind with
    | .atomic => l
    | _ => { l with data := 0, awaits := [], holds := [], wait := some 0, err := none }
  s1.onCore fun c =>
    let keep := fun (r : Remote) => bearing r.kind || r.into.isSome
    let again := (c.lands.filter fun l => l.kind != .atomic).map (·.id)
    { c with remotes := c.remotes.filter keep, lands := c.lands.map pend, reissue := c.lands.map (·.id), sfuLast := 0,
             fences := c.fences.map fun f =>
               { f with remotes := f.remotes.filter fun i => !c.remotes.any fun r => r.id == i && !keep r,
                        loads := f.loads.filter fun i => !again.contains i } }

/-- Step 3 of R313: the matrix entry in flight completes, with its RSIG update (R188), unless an access that precedes it has
not been performed, so that it can read no row yet (R253): then it completes once that has been, or, where only a peer's
answer is missing, is saved as it stands (DEDUCED, log entry 78). -/
def State.settleHead (s : State) : State :=
  (match s.core.mq with
   | e :: _ =>
     if e.running && !e.early { s.core with st := .captured } then
       ((List.range (e.blocksDue - e.done)).foldl (fun (t : State) _ => t.blockNow) s).completeHead
     else s
   | [] => s).onCore Core.applyRsig

/-- Steps 2 and 3 of R313 for the core in focus: the landings settle, then the matrix entry in flight. -/
def State.settle (s : State) : State := s.settleLands.settleHead

/-- Halt the context in focus: its landings settle, and it stands in state `st`. -/
def State.halt (s : State) (st : CtxSt) : State :=
  (s.settle).onCore fun c =>
    { c with st := st, haltMcc := s.mcc, haltDrain := s.core.st == .draining, pf := none, want := [], waitOn := [],
             stamps := [], relWait := [], delay := 0, note := .none, busy := [], lateFrozen := false, left := none }

/-- The copy that waits for a page-fault response stops with COPY_FAULT (R313, under POWER_FAIL). -/
def State.stopPaged (s : State) : State :=
  s.core.cq.foldl (fun t e =>
    match e.phase with
    | .paged va _ => t.holdFault e va 0
    | _ => t) s

/-- CAPTURE (R313): a requested capture is taken at this boundary. -/
def execCapture (s : State) : Out :=
  .next (match s.core.capReq with
    | none => s
    | some (kind, _) =>
      let live := s.core.st == .active || s.core.st == .frozen || s.core.st == .waiting
      if live || (kind == .powerFail && s.core.st == .draining) then
        let s1 := (s.unstage s.core.id).halt .captured
        if kind = .powerFail then s1.stopPaged else s1
      else if kind == .powerFail && s.core.st == .held then
        (s.onCore fun c => { c with st := .captured }).stopPaged
      else s)

/-! The end of a capture (R313, R316, R317). -/

/-- The rows that enabled DISC ranges name (R40, R317). -/
def Regs.discRows (r : Regs) (n : Nat) : List Nat :=
  let d := r.disc.getD n 0
  if d.getLsbD 31 then
    (List.range (min (fld d 16 15 + 1) (24576 - fld d 0 15))).map fun i => fld d 0 15 + i
  else []

/-- The bits of TDISC that count (R40). -/
def Regs.discTiles (r : Regs) (solo : Bool) : Nat := if solo then r.tdisc.toNat else r.tdisc.toNat % 18446744073709551616

/-- The tiles of the core in focus as they are saved: discarded ones as zero cells (R188, R317). Under SOLO the even core
owns them all (R176). -/
def State.savedTiles (s : State) : List (Nat × Tile) :=
  let a := s.arrayOf s.core.id
  (List.range (if !a.solo then 64 else if s.core.id % 2 = 0 then 128 else 0)).filterMap fun n =>
    let p := physTile a s.core.id n
    if bits (s.core.r.discTiles a.solo) n 1 = 1 then some (n, {})
    else
      let open_ := if p < 64 then a.seedEven else a.seedOdd
      match Sparse.find a.tiles p with
      | some t => some (n, t)
      | none => if open_.isSome then some (n, a.tile p) else none

/-- The context in focus as it is saved: discarded rows read as zero, and DISCF says which (R317). -/
def State.savedCore (s : State) : Core :=
  let c := s.core
  let gone := ((List.range 4).flatMap c.r.discRows).map (physRow c.half)
  let mine := fun (r : Nat) => c.half == 2 || rowHalf r == c.half
  let ranges := (List.range 4).foldl (fun n i => if (c.r.disc.getD i 0).getLsbD 31 then n + 2 ^ i else n) 0
  let flags := BitVec.ofNat 5 (ranges + 16 * bit (c.r.discTiles (s.arrayOf c.id).solo != 0))
  { c with rows := gone.foldl (fun m r => Sparse.set m r (0 : Row)) (c.rows.filter fun p => mine p.1),
           badWords := c.badWords.filter fun w => mine (w / 8) && !gone.contains (w / 8),
           r := { c.r with discf := flags },
           tileRows := [], port := [], capReq := none, staged := none, l1 := [], utlb := [], ctlb := [], fbuf := [], fetched := [], grants := [] }

/-- The first line of a save slot, which holds its version word (R315). -/
def State.slotLine (s : State) (n : Nat) : Nat := s.canon (fld (s.reg Key.csbase) 16 36 * 65536 + 2162688 * n) / 64

/-- A line of the save slot that starts at line `a`. -/
def inSlot (a line : Nat) : Bool := decide (a ≤ line ∧ line < a + slotLines)

/-- The save or the restore of a slot meets its lines at their home slices; those that the LLC does not hold are misses,
which the Loupe counts by page, and stay out of it (R314, R358; DESIGN CHOICE, log entry 100). -/
def State.slotLook (s : State) (a : Nat) : State :=
  if s.loupeOn then
    { s with misses := (List.range 33).foldl (fun m i =>
        let page := a / 1024 + i
        let n := 1024 - (s.llc.filter fun x => x.1 / 1024 == page).length
        if n = 0 then m else Sparse.set m page (Sparse.get 0 m page + n)) s.misses }
  else s

/-- A context's save has written its slot: every line of it stands under the internal key (R315, R354); read counts end, L1
copies go, what the LLC holds is dirty, and a scrub's write-back of one of the lines is dropped (R336, R342, R357). -/
def State.sealSlot (s : State) (n : Nat) : State :=
  let a := s.slotLine n
  { (s.slotLook a).mapCores fun c => { c with l1 := c.l1.filter fun l => !inSlot a l } with
    lines := s.lines.filter fun x => !inSlot a x.1
    sealed := a :: s.sealed.filter (· != a)
    readCounts := s.readCounts.filter fun x => !inSlot a x.1
    llc := s.llc.map fun x => (x.1, x.2 || inSlot a x.1)
    scrub := s.scrub.map fun x => { x with stale := x.stale || inSlot a x.line } }

/-- A restore reads its slot: read counts fall, and a line whose count is used up leaves the caches (R316, R342). -/
def State.readSlot (s : State) (n : Nat) : State :=
  let a := s.slotLine n
  let t := s.slotLook a
  let gone := (t.readCounts.filter fun x => inSlot a x.1 && decide (x.2 ≤ 1)).map (·.1)
  gone.foldl (fun u l => u.evictLine l)
    { t with readCounts := t.readCounts.map fun x => (x.1, if inSlot a x.1 then x.2 - 1 else x.2) }

/-- The slot stands as the save left it: its version word, and all else, matches (R315, R319). R315 puts the slots in HBM; with
CSBASE in storage-class memory the save and the resume do their work all the same (DESIGN CHOICE, log entry 115). -/
def State.slotIntact (s : State) (n : Nat) : Bool :=
  let a := s.slotLine n
  s.sealed.contains a && !s.lines.any fun x => inSlot a x.1 && x.2.gen != slotMark.gen

/-- The STATUS of a CAPTURED event (R327). -/
def capStatus : CapKind → BitVec 8
  | .preempt => 0x11
  | .switch => 0x00
  | .powerFail => 0x12

/-- No core may ever take the task: each of its permitted cores has a number that no physical cluster carries (R273,
R420, R421). A die that is shed comes back (R398). -/
def State.homeless (s : State) (l : Launch) (i : Nat) : Bool :=
  (l.permitted i).all fun n => s.rfld (Key.spare (n / 8 / 10)) (17 + n / 8 % 10) 1 == 1

/-- CAPTURE_COMPLETE (R313, R317, R319): no copy is in flight, no record of a SPAWN is to be read, and no fence holds a
store or atomic of the task, so that every local atomic has completed (R52, R213); rows and tiles are saved and the core is
free. A context whose launch has been cancelled or stopped is dropped (R318); one that no core may ever take waits for
RESUME, except while a cluster is being retired, whose end decides that (R421). -/
def execCaptureComplete (s : State) : Out :=
  .next (match s.core.capReq, s.core.task with
    | some (kind, slot), some t =>
      let flying := s.core.cq.any fun e =>
        match e.phase with
        | .flying _ => true
        | .asking => true
        | .sending _ _ => true
        | .paged _ _ => true
        | .tree => true
        | .landed => true
        | _ => false
      let held := !s.core.spawns.isEmpty || !s.core.wordSigs.isEmpty || s.core.stores.any fun p => !p.holds.isEmpty
      if s.core.st ≠ .captured ∨ flying = true ∨ held = true then s
      else
        let s := ((s.core.lands.filter fun l => l.kind == .atomic && l.awaits.isEmpty).foldl (fun t l => t.land l) s).settleHead
        let kind := match s.launch t.serial with
          | some l =>
            if kind = .preempt ∧ s.rfld Key.clret 8 1 = 0 ∧ s.homeless l t.index = true then CapKind.switch else kind
          | none => kind
        let x : Saved := { core := s.savedCore, kind := kind, tiles := s.savedTiles, ready := true, mcc := s.core.haltMcc,
                           drop := s.core.kill.isSome }
        let c := s.core
        let s1 := (s.writeRq c 2).onCore Core.vacated
        let s2 := { s1 with slots := Sparse.set s1.slots slot x }.sealSlot slot
        let s3 := s2.postEvent { taskEvent 3 (capStatus kind) c t with slot := slot }
        if x.drop then s3.dropSaved slot else s3
    | _, _ => s)

/-! RESUME and restore (R52, R316, R319). -/

/-- A write to PREQB of kind 3 (R319): a SWITCH context becomes bindable, or the RESUME is refused. What the REFUSED event
then gives as SERIAL, INDEX, CORE and CONTEXT is not said: 0 (DESIGN CHOICE, log entry 95). -/
def State.resumeSlot (s : State) (v : Word) : State :=
  let n := fld v 12 12
  let no := fun (st : BitVec 8) => s.postEvent { kind := 4, status := st }
  match Sparse.find s.slots n with
  | some x =>
    if x.kind ≠ .switch ∨ x.sheet = true then no 1
    else if x.asked then no 4
    else if !s.slotIntact n then no 5
    else { s with slots := Sparse.set s.slots n { x with asked := true } }
  | none => no 1

/-- RESUME (R319). -/
def execResume (v : Word) (s : State) : Out := .next (if fld v 0 2 = 3 then s.resumeSlot v else s)

/-- Resolve an access, walking and asking for grants at once: its parts, or the trap of R200. `fuel` bounds the misses. -/
def State.resolveNow (s : State) (t : Task) (kind : BitVec 3) (va : Word) (n : Nat) : Nat → Except Trap (State × List Span)
  | 0 => .error (violation 0x05 va kind)
  | fuel + 1 =>
    match s.resolve t.context kind true [] (n + 1) va n with
    | .bad x => .error x
    | .miss v => (s.fillLeaf t.context v kind).resolveNow t kind va n fuel
    | .ok l =>
      match s.tagRes s.core t false l with
      | .bad x => .error x
      | .ask gs => (s.checkTags gs false).resolveNow t kind va n fuel
      | .granted => .ok (s, l)

/-- A load is issued, or issued again: read now, or held by the fences before it. -/
def State.startLoad (s : State) (id : Nat) (ps : List Piece) : State :=
  let holds := (s.core.holders true ++ s.behind ps).dedup.filter (· < id)
  let s1 := s.onLanding id fun l => { l with parts := ps, holds := holds }
  if holds.isEmpty then s1.doLoad id ps else s1

/-- The first of the landings to be issued again is not: its data will never come, and it lands any value (DESIGN CHOICE,
log entry 99). -/
def State.dropReissue (s : State) : State :=
  match s.core.reissue with
  | [] => s
  | id :: rest => (s.onCore fun c => { c with reissue := rest }).onLanding id fun l => { l with wait := none, lost := true }

/-- Send requests of the context in focus again, as they were (R52, R366). -/
def State.resend (s : State) (which : Remote → Bool) : State :=
  (s.core.remotes.filter which).foldl (fun t r => t.send (t.reqMsg t.core r))
    (s.onCore fun c =>
      { c with remotes := c.remotes.map fun r => if which r then { r with age := 0, tries := 1, hib := none } else r })

/-- Issue the pending landings again, in program order (R52): a remote atomic is sent again with its serial; a load is translated
and checked again; a missing
translation is held for system software (an invalidation in progress holds none of them up), any other failure is taken
with its own cause, and where a handler takes it, the landings after it are issued again before its first bundle. A draining
task takes no trap (R142): its register is dead, and only the landing's arrival follows. -/
def State.reissueAll (s : State) : Nat → State
  | 0 => s
  | fuel + 1 =>
    match s.core.reissue with
    | [] => s
    | id :: rest =>
      let on := fun (t : State) => t.onCore fun c => { c with reissue := rest }
      match s.core.lands.find? fun l => l.id == id, s.core.task with
      | some l, some t =>
        (match l.kind with
         | .load va n _ =>
           (match ({ s with inval := none } : State).resolveNow t 0 va n (3 * n + 8) with
            | .error x =>
              if s.core.st = .draining then s.dropReissue.reissueAll fuel
              else if x.cause = 0x03 then s.takeTrap (stamp s s.core x)
              else
                let u := s.dropReissue.takeTrap (stamp s s.core x)
                if u.core.st = .draining then u.reissueAll fuel else u
            | .ok (u, sp) => ((on { u with inval := s.inval }).startLoad id (pieces t.keyid sp)).reissueAll fuel)
         | .rows a n =>
           ((on s).onLanding id fun l =>
             { l with data := BitVec.ofNat 1024 (rowsNat (s.core.rowsAt a n)), wait := some (6 + s.waCycles),
                      err := s.core.firstBadRow ((List.range n).map (a + ·)) }).reissueAll fuel
         | .gather base offs =>
           ((on s).onLanding id fun l =>
             { l with data := s.core.gather base offs, wait := some (gatherCycles base offs + s.waCycles),
                      err := s.core.gatherBad base offs }).reissueAll fuel
         | .atomic => ((on s).resend fun r => r.land.any fun x => x.1 == id).reissueAll fuel
         | _ => (on s).reissueAll fuel)
      | _, _ => (on s).reissueAll fuel

/-- Issue again what waits to be. -/
def State.reissueNow (s : State) : State := s.reissueAll (s.core.reissue.length + 1)

/-- Between two cycles: the landings issued again count from the next cycle, the first of the resumed issue (R52). -/
def State.reissueFirst (s : State) : State :=
  let t := s.reissueNow
  if t.core.reissue.isEmpty then
    t.onCore fun c => { c with lands := c.lands.map fun l => { l with left := l.left + 1 } }
  else t

/-- What every resumption changes (R316): TASKID.CORE, FEPOCH.STEP, and an FSTAT bit; FBASE moves at the first resumed
issue. -/
def State.resumeRegs (s : State) (m0 : Word) (flag : BitVec 128) : State :=
  ((s.onRegs fun r =>
    { r with taskid := setFld r.taskid 32 16 s.core.id, fepStep := (s.cluster (s.core.id / 8)).step }).onCore fun c =>
      { c with resumeM0 := c.resumeM0.or (some m0) }).setFstat flag

/-- FBASE for a first resumed issue in this cycle: M1 is now (R316). -/
def State.resumeFbase (s : State) : State :=
  match s.core.resumeM0 with
  | none => s
  | some m0 => (s.onRegs fun r => { r with fbase := r.fbase + BitVec.ofNat 64 (16 * ceilDiv (s.mcc - m0).toNat 16) }).onCore
      fun c => { c with resumeM0 := none }

/-- A landing with no cycle left, and none to be issued again, is late in the first resumed cycle (R7, R52). -/
def Core.lateResume (c : Core) : Core :=
  if c.st = .active ∧ (c.lands.any fun l => l.left == 0 && !c.reissue.contains l.id) = true then
    { c with st := .frozen, lateFrozen := true }
  else c

/-- At the boundary before the first resumed bundle the pending landings are issued again (R52); after a page fault's
RETRY the context is active from the next cycle on. -/
def State.reissueBoundary (s : State) : State :=
  if s.core.st = .frozen ∧ s.core.lateFrozen = false then s.reissueFirst else s.reissueNow.onCore Core.lateResume

/-- The backing rows of the landing windows of the task in focus enter its rows (R384). -/
def State.landOwn (s : State) : State :=
  match s.core.task with
  | some t => s.landBacked s.core.id t
  | none => s

/-- The rows, the tiles and the queues of a saved context stand on the core in focus (R316). -/
def State.placeSaved (s : State) (x : Saved) : State :=
  let half := s.core.half
  let mine := fun (r : Nat) => half == 2 || rowHalf r == half
  let odd := s.core.id % 2 == 1
  (s.onCore fun c =>
    { c with rows := x.core.rows.foldl (fun m p => Sparse.set m p.1 p.2) (c.rows.filter fun p => !mine p.1),
             badWords := (c.badWords.filter fun w => !mine (w / 8)) ++ x.core.badWords,
             seed0 := if half = 1 then c.seed0 else x.core.seed0,
             seed1 := if half = 0 then c.seed1 else x.core.seed1,
             cq := c.cq.map fun e => { e with restored := true },
             restoring := none, delay := 0, st := if c.haltDrain then .draining else .active }).onArray s.core.id fun a =>
    let kept := a.tiles.filter fun p => !(a.solo || (decide (64 ≤ p.1) == odd))
    if a.solo && odd then a
    else { a with tiles := x.tiles.foldl (fun m p => Sparse.set m (physTile a s.core.id p.1) p.2) kept,
                  seedEven := if a.solo || !odd then none else a.seedEven,
                  seedOdd := if a.solo || odd then none else a.seedOdd }

/-- A context goes on: its registers change as R316 says, and the requests that are no pending landing's are sent again
(R52). -/
def State.goOn (s : State) (m0 : Word) (flag : BitVec 128) : State :=
  ((s.resumeRegs m0 flag).resend fun r => r.land.isNone).drainSaved

/-- A saved context goes on, and a matrix entry that starts in this cycle finds the rows put in place (R188). -/
def State.resumeSaved (s : State) (x : Saved) : State :=
  (s.goOn x.mcc (if x.sheet then 4 else 8)).onCore fun c => { c with rowsWas := c.rows }.lateResume

/-- CONTEXT_RESTORE (R316, R319, R367, R384): rows and tiles are put in place, then the backing rows of landing windows; the
registers change as R316 says; the slot is free; the requester slot is a resident task's again, and remote requests are sent
again. Pending landings are issued again at the boundary before the first resumed bundle, those of a draining task at
once. -/
def execContextRestore (n : Nat) (s : State) : Out :=
  .next (match s.core.restoring, Sparse.find s.slots n with
    | some m, some x =>
      if m ≠ n then s
      else
        let t := (({ (s.placeSaved x).readSlot n with slots := Sparse.del s.slots n } : State).writeRq s.core 1).landOwn.applyBinds.resumeSaved
          x
        if t.core.st = .draining then t.reissueNow else t
    | _, _ => s)

/-! Page-fault responses (R328). -/

/-- The copy entry of the core in focus that waits for a response. -/
def Core.pagedCopy (c : Core) : Option (CopyEntry × Word) :=
  c.cq.findSome? fun e =>
    match e.phase with
    | .paged va _ => some (e, va)
    | _ => none

/-- RETRY (R328, R52): the held bundle, copy or preload is translated afresh. A response for the copy engine answers its
copy first, then the preload of the core's task, then that of the task staged behind it (DEDUCED, log entry 26). -/
def State.retryFault (s : State) (v : Word) : State :=
  if s.cores.any fun c => c.id == fld v 0 10 then
    s.atCore (fld v 0 10) fun t =>
      if v.getLsbD 10 then
        match t.core.pagedCopy, t.core.task with
        | some (e, _), _ => t.onEntry e.pos fun e => { e with phase := .flying 0 }
        | none, some k =>
          if k.preFault.isSome then t.onCore fun c => { c with task := some { k with preFault := none } }
          else t.onCore fun c => { c with staged := c.staged.map fun x => { x with preFault := none } }
        | none, none => t
      else if t.core.pf.isSome then
        t.onCore fun c => { c with pf := none }
      else t
  else s

/-- The held bundle, or the landing that was to be issued again, traps ACCESS_VIOLATION with detail FAILED: the task ends,
and the landings after it are issued again as those of a draining task (R52, R328). -/
def State.failHeld (s : State) : State :=
  match s.core.pf with
  | some h =>
    ((s.onCore fun c => { c with pf := none }).dropReissue.takeTrap
      (stamp s s.core { violation 0x07 h.va h.kind with slots := (s.core.r.trc[1]).setWidth 8 })).reissueNow
  | none => s

/-- FAIL (R328): the held bundle traps at its next boundary; the copy, or the preload, ends in COPY_FAULT. -/
def State.failFault (s : State) (v : Word) : State :=
  if s.cores.any fun c => c.id == fld v 0 10 then
    s.atCore (fld v 0 10) fun t =>
      if v.getLsbD 10 then
        match t.core.pagedCopy, t.core.task with
        | some (e, va), _ => t.holdFault e va 0
        | none, some k =>
          (match k.preFault, t.core.staged.bind (·.preFault) with
           | some (va, _), _ => t.endUnissued (stamp t t.core { cause := 0x0D, addr := va })
           | none, some (va, _) => t.endStaged (stamp t t.core { cause := 0x0D, addr := va })
           | none, none => t)
        | none, none => t
      else
        t.onCore fun c => { c with pf := c.pf.map fun h => { h with failed := true } }
  else s

/-- RETRY (R328). -/
def execRetry (v : Word) (s : State) : Out := .next (if fld v 11 2 = 1 then s.retryFault v else s)
/-- FAIL (R328). -/
def execFail (v : Word) (s : State) : Out := .next (if fld v 11 2 = 2 then s.failFault v else s)

/-! Invalidation (R329, R341). -/

/-- The cached leaves of the range go, with the grants of their pages (R329). -/
def State.dropLeaves (s : State) : State :=
  let kept := s.pins.filter fun p => s.invalHits p.2.context p.2.va 64
  let drop := fun (c : Core) =>
    let out := c.utlb.filter s.inRange
    { c with utlb := c.utlb.filter fun e => !s.inRange e, ctlb := c.ctlb.filter fun e => !s.inRange e,
             grants := c.grants.filter fun g => !((out.any fun e => s.inPage e g.1) || kept.any fun p => p.1 == g.1) }
  { s with dtlb := s.dtlb.filter fun x => !s.inRange x.2 }.mapCores drop

/-- A write to TLBINVB starts an invalidation; while one is in progress it changes nothing (R329). -/
def State.startInval (s : State) (v : Word) : State :=
  if s.inval.isSome then s
  else { s.setReg Key.tlbinvb (v &&& 0xFFFF0001FFFFFFFF ||| 0x200000000) with inval := some (Config.memTicks s.ctr) }.dropLeaves

/-- TLB_INVALIDATE (R329). -/
def execTlbInvalidate (v : Word) (s : State) : Out := .next (s.startInval v)

/-- The bytes that a remote request is for. -/
def reqSize : RemoteKind → Nat
  | .load n => n
  | .store bs => bs.length
  | .atomic op .. => atomicSize op

/-- An access of a context that was translated in the range has not been performed, or is a load without its data (R329). A
copy is translated when it moves its bytes, and is in flight only while a peer has not answered. A captured context's
requests are sent again under the translation they had. -/
def State.invalAwaits (s : State) (c : Core) : Bool :=
  let ctxs := ((c.task.map (·.context)).toList ++ (c.staged.map (·.context)).toList)
  let hit := fun (va : Word) (n : Nat) => ctxs.any fun x => s.invalHits x va.toNat n
  (c.lands.any fun l => !l.arrived && !c.reissue.contains l.id && l.parts.any fun p => hit p.va p.n) ||
    (c.stores.any fun p => p.target.any fun q => hit q.va q.n) || (c.remotes.any fun r => hit r.va (reqSize r.kind)) ||
    c.spawns.any fun x => hit x.va 256

/-- INVALIDATION_COMPLETE (R329, R341): every access translated by a leaf of the range has been performed; the leaves of
the range are gone, with the grants and pins of their pages; BUSY clears, and a KIND 5 event is posted. -/
def execInvalidationComplete (s : State) : Out :=
  .next (if s.inval.isNone || (s.cores ++ s.slots.map fun p => p.2.core).any s.invalAwaits then s
    else
      let s1 := s.dropLeaves
      ({ s1 with pins := s1.pins.filter (fun p => !s.invalHits p.2.context p.2.va 64), inval := none }.setRfld
        Key.tlbinvb 33 1 0).postEvent { kind := 5, context := BitVec.ofNat 16 (s.rfld Key.tlbinvb 48 16) })

/-! The event ring (R327). -/

/-- A write of EVBASE: held events enter the ring. -/
def State.setEvbase (s : State) (v : Word) : State := (s.setReg Key.evbase (v &&& 0x000FFFFFFFFFFFE0)).flushEvents
/-- A write of EVCONS: consumed entries make room for held events. -/
def State.setEvcons (s : State) (v : Word) : State := (s.setReg Key.evcons (v &&& 0xFFFFFFFF)).flushEvents

/-- EVBASE_WRITE (R327). -/
def execEvbaseWrite (v : Word) (s : State) : Out := .next (s.setEvbase v)
/-- EVCONS_WRITE (R327). -/
def execEvconsWrite (v : Word) (s : State) : Out := .next (s.setEvcons v)

end Sys2Proof.Machine
end

