-- ==== Sys2Proof/Machine/Power.lean ====
section
/-! DEFINITION. Power: cluster steps, write-assist and throttle (R320, R409 to R412), temperature (R413 to R415), the
power limiter and accounting (R416, R418), sparing (R419 to R421), keys (R425), the Shutter and readout (R426, R427),
HBM lanes (R352, R353), the Squeegee (R356, R357) and the Loupe (R358, R359). -/

namespace Sys2Proof.Machine

/-! Clusters (R320, R409 to R412). -/

/-- A trip applies to a cluster: its own sensor's, or one of a controller or I/O die (R415). -/
def State.tripOn (s : State) (c : Nat) : Bool := s.tripped.any fun n => n == c || (decide (80 ≤ n) && decide (n < 90))

/-- A task with DETM.EN holds a core of the cluster (R409): from its binding cycle, that of a captured context among them,
until it retires or its capture begins (R320). -/
def State.detmHeld (s : State) (c : Nat) : Bool :=
  s.cores.any fun k => k.id / 8 == c && k.task.isSome && k.r.detm.getLsbD 0 &&
    k.st != .free && (k.st != .captured || k.restoring.isSome) && k.st != .held

/-- The step that ought to be in force (R398, R410). -/
def State.targetStep (s : State) (c : Nat) : BitVec 3 :=
  if s.tripOn c || s.supply.safe then 4
  else BitVec.ofNat 3 (max (s.rfld (Key.clctl c) 0 3) (s.rfld (Key.clstat c) 16 3))

/-- Request what differs from what is in force, a step or FORCEWA; a later request replaces one that waits (R410). -/
def State.refreshStep (s : State) (c : Nat) : State :=
  let force := s.rfld (Key.clctl c) 10 1 == 1
  s.onCluster c fun k =>
    { k with want := if k.step = s.targetStep c then none else some (s.targetStep c),
             wantWa := if k.forced = force then none else some force }

/-- A write of CLCTL.STEP (R409, R410); 5 to 7 leave it unchanged. -/
def State.writeStep (s : State) (c : Nat) (v : Word) : State :=
  (if fld v 0 3 ≤ 4 then s.setRfld (Key.clctl c) 0 3 (fld v 0 3) else s).refreshStep c

/-- A write of CLCTL.THR (R409, R412); 0 and 17 to 31 leave it unchanged. -/
def State.writeThr (s : State) (c : Nat) (v : Word) : State :=
  if 1 ≤ fld v 4 5 ∧ fld v 4 5 ≤ 16 then
    (s.setRfld (Key.clctl c) 4 5 (fld v 4 5)).onCluster c fun k =>
      { k with wantThr := if k.throttle = fld v 4 5 then none else some (fld v 4 5) }
  else s

/-- A write of CLCTL.FORCEWA (R409, R411). -/
def State.writeForcewa (s : State) (c : Nat) (v : Word) : State :=
  (s.setRfld (Key.clctl c) 10 1 (fld v 10 1)).refreshStep c

/-- CLCTL_STEP (R410). -/
def execClctlStep (c : Nat) (v : Word) (s : State) : Out := .next (s.writeStep c v)
/-- CLCTL_THR (R412). -/
def execClctlThr (c : Nat) (v : Word) (s : State) : Out := .next (s.writeThr c v)
/-- CLCTL_FORCEWA (R411). -/
def execClctlForcewa (c : Nat) (v : Word) (s : State) : Out := .next (s.writeForcewa c v)

/-- A request for a cluster is to be made now: a trip defers nothing (R410, R415, R320). -/
def State.switchDue (s : State) (c : Nat) : Bool :=
  ((s.cluster c).want.isSome || (s.cluster c).wantWa.isSome) && (!s.detmHeld c || s.tripOn c) && (s.cluster c).pause == 0

/-- The body bias that the generator sets for a step (R410): a value of the module (log entry 4). -/
def biasFor (c : Nat) (step : BitVec 3) : Nat := Config.fused (1000 + 8 * c + step.toNat) % 65536

/-- SWITCH_POINT (R320, R410, R411): the step and the FORCEWA requested come into force, and with them write-assist and the
bias, FEPOCH of every context of the cluster too, but for one halted before (R316, R399); the clocks pause for 40 ns: 132
ticks, of which this is the first (`pause` counts to 1, in the tick after them; log entry 15). The first cycle at the new
step begins with that tick. What a boundary here takes has been taken before it (R321; `Due`). -/
def execSwitchPoint (c : Nat) (s : State) : Out :=
  .next (if s.switchDue c then
    let k := s.cluster c
    let step := k.want.getD k.step
    let force := k.wantWa.getD k.forced
    let s1 := s.onCluster c fun k =>
      { k with step := step, forced := force, wa := force || decide (3 ≤ step.toNat), want := none, wantWa := none,
               pause := 133, acc := 32 }
    (s1.setRfld (Key.clstat c) 32 16 (biasFor c step)).mapCores fun k =>
      if k.id / 8 = c ∧ k.task.isSome = true ∧ k.st ≠ .captured ∧ k.st ≠ .held then
        { k with note := .none, r := { k.r with fepStep := step, fepCount := k.r.fepCount + 1 } }
      else k
  else s)

/-- CLOCK_PAUSE_END (R320). -/
def execClockPauseEnd (c : Nat) (s : State) : Out := .next (s.onCluster c fun k => { k with pause := 0 })

/-- THROTTLE_APPLY (R412): at a cycle with k mod 16 = 0 and no deterministic task. -/
def execThrottleApply (c : Nat) (s : State) : Out :=
  .next (if (s.cluster c).k % 16 = 0 ∧ s.detmHeld c = false then
    s.onCluster c fun k => { k with throttle := k.wantThr.getD k.throttle, wantThr := none }
  else s)

/-- The throttle that holds the draw of a module in safelight mode at or below SLPOL.CAP (R398): its value is not given. -/
def State.capThr (s : State) (c : Nat) : Nat :=
  if s.supply.safe then Config.free (s.rfld Key.slpol 16 16) (1099511627776 + c) % 16 + 1 else 16

/-- The effective throttle (R398, R412, R416). -/
def State.ethr (s : State) (c : Nat) : Nat :=
  min (min (min (s.cluster c).throttle (s.rfld Key.csctl 16 5)) (s.capThr c)) (if s.tripOn c then 4 else 16)

/-- The cluster admits issue in its cycle k (R412). -/
def State.admits (s : State) (c : Nat) : Bool := decide ((s.cluster c).k * s.ethr c % 16 < s.ethr c)

/-- CLSTATc as it reads (R409). -/
def State.clstat (s : State) (c : Nat) : Word :=
  let k := s.cluster c
  let pend := (k.want.isSome || k.wantWa.isSome || k.wantThr.isSome) && s.detmHeld c
  (s.reg (Key.clstat c) &&& 0x0000FFFF00070000) ||| BitVec.ofNat 64
    (k.ce * 2 ^ 48 + bit (s.detmHeld c) * 2 ^ 23 + bit (s.tripOn c) * 2 ^ 22 + bit pend * 2 ^ 21 + bit k.wa * 2 ^ 20 +
      s.ethr c * 256 + k.step.toNat)

/-! Temperature (R413 to R415). -/

/-- A 16-bit field of TLIMIT, signed. -/
def State.limit (s : State) (lo : Nat) : Int := (BitVec.ofNat 16 (s.rfld Key.tlimit lo 16)).toInt

/-- SENSOR_SAMPLE (R414, R415). -/
def execSensorSample (n : Nat) (deg : BitVec 16) (s : State) : Out :=
  .next (if 90 ≤ n then s
    else
      let d := deg.toInt
      let above := s.rfld (Key.temp n) 16 1 == 1
      let rise := !above && decide (s.limit 32 ≤ d)
      let drop := above && decide (d < s.limit 16)
      let latch := rise || (above && !drop)
      let b : Word := BitVec.ofNat 64 (2 ^ (n % 64))
      let s1 := s.setReg (Key.temp n) (BitVec.ofNat 64 (deg.toNat + 65536 * bit latch))
      let s2 := if rise then (s1.setReg (Key.talert (n / 64)) (s1.reg (Key.talert (n / 64)) ||| b)).pendIrq 0 else s1
      let s3 := if drop then (s2.setReg (Key.tcool (n / 64)) (s2.reg (Key.tcool (n / 64)) ||| b)).pendIrq 1 else s2
      let was := s.tripped.contains n
      let s4 := if !was && decide (s.limit 48 ≤ d) then ({ s3 with tripped := s3.tripped ++ [n] } : State).pendIrq 2
        else if was && decide (d < s.limit 16) then { s3 with tripped := s3.tripped.filter (· != n) }
        else s3
      let hot := if s.limit 48 + 160 ≤ d then
          (match Sparse.find s4.hot n with
           | some _ => s4.hot
           | none => Sparse.set s4.hot n s.mcc.toNat)
        else Sparse.del s4.hot n
      (if n < 80 then [n] else List.range 80).foldl (fun t c => t.refreshStep c) { s4 with hot := hot })

/-! The limiter and the accounts (R416, R418). -/

/-- Move LIM by `d`, between 4 and 16 (R416). -/
def State.moveLim (s : State) (d : Int) : State :=
  s.setRfld Key.csctl 16 5 (max 4 (min 16 ((s.rfld Key.csctl 16 5 : Nat) + d))).toNat

/-- POWER_SAMPLE (R416): a draw, in mW and µW beyond them. The samples of the last 20 ms are kept, one for each 10 µs. -/
def execPowerSample (mw uw : Nat) (s : State) : Out :=
  let draw := 1000 * mw + uw
  let t : State := { s with samples := (draw :: s.samples).take 2000 }
  .next (if 3600000000 < draw then t.moveLim (-2) else t)

/-- The average of the kept samples is above, or below, a draw in µW (R416). Before 20 ms have passed it is that of the
samples there are (DESIGN CHOICE, log entry 101). -/
def State.meanOver (s : State) (uw : Nat) : Bool := decide (uw * max 1 s.samples.length < s.samples.sum)
def State.meanUnder (s : State) (uw : Nat) : Bool := decide (s.samples.sum < uw * max 1 s.samples.length)

/-- LIMITER_FALL_CHECK (R416). -/
def execLimiterFallCheck (s : State) : Out := .next (if s.meanOver 3000000000 then s.moveLim (-1) else s)
/-- LIMITER_RISE_CHECK (R416). -/
def execLimiterRiseCheck (s : State) : Out := .next (if s.meanUnder 2900000000 then s.moveLim 1 else s)

/-- Add to the count of a CONTEXT in the accounting table, at its home slice (R335, R418). -/
def State.charge (s : State) (ctx uj : Nat) : State :=
  let a := fld (s.reg Key.acctbase) 19 33 * 524288 + 8 * ctx
  if uj = 0 then s else (s.agentLook a 8).agentWrite a (leBytes 8 ((s.physWord a + uj) % 18446744073709551616))

/-- ACCOUNTING_UPDATE (R418): the measured energy of clusters 0 to 79, and after them the dodge energy of cores 0 to 639,
is added to the counts of the CONTEXTs: a cluster's by cycles held, a core's to its last task's. -/
def execAccountingUpdate (uj : List Nat) (s : State) : Out :=
  .next (if s.reg Key.acctbase = 0 then { s with heldCyc := [] }
    else
      let s1 := (List.range 80).foldl (fun t c =>
        let mine := s.heldCyc.filter fun p => p.1 / 65536 / 8 == c
        let total := mine.foldl (fun n p => n + p.2) 0
        mine.foldl (fun u p => u.charge (p.1 % 65536) (uj.getD c 0 * p.2 / max 1 total)) t) s
      let s2 := (List.range 640).foldl (fun t n =>
        match (s.coreAt n).prevCtx with
        | some x => t.charge x.toNat (uj.getD (80 + n) 0)
        | none => t) s1
      { s2 with heldCyc := [] })

/-! Soft errors and sparing (R419 to R421). -/

/-- CORRECTED_ERROR (R419). -/
def execCorrectedError (c : Nat) (s : State) : Out :=
  let ce := min 65535 ((s.cluster c).ce + 1)
  let t := s.onCluster c fun k => { k with ce := ce }
  .next (if ce = s.rfld (Key.clctl c) 16 16 ∧ (s.cluster c).ce ≠ ce then t.pendIrq 6 else t)

/-- No core of a cluster holds a task. -/
def State.clusterEmpty (s : State) (c : Nat) : Bool :=
  !(s.cores.any fun k => k.id / 8 == c && (k.task.isSome || k.staged.isSome))

/-- A core that has not finished a restore gives it up: its context still stands in its save slot. -/
def State.unrestore (s : State) (as : CapKind → CapKind) (p : Core → Bool) : State :=
  s.cores.foldl (fun (t : State) c =>
    match c.restoring with
    | some n =>
      if p c then
        (({ t with slots := t.slots.map fun x =>
              if x.1 = n then (x.1, { x.2 with ready := true, kind := as x.2.kind }) else x } : State).onCoreAt
          c.id fun k => k.cleared)
      else t
    | none => t) s

/-- Steps 1 and 2 of R421: the cluster leaves the available set, and its tasks are unstaged, unbound or captured with
their gangs; one that is being restored there goes back to its slot, as PREEMPT. -/
def State.startRetire (s : State) (c : Nat) : State :=
  let s1 := (s.setReg Key.clret (BitVec.ofNat 64 (256 + c)))
  let ts := s1.cores.flatMap fun k =>
    if k.id / 8 = c then (k.task.toList ++ k.staged.toList).map fun t => (t.serial, t.index) else []
  ts.foldl (fun t x =>
    match t.launch x.1 with
    | some l =>
      let g := l.gang x.2
      if g.any fun i => (t.cores.any fun k => k.capReq.isSome && k.task.any fun y => y.serial == x.1 && y.index == i) then t
      else (t.unrestore (fun _ => .preempt) fun k => k.task.any fun y => y.serial == x.1 && g.contains y.index).captureGroup
        .preempt x.1 (fun _ => false) g
    | none => t) s1

/-- Step 4 of R421: a PREEMPT context that no core may ever take any more is posted as CAPTURED with STATUS 0x00, and stays
in its slot as a SWITCH context. -/
def State.orphanSlots (s : State) : State :=
  s.slots.foldl (fun t p =>
    match p.2.core.task with
    | some k =>
      if p.2.kind == .preempt && !p.2.drop && (s.launch k.serial).any fun l => s.homeless l k.index then
        ({ t with slots := Sparse.set t.slots p.1 { p.2 with kind := .switch } } : State).postEvent
          { taskEvent 3 (capStatus .switch) p.2.core k with slot := p.1 }
      else t
    | none => t) s

/-- Step 3 of R421: the spare takes the number, cleared; or the number is dead. Which physical cluster, 0 to 10, held a
number before is not given: FAILPHYS is written with the number itself, as if cluster l held number l and cluster 10
were the spare (DESIGN CHOICE, log entry 4). -/
def State.replaceCluster (s : State) (c : Nat) : State :=
  let d := c / 10
  let l := c % 10
  let s1 := s.setRfld Key.clret 8 1 0
  if s1.rfld (Key.spare d) 16 1 = 0 then
    let s2 := (((s1.setRfld (Key.spare d) 16 1 1).setRfld (Key.spare d) 12 4 l).setRfld (Key.spare d) 8 4 l).mapCores fun k =>
      if k.id / 8 = c then
        { k with rows := [], seed0 := none, seed1 := none, badWords := [], l1 := [], fbuf := [], utlb := [], ctlb := [],
                 grants := [] }
      else k
    { s2 with arrays := s2.arrays.map fun p =>
        if p.1 / 4 = c then (p.1, { p.2 with tiles := [], seedEven := none, seedOdd := none }) else p }
  else s1.setRfld (Key.spare d) (17 + l) 1 1

/-- Steps 3 and 4 of R421. -/
def State.endRetire (s : State) (c : Nat) : State := (s.replaceCluster c).orphanSlots

/-- A write to CLRET (R420, R421): while a retirement is in progress it changes nothing; the retirement in progress ends
once the cluster is empty. -/
def State.writeClret (s : State) (v : Word) : State :=
  let c := s.rfld Key.clret 0 7
  if s.rfld Key.clret 8 1 = 1 then (if s.clusterEmpty c then s.endRetire c else s)
  else if v.getLsbD 7 ∧ fld v 0 7 < 80 then s.startRetire (fld v 0 7)
  else s.setReg Key.clret (BitVec.ofNat 64 (fld v 0 7))

/-- CLUSTER_RETIRE (R421). -/
def execClusterRetire (v : Word) (s : State) : Out := .next (s.writeClret v)

/-! Keys (R354, R363, R425). -/

/-- The wrapped key in KWD0 to KWD4. -/
def State.wrapped (s : State) : List Byte := (List.range 5).flatMap fun n => leBytes 8 (s.reg (Key.kwd n)).toNat

/-- A write to KWCTL (R425): GO starts an action, on KIND, INDEX and the wrapped key as they then stand (DESIGN CHOICE, log
entry 102); while one is in progress GO alone is ignored. -/
def State.writeKwctl (s : State) (v : Word) : State :=
  let f := v &&& 0x0300FFFF
  if v.getLsbD 16 && s.rfld Key.kwctl 31 1 == 0 then
    { s.setReg Key.kwctl (f ||| 0x80000000) with
      kwJob := some { kind := fld v 24 2, index := fld v 0 16, wrapped := s.wrapped } }
  else s.setReg Key.kwctl ((s.reg Key.kwctl &&& 0xE0000000) ||| f)

/-- KEY_WRAP_LOAD (R425). -/
def execKeyWrapLoad (v : Word) (s : State) : Out := .next (s.writeKwctl v)

/-- The unwrap fails under the key-encryption key of a session: it is derived from the session's secret (R425). -/
def KeyJob.refused (j : KeyJob) (session : Nat × Nat) : Bool :=
  Config.crypt 0 (leBytes 1 session.1 ++ leBytes 32 session.2 ++ j.wrapped) % 2 == 1

/-- The RESULT of a key-wrap action: 1 done, 2 unwrap failed, 3 bad target or no session (R425). -/
def State.keyResult (s : State) (j : KeyJob) : Nat :=
  match s.session with
  | none => 3
  | some p => if j.kind = 3 ∨ (j.kind ≠ 0 ∧ 16 ≤ j.index) then 3 else if j.refused p then 2 else 1

/-- The unwrapped key is installed: a KEYID's, the transmit key of a rotation, or the receive key of the next epoch (R363,
R425). -/
def State.installKey (s : State) (j : KeyJob) : State :=
  if j.kind = 0 then { s with keyGen := Sparse.set s.keyGen j.index (s.gen (BitVec.ofNat 16 j.index) + 1) }
  else if j.kind = 1 then (s.onLink j.index Link.rotateKey).retireEpoch j.index
  else s.onLink j.index Link.loadKey

/-- KEY_WRAP_DONE (R363, R425): the action in progress ends: RESULT is set, BUSY clears, and KWDONE pends. -/
def execKeyWrapDone (s : State) : Out :=
  .next (match s.kwJob with
    | none => s
    | some j =>
      let t := if s.keyResult j = 1 then s.installKey j else s
      (({ t with kwJob := none }.setRfld Key.kwctl 29 2 (s.keyResult j)).setRfld Key.kwctl 31 1 0).pendIrq 8)

/-! The Shutter and readout (R426, R427). -/

/-- A write to SHCTL (R426): ignored while DBGST.UNLOCK is 0; FIRE acts under ARM. -/
def State.writeShctl (s : State) (v : Word) : State :=
  let fire := v.getLsbD 1 && s.rfld Key.shctl 0 1 == 1
  let t := if s.rfld Key.dbgst 0 1 = 1 then s.setReg Key.shctl (v &&& 1) else s
  if fire then { t with halted := true } else t

/-- SHUTTER_FIRE (R426): every clock of the module stops. -/
def execShutterFire (v : Word) (s : State) : Out := .next (s.writeShctl v)
/-- SHUTTER_N (R426): the pin fires the Shutter when it is armed. -/
def execShutterN (s : State) : Out := .next (if s.rfld Key.shctl 0 1 = 1 then { s with halted := true } else s)

/-- The ciphertext of a line of HBM as it is stored, under the key it was last written with (R354, R427). -/
def State.cipherLine (s : State) (line part : Nat) : Nat :=
  match s.lineInfo line with
  | some i =>
    Config.crypt 7 (leBytes 8 line ++ leBytes 8 part ++ leBytes 2 i.keyid.toNat ++ leBytes 8 i.gen ++ memRead s.mem (64 * line) 64)
  | none => s.free (0x50000000000000 + 8 * line + part)

/-- What a queue entry holds, as numbers: R427 gives no layout of its bits. -/
def MEntry.numbers (e : MEntry) : List Nat :=
  let args := fun (g : MmaArgs) =>
    [g.arow, g.brow, g.kb, g.ft.toNat, g.ss.toNat, bit g.sa, bit g.sb, bit g.z, g.nbv.toNat]
  [e.idx.toNat, e.tile.toNat, e.wait.toNat, (e.sig.map (·.toNat + 1)).getD 0, (e.arrive.map (·.toNat + 1)).getD 0,
    bit e.running, e.done] ++
    (match e.op with
     | .mma g => 1 :: args g
     | .mzero a => [2, a.toNat]
     | .mrsum g sh neg row => [3, sh.toNat, bit neg, bit row] ++ args g
     | .mmode => [4])

/-- A landing-buffer entry, and a TLB entry, as numbers. -/
def Landing.numbers (l : Landing) : List Nat := [l.slot, l.data.toNat, l.wm.toNat, l.left, bit l.arrived]
def TlbEntry.numbers (e : TlbEntry) : List Nat := [e.context.toNat, e.va, e.size, e.leaf.toNat]

/-- What a readout of an element gives (R427): keys and secrets read as zero. A line that a cache holds reads as plain bytes;
entries are laid out in a way that is not given (log entry 103). -/
def State.element (s : State) (addr : Word) : Config.Elem → Nat
  | .key => 0
  | .scalar n i => ((s.coreAt n).r.s.toList.getD i 0).toNat
  | .row n r part => fld ((s.coreAt n).prow r) (64 * part) 64
  | .tile a n part => fld ((s.arrayOf (2 * a)).tile n).cells (64 * part) 64
  | .reg k => (s.reg k).toNat
  | .line l part => s.cipherLine l part
  | .vector n i part => fld ((s.coreAt n).r.v.toList.getD i 0) (64 * part) 64
  | .mask n i part => fld ((s.coreAt n).r.m.toList.getD i 0) (64 * part) 64
  | .preds n => (s.coreAt n).r.p.toNat
  | .special n i => (readSreg (s.focus n) i).toNat
  | .pc n => (s.coreAt n).pc.toNat
  | .loop n i part =>
    let l := (s.coreAt n).r.lc.toList.getD i { count := 0, start := 0, stop := 0 }
    if part = 0 then l.count.toNat else if part = 1 then l.start.toNat else l.stop.toNat
  | .copyEntry n pos part => (((s.coreAt n).cq.find? fun e => e.pos.toNat == pos).map fun e => fld e.desc (64 * part) 64).getD 0
  | .matrixEntry n i part =>
    (((s.coreAt n).mq.find? fun e => e.idx.toNat == i).map fun e => Config.stored part e.numbers).getD (s.free addr.toNat)
  | .landing n i part => (((s.coreAt n).lands[i]?).map fun l => Config.stored part l.numbers).getD (s.free addr.toNat)
  | .fifoWord n q out i =>
    let f := (s.coreAt n).fifo.toList.getD q {}
    ((if out then f.outb else f.inb).getD i (BitVec.ofNat 64 (s.free addr.toNat))).toNat
  | .tlb n i part => (((s.coreAt n).utlb[i]?).map fun e => Config.stored part e.numbers).getD (s.free addr.toNat)
  | .cached l part => if (Sparse.find s.llc l).isSome then leNat (memRead s.mem (64 * l + 8 * part) 8) else s.free addr.toNat
  | .other => s.free addr.toNat

/-- The 64 bits that a readout address gives: its die, block and bit offset (R427). Block 0 of a die is its directory. Which
blocks there are is the module's own (log entry 103). -/
def State.readoutData (s : State) (addr : Word) : Word :=
  let die := fld addr 60 4
  let block := fld addr 48 12
  let off := fld addr 0 48
  BitVec.ofNat 64 (if block = 0 then Config.directory die off else s.element addr (Config.element die block off))

/-- READOUT (R427): 64 bits leave by the test access port; the machine is unchanged. -/
def execReadout (addr : Word) (s : State) : Out :=
  .next { s with outbox := s.outbox ++ [.readout addr (s.readoutData addr)] }

/-! HBM lanes (R352, R353). -/

/-- What the module holds about a lane: margins and count. -/
def State.eye (s : State) (sel : Nat) : BitVec 16 × BitVec 16 × BitVec 16 := Sparse.get (0, 0, 0) s.eyes sel

/-- The lane is in service: a data lane that no spare carries, or a spare that carries one. -/
def State.laneUp (s : State) (sel : Nat) : Bool :=
  if sel % 128 < 64 then (Sparse.find s.laneMap sel).isNone
  else s.laneMap.any fun p => p.1 / 128 == sel / 128 && p.2 == sel % 128

/-- EYE_MEASUREMENT (R352): a margin below its threshold on a lane in service pends EYE. -/
def execEyeMeasurement (sel : BitVec 16) (vmarg : BitVec 16) (tmarg : BitVec 16) (s : State) : Out :=
  let n := sel.toNat
  let t : State := { s with eyes := Sparse.set s.eyes n (vmarg, tmarg, (s.eye n).2.2 + 1) }
  let low := decide (vmarg.toNat < s.rfld Key.eyeth 16 16 ∨ tmarg.toNat < s.rfld Key.eyeth 0 16)
  .next (if 66 ≤ n % 128 then s else if low && s.laneUp n then t.pendIrq 3 else t)

/-- EYEDATA as it reads for EYESEL (R352). -/
def State.eyedata (s : State) : Word :=
  let n := s.rfld Key.eyesel 0 16
  let e := s.eye n
  let mapped := match s.laneMap.find? fun p => p.1 / 128 == n / 128 && p.2 == n % 128 with
    | some p => p.1 % 128
    | none => 255
  if 66 ≤ n % 128 then 0
  else BitVec.ofNat 64
    (bit ((Sparse.find s.eyes n).isSome) * 2 ^ 63 + bit (decide (n % 128 < 64) && (Sparse.find s.laneMap n).isSome) * 2 ^ 62 +
      mapped * 2 ^ 48 + e.1.toNat * 2 ^ 32 + e.2.1.toNat * 2 ^ 16 + e.2.2.toNat)

/-- A write to HBMREP (R353): an action starts on the lane or channel it names, unless one is in progress; RESULT is 0 until it
ends (DESIGN CHOICE, log entry 118). -/
def State.writeHbmrep (s : State) (v : Word) : State :=
  let a := fld v 24 2
  let act := a == 1 || a == 2
  if act && s.rfld Key.hbmrep 31 1 == 1 then s
  else
    let f := (s.reg Key.hbmrep &&& 0xE0000000) ||| (v &&& 0xFF7F)
    if act then { s.setReg Key.hbmrep ((v &&& 0xFF7F) ||| 0x80000000) with hbmAct := a, hbmSel := fld v 0 16 }
    else s.setReg Key.hbmrep f

/-- A free spare lane of the channel of a lane: 64 before 65; one that a repair has taken is not free again (R351,
R353). -/
def State.spareFor (s : State) (sel : Nat) : Option Nat :=
  ([64, 65].map fun n => sel / 128 * 128 + n).find? fun n => !s.spares.contains n

/-- A spare carries a data lane. -/
def State.mapLane (s : State) (sel spare : Nat) : State :=
  { s with laneMap := Sparse.set s.laneMap sel (spare % 128), spares := s.spares ++ [spare] }

/-- LANE_REPAIR (R353). -/
def execLaneRepair (v : Word) (s : State) : Out := .next (if fld v 24 2 = 1 then s.writeHbmrep v else s)
/-- CHANNEL_RETRAIN (R353). -/
def execChannelRetrain (v : Word) (s : State) : Out := .next (if fld v 24 2 = 2 then s.writeHbmrep v else s)

/-- HBMREP_DONE (R353): the action ends with its RESULT; a repair takes one of the channel's two spares. A repair
of a lane from 64 to 127, which is no data lane, ends with RESULT 3 (DESIGN CHOICE, log entry 118). -/
def execHbmrepDone (ok : Bool) (s : State) : Out :=
  let fin := fun (t : State) (r : Nat) =>
    ({ t with hbmAct := 0 } : State).setReg Key.hbmrep ((t.reg Key.hbmrep &&& 0xFF7F) ||| BitVec.ofNat 64 (r * 536870912))
  .next (if s.rfld Key.hbmrep 31 1 = 0 then s
    else if s.hbmAct = 1 then
      (match s.spareFor s.hbmSel with
       | none => fin s 2
       | some n => if ok ∧ s.hbmSel % 128 < 64 then fin (s.mapLane s.hbmSel n) 1 else fin s 3)
    else fin s (if ok then 1 else 3))

/-! The Squeegee (R356, R357). -/

/-- The write-back in hand is made (R356, R357): the corrected line is written and counted, unless a write reached it
first. -/
def State.scrubBack (s : State) : State :=
  match s.scrub with
  | none => s
  | some x =>
    let s1 := { s with scrub := none }
    if x.stale then s1
    else
      match s1.lineInfo x.line with
      | some i =>
        { s1 with lines := Sparse.set s1.lines x.line { i with soft := false } }.setRfld Key.sqstat 0 24
          (min 16777215 (s1.rfld Key.sqstat 0 24 + 1))
      | none => s1

/-- SCRUB_READ (R356): the line whose turn it is in the patrol is read and checked: a correctable one waits for its
write-back, an uncorrectable one is counted and logged; unwritten lines are skipped. The last line ends a pass. A write-back
still in hand is made first. -/
def execScrubRead (line : Nat) (s : State) : Out :=
  .next (if s.rfld Key.sqctl 16 1 = 0 ∨ s.supply.hib = true ∨ line ≠ s.patrol then s
    else
      let s0 : State := { s.scrubBack with patrol := (line + 1) % 0x200000000 }
      let s1 := if line = 0x1FFFFFFFF then s0.setRfld Key.sqstat 48 16 (s.rfld Key.sqstat 48 16 + 1) else s0
      match s1.lineInfo line with
      | none => s1
      | some i =>
        if i.bad then
          { s1.setRfld Key.sqstat 24 24 (min 16777215 (s1.rfld Key.sqstat 24 24 + 1)) with errLog := s1.errLog ++ [line] }
        else if i.soft then
          { s1 with scrub := some { line := line, data := memRead s1.mem (64 * line) 64, left := s.memWait } }
        else s1)

/-- The ticks from one patrol read to the next: the 2^33 lines of HBM take PERIOD hours (R356). -/
def State.patrolTicks (s : State) : Nat := 1383 * s.rfld Key.sqctl 0 16

/-- SCRUB_WRITEBACK (R356, R357): the write-back in hand is made; after a power-fail warning the Squeegee has stopped
(R389). -/
def execScrubWriteback (s : State) : Out := .next (if s.supply.hib then s else s.scrubBack)

/-! The Loupe (R358, R359). -/

/-- The entries of a table of `n` that memory lists. -/
def State.entriesIn (s : State) (base n : Nat) : List Word :=
  (((s.mem.filter fun c => decide (base ≤ c.1 ∧ c.1 < base + 8 * n)).map fun c => (c.1 - base) / 8).dedup).map fun i =>
    BitVec.ofNat 64 (s.physWord (base + 8 * i))

/-- The leaves under a table of a level, each with its page bytes (R323, R324). -/
def State.tableLeaves (s : State) : Nat → Nat → Nat → List (Word × Nat)
  | 0, _, _ => []
  | fuel + 1, level, base =>
    (s.entriesIn base (2 ^ (levelBits level).2)).flatMap fun e =>
      if !e.getLsbD 0 then []
      else if e.getLsbD 1 then (if level = 0 then [] else [(e, leafSize level)])
      else if level = 3 then [] else s.tableLeaves fuel (level + 1) (entryAddr e)

/-- The pages that PINNED leaves of any tenant map: the address under which the module holds them, and their bytes (R322,
R324, R359). -/
def State.pinnedPages (s : State) : List (Nat × Nat) :=
  (((s.entriesIn (fld (s.reg Key.rootbase) 19 33 * 524288) 65536).flatMap fun r =>
    if r.getLsbD 0 then s.tableLeaves 4 0 (fld r 21 31 * 2097152) else []).filter fun x => leafPinned x.1).map fun x =>
      (s.canon (entryAddr x.1 / x.2 * x.2), x.2)

/-- The page at 64 KB page number `p` is one of the pages. -/
def pagePinned (l : List (Nat × Nat)) (p : Nat) : Bool :=
  l.any fun x => decide (x.1 ≤ 65536 * p ∧ 65536 * p < x.1 + x.2)

/-- Write one entry of the Loupe's ring (R358). -/
def State.loupeEntry (s : State) (page count : Nat) : State :=
  let h := s.rfld Key.loupebase 0 10
  (s.agentWrite (fld (s.reg Key.loupebase) 14 38 * 16384 + 16 * h)
    (leBytes 8 (65536 * page) ++ leBytes 4 count ++ leBytes 4 0)).setRfld Key.loupebase 0 10 (h + 1)

/-- Split the pages that reached THRESH, the highest counts first, into those reported, `n` at most, and the number of
pinned ones that stand before the last of them (R358, R359). -/
def loupeSplit (pinned : List (Nat × Nat)) : Nat → List (Nat × Nat) → List (Nat × Nat) × Nat
  | 0, _ => ([], 0)
  | _, [] => ([], 0)
  | n + 1, p :: l =>
    if pagePinned pinned p.1 then
      let r := loupeSplit pinned (n + 1) l
      (r.1, r.2 + 1)
    else
      let r := loupeSplit pinned n l
      (p :: r.1, r.2)

/-- LOUPE_WINDOW_END (R358, R359): the pages that reached THRESH are reported, the highest counts first; pinned pages
that would have been are withheld and counted. After a power-fail warning the Loupe has stopped (R389). -/
def execLoupeWindowEnd (s : State) : Out :=
  .next (if s.rfld Key.loupectl 40 1 = 0 ∨ s.supply.hib = true then s
    else
      let hot := s.misses.filter fun p => decide (s.rfld Key.loupectl 0 32 ≤ p.2)
      let r := loupeSplit s.pinnedPages 1024 (hot.insertionSort fun a b => b.2 < a.2 ∨ (a.2 = b.2 ∧ a.1 ≤ b.1))
      let s1 := r.1.foldl (fun t p => t.loupeEntry p.1 p.2) s
      { s1.setRfld Key.loupeskip 0 32 (min 4294967295 (s1.rfld Key.loupeskip 0 32 + r.2)) with misses := [] })

end Sys2Proof.Machine
end

