-- ==== Sys2Proof/Machine/Sha.lean ====
section
/-! DEFINITION. Sha: SHA-256 (FIPS 180-4), by which the boot measures (R424). Its constants are computed from the primes that
the standard takes them from, and the hash value and the round's variables are fields of one structure. -/

namespace Sys2Proof.Machine

/-- A number from 2 to 360 is a prime where nothing from 2 to 18 below it divides it. -/
def isPrime (n : Nat) : Bool := (List.range 17).all fun k => decide (n ≤ k + 2 ∨ n % (k + 2) ≠ 0)

/-- The first 64 primes: those to 311. -/
def shaPrimes : List Nat := ((List.range 310).map (· + 2)).filter isPrime

/-- The greatest number that has `low` as its bits from bit `n` on and a `k`-th power of at most `x`. -/
def rootBits (k x : Nat) : Nat → Nat → Nat
  | 0, low => low
  | n + 1, low => rootBits k x n (if (low + 2 ^ n) ^ k ≤ x then low + 2 ^ n else low)

/-- The first 32 bits of the fraction of the `k`-th root of a number below 256 for a square root, 4,096 for a cube root. -/
def rootFraction (k p : Nat) : BitVec 32 := BitVec.ofNat 32 (rootBits k (p * 2 ^ (32 * k)) 36 0)

/-- The eight words of a hash value, or of a round's variables. -/
structure Digest where
  a : BitVec 32
  b : BitVec 32
  c : BitVec 32
  d : BitVec 32
  e : BitVec 32
  f : BitVec 32
  g : BitVec 32
  h : BitVec 32

/-- The initial hash value: the fractions of the square roots of the first eight primes. -/
def Digest.init : Digest :=
  let r := rootFraction 2
  { a := r 2, b := r 3, c := r 5, d := r 7, e := r 11, f := r 13, g := r 17, h := r 19 }

/-- Two hash values added word by word. -/
def Digest.plus (x y : Digest) : Digest :=
  { a := x.a + y.a, b := x.b + y.b, c := x.c + y.c, d := x.d + y.d, e := x.e + y.e, f := x.f + y.f, g := x.g + y.g,
    h := x.h + y.h }

/-- The exclusive or of a word turned right by each of some amounts. -/
def turns (x : BitVec 32) (l : List Nat) : BitVec 32 := l.foldl (fun y n => y ^^^ x.rotateRight n) 0

/-- A round on the variables: it adds the fraction of the cube root of its prime, and the schedule's word. -/
def Digest.round (v : Digest) (p : Nat) (w : BitVec 32) : Digest :=
  let choice := (v.e &&& v.f) ||| (~~~ v.e &&& v.g)
  let major := (v.a &&& (v.b ||| v.c)) ||| (v.b &&& v.c)
  let x := v.h + choice + turns v.e [6, 11, 25] + rootFraction 3 p + w
  { v with a := x + major + turns v.a [2, 13, 22], b := v.a, c := v.b, d := v.c, e := v.d + x, f := v.e, g := v.f, h := v.g }

/-- A round for each of the primes. `w` holds the schedule's next sixteen words; each round takes one and adds the one that comes
sixteen later. -/
def Digest.rounds : List Nat → List (BitVec 32) → Digest → Digest
  | [], _, v => v
  | p :: l, w, v =>
    let i := fun (k : Nat) => w.getD k 0
    let next := i 0 + i 9 + (turns (i 1) [7, 18] ^^^ (i 1 >>> 3)) + (turns (i 14) [17, 19] ^^^ (i 14 >>> 10))
    Digest.rounds l (w.tail ++ [next]) (v.round p (i 0))

/-- A number in `n` bytes, the highest first. -/
def beBytes (n x : Nat) : List Byte := (leBytes n x).reverse

/-- A 64-byte block is taken into a hash value. -/
def Digest.block (v : Digest) (b : List Byte) : Digest :=
  let words := (List.range 16).map fun i => BitVec.ofNat 32 (leNat ((b.drop (4 * i)).take 4).reverse)
  v.plus (Digest.rounds shaPrimes words v)

/-- The hash value after `n` blocks. -/
def Digest.blocks : Nat → List Byte → Digest → Digest
  | 0, _, v => v
  | n + 1, bs, v => Digest.blocks n (bs.drop 64) (v.block (bs.take 64))

/-- What follows a message of `n` bytes: a 1 bit, zeros to 8 bytes short of a block's end, and its length in bits. -/
def shaTail (n : Nat) : List Byte := 0x80 :: (List.replicate ((119 - n % 64) % 64) 0 ++ beBytes 8 (8 * n))

/-- The 32 bytes of SHA-256. -/
def sha256 (bs : List Byte) : List Byte :=
  let v := Digest.blocks ((bs.length + 72) / 64) (bs ++ shaTail bs.length) Digest.init
  [v.a, v.b, v.c, v.d, v.e, v.f, v.g, v.h].flatMap fun w => beBytes 4 w.toNat

end Sys2Proof.Machine
end

