-- ==== Sys2Proof/Machine/Hibernate.lean ====
section
/-! DEFINITION. Hibernate: the power-fail warning (R387, R388), the priority list and the reserve (R390 to R392), the
drain (R393, R395), the contact sheet (R396, R397), safelight mode (R398 to R401), module reset with boot and restart
(R351, R365, R402 to R404, R422 to R424), and collectives (R405, R406). -/

namespace Sys2Proof.Machine

/-! The warning (R387, R388). -/

/-- Hand-offs that have not bound go back to where they came from: captured contexts to their slots, tasks to the head of
their queue (R388, R398). -/
def State.recall (s : State) (p : HandOff → Bool) : State :=
  let out := s.handoffs.filter p
  out.foldl (fun (t : State) h =>
    (h.tasks.drop h.slots.length).foldl (fun (u : State) x => u.onLaunch h.serial fun l => l.giveBack x.1)
      { t with slots := t.slots.map fun x => if h.slots.contains x.1 then (x.1, { x.2 with ready := true }) else x })
    { s with handoffs := s.handoffs.filter fun h => !p h }

/-- Staged and bound tasks go back to their queues (R46, R388, R399). -/
def State.unbindAll (s : State) (p : Core → Bool) : State :=
  s.cores.foldl (fun (t : State) c =>
    if p c then
      let u := t.unstage c.id
      if c.st = .bound then u.unbind c.id else u
    else t) s

/-- Every resident task is to be captured (R388 step 1). A PREEMPT or SWITCH capture under way goes on, but its copy, too,
waits for no page-fault response any more (R313, R318); one not yet taken gives way to POWER_FAIL (R306). -/
def State.captureAll (s : State) : State :=
  let halted := (s.cores.filter fun c => c.task.isSome && c.st == .captured).map (·.id)
  halted.foldl (fun t n => t.atCore n State.stopPaged) (s.mapCores fun c =>
    if c.task.isSome ∧ c.st ≠ .free ∧ c.st ≠ .captured then { c with capReq := some (.powerFail, c.id) } else c)

/-- A power-fail warning (R387, R388 step 1): nothing more is accepted, read or bound; every resident task is to be
captured; the module announces HIBERNATED. `lost`: the input does not carry the module's draw. A warning that is latched
already changes nothing but that. A boot under way goes no further. -/
def State.warn (s : State) (lost : Bool) : State :=
  if s.supply.hib then { s with supply := { s.supply with lost := s.supply.lost || lost } }
  else
    let ptpw := if s.rfld Key.ptpctl 2 1 = 1 then some s.ptp else none
    let s1 : State := { s with
      supply := { s.supply with hib := true, mccw := s.mcc, ptpw := ptpw, lost := lost }, readBusy := [], readRec := [],
      boot := none }
    let s2 := (((s1.recall fun _ => true).unrestore id fun _ => true).unbindAll fun _ => true).captureAll
    s2.links.foldl (fun (t : State) x => if x.2.up then t.send (.announce x.1 t.inc true) else t) s2

/-- POWER_FAIL_WARNING (R387): the supply monitor finds that the input carries the draw no more. -/
def execPowerFailWarning (s : State) : Out := .next (s.warn true)

/-- TRIP_OVERHEAT_WARNING (R415): the sensor has stayed at TRIP + 10 °C for 1 ms. -/
def execTripOverheatWarning (n : Nat) (s : State) : Out :=
  .next (match Sparse.find s.hot n with
    | some t => if t + 3300000 ≤ s.mcc.toNat then s.warn s.supply.safe else s
    | none => s)

/-! The priority list and the reserve (R390 to R393). -/

/-- A region of on-chip state stands at an address outside every memory. -/
def chipRegion (n : Nat) : Region := { addr := 2 ^ 60 + 65536 * n, len := 65536, sys := true }

/-- The system regions, in their order (R393): save slots that hold a context, requester table, scheduler image, system
register block, proof cache, collective-group table. -/
def State.sysRegions (s : State) : List Region :=
  (s.slots.map fun p => { addr := 64 * s.slotLine p.1, len := 2162688, sys := true }) ++
  (if s.reg Key.rqbase = 0 then [] else
    [{ addr := fld (s.reg Key.rqbase) 16 36 * 65536, len := 41943040, sys := true }]) ++
  [chipRegion 0, chipRegion 1, chipRegion 2, { addr := s.canon (s.groupAt 0), len := 2048, sys := true }]

/-- The entries of the priority list (R390, R391): invalid ones with STATE 3, DISCARD ones with STATE 2. -/
def State.listRegions (s : State) : List Region :=
  (List.range (s.rfld Key.fxctl 3 13)).map fun i =>
    let b := s.physRead (fld (s.reg Key.fxlist) 5 47 * 32 + 32 * i) 32 0
    let addr := leNat (b.take 8)
    let len := leNat ((b.drop 8).take 8)
    let cls := leNat ((b.drop 16).take 1)
    let ok := addr % 65536 == 0 && len % 65536 == 0 && decide (0 < len ∧ addr + len ≤ 0x8000000000) &&
      decide (bits cls 3 2 ≠ 3 ∧ cls < 32) && leNat ((b.drop 17).take 7) == 0
    { addr := addr, len := len, tag := BitVec.ofNat 64 (leNat ((b.drop 24).take 8)), cls := BitVec.ofNat 8 cls,
      state := if !ok then 3 else if bits cls 3 2 = 2 then 2 else 0 }

/-- The class of a region: 0 MUST, 1 SHOULD; a system region is MUST. -/
def Region.class (r : Region) : Nat := if r.sys then 0 else fld r.cls 3 2

/-- FXSTAT.FIT (R386). -/
def State.fit (s : State) : Bool := s.rfld Key.fxstat 63 1 == 1

/-- FIT is evaluated: RESMTR is at least NEEDJ × 1,000; a change to 0 pends RESERVE (R386, R391). -/
def State.refit (s : State) : State :=
  let f := decide (s.rfld Key.fxstat 0 32 * 1000 ≤ s.rfld Key.resmtr 0 32)
  let t := s.setRfld Key.fxstat 63 1 (bit f)
  if s.fit && !f then t.pendIrq 4 else t

/-- Validate the list, which the Fixer reads at its home slices (R335, R391): BADENT, and NEEDJ at 1.406 J per GB. -/
def State.validateList (s0 : State) : State :=
  let s := s0.agentLook (fld (s0.reg Key.fxlist) 5 47 * 32) (32 * s0.rfld Key.fxctl 3 13)
  let l := s.listRegions
  let need := ((s.sysRegions ++ l.filter fun r => r.state == 0 && r.class == 0).foldl (fun n r => n + r.len) 0)
  let j := ceilDiv (need * 1406 + s.rfld Key.fxthr 0 32 * 1073741824) (1000 * 1073741824)
  let bad := (l.filter fun r => r.state == 3).length
  ((s.setRfld Key.fxstat 0 32 (min 4294967295 j)).setRfld Key.fxstat 32 16 bad).refit

/-- FIXER_LIST_VALIDATE (R391). -/
def execFixerListValidate (s : State) : Out := .next s.validateList

/-- A write of FXCTL (R386, R387, R391, R401): the list is validated again; SLEN written 0 in safelight mode, and FIRE,
raise a warning. -/
def State.writeFxctl (s : State) (v : Word) : State :=
  let count := if s.supply.hib = true ∨ 4096 < fld v 3 13 then s.rfld Key.fxctl 3 13 else fld v 3 13
  let s1 := (s.setReg Key.fxctl (BitVec.ofNat 64 (8 * count + fld v 0 2))).validateList
  if v.getLsbD 2 || (s.supply.safe && !v.getLsbD 1) then s1.warn s.supply.safe else s1

/-- FIRE (R387). -/
def execFire (v : Word) (s : State) : Out := .next (if v.getLsbD 2 then s.writeFxctl v else s)

/-- SAFELIGHT_DISABLE (R401): FXCTL.SLEN is written 0. -/
def execSafelightDisable (s : State) : Out := .next (s.writeFxctl (s.reg Key.fxctl &&& 0xFFF9))

/-- RESMTR_UPDATE (R391, R392, R401). -/
def execResmtrUpdate (mj : BitVec 32) (s : State) : Out :=
  let t := (s.setReg Key.resmtr (mj.setWidth 64)).refit
  .next (if t.supply.safe && !t.fit then t.warn true else t)

/-! The drain (R393, R395). -/

/-- Every task has been captured (R388 step 3). -/
def State.allCaptured (s : State) : Bool := s.cores.all fun c => c.task.isNone

/-- The order of the drain: MUST and then SHOULD entries, by PRIO from 7 down, in list order (R393). -/
def drainOrder (l : List Region) : List Region :=
  [0, 1].flatMap fun k => (List.range 8).flatMap fun p =>
    l.filter fun r => r.state == 0 && r.class == k && fld r.cls 0 3 == 7 - p

/-- FIXER_DRAIN (R391, R393): the list is validated again, and the regions are put in order; records of invalid and
discarded entries follow. With ARM at 0 no valid entry is drained. While a sheet is still usable nothing is drained: the next
restart begins again from it (R402). -/
def execFixerDrain (s : State) : Out :=
  .next (if s.supply.hib = false ∨ s.supply.draining = true ∨ s.allCaptured = false then s
    else if s.sheet.usable then { s with supply := { s.supply with draining := true, ended := true } }
    else
      let t := s.validateList.sawGroups
      let l := t.listRegions
      { t with supply := { t.supply with
          draining := true, cols := t.groups.flatMap fun n => t.agentRead (t.groupAt n) 32,
          regions := t.sysRegions ++ (if t.rfld Key.fxctl 0 1 = 1 then drainOrder l else []) ++
            l.filter fun r => r.state != 0 } })

/-- A region is still to be drained. -/
def Region.open (r : Region) : Bool := r.state == 0 && decide (r.done < r.len)

/-- Cut off what is not finished (R395). -/
def Region.cut (r : Region) : Region := if r.open then { r with state := 1 } else r

/-- What is left of a range, its start and its length, without the bytes that have been drained of a region. -/
def Region.cutOut (q : Region) (x : Nat × Nat) : List (Nat × Nat) :=
  let lo := max x.1 q.addr
  let hi := min (x.1 + x.2) (q.addr + q.done)
  if hi ≤ lo then [x]
  else (if x.1 < lo then [(x.1, lo - x.1)] else []) ++ (if hi < x.1 + x.2 then [(hi, x.1 + x.2 - hi)] else [])

/-- The ranges of `n` bytes from an address that none of the regions has drained (R393). -/
def uncovered (l : List Region) (a n : Nat) : List (Nat × Nat) :=
  l.foldl (fun xs q => xs.flatMap q.cutOut) [(a, n)]

/-- An address lies in one of the ranges. -/
def inRanges (l : List (Nat × Nat)) (a : Nat) : Bool := l.any fun x => decide (x.1 ≤ a ∧ a < x.1 + x.2)

/-- The physical address of the Fixer area (R386). -/
def State.fixerArea (s : State) : Nat := fld (s.reg Key.fxarea) 30 22 * 1073741824

/-- A byte as the Fixer reads it, decrypted with its line's KEYID (R393): it fails only where its line is uncorrectable
(R355). An image of on-chip state stands in no memory, and its bytes are the module's own. -/
def State.drainByte (s : State) (a : Nat) : Byte :=
  if 2 ^ 60 ≤ a then BitVec.ofNat 8 (s.free (0x48000000000000 + a))
  else if (s.lineInfo (a / 64)).any (·.bad) then BitVec.ofNat 8 (s.free (0x10000000000000 + a))
  else memGet s.mem a

/-- The plaintext of ranges. -/
def State.drainBytes (s : State) (l : List (Nat × Nat)) : List Byte :=
  l.flatMap fun x => (List.range x.2).map fun k => s.drainByte (x.1 + k)

/-- Drain ranges: their bytes, re-encrypted under the internal key, go to the Fixer area behind what stands there (R354,
R393); what memory held of them is the module's to restore. -/
def State.drainRanges (s : State) (l : List (Nat × Nat)) : State :=
  let f := s.supply
  let bs := s.drainBytes l
  { s with
    mem := memWrite s.mem (s.fixerArea + 1073741824 + f.used) (leBytes bs.length (Config.crypt 6 bs))
    supply := { f with
      used := f.used + bs.length
      image := (s.mem.filter fun c => inRanges l c.1).foldl (fun m c => memSet m c.1 (s.drainByte c.1)) f.image
      lines := (s.lines.filter fun x => inRanges l (64 * x.1)).foldl (fun m x => Sparse.set m x.1 x.2) f.lines } }

/-- FIXER_CHUNK (R393, R395): the cut-off is decided, and the next chunk of the first unfinished region is drained, but for
the bytes that an earlier region has drained. -/
def execFixerChunk (s : State) : Out :=
  let f := s.supply
  .next (if f.draining = false ∨ f.ended = true then s
    else
      match f.regions.findIdx? Region.open with
      | none => { s with supply := { f with ended := true } }
      | some i =>
        let r := f.regions.getD i (chipRegion 0)
        let n := min 65536 (r.len - r.done)
        let todo := uncovered (f.regions.take i) (r.addr + r.done) n
        let size := (todo.map (·.2)).sum
        let cover := (f.regions.take i).findIdx? fun q => q.cutOut (r.addr + r.done, n) != [(r.addr + r.done, n)]
        let full := decide ((s.rfld Key.fxarea 0 12 - 1) * 1073741824 < f.used + size)
        let low := decide (s.rfld Key.resmtr 0 32 ≤ (if r.class = 0 then 20000 else s.rfld Key.fxthr 0 32))
        if full || low then
          { s with supply := { f with
              regions := f.regions.map Region.cut, ended := true, complete := f.complete && r.class != 0 } }
        else
          let t := s.drainRanges todo
          { t with supply := { t.supply with
              regions := f.regions.modify i fun r => { r with
                done := r.done + n, cover := cover.or r.cover,
                off := if r.done = 0 then 1073741824 + f.used else r.off } } })

/-! The contact sheet (R396, R397). -/

/-- An address lies in a region that has been drained. -/
def covers (l : List Region) (a : Nat) : Bool := l.any fun r => r.state == 0 && decide (r.addr ≤ a ∧ a < r.addr + r.len)

/-- The registers that outlive the restart: the system register block and the queues (R393, R404), and the places of
the Fixer area and the collective-group table. -/
def keptKey (k : Nat) : Bool := decide (0x10000 ≤ k) || k == Key.fxarea || k == Key.cgbase

/-- Bytes, filled with zeros to a multiple of 64. -/
def pad64 (bs : List Byte) : List Byte := bs ++ List.replicate ((64 - bs.length % 64) % 64) 0

/-- A region record (R397): 96 bytes, with the hash of what was drained. -/
def Region.record (r : Region) (hash : List Byte) : List Byte :=
  leBytes 8 r.addr ++ leBytes 8 r.len ++ leBytes 8 r.off ++ leBytes 8 r.tag.toNat ++ leBytes 1 r.cls.toNat ++
    leBytes 1 (if r.sys = true ∧ r.state = 0 then 4 else r.state) ++ leBytes 2 (r.cover.getD 0xFFFF) ++
    List.replicate 28 0 ++ hash

/-- SHA-256 of the plaintext that has been drained for the region with an index (R393, R397). The image of on-chip state has
no layout, and its hash is free. -/
def State.regionHash (s : State) (i : Nat) (r : Region) : List Byte :=
  if r.addr < 2 ^ 60 then
    sha256 ((uncovered (s.supply.regions.take i) r.addr r.done).flatMap fun x => memRead s.supply.image x.1 x.2)
  else leBytes 32 (s.free (0x40000000000000 + r.addr))

/-- A context record (R397): 16 bytes. -/
def Saved.record (slot : Nat) (x : Saved) : List Byte :=
  let t := x.core.task
  leBytes 2 slot ++ leBytes 2 x.core.id ++ leBytes 4 ((t.map fun k => k.serial.toNat).getD 0) ++
    leBytes 4 ((t.map fun k => k.index).getD 0) ++ [capStatus x.kind] ++ leBytes 1 (bit x.core.haltDrain) ++ leBytes 2 0

/-- A proof record (R397): 24 bytes. -/
def proofRecord (who : Requester) (kind : Nat) (inc : BitVec 16) (n : BitVec 32) (result : List Byte) : List Byte :=
  leBytes 1 who.module ++ leBytes 1 kind ++ leBytes 2 who.core ++ leBytes 2 who.slot ++ leBytes 2 inc.toNat ++
    leBytes 4 n.toNat ++ leBytes 4 0 ++ (result ++ List.replicate 8 0).take 8

/-- The incarnation of a requester (R365). -/
def State.peerInc (s : State) (who : Requester) : BitVec 16 :=
  if who.module = s.pos then s.inc else ((Sparse.find s.peers who.module).map (·.inc)).getD 0

/-- The four tables of the sheet in clear (R397): regions, contexts, proofs, collectives. -/
def State.sheetTables (s : State) : List (List Byte) :=
  [s.supply.regions.zipIdx.flatMap fun x => x.1.record (s.regionHash x.2 x.1),
   s.slots.flatMap fun x => x.2.record x.1,
   (s.proofs.flatMap fun p => proofRecord p.who 0 (s.peerInc p.who) p.serial p.data) ++
     s.ackts.flatMap fun x => proofRecord x.1 1 (s.peerInc x.1) x.2 [],
   s.supply.cols]

/-- Header bytes 0x00 to 0xBF (R396), SPENT being 0. -/
def State.sheetHeader (s : State) : List Byte :=
  let f := s.supply
  let n := s.sheetTables.map fun l => (pad64 l).length
  let count := fun (i size : Nat) => leBytes 4 ((s.sheetTables.getD i []).length / size)
  leBytes 4 0x48435348 ++ leBytes 2 1 ++ leBytes 2 (bit f.complete + 2 * bit f.safe) ++ leBytes 8 (s.sheet.hibseq + 1) ++
    leBytes 1 s.pos ++ leBytes 1 0 ++ leBytes 2 s.inc.toNat ++ leBytes 4 0 ++ leBytes 8 f.mccw.toNat ++
    (match f.ptpw with
     | some x => leBytes 6 (x / 1000000000) ++ leBytes 2 0 ++ leBytes 4 (x % 1000000000)
     | none => leBytes 6 (2 ^ 48 - 1) ++ leBytes 2 0 ++ leBytes 4 (s.free 0x60000000000000)) ++
    count 0 96 ++ count 1 16 ++ count 2 24 ++ count 3 32 ++ leBytes 4 0 ++
    ((List.range 4).flatMap fun i => leBytes 8 (256 + (n.take i).sum)) ++ List.replicate 96 0

/-- The sheet as it stands in the Fixer area (R396): the header in clear with its signature, and the tables under the
internal key. -/
def State.sheetBytes (s : State) : List Byte :=
  let tables := s.sheetTables.flatMap fun l => leBytes (pad64 l).length (Config.crypt 5 (pad64 l))
  s.sheetHeader ++ leBytes 64 (Config.crypt 3 (sha256 (s.sheetHeader ++ tables))) ++ tables

/-- What the sheet holds, once the drain has ended (R396, R397). -/
def State.newSheet (s : State) : Sheet :=
  let f := s.supply
  { base := s.fixerArea, valid := true, complete := f.complete, safelight := f.safe, hibseq := s.sheet.hibseq + 1, pos := s.pos,
    inc := s.inc, mccw := f.mccw, ptpw := f.ptpw, regions := f.regions, image := f.image, lines := f.lines,
    sealed := s.sealed.filter fun a => covers f.regions (64 * a),
    regs := s.regs.filter fun x => keptKey x.1,
    slots := s.slots, launches := s.launches, nextSerial := s.nextSerial, timelines := s.timelines,
    proofs := s.proofs, ackts := s.ackts, peers := s.peers, rqTable := s.rqTable, barriers := s.barriers,
    steps := s.steps, segs := s.segs, segNext := s.segNext, nextReq := s.nextReq, tags := s.tags, pins := s.pins,
    landMarks := s.landMarks, announced := s.announced }

/-- CONTACT_SHEET_WRITE (R388 step 5, R396, R397, R402): the drain has ended; the sheet is written and signed, where there is
an area and no usable sheet stands in it, and the module powers down. -/
def execContactSheetWrite (s : State) : Out :=
  .next (if s.supply.ended = false ∨ s.supply.hib = false then s
    else
      let t := { s with halted := true, supply := { s.supply with down := true } }
      if s.rfld Key.fxarea 0 12 = 0 ∨ s.sheet.usable = true then t
      else { t with mem := memWrite s.mem s.fixerArea s.sheetBytes, sheet := s.newSheet })

/-! Safelight mode (R398, R399, R401). -/

/-- A core lies on a die that is shed. -/
def State.onShed (s : State) (n : Nat) : Bool := decide (n < 640) && s.supply.shed.contains (n / 80)

/-- The task of a core is to be held (R399): its core, or that of a member of its gang, is on a shed die. -/
def State.mustHold (s : State) (c : Core) : Bool :=
  s.supply.safe &&
    (s.onShed c.id ||
      (match c.task with
       | some t =>
         t.gang &&
           (match s.launch t.serial with
            | some l => s.cores.any fun k => s.onShed k.id && k.st != .free &&
                k.task.any fun x => x.serial == t.serial && (l.gang t.index).contains x.index
            | none => false)
       | none => false))

/-- BROWN_OUT (R398): safelight mode, or a warning where SLEN is 0. The dies to shed are those that KEEP names at this moment;
that a later write of KEEP sheds or brings back none is not said (DESIGN CHOICE, log entry 121). -/
def execBrownOut (s : State) : Out :=
  .next (if s.supply.hib = true ∨ s.rfld Key.fxctl 1 1 = 0 then s.warn true
    else
      let shed := (List.range 8).filter fun d => s.rfld Key.slpol d 1 == 0
      let s1 := ({ s with supply := { s.supply with safe := true, shed := shed } } : State).pendIrq 5
      let s2 := (s1.recall fun h => h.tasks.any fun x => s1.onShed x.2).unrestore id fun c => s1.onShed c.id
      let s3 := s2.unbindAll fun c => (c.st == .bound && s2.mustHold c) || s2.onShed c.id
      (List.range 80).foldl (fun t c => t.refreshStep c) s3)

/-- SAFELIGHT_HOLD (R399): at a bundle boundary the context halts and stays in its core. -/
def execSafelightHold (s : State) : Out :=
  let live := s.core.st == .active || s.core.st == .frozen || s.core.st == .waiting
  .next (if live && s.mustHold s.core then s.halt .held else s)

/-- A held context resumes in place, or is dropped where it was cancelled (R318, R401). -/
def State.unhold (s : State) : State :=
  match s.core.st, s.core.task with
  | .held, some t =>
    if s.core.kill.isSome then
      let c := s.core
      ((s.onCore Core.vacated).leave c t).completeIfEnded t.serial
    else
      (((s.onCore fun c => { c with st := if c.haltDrain then .draining else .active }).landOwn).applyBinds.goOn s.core.haltMcc
        8).reissueFirst
  | _, _ => s

/-- SAFELIGHT_EXIT (R387, R401): the input has carried the full draw for 100 ms. A hibernation goes on to its end all the
same, and the module restarts after it. -/
def execSafelightExit (s : State) : Out :=
  .next (if s.supply.hib = true then { s with supply := { s.supply with lost := false } }
    else if s.supply.safe = false then s
    else
      let s1 := ({ s with supply := { s.supply with safe := false, shed := [] } } : State).pendIrq 5
      let s2 := (List.range 80).foldl (fun t c => t.refreshStep c) s1
      (s2.cores.map (·.id)).foldl (fun t n => t.atCore n State.unhold) s2)

/-! Module reset (R351, R365, R402 to R404, R422 to R424). -/

/-- The firmware's load address, held in the signed image (R423): 64 KB aligned, in this module's HBM. -/
def firmwareBase : Nat := Config.fused 1 % 8388608 * 65536

/-- The management core as the ROM enters the firmware (R423). -/
def bootCore : Core :=
  { id := mgmtId, st := .active, pc := firmwareEntry, accept := true, r := { Regs.reset with p := 1 } }

/-- The data lanes whose margins in training fall below the thresholds that EYETH has after a reset, ascending (R351,
R352). -/
def lowLanes (p : ResetPins) : List Nat :=
  (((p.lanes.filter fun x => decide (x.1 % 256 < 64 ∧ x.1 < 65536 ∧ (x.2.1.toNat < 40 ∨ x.2.2.toNat < 10))).map
    (·.1)).dedup).insertionSort (· ≤ ·)

/-- The channel of a lane has more low lanes than spares (R351). -/
def channelLow (p : ResetPins) (sel : Nat) : Bool :=
  decide (2 < ((lowLanes p).filter fun x => x / 256 == sel / 256).length)

/-- The HBM channels out of service (R351): those that cannot be trained, and those that need more than two repairs. -/
def channelsOut (p : ResetPins) : Nat :=
  min 255 (p.chout.toNat + ((((lowLanes p).filter (channelLow p)).map (· / 256)).dedup).length)

/-- Each controller repairs the low lanes of its channels (R351). -/
def State.trainLanes (s : State) (p : ResetPins) : State :=
  ((lowLanes p).filter fun x => !channelLow p x).foldl (fun (t : State) sel =>
    match t.spareFor sel with
    | some n => t.mapLane sel n
    | none => t) s

/-- BOOTST once the ROM has verified the firmware and entered it, or has failed to (R422): STAGE, ERR and SVN. -/
def bootst (p : ResetPins) : Nat :=
  if p.firmware ≠ 0 then 256 * p.firmware.toNat else 1 + Config.fused 3 % 256 * 2 ^ 32

/-- The four items that are measured (R424): the ROM version, the hash of the firmware image, DBGST, and BOOTST.SVN. How
each is laid out is not given, nor what is measured where no image verifies: that hash is then zero (DESIGN CHOICE, log
entry 104). -/
def State.measured (s : State) : List (List Byte) :=
  let err := s.rfld Key.bootst 8 8
  [leBytes 8 (Config.fused 5), if err = 1 ∨ err = 2 then List.replicate 32 0 else sha256 Config.firmware,
   leBytes 8 (s.reg Key.dbgst).toNat, leBytes 1 (s.rfld Key.bootst 32 8)]

/-- MEAS after the items: zero at first, then SHA-256(MEAS ‖ item) for each in turn (R424). -/
def measChain (l : List (List Byte)) : List Byte := l.foldl (fun m x => sha256 (m ++ x)) (List.replicate 32 0)

/-- MEAS0 to MEAS3 hold the chain over the items (R424). -/
def State.measure (s : State) : State :=
  let m := measChain s.measured
  (List.range 4).foldl (fun t n => t.setReg (Key.meas n) (BitVec.ofNat 64 (leNat ((m.drop (8 * n)).take 8)))) s

/-- The incarnation after a reset that restores nothing: a new one (R365). -/
def State.newInc (s : State) (p : ResetPins) : BitVec 16 := if p.inc = s.inc then p.inc + 1 else p.inc

/-- The cells that lie outside this module's HBM. -/
def outsideHbm (m : List Host.Cell) : List Host.Cell := m.filter fun c => decide (0x8000000000 ≤ c.1)

/-- The module after a reset, once the ROM has entered the firmware (R422 to R424): what lies outside its HBM is kept, and so
are the sheet and the position strap. Where no image verifies, the module stays at STAGE 0. -/
def State.coldBoot (s : State) (p : ResetPins) : State :=
  let s1 : State := { State.reset with
    inputs := s.inputs, ctr := s.ctr + 1, outbox := s.outbox, sheet := s.sheet, mem := outsideHbm s.mem }
  let s2 := (s1.setReg Key.modid (BitVec.ofNat 64 (65536 * s.pos + (s.newInc p).toNat))).setReg Key.bootst
    (BitVec.ofNat 64 (bootst p))
  let s3 := (s2.setReg Key.dbgst (BitVec.ofNat 64 (bit p.unlock))).measure
  if p.firmware ≠ 0 then s3
  else
    let s4 := s3.physWrite firmwareBase Config.firmware 0
    { s4 with others := [{ bootCore with codeMem := s4.mem }], boot := some p }

/-- HBM training ends (R351, R422): STAGE 2, with the lanes repaired, and the channels out of service, if any, reported. -/
def State.trained (s : State) (p : ResetPins) : State :=
  let n := channelsOut p
  let t := ((s.trainLanes p).setRfld Key.bootst 0 3 2).setRfld Key.bootst 40 8 n
  if n = 0 then t else t.setRfld Key.bootst 8 8 3

/-- The outcome of examining the sheet (R402). -/
def Sheet.outcome (h : Sheet) (pos : Nat) (p : ResetPins) : Nat :=
  if !h.valid || h.spent then 0
  else if !p.signed then 2
  else if h.version ≠ 1 ∨ h.pos ≠ pos then 5
  else if !h.complete then 3
  else if h.regions.zipIdx.any fun x => x.1.state == 0 && x.1.class == 0 && p.damaged.contains x.2 then 4
  else 1

/-- The regions as a restore leaves them: a damaged SHOULD region is not restored, and neither is one that such a region
covers in part (R395, R403). -/
def Sheet.restored (h : Sheet) (p : ResetPins) : List Region :=
  h.regions.zipIdx.foldl (fun l x =>
    let gone := p.damaged.contains x.2 || x.1.cover.any fun q => (l.getD q x.1).state != 0
    l ++ [if x.1.state = 0 ∧ gone = true then { x.1 with state := 1 } else x.1]) []

/-- MCC after a restore (R404): 3.3 ticks for each nanosecond of PTP time, or 2^40 ticks where that is not known. -/
def Sheet.mcc (h : Sheet) (now : Option Nat) : Word :=
  match h.ptpw, now with
  | some a, some b => h.mccw + BitVec.ofNat 64 ((b - a) * 33 / 10)
  | _, _ => h.mccw + 1099511627776

/-- The modules other than this one that are members of an entry. -/
def State.otherMembers (s : State) (n : Nat) : List Nat :=
  (List.range 64).filter fun j => bits (s.groupOf n).2.2 j 1 == 1 && j != s.pos

/-- The checks of the collective groups begin: each entry's members are asked for their STEP (R406). -/
def State.askMembers (s0 : State) : State :=
  let s := s0.sawGroups
  s.groups.foldl (fun (t : State) n =>
    let js := s.otherMembers n
    if js.isEmpty then t
    else
      js.foldl (fun u j => u.send (.stepAsk j (BitVec.ofNat 32 (s.groupOf n).1)))
        { t with rejoin := t.rejoin ++ [{ entry := n }] }) s

/-- Restore from a sheet that passes every check (R403 to R406): nothing else of this module's HBM outlives it, the firmware's
image included (log entry 105). The sheet is usable until the first task is bound (R402). -/
def State.restore (s : State) (p : ResetPins) : State :=
  let h := s.sheet
  let rs := h.restored p
  let back := h.image.filter fun c => covers rs c.1
  let set : Option Nat := p.ptp
  let mem := back.foldl (fun m c => memSet m c.1 c.2) (outsideHbm s.mem)
  let s1 : State := { s with
    mem := mem,
    lines := (h.lines.filter fun x => covers rs (64 * x.1)).foldl (fun m x => Sparse.set m x.1 { x.2 with gen := 0 }) [],
    sealed := h.sealed.filter fun a => covers rs (64 * a),
    regs := h.regs.foldl (fun m x => Sparse.set m x.1 x.2) s.regs,
    slots := h.slots.map fun x =>
      (x.1, { x.2 with sheet := true, ready := true, asked := false, core := { x.2.core with codeMem := mem } }),
    launches := h.launches, nextSerial := h.nextSerial, timelines := h.timelines, proofs := h.proofs, ackts := h.ackts,
    peers := h.peers, rqTable := h.rqTable, barriers := h.barriers, steps := h.steps, segs := h.segs,
    segNext := h.segNext, nextReq := h.nextReq, tags := h.tags, pins := h.pins, landMarks := h.landMarks,
    announced := h.announced, mcc := h.mcc set, ptp := set.getD 0 }
  let s2 := s1.setRfld Key.modid 0 16 h.inc.toNat
  let s3 := (s2.setRfld Key.ptpctl 3 1 0).setRfld Key.ptpctl 2 1 (bit set.isSome)
  let s4 := s3.askMembers
  let gone := rs.filter fun r => r.state == 1 || r.state == 2
  let s5 := gone.foldl (fun (t : State) r => t.postEvent { kind := 6, status := 0x10, va := BitVec.ofNat 64 r.addr }) s4
  s5.setReg Key.fxrstat (BitVec.ofNat 64 (h.hibseq % 4294967296 * 4294967296 + gone.length * 65536 + 1))

/-- The sheet is examined, after HBM training (R402, R403): the module is restored or starts cold, and posts the RESTORE
event. -/
def State.examine (t : State) (p : ResetPins) : State :=
  let o := t.sheet.outcome t.pos p
  let u := if o = 1 then t.restore p
    else if o = 0 then t.setReg Key.fxrstat (BitVec.ofNat 64 (t.sheet.hibseq % 4294967296 * 4294967296))
    else
      t.spendSheet.setReg Key.fxrstat
        (BitVec.ofNat 64 (t.sheet.hibseq % 4294967296 * 4294967296 + t.sheet.regions.length * 65536 + o))
  (u.setRfld Key.bootst 0 3 3).postEvent { kind := 6, status := BitVec.ofNat 8 o }

/-- The part of a module reset that is to come next, by STAGE (R422). -/
def State.bootNext (s : State) : Option BootPart :=
  if s.boot.isNone then none
  else if s.rfld Key.bootst 0 3 = 1 then some .trained
  else if s.rfld Key.bootst 0 3 = 2 then some .examine
  else some .ready

/-- MODULE_RESET (R351, R402, R422): the reset, and in their turn the parts of the boot it begins; a part out of turn changes
nothing. The parts follow one another tick by tick: how long each takes is not given (log entry 104). -/
def execModuleReset (x : ResetEvent) (s : State) : Out :=
  .next (match x.part with
    | .reset => s.coldBoot x.pins
    | part =>
      if s.boot ≠ some x.pins ∨ s.bootNext ≠ some part then s
      else if part = .trained then s.trained x.pins
      else if part = .examine then s.examine x.pins
      else { s.setRfld Key.bootst 0 3 4 with boot := none })

/-- What the surroundings decide when the module restarts by itself after a hibernation (R387): all of it free, but that the
sheet it has just signed verifies (log entry 106). -/
def State.restartPins (s : State) : ResetPins :=
  let x := fun (n : Nat) => s.free (0x58000000000000 + n)
  { inc := BitVec.ofNat 16 (x 0), chout := BitVec.ofNat 8 (x 1), firmware := BitVec.ofNat 2 (x 2), unlock := x 3 % 2 == 1,
    signed := true, ptp := if x 4 % 2 = 1 then some (x 5) else none,
    damaged := (List.range s.sheet.regions.length).filter fun i => x (6 + i) % 2 == 1 }

/-! Collectives (R405, R406). -/

/-- Drop the contexts of a launch that cannot rejoin: it completes with FAULT and CAUSE 0x12 (R406); FINDEX and FCORE name the
captured context of the lowest INDEX, and are 0 where there is none (DESIGN CHOICE, log entry 114). -/
def State.dropLaunch (s : State) (serial : BitVec 32) : State :=
  let mine := s.slots.filter fun p => p.2.core.task.any fun t => t.serial == serial
  let low := mine.foldl (fun (a : Option (Nat × Nat)) p =>
    match p.2.core.task, a with
    | some t, some x => if t.index < x.1 then some (t.index, p.2.core.id) else a
    | some t, none => some (t.index, p.2.core.id)
    | none, _ => a) none
  let s1 := mine.foldl (fun (t : State) p =>
    match p.2.core.task with
    | some k => (({ t with slots := Sparse.del t.slots p.1 } : State).leave p.2.core k)
    | none => t) s
  let s2 := match s1.launch serial with
    | some l =>
      s1.complete { l with failed := true, fault := some ({ cause := 0x12 }, low.getD (0, 0)) } none
    | none => s1
  s2.postEvent { kind := 6, status := 0x20, serial := serial }

/-- The check of an entry ends: the launch's contexts may be bound, unless a member that answered has gone more than two steps
past the recorded one (R406). -/
def State.endRejoin (s0 : State) (r : Rejoin) : State :=
  let s := s0.sawGroups
  let step := leNat (s.agentRead (s.groupAt r.entry + 16) 4)
  let s1 : State := { s with rejoin := s.rejoin.filter fun x => x.entry != r.entry }
  if r.said.all fun x => decide (x.2 ≤ step + 2) then s1 else s1.dropLaunch (BitVec.ofNat 32 (s.groupOf r.entry).1)

/-- COLLECTIVE_REJOIN (R406): a member of the entry answers its STEP; one that answers HIBERNATING is asked again; when every
member has answered, or the second is over, the check ends. -/
def execCollectiveRejoin (n : Nat) (x : RejoinEvent) (s : State) : Out :=
  .next (match s.rejoin.find? fun r => r.entry == n with
    | none => s
    | some r =>
      match x with
      | .step m v =>
        if (s.otherMembers n).contains m then
          let r1 := { r with said := Sparse.set r.said m v }
          if (s.otherMembers n).all fun j => (Sparse.find r1.said j).isSome then s.endRejoin r1
          else { s with rejoin := s.rejoin.map fun y => if y.entry = n then r1 else y }
        else s
      | .hibernating m =>
        if (s.otherMembers n).contains m then s.send (.stepAsk m (BitVec.ofNat 32 (s.groupOf n).1)) else s
      | .timeUp => if 3300000000 ≤ r.age then s.endRejoin r else s)

/-- STEP_ANNOUNCEMENT (R405). -/
def execStepAnnouncement (pos : Nat) (serial : BitVec 32) (stepv : BitVec 32) (s : State) : Out :=
  .next (s.noteStep pos serial stepv.toNat)

end Sys2Proof.Machine
end

