-- ==== Sys2Proof/Machine/Ports.lean ====
section
/-! DEFINITION. Ports: what hosts do to the module: timelines (R382), landing windows (R383, R384), BAR4 (R377), SPDM
(R424), links (R376), and the PTP clock (R385). -/

namespace Sys2Proof.Machine

/-! What comes over a host's link (R376, R378, R389). -/

/-- The row is a write to BAR0: the system register block (R378). -/
def barZero : Instr → Bool
  | .preempt _ | .switch _ | .resume _ | .retry _ | .fail _ | .tlbInvalidate _ | .evbaseWrite _ | .evconsWrite _
  | .prfrel _ | .fifoBind _ | .fifoUnbind _ | .ptpset _ => true
  | .cancel wr _ => wr != .mgmt
  | .registerWrite wr off _ => wr != .mgmt && decide (off < 0x20000)
  | _ => false

/-- The row is an access of a host, ordered among that host's own (R256). -/
def hostRow : Instr → Bool
  | .landingWindowWrite .. | .timelineWrite .. | .qtailWrite .. | .bar4Access .. => true
  | .registerWrite wr _ _ => wr != .mgmt
  | i => barZero i

/-- TIMELINE_WRITE (R382): the counter becomes the greater of itself and the value. -/
def execTimelineWrite (t : BitVec 12) (v : Word) (s : State) : Out := .next (s.raiseTimeline t.toNat v.toNat)

/-! Landing windows (R383, R384). -/

/-- Count a dropped write (R383). -/
def State.dropWrite (s : State) (w : Nat) : State :=
  s.setRfld (Key.winstat w) 32 32 (min 4294967295 (s.rfld (Key.winstat w) 32 32 + 1))

/-- Merge bytes into the rows of a placement, each row performed whole (R241, R384). -/
def Core.mergeRows (c : Core) (half : Nat) (a : Nat) : List Byte → Core
  | [] => c
  | v :: l =>
    Core.mergeRows
      { c with rows := Sparse.set c.rows (physRow half (a / 64)) (setByte (c.prow (physRow half (a / 64))) (a % 64) v) }
      half (a + 1) l

/-- The rows that `n` bytes at an offset touch. -/
def rowsTouched (off n : Nat) : List Nat := (List.range (ceilDiv (off % 64 + n) 64)).map fun i => off / 64 + i

/-- The rows of a window write in this cycle: the core, the placement and the first row where its target is resident, and
how many of the rows its ports have left over (R331). -/
def State.windowRows (s : State) (w : BitVec 6) (off : BitVec 16) (n : Nat) : Option (Nat × Nat × Nat × Nat) :=
  let t := s.windowTask w.toNat
  let first := s.rfld (Key.winb w.toNat) 0 15
  match s.launch (BitVec.ofNat 32 t.1) with
  | none => none
  | some l =>
    match s.recvAt l t.2 with
    | .core c half => some (c, half, first, ((s.coreAt c).serveRun (first + off.toNat / 64) (rowsTouched off.toNat n).length).2)
    | _ => none

/-- The write is performed, and not dropped (R384, R389), if its task has not retired. A write without bytes touches no row,
and counts as dropped, which R384 does not say (DESIGN CHOICE, log entry 113). -/
def State.windowOk (s : State) (port : BitVec 1) (w : BitVec 6) (off : BitVec 16) (data : List Byte) : Bool :=
  let b := s.reg (Key.winb w.toNat)
  b.getLsbD 63 && b.getLsbD (61 + port.toNat) && !s.supply.hib && !data.isEmpty &&
    match s.launch (BitVec.ofNat 32 (s.windowTask w.toNat).1) with
    | none => false
    | some l => (rowsTouched off.toNat data.length).all fun r =>
        decide (r ≤ fld b 15 10) && declared (l.mkTask 0 0) (fld b 0 15 + r)

/-- What a window write leaves in each row that it touches. -/
def landedRows (w first off : Nat) (data : List Byte) : List Landed :=
  (rowsTouched off data.length).map fun r =>
    let byte := fun (i : Nat) => if 64 * r + i < off then none else data[64 * r + i - off]?
    { win := w, row := r, at_ := first + r,
      data := BitVec.ofNat 512 (leNat ((List.range 64).map fun i => (byte i).getD 0)),
      mask := BitVec.ofNat 512 (leNat ((List.range 64).map fun i => if (byte i).isSome then 255 else 0)) }

/-- LANDING_WINDOW_WRITE (R331, R384, R389): a write reaches the target's rows, or their backing while the target is captured
or not yet bound; a write that touches the commit row advances the window's timeline. What finds no row of the scratchpad's
ports comes later (`State.windowStep`). -/
def execLandingWindowWrite (port : BitVec 1) (w : BitVec 6) (off : BitVec 16) (data : List Byte) (s : State) : Out :=
  let k := w.toNat
  let a := s.windowTask k
  let b := s.reg (Key.winb k)
  let nrow := fld b 15 10
  let first := fld b 0 15
  let rows := rowsTouched off.toNat data.length
  .next (match s.launch (BitVec.ofNat 32 a.1) with
    | none => s.dropWrite k
    | some l =>
      let put : Option State := match s.recvAt l a.2 with
        | .core n half => some (s.onCoreAt n fun c =>
            (((c.serveRun (first + off.toNat / 64) rows.length).1.mergeRows half (64 * first + off.toNat) data).cleaned half
              (64 * first + off.toNat) data.length).noteLanded a.1 a.2 (landedRows k first off.toNat data))
        | .retired => none
        | _ =>
          let t := s.agentWrite (s.backAt k 0 + off.toNat) data
          some { t with landMarks := rows.foldl (fun m r => if m.contains (k, r) then m else m ++ [(k, r)]) t.landMarks }
      match s.windowOk port w off data, put with
      | true, some t =>
        if rows.contains nrow then
          let t1 := t.setRfld (Key.winstat k) 0 32 (t.rfld (Key.winstat k) 0 32 + 1)
          let tl := fld b 32 12
          { t1 with timelines := Sparse.set t1.timelines tl ((Sparse.get 0 t1.timelines tl : Word) + 1) }
        else t
      | _, _ => s.dropWrite k)

/-- A landing-window write that has come to `off` goes on: as many of its rows as find a port in this cycle are performed, and
the rest waits (R331). -/
def State.windowStep (s : State) (x : Input) (port : BitVec 1) (w : BitVec 6) (off : BitVec 16) (data : List Byte) : Out :=
  match s.windowOk port w off data, s.windowRows w off data.length with
  | true, some (_, _, _, k) =>
    if k < (rowsTouched off.toNat data.length).length then
      let n := if k = 0 then 0 else 64 * (off.toNat / 64 + k) - off.toNat
      let t : State := { s with landWait := s.landWait ++ [{ x with done := x.done + n }] }
      if k = 0 then .next t else execLandingWindowWrite port w off (data.take n) t
    else execLandingWindowWrite port w off data s
  | _, _ => execLandingWindowWrite port w off data s

/-! BAR4, DOE, and the ports' links (R376, R377, R424). -/

/-- BAR4_ACCESS (R242, R377, R389): HBM at B4BASE.BASE × 2^36 + offset under B4BASE.KEYID; beyond 512 GB, or in a
hibernation, a read is an Unsupported Request and a write is dropped. An access within one aligned 32-byte unit is one
piece; a longer one is several such rows, in any order. -/
def execBar4Access (port : BitVec 1) (off : BitVec 36) (x : Bar4) (s : State) : Out :=
  let b := s.reg (Key.b4base port.toNat)
  let a := fld b 36 16 * 68719476736 + off.toNat
  let key := BitVec.ofNat 16 (fld b 0 16)
  let ok := fun (n : Nat) => decide (a + n ≤ 0x8000000000) && !s.supply.hib
  .next (match x with
    | .write d => if ok d.length then s.physWrite a d key else s
    | .read n =>
      let t := if ok n then s.engineRead none { va := 0, pa := a, n := n, key := key } else s
      t.send (.hostRead port.toNat (if ok n then some (s.physRead a n key) else none)))

/-! IDE (R376). -/

/-- A TLP without IDE is refused as an Unsupported Request (R376): a read is answered so, and a write has no effect. -/
def State.turnAway (s : State) (port : BitVec 1) : Instr → State
  | .bar4Access _ _ (.read _) => s.send (.hostRead port.toNat none)
  | _ => s

/-- The measurement blocks 1 to 4: each its number and its item (R424; DESIGN CHOICE, log entry 104). -/
def State.measBlocks (s : State) : List Byte :=
  s.measured.zipIdx.flatMap fun x => leBytes 1 (x.2 + 1) ++ x.1

/-- A key exchange on a port makes the session whose secret wraps keys, and sets up the port's IDE keys (R376, R424,
R425). -/
def State.keyExchange (s : State) (port : Nat) : State :=
  { s with session := some (port, s.free (0x80000000000000 + port)),
           ideKeys := s.ideKeys.filter (· != port) ++ [port] }

/-- SPDM_REQUEST (R424, R425): the measurement blocks, signed under the identity key; a key exchange. -/
def execSpdmRequest (port : BitVec 1) (keyExchange : Bool) (s : State) : Out :=
  let m := s.measBlocks
  let t := s.send (.spdm port.toNat (m ++ leBytes 64 (Config.crypt 1 (sha256 m))))
  .next (if keyExchange then t.keyExchange port.toNat else t)

/-- HOST_LINK_DOWN (R376). -/
def execHostLinkDown (port : BitVec 1) (s : State) : Out :=
  .next (if s.hostDown.contains port.toNat then s else { s with hostDown := s.hostDown ++ [port.toNat] })
/-- HOST_LINK_UP (R376). -/
def execHostLinkUp (port : BitVec 1) (s : State) : Out :=
  .next { s with hostDown := s.hostDown.filter (· != port.toNat) }

/-! The PTP clock (R385). -/

/-- A write to PTPSET: the first one after reset sets the time. -/
def State.setPtp (s : State) (v : Word) : State :=
  if s.rfld Key.ptpctl 2 1 = 1 then s
  else { s.setRfld Key.ptpctl 2 1 1 with ptp := v.toNat, ptpFrac := 0, ptpSlew := 0 }

/-- PTPSET (R385). -/
def execPtpset (v : Word) (s : State) : Out := .next (s.setPtp v)

/-- A correction by `err` ns: a step forward of up to 1 µs is made at once, any other correction is slewed; LOCK says
that the error was within `tol` ns. The time never decreases. -/
def State.discipline (s : State) (err : Int) (tol : Nat) : State :=
  if s.rfld Key.ptpctl 2 1 = 0 then s
  else
    let t := s.setRfld Key.ptpctl 3 1 (bit (decide (err.natAbs ≤ tol)))
    if 0 ≤ err ∧ err ≤ 1000 then { t with ptp := t.ptp + err.toNat, ptpSlew := 0 }
    else { t with ptpSlew := err * 165000 }

/-- PPS_PULSE (R385): the nearest whole second. -/
def execPpsPulse (s : State) : Out :=
  let sec : Nat := (s.ptp + 500000000) / 1000000000 * 1000000000
  .next (if s.rfld Key.ptpctl 0 2 = 3 then s.discipline ((sec : Int) - (s.ptp : Int)) 5 else s)

/-- PTM_RESPONSE (R385): the master's time, from the port that SRC names. -/
def execPtmResponse (port : BitVec 1) (ns : Word) (s : State) : Out :=
  .next (if s.rfld Key.ptpctl 0 2 = port.toNat + 1 then s.discipline ((ns.toNat : Int) - (s.ptp : Int)) 40 else s)

/-- One tick of the clock: 10/33 ns, and at most 200 ppm of a correction (R385). -/
def State.tickPtp (s : State) : State :=
  let d : Int := max (-10) (min 10 s.ptpSlew)
  let n := (s.ptpFrac + 50000 + d).toNat
  { s with ptp := s.ptp + n / 165000, ptpFrac := n % 165000, ptpSlew := s.ptpSlew - d }

end Sys2Proof.Machine
end

