-- ==== Sys2Proof/Machine/Registers.lean ====
section
/-! DEFINITION. Registers: what reads and writes of the module's registers do (R378, R380, R407 and the field maps), for
the two ports and the management core. A register is named by its key (RegMap). -/

namespace Sys2Proof.Machine

/-- The port of a writer. -/
def portOf : Writer → Option Nat
  | .hp0 => some 0
  | .hp1 => some 1
  | .mgmt => none

/-- Where in the management core's page the eye window and HBMREP stand (R352, R353): R407 lists no offset for them, so
it is one of the unlisted ones, and which is fixed but not known (DESIGN CHOICE, log entry 51). -/
def eyeWindow : Nat := 0xA60 + 32 * (Config.fused 4 % 40)

/-- The register at an offset of a port's BAR2 (R380): the pages of its own 32 queues, and the module timelines. The landing
windows are written by LANDING_WINDOW_WRITE and read 0. -/
def bar2Key (port o : Nat) : Option Nat :=
  if o < 0x20000 then
    (if o % 4096 = 0 ∨ o % 4096 = 8 ∨ o % 4096 = 16 then some (Key.qring (32 * port + o / 4096) + o % 4096) else none)
  else if 0x80000 ≤ o ∧ o < 0x88000 ∧ o % 8 = 0 then some (Key.timeline ((o - 0x80000) / 8))
  else none

/-- The register that a writer reaches at an offset, if any (R376, R378, R380, R407). A port names its BAR0 as 0x10000 and on,
and its BAR2 as 0x800000 and on: it sees its own B4BASE at 0x00E0, its own queues, and nothing at 0x0100 and 0x0108. The
management core names its page as 0 and on, and the block as 0x10000 and on; in its page it sees the eye window. -/
def seenKey (wr : Writer) (k : Nat) : Option Nat :=
  match portOf wr with
  | none =>
    if eyeWindow ≤ k ∧ k < eyeWindow + 32 then some (Key.eyesel + (k - eyeWindow))
    else if k < 0x20000 ∨ (0x30000 ≤ k ∧ k < 0x30020) then some k else none
  | some p =>
    if 0x800000 ≤ k ∧ k < 0x1000000 then bar2Key p (k - 0x800000)
    else if k < 0x10000 ∨ 0x20000 ≤ k ∨ k = Key.b4base 1 ∨ k = Key.ptpctl1 then none
    else if k = Key.b4base 0 then some (Key.b4base p)
    else if Key.qctl 0 ≤ k ∧ k < Key.qctl 64 then (if (k - Key.qctl 0) / 8 / 32 = p then some k else none)
    else some k

/-! Registers whose writable fields simply take what is written. -/

/-- The RW fields of a register without behaviour or limits of its own, as a mask. -/
def plainMask (k : Nat) : Nat :=
  if k = Key.slpol then 0xFFFF00FF
  else if k = Key.mien then 0x1FF
  else if Key.kwd 0 ≤ k ∧ k < Key.kwd 5 then 0xFFFFFFFFFFFFFFFF
  else if k = Key.acctbase then 0x000FFFFFFFF80000
  else if k = Key.csbase then 0x000FFFFFFFFF0000
  else if k = Key.preqa then 0xFFFFFFFFFFFFFFFF
  else if k = Key.rootbase then 0x000FFFFFFFF80000
  else if k = Key.enlprog then 0x000FFFFFFFFFFFE0
  else if k = Key.enlgt then 0x000FFFFFFFF80000
  else if k = Key.loupebase then 0x000FFFFFFFFFC000
  else if k = Key.treebase then 0x000FFFFFFFFFF000
  else if k = Key.qbinda then 0xFFFFFFFFFFFFFFFF
  else if k = Key.rqbase then 0x000FFFFFFFFF0000
  else if k = Key.b4base 0 ∨ k = Key.b4base 1 then 0x000FFFF00000FFFF
  else if k = Key.eyesel then 0xFF7F
  else if k = Key.eyeth then 0xFFFFFFFF
  else 0

/-- The W1C fields of a register, as a mask (R15). -/
def w1cMask (k : Nat) : Nat :=
  if k = Key.mipend then 0x1FF
  else if k = Key.talert 0 ∨ k = Key.talert 1 ∨ k = Key.tcool 0 ∨ k = Key.tcool 1 then 0xFFFFFFFFFFFFFFFF
  else if k = Key.sqstat then 0x0000FFFFFFFFFFFF
  else if k = Key.loupeskip then 0xFFFFFFFF
  else if Key.wina 0 ≤ k ∧ k < Key.wina 64 ∧ k % 32 = Key.winstat 0 % 32 then 0xFFFFFFFF00000000
  else 0

/-- The W1C bits of a register that a source event of this cycle keeps set (R408). -/
def State.keptBits (s : State) (k : Nat) : Word := if k = Key.mipend then s.irqSet else 0

/-- Write the plain and W1C fields of a register. -/
def State.writePlain (s : State) (k : Nat) (v : Word) : State :=
  let rw : Word := BitVec.ofNat 64 (plainMask k)
  let w1c : Word := BitVec.ofNat 64 (w1cMask k)
  if plainMask k = 0 ∧ w1cMask k = 0 then s
  else s.setReg k (((s.reg k &&& ~~~rw) ||| (v &&& rw)) &&& ~~~(v &&& w1c &&& ~~~s.keptBits k))

/-- A field that takes a value only within its range. -/
def State.writeIf (s : State) (k lo w : Nat) (v : Word) (ok : Nat → Bool) : State :=
  if ok (fld v lo w) then s.setRfld k lo w (fld v lo w) else s

/-! Registers with limits. -/

/-- FXAREA (R386): SIZE is 0 or 2 to 1,536. -/
def State.writeFxarea (s : State) (v : Word) : State :=
  (s.setRfld Key.fxarea 30 22 (fld v 30 22)).writeIf Key.fxarea 0 12 v fun n => n == 0 || decide (2 ≤ n ∧ n ≤ 1536)

/-- FXTHR (R386): not below 20,000. -/
def State.writeFxthr (s : State) (v : Word) : State := s.setReg Key.fxthr (BitVec.ofNat 64 (max 20000 (fld v 0 32)))

/-- CSCTL (R417): RATE is 1 to 40; LIM is read-only. -/
def State.writeCsctl (s : State) (v : Word) : State :=
  (s.setRfld Key.csctl 8 1 (fld v 8 1)).writeIf Key.csctl 0 6 v fun n => decide (1 ≤ n ∧ n ≤ 40)

/-- TLIMIT (R413): TRIP is at most 1,680. -/
def State.writeTlimit (s : State) (v : Word) : State :=
  let trip := if 1680 < (BitVec.ofNat 16 (fld v 48 16)).toInt then 1680 else fld v 48 16
  s.setReg Key.tlimit (setFld (v &&& 0xFFFFFFFFFFFF0000) 48 16 trip)

/-- QCTLn (R285): WEIGHT is 1 to 16. -/
def State.writeQctl (s : State) (k : Nat) (v : Word) : State :=
  (s.setRfld k 6 2 (fld v 6 2)).writeIf k 0 5 v fun n => decide (1 ≤ n ∧ n ≤ 16)

/-- QRINGn (R381): LOG2N is 4 to 16; ignored while the queue is served. -/
def State.writeQring (s : State) (n : Nat) (v : Word) : State :=
  let k := Key.qring n
  if s.rfld (Key.qctl n) 7 1 = 1 then s
  else (s.setReg k ((v &&& 0xFFFFFFFFFFFFF800) ||| (s.reg k &&& 31))).writeIf k 0 5 v fun m => decide (4 ≤ m ∧ m ≤ 16)

/-- SQCTL (R356): PERIOD is not 0. -/
def State.writeSqctl (s : State) (v : Word) : State :=
  (s.setRfld Key.sqctl 16 1 (fld v 16 1)).writeIf Key.sqctl 0 16 v fun n => n != 0

/-- LOUPECTL (R359): WIN is not 0. -/
def State.writeLoupectl (s : State) (v : Word) : State :=
  ((s.setRfld Key.loupectl 40 1 (fld v 40 1)).setRfld Key.loupectl 0 32 (fld v 0 32)).writeIf Key.loupectl 32 8 v
    fun n => n != 0

/-- WINAw, WINBw and WINCw (R383): ignored while the window is enabled. -/
def State.writeWindow (s : State) (k : Nat) (v : Word) : State :=
  let w := (k - Key.wina 0) / 32
  if s.rfld (Key.winb w) 63 1 = 1 then s
  else if k = Key.wina w then s.setReg k v
  else if k = Key.winb w then s.setReg k (v &&& 0xE0000FFF01FFFFFF)
  else s.setReg k (v &&& 0x000FFFFFFFFF0000)

/-- PTPCTL (R378, R385): SRC is shared; IDEREQ is the port's own. LOCK keeps what the latest correction said of it, whatever SRC
becomes: R385 does not say when it falls (DESIGN CHOICE, log entry 120). -/
def State.writePtpctl (s : State) (v : Word) (ide : Nat) : State :=
  (s.setRfld Key.ptpctl 0 2 (fld v 0 2)).setRfld ide 7 1 (fld v 7 1)

/-- CLCTLc (R409 to R412, R419). -/
def State.writeClctl (s : State) (c : Nat) (v : Word) : State :=
  (((s.writeStep c v).writeThr c v).writeForcewa c v).setRfld (Key.clctl c) 16 16 (fld v 16 16)

/-- PREQB (R312, R319). -/
def State.writePreqb (s : State) (v : Word) : State :=
  if fld v 0 2 = 1 then s.requestCapture .preempt v
  else if fld v 0 2 = 2 then s.requestCapture .switch v
  else if fld v 0 2 = 3 then s.resumeSlot v
  else s

/-- PFRESP (R328). -/
def State.writePfresp (s : State) (v : Word) : State :=
  if fld v 11 2 = 1 then s.retryFault v else if fld v 11 2 = 2 then s.failFault v else s

/-! Writes (R378, R386, R389). -/

/-- A write to the management core's page (R386, R407). -/
def State.writePage (s : State) (k : Nat) (v : Word) : State :=
  if k = Key.fxctl then s.writeFxctl v
  else if k = Key.fxthr then s.writeFxthr v
  else if k = Key.fxlist then (if s.supply.hib then s else (s.setReg k (v &&& 0x000FFFFFFFFFFFE0)).validateList)
  else if k = Key.fxarea then (if s.supply.hib then s else s.writeFxarea v)
  else if k = Key.cgbase then (if s.supply.hib then s else s.setReg k (v &&& 0x000FFFFFFFFFF800))
  else if k = Key.kwctl then s.writeKwctl v
  else if k = Key.csctl then s.writeCsctl v
  else if k = Key.tlimit then s.writeTlimit v
  else if k = Key.shctl then s.writeShctl v
  else if Key.clctl 0 ≤ k ∧ k < Key.clctl 80 then s.writeClctl ((k - Key.clctl 0) / 8) v
  else if Key.clstat 0 ≤ k ∧ k < Key.clstat 80 then s.onCluster ((k - Key.clstat 0) / 8) fun c => { c with ce := 0 }
  else if k = Key.clret then s.writeClret v
  else s.writePlain k v

/-- A write to the system register block, the queue pages or the eye window (R378, R380, R352, R353). -/
def State.writeBlock (s : State) (wr : Writer) (k : Nat) (v : Word) : State :=
  if k = Key.cscount then s.writeIf k 0 13 v fun n => decide (n ≤ 4096)
  else if k = Key.preqb then s.writePreqb v
  else if k = Key.cancel then s.cancel wr v
  else if k = Key.evbase then s.setEvbase v
  else if k = Key.evctl then (s.writeIf k 0 5 v fun n => decide (5 ≤ n ∧ n ≤ 16)).flushEvents
  else if k = Key.evcons then s.setEvcons v
  else if k = Key.pfresp then s.writePfresp v
  else if k = Key.tlbinva then (if s.inval.isSome then s else s.setReg k (v &&& 0x01FFFFFFFFFF0000))
  else if k = Key.tlbinvb then s.startInval v
  else if k = Key.sqctl then s.writeSqctl v
  else if k = Key.loupectl then s.writeLoupectl v
  else if k = Key.qbindb then s.setFifo v (if v.getLsbD 63 then none else some (fld v 8 6, fld v 16 12))
  else if k = Key.ptpctl then s.writePtpctl v (if portOf wr = some 1 then Key.ptpctl1 else Key.ptpctl)
  else if k = Key.ptpctl1 then s.writePtpctl v Key.ptpctl1
  else if k = Key.ptpset then s.setPtp v
  else if k = Key.prfrel then s.prfrel v
  else if Key.qctl 0 ≤ k ∧ k < Key.qctl 64 then s.writeQctl k v
  else if Key.wina 0 ≤ k ∧ k < Key.wina 64 ∧ k % 32 ≠ Key.winstat 0 % 32 then s.writeWindow k v
  else if 0x20000 ≤ k ∧ k < 0x20800 then
    (if k % 32 = 0 then s.writeQring ((k - 0x20000) / 32) v
     else if k % 32 = 8 then s.writeTail ((k - 0x20000) / 32) v
     else s)
  else if Key.timeline 0 ≤ k ∧ k < Key.timeline 4096 then s.raiseTimeline ((k - Key.timeline 0) / 8) v.toNat
  else if k = Key.hbmrep then s.writeHbmrep v
  else s.writePlain k v

/-- A register write (R378, R380, R382, R386, R407); in a hibernation a port's write to the block is dropped (R389). -/
def State.regWrite (s : State) (wr : Writer) (k : Nat) (v : Word) : State :=
  match seenKey wr k with
  | none => s
  | some k =>
    if s.supply.hib ∧ wr ≠ .mgmt ∧ k < 0x20000 then s
    else if k < 0x10000 then s.writePage k v
    else s.writeBlock wr k v

/-- REGISTER_WRITE (R378): `off` is the offset as the writer names it. -/
def execRegisterWrite (wr : Writer) (off : Nat) (v : Word) (s : State) : Out := .next (s.regWrite wr off v)

/-! Reads. -/

/-- FXSTAT as it reads (R386). -/
def State.fxstat (s : State) : Word :=
  s.reg Key.fxstat ||| BitVec.ofNat 64 (bit s.supply.hib * 2 ^ 62 + bit s.supply.safe * 2 ^ 61)

/-- A register as a writer reads it: write-only fields and offsets not listed read 0 (R378). -/
def State.regRead (s : State) (wr : Writer) (k : Nat) : Word :=
  match seenKey wr k with
  | none => 0
  | some k =>
    if k = Key.fxstat then s.fxstat
    else if Key.kwd 0 ≤ k ∧ k < Key.kwd 5 then 0
    else if Key.clstat 0 ≤ k ∧ k < Key.clstat 80 then s.clstat ((k - Key.clstat 0) / 8)
    else if k = Key.eyedata then s.eyedata
    else if k = Key.ptpctl ∧ portOf wr = some 1 then setFld (s.reg Key.ptpctl) 7 1 (s.rfld Key.ptpctl1 7 1)
    else if k = Key.ptpctl1 then setFld (s.reg Key.ptpctl) 7 1 (s.rfld Key.ptpctl1 7 1)
    else if Key.timeline 0 ≤ k ∧ k < Key.timeline 4096 then Sparse.get 0 s.timelines ((k - Key.timeline 0) / 8)
    else s.reg k

/-- A port demands IDE: its own IDEREQ is set (R376). -/
def State.ideNeeded (s : State) (port : BitVec 1) : Bool :=
  s.rfld (if port = 1 then Key.ptpctl1 else Key.ptpctl) 7 1 == 1

/-- What a PCIe read of BAR0 or BAR2 by a port gives: the register's value, or, in a hibernation, and for a TLP without IDE where
the port demands it, an Unsupported Request (R376, R378, R380, R382, R389). `ide`: the TLP came with IDE. The opcode table
has no row for it: it changes nothing. -/
def State.hostLoad (s : State) (port : BitVec 1) (off : Nat) (ide : Bool) : Option Word :=
  if s.supply.hib || (s.ideNeeded port && !ide) then none else some (s.regRead (if port = 0 then .hp0 else .hp1) off)

end Sys2Proof.Machine
end

