-- ==== Sys2Proof/Machine/Memory.lean ====
section
/-! DEFINITION. Memory: the M-class instructions but for the copies: loads and stores (R198 to R206), fences (R207,
R208), atomics (R210 to R213), prefetch and cache maintenance (R214, R342), link FIFOs (R227), and the management core's
map (R407). -/

namespace Sys2Proof.Machine

/-! Where an access goes (R198, R200, R407). -/

/-- Where an address of the management core leads (R407): this module's HBM, a register by its key, or nowhere. -/
inductive MgmtAt where
  | mem
  | reg (key : Nat)
  | bad (t : Trap)
  deriving DecidableEq, Repr

/-- The management core's map (R310, R407). `word`: LD64 or ST64. -/
def mgmtAt (va : Word) (n : Nat) (kind : BitVec 3) (word : Bool) : MgmtAt :=
  let a := va.toNat
  let regs := fun (key : Nat) => if word && a % 8 == 0 then MgmtAt.reg key else .bad (violation 0x04 va kind)
  if a + n ≤ 0x8000000000 then .mem
  else if a < 0x8000000000 then .bad (violation 0x05 0x8000000000 kind)
  else if 0xF000000000 ≤ a ∧ a < 0xF000001000 then regs (pageKey (a - 0xF000000000))
  else if 0xF000010000 ≤ a ∧ a < 0xF000020000 then regs (blockKey (a - 0xF000010000))
  else .bad (violation 0x05 va kind)

/-- What an access reaches: pieces of memory, or a register. -/
inductive Target where
  | mem (ps : List Piece)
  | reg (key : Nat)
  deriving DecidableEq, Repr

/-- Resolve an access of the core in focus: what it reaches, or the state in which its slot traps or freezes. -/
def State.access (s : State) (va : Word) (n : Nat) (kind : BitVec 3) (plain word : Bool) : Except State Target :=
  if s.mgmt then
    (match mgmtAt va n kind word with
     | .mem => .ok (.mem [{ va := va, pa := va.toNat, n := n, key := 0 }])
     | .reg k => .ok (.reg k)
     | .bad t => .error (s.trapSlot t))
  else
    match s.reach va n kind plain with
    | .error t => .error t
    | .ok l => .ok (.mem (pieces s.core.keyid l))

/-- What every checked access shares: a suppressed slot only arrives; a failed check is the outcome; otherwise `f`. -/
def runAccess {α : Type} (h : Hdr) (s : State) (r : Except State α) (f : α → State) : Out :=
  if s.guard h then
    (match r with
     | .error t => .next t
     | .ok x => .next (f x))
  else .next (s.arriveNow h.a)

/-! Loads (R202, R203). -/

/-- A load into a register: its entry is held until it lands, and its A bit arrives there (R49, R60). -/
def State.loadInto (s : State) (h : Hdr) (d : DstReg) (va : Word) (n : Nat) (sext : Bool) (wm : Vec) (left : Nat) :
    Target → State
  | .mem ps =>
    let p := s.abar h.a
    (p.2.addLanding { id := 0, slot := 0, dst := d, data := 0, wm := wm, left := left, wait := none,
                      kind := .load va n sext, arrive := p.1 }).startLoad s.core.nextId ps
  | .reg k =>
    let p := s.abar h.a
    p.2.addLanding { id := 0, slot := 0, dst := d, data := (s.regRead .mgmt k).setWidth 1024, wm := wm, left := left,
                     wait := some s.memWait, kind := .load va n sext, arrive := p.1 }

/-- The parts of one access, outstanding since `s`, bear its name, which is its own (R199). -/
def State.oneAccess (s t : State) : State :=
  let n := s.core.nextId
  t.onCore fun c =>
    { c with nextId := max c.nextId (n + 1),
             stores := c.stores.take s.core.stores.length ++
               (c.stores.drop s.core.stores.length).map fun p => { p with acc := n },
             remotes := c.remotes.take s.core.remotes.length ++
               (c.remotes.drop s.core.remotes.length).map fun r => { r with acc := some n } }

/-- Post an access that is still to be performed, or that has been. -/
def State.post (s : State) (holds : List Nat) (act : Deferred) : State :=
  s.onCore fun c =>
    { c with stores := c.stores ++ [{ id := c.nextId, acc := c.nextId, left := s.memWait, holds := holds, act := act }],
             nextId := c.nextId + 1 }

/-- A load whose data is discarded: the access is made, or held by fences, and no entry is held (R202, R208). It has no
landing, and R60 names no other moment for its A bit: the arrival is made at commit (DEDUCED, log entry 56). -/
def State.loadNowhere (s : State) (h : Hdr) : Target → State
  | .mem ps =>
    let holds := (s.core.holders true ++ s.behind ps).dedup
    (s.oneAccess (ps.foldl (fun (t : State) p =>
      if !holds.isEmpty then t.post holds (.load p)
      else
        match t.physKind p.pa with
        | .peer _ => t.sendRemote p (.load p.n) none none
        | _ => t.fill p false) s)).arriveNow h.a
  | .reg _ => s.arriveNow h.a

/-- A scalar load of n bytes (R202). -/
def scalarLoad (n : Nat) (sext : Bool) (o : LdOp) (s : State) : Out :=
  let va := s.rdS o.ra
  runAccess o.h s (s.access va n 0 true (n == 8)) fun x =>
    if o.rd = 0 then s.loadNowhere o.h x else s.loadInto o.h (.scalar o.rd) va n sext 0 (landCycle o.l) x

/-- LD8 (R202). -/
def execLd8 (o : LdOp) (s : State) : Out := scalarLoad 1 false o s
/-- LD16 (R202). -/
def execLd16 (o : LdOp) (s : State) : Out := scalarLoad 2 false o s
/-- LD32 (R202). -/
def execLd32 (o : LdOp) (s : State) : Out := scalarLoad 4 false o s
/-- LD64 (R202). -/
def execLd64 (o : LdOp) (s : State) : Out := scalarLoad 8 false o s
/-- LDS8 (R202). -/
def execLds8 (o : LdOp) (s : State) : Out := scalarLoad 1 true o s
/-- LDS16 (R202). -/
def execLds16 (o : LdOp) (s : State) : Out := scalarLoad 2 true o s
/-- LDS32 (R202). -/
def execLds32 (o : LdOp) (s : State) : Out := scalarLoad 4 true o s

/-- The bits of the low n bytes of a vector register. -/
def lowBytes (n : Nat) : Vec := BitVec.ofNat 1024 (2 ^ (8 * n) - 1)

/-- A vector load of n bytes (R203). -/
def vectorLoad (n : Nat) (o : VLdOp) (s : State) : Out :=
  let va := s.rdS o.ra
  runAccess o.h s (s.access va n 0 true false) fun x =>
    s.loadInto o.h (.vector o.v) va n false (lowBytes n) (landCycle o.l) x

/-- VLD1 (R203). -/
def execVld1 (o : VLdOp) (s : State) : Out := vectorLoad 32 o s
/-- VLD2 (R203). -/
def execVld2 (o : VLdOp) (s : State) : Out := vectorLoad 64 o s
/-- VLD4 (R203). -/
def execVld4 (o : VLdOp) (s : State) : Out := vectorLoad 128 o s

/-! Stores (R199, R202, R203). -/

/-- The bytes of a store, piece by piece. -/
def State.storePieces (s : State) : List Piece → List Byte → State
  | [], _ => s
  | p :: ps, bs => (s.issueStore p (bs.take p.n)).storePieces ps (bs.drop p.n)

/-- A store of bytes at an address: it retires at commit (R199). -/
def storeBytes (h : Hdr) (va : Word) (bs : List Byte) (word : Bool) (s : State) : Out :=
  runAccess h s (s.access va bs.length 1 true word) fun x =>
    match x with
    | .mem ps => (s.oneAccess (s.storePieces ps bs)).arriveNow h.a
    | .reg k => (s.regWrite .mgmt k (BitVec.ofNat 64 (leNat bs))).arriveNow h.a

/-- A scalar store of n bytes (R202). -/
def scalarStore (n : Nat) (o : StOp) (s : State) : Out :=
  storeBytes o.h (storeAddr (s.rdS o.ra) n o.imm) (leBytes n (s.rdS o.src).toNat) (n == 8) s

/-- ST8 (R202). -/
def execSt8 (o : StOp) (s : State) : Out := scalarStore 1 o s
/-- ST16 (R202). -/
def execSt16 (o : StOp) (s : State) : Out := scalarStore 2 o s
/-- ST32 (R202). -/
def execSt32 (o : StOp) (s : State) : Out := scalarStore 4 o s
/-- ST64 (R202). -/
def execSt64 (o : StOp) (s : State) : Out := scalarStore 8 o s

/-- A vector store of n bytes (R203). -/
def vectorStore (n : Nat) (o : VStOp) (s : State) : Out :=
  storeBytes o.h (storeAddr (s.rdS o.ra) n o.imm) (leBytes n (s.rdV o.v).toNat) false s

/-- VST1 (R203). -/
def execVst1 (o : VStOp) (s : State) : Out := vectorStore 32 o s
/-- VST2 (R203). -/
def execVst2 (o : VStOp) (s : State) : Out := vectorStore 64 o s
/-- VST4 (R203). -/
def execVst4 (o : VStOp) (s : State) : Out := vectorStore 128 o s

/-! Scratchpad rows (R204, R205, R254, R332). -/

/-- n rows from r that the task may name, or the trap of R200. -/
def State.rowsReach (s : State) (r : Int) (n : Nat) (kind : BitVec 3) : Except State Nat :=
  match s.core.badRange r n with
  | some x => .error (s.trapSlot (violation 0x03 (rowAddr x) kind))
  | none => .ok r.toNat

/-- A load of n rows: read in the issue cycle, 6 cycles on its way. -/
def rowLoad (n : Nat) (r : Int) (o : VLdOp) (s : State) : Out :=
  runAccess o.h s (s.rowsReach r n 0) fun q =>
    let p := (s.usePort ((List.range n).map (q + ·))).abar o.h.a
    p.2.addLanding { id := 0, slot := 0, dst := .vector o.v, data := BitVec.ofNat 1024 (rowsNat (s.core.rowsAt q n)),
                     wm := lowBytes (64 * n), left := landCycle o.l, wait := some (6 + s.waCycles),
                     err := s.core.firstBadRow ((List.range n).map (q + ·)), kind := .rows q n, arrive := p.1 }

/-- A row number with bit 0 cleared. -/
def evenRow (r : Int) : Int := r - r % 2

/-- SPLD (R205). -/
def execSpld (o : VLdOp) (s : State) : Out := rowLoad 2 (evenRow (loadRow (s.rdS o.ra))) o s
/-- SPLDH (R205). -/
def execSpldh (o : VLdOp) (s : State) : Out := rowLoad 1 (loadRow (s.rdS o.ra)) o s

/-- A store of n rows, at its commit. -/
def rowStore (n : Nat) (r : Int) (o : VStOp) (s : State) : Out :=
  let v := s.rdV o.v
  runAccess o.h s (s.rowsReach r n 1) fun q =>
    ((s.usePort ((List.range n).map (q + ·))).onCore fun c =>
      (List.range n).foldl (fun c i => c.setRow (q + i) (BitVec.ofNat 512 (fld v (512 * i) 512))) c).arriveNow o.h.a

/-- SPST (R205). -/
def execSpst (o : VStOp) (s : State) : Out := rowStore 2 (evenRow (storeRow (s.rdS o.ra) o.imm)) o s
/-- SPSTH (R205). -/
def execSpsth (o : VStOp) (s : State) : Out := rowStore 1 (storeRow (s.rdS o.ra) o.imm) o s

/-! Gathers and scatters (R206, R332). -/

/-- Every row of a list of scratchpad byte addresses may be named, or the trap of R200. -/
def State.wordsReach (s : State) (l : List Nat) (kind : BitVec 3) : Except State (List Nat) :=
  match l.find? fun x => !s.core.rowOk ((x / 64 : Nat) : Int) with
  | some x => .error (s.trapSlot (violation 0x03 (BitVec.ofNat 64 x) kind))
  | none => .ok l

/-- VGATH (R206). -/
def execVgath (o : VLdOp) (s : State) : Out :=
  let base := s.rdS o.ra
  let offs := s.rdV o.v
  runAccess o.h s (s.wordsReach ((List.range 32).map fun i => gatherAddr base (elt offs 32 i)) 0) fun _ =>
    let p := (s.usePort ((List.range 32).map fun i => gatherAddr base (elt offs 32 i) / 64)).abar o.h.a
    p.2.addLanding { id := 0, slot := 0, dst := .vector o.v, data := s.core.gather base offs, wm := BitVec.allOnes 1024,
                     left := landCycle o.l, wait := some (gatherCycles base offs + s.waCycles), err := s.core.gatherBad base offs,
                     kind := .gather base offs, arrive := p.1 }

/-- VSCAT (R206): where two elements name one address, the later one wins. -/
def execVscat (o : VStOp) (s : State) : Out :=
  let v := s.rdV o.v
  let base := (s.rdS o.ra &&& ~~~63#64) + 64#64 * sext6 o.imm
  runAccess o.h s (s.wordsReach ((List.range 16).map fun i => gatherAddr base (elt v 32 (16 + i))) 1) fun l =>
    ((s.usePort (l.map (· / 64))).onCore fun c => l.zipIdx.foldl (fun c x => c.spWrite x.1 (leBytes 4 (elt v 32 x.2))) c).arriveNow o.h.a

/-! Fences (R207 to R209). -/

/-- FENCE (R208): it commits and retires at once; it stays until what it awaits has completed. A TASK-scope fence, or
one that awaits nothing, completes in its issue cycle. What it orders beyond what it awaits is a fence of its own (R245,
R248). -/
def execFence (o : FenceOp) (s : State) : Out :=
  runSlot o.h s fun t =>
    let f := t.newFence o.kind o.scope
    let g := t.orderFence (t.core.nextId + 1) o.kind o.scope
    let new := (if f.loads.isEmpty && f.stores.isEmpty && f.remotes.isEmpty then [] else [f]) ++
      if g.blocks t.core then [g] else []
    if o.scope = 0 ∨ new.isEmpty = true then t
    else t.onCore fun c => { c with fences := c.fences ++ new, nextId := c.nextId + 2 }

/-! Atomics (R210 to R213). -/

/-- The atomics that host memory carries (R211). -/
def hostAtomic (op : AtomicOp) : Bool := op == .add || op == .xchg || op == .cas

/-- Resolve an atomic, with the limits of R211 after the checks of its page (R200). -/
def State.atomicReach (s : State) (op : AtomicOp) (va : Word) : Except State Piece :=
  match s.access va (atomicSize op) 2 false false with
  | .error t => .error t
  | .ok (.mem [p]) =>
    let host := match s.physKind p.pa with
      | .host _ => true
      | _ => false
    if va.toNat % atomicSize op ≠ 0 ∨ (host && !hostAtomic op) = true then .error (s.trapSlot (violation 0x04 va 2))
    else .ok p
  | .ok _ => .error (s.trapSlot (violation 0x04 va 2))

/-- An atomic (R210): with rd = s0 no value returns; otherwise the old word lands at 64 (R213). -/
def atomic (op : AtomicOp) (o : SROp) (s : State) : Out :=
  let va := s.rdS o.ra
  let b := s.rdS o.rb
  let d := s.rdS o.rd
  runAccess o.h s (s.atomicReach op va) fun p =>
    let t := if o.rd = 0 then s.issueAtomic op p b d s.core.iss.nbv none
      else
        (s.addLanding { id := 0, slot := 0, dst := .scalar o.rd, data := 0, wm := 0, left := 64, wait := none,
                        kind := .atomic }).issueAtomic op p b d s.core.iss.nbv (some s.core.nextId)
    (s.oneAccess t).arriveNow o.h.a

/-- AADD (R210). -/
def execAadd (o : SROp) (s : State) : Out := atomic .add o s
/-- AMIN (R210). -/
def execAmin (o : SROp) (s : State) : Out := atomic .min o s
/-- AMAX (R210). -/
def execAmax (o : SROp) (s : State) : Out := atomic .max o s
/-- AMINN (R210). -/
def execAminn (o : SROp) (s : State) : Out := atomic .minn o s
/-- AMAXN (R210). -/
def execAmaxn (o : SROp) (s : State) : Out := atomic .maxn o s
/-- AAND (R210). -/
def execAand (o : SROp) (s : State) : Out := atomic .and o s
/-- AOR (R210). -/
def execAor (o : SROp) (s : State) : Out := atomic .or o s
/-- AXOR (R210). -/
def execAxor (o : SROp) (s : State) : Out := atomic .xor o s
/-- AXCHG (R210). -/
def execAxchg (o : SROp) (s : State) : Out := atomic .xchg o s
/-- ACAS (R210). -/
def execAcas (o : SROp) (s : State) : Out := atomic .cas o s
/-- AFADD (R211, R212). -/
def execAfadd (o : SROp) (s : State) : Out := atomic .fadd o s

/-! Prefetch and cache maintenance (R214, R335, R342). -/

/-- The line of this module's HBM that a prefetch of an address reaches, as a piece; none where the translation is missing
or not permitted. -/
def State.prefetchPiece (s : State) (va : Word) : Option Piece :=
  let line := va &&& ~~~63#64
  if s.mgmt then (if va.toNat < 0x8000000000 then some { va := line, pa := line.toNat, n := 64, key := 0 } else none)
  else
    match s.core.task with
    | none => none
    | some t =>
      match s.engineXlate t.context line 0 with
      | .ok (pa, leaf, _) => if s.physKind pa = .hbm then some (mkPiece line pa 64 leaf t.keyid) else none
      | .error _ => none

/-- PF (R214): the line is fetched into the L1. -/
def execPf (o : RaOp) (s : State) : Out :=
  runSlot o.h s fun t =>
    match s.prefetchPiece (s.rdS o.ra) with
    | some p => t.fill p false
    | none => t

/-- The home slice holds the line of a prefetch, with a read count where it is clean, the count is not 0 and the page not
CHECKED (R214, R342). -/
def State.fillCounted (s : State) (p : Piece) (n : Nat) : State :=
  let line := s.canon p.pa / 64
  let t := (s.home (some (s.core.id / 80)) p).sliceLook line false
  if Sparse.find t.llc line = some false ∧ n ≠ 0 ∧ p.chk = false then { t with readCounts := Sparse.set t.readCounts line n }
  else t

/-- PFC (R214, R342). -/
def execPfc (o : PfcOp) (s : State) : Out :=
  runSlot o.h s fun t =>
    match s.prefetchPiece (s.rdS o.ra) with
    | some p => t.fillCounted p o.n.toNat
    | none => t

/-- A cache operation is posted as a store is, for the fences: it acts now, or when they complete (R208, R214). -/
def State.postCache (s : State) (p : Piece) (evict : Bool) : State :=
  let holds := s.core.holders false
  if holds.isEmpty then (s.cacheOp p evict).post [] .done else s.post holds (.cache p evict)

/-- CLWB (R214): a dirty copy is written back. -/
def execClwb (o : RaOp) (s : State) : Out :=
  runAccess o.h s (s.access (s.rdS o.ra) 1 5 true false) fun x =>
    match x with
    | .mem (p :: _) => (s.postCache p false).arriveNow o.h.a
    | _ => (s.post [] .done).arriveNow o.h.a

/-- The page of an address is PINNED or CHECKED (R214). -/
def State.keptLine (s : State) (va : Word) : Bool :=
  match s.core.task with
  | none => false
  | some t =>
    match s.xlate t.context va 5 with
    | .ok _ leaf _ => leafPinned leaf || leafChecked leaf
    | _ => false

/-- CLINV (R214, R336): the line is written back and leaves the caches, but on a PINNED or CHECKED page, where it stays. -/
def execClinv (o : RaOp) (s : State) : Out :=
  let va := s.rdS o.ra
  runAccess o.h s (s.access va 1 5 true false) fun x =>
    match x with
    | .mem (p :: _) => (s.postCache p (!s.keptLine va)).arriveNow o.h.a
    | _ => (s.post [] .done).arriveNow o.h.a

/-! Link FIFOs (R24, R227, R375). -/

/-- A FIFO of the core in focus. -/
def State.fifoOf (s : State) (q : BitVec 4) : Fifo := s.core.fifo[q.toNat]'q.isLt

/-- An unbound FIFO, or one in error, traps (R227). -/
def State.fifoBad (s : State) (q : BitVec 4) : Option State :=
  if (s.fifoOf q).peer.isNone || (s.fifoOf q).err then
    some (s.trapSlot { cause := 0x15, aux := q.setWidth 64 })
  else none

/-- For a context that was frozen in its last cycle: the words that have come to a FIFO and left it since. They end the
freeze in the next cycle (R46). -/
def State.newWords (s : State) (q : BitVec 4) : Nat × Nat := s.core.gain.words.getD q.toNat (0, 0)

/-- QPOP (R227): the oldest word is taken and its place granted to the peer; once the peer end is gone, the last word
sets ERR (R375). -/
def execQpop (o : QpopOp) (s : State) : Out :=
  runChecked o.h s (fun u =>
    match u.fifoBad o.q with
    | some t => some t
    | none => if (u.fifoOf o.q).inb.length ≤ (u.newWords o.q).1 then some u.freeze else none) fun u =>
    let f := u.fifoOf o.q
    let t := (u.onCore fun c => c.onFifo o.q fun f =>
      { f with inb := f.inb.drop 1, err := f.gone && f.inb.length == 1 }).wrS o.rd (f.inb.headD 0)
    match f.peer with
    | some (m, ch) => if m = u.pos then t else t.send (.credit m ch 1)
    | none => t

/-- QPUSH (R227): the word is appended, or discarded when the peer end is gone (R375). -/
def execQpush (o : QpushOp) (s : State) : Out :=
  let v := s.rdS o.ra
  runChecked o.h s (fun u =>
    match u.fifoBad o.q with
    | some t => some t
    | none => if 64 ≤ (u.fifoOf o.q).outb.length + (u.newWords o.q).2 then some u.freeze else none) fun u =>
    u.onCore fun c => c.onFifo o.q fun f => if f.gone then f else { f with outb := f.outb ++ [v] }

end Sys2Proof.Machine
end

