-- ==== Sys2Proof/Machine/Legal.lean ====
section
/-! DEFINITION. Legal: the conditions of an illegal bundle, judged on its eight raw words (R73 to R76), and the bundle
boundary's own steps: fetch, ILLEGAL_BUNDLE, BUDGET_OVERRUN, TRAP_DELIVERY, INTERRUPT, WFI_WAKE. -/

namespace Sys2Proof

/-- What two slots of a bundle may not both write, beside scalars and vectors (R74). -/
inductive Written where
  | mask (i : Nat)
  | pred (i : Nat)
  | lc (i : Nat)
  | sreg (n : Nat)
  | token (k : Nat)
  | scalar (i : Nat)
  | vector (i : Nat)
  | pc
  deriving DecidableEq, Repr

/-- The scalar fields an instruction reads (R73): a field that names s0 is none of them. -/
def Instr.scalarReads : Instr → List (BitVec 6)
  | .add o => [o.ra, o.rb]
  | .sub o => [o.ra, o.rb]
  | .mul o => [o.ra, o.rb]
  | .mulh o => [o.ra, o.rb]
  | .mulhu o => [o.ra, o.rb]
  | .divs o => [o.ra, o.rb]
  | .divu o => [o.ra, o.rb]
  | .remu o => [o.ra, o.rb]
  | .and o => [o.ra, o.rb]
  | .or o => [o.ra, o.rb]
  | .xor o => [o.ra, o.rb]
  | .andn o => [o.ra, o.rb]
  | .shl o => [o.ra, o.rb]
  | .shr o => [o.ra, o.rb]
  | .sar o => [o.ra, o.rb]
  | .rol o => [o.ra, o.rb]
  | .min o => [o.ra, o.rb]
  | .max o => [o.ra, o.rb]
  | .minn o => [o.ra, o.rb]
  | .maxn o => [o.ra, o.rb]
  | .clz o => [o.ra]
  | .popc o => [o.ra]
  | .sel o => [o.ra, o.rb]
  | .bext o => [o.ra, o.rb]
  | .bins o => [o.rd, o.ra, o.rb]
  | .addi o => [o.ra]
  | .shli o => [o.ra]
  | .shri o => [o.ra]
  | .sari o => [o.ra]
  | .andi o => [o.ra]
  | .ori o => [o.ra]
  | .xori o => [o.ra]
  | .roli o => [o.ra]
  | .movk o => [o.rd]
  | .addk o => [o.rd]
  | .cmpeq o => [o.ra, o.rb]
  | .cmpne o => [o.ra, o.rb]
  | .cmplt o => [o.ra, o.rb]
  | .cmple o => [o.ra, o.rb]
  | .cmpltn o => [o.ra, o.rb]
  | .cmplen o => [o.ra, o.rb]
  | .cmpeqi o => [o.ra]
  | .cmpnei o => [o.ra]
  | .cmplti o => [o.ra]
  | .cmpgei o => [o.ra]
  | .cmpltni o => [o.ra]
  | .cmpgeni o => [o.ra]
  | .pset o => [o.ra]
  | .jr o => [o.ra]
  | .callr o => [o.ra]
  | .loop o => [o.ra]
  | .spawn o => [o.ra]
  | .swr o => [o.rd]
  | .tlwait o => [o.ra]
  | .binit o => [o.ra]
  | .vbcs o => [o.va.setWidth 6]
  | .mma o => [o.sd]
  | .mldt o => [o.sd]
  | .mstt o => [o.sd]
  | .mdrain o => [o.sd]
  | .ld8 o => [o.ra]
  | .ld16 o => [o.ra]
  | .ld32 o => [o.ra]
  | .ld64 o => [o.ra]
  | .lds8 o => [o.ra]
  | .lds16 o => [o.ra]
  | .lds32 o => [o.ra]
  | .st8 o => [o.src, o.ra]
  | .st16 o => [o.src, o.ra]
  | .st32 o => [o.src, o.ra]
  | .st64 o => [o.src, o.ra]
  | .vld1 o => [o.ra]
  | .vld2 o => [o.ra]
  | .vld4 o => [o.ra]
  | .vst1 o => [o.ra]
  | .vst2 o => [o.ra]
  | .vst4 o => [o.ra]
  | .spld o => [o.ra]
  | .spldh o => [o.ra]
  | .spst o => [o.ra]
  | .spsth o => [o.ra]
  | .vgath o => [o.ra]
  | .vscat o => [o.ra]
  | .aadd o => [o.ra, o.rb]
  | .amin o => [o.ra, o.rb]
  | .amax o => [o.ra, o.rb]
  | .aminn o => [o.ra, o.rb]
  | .amaxn o => [o.ra, o.rb]
  | .aand o => [o.ra, o.rb]
  | .aor o => [o.ra, o.rb]
  | .axor o => [o.ra, o.rb]
  | .axchg o => [o.ra, o.rb]
  | .acas o => [o.rd, o.ra, o.rb]
  | .afadd o => [o.ra, o.rb]
  | .pf o => [o.ra]
  | .pfc o => [o.ra]
  | .clwb o => [o.ra]
  | .clinv o => [o.ra]
  | .cpy o => [o.ra]
  | .cpyf o => [o.ra]
  | .cpyt o => [o.ra]
  | .seqrun o => [o.ra]
  | .qpush o => [o.ra]
  | _ => []

/-- The scalars an instruction writes (R73), s0 included; an atomic with rd = s0 discards its result. -/
def Instr.scalarWrites : Instr → List (BitVec 6)
  | .add o => [o.rd]
  | .sub o => [o.rd]
  | .mul o => [o.rd]
  | .mulh o => [o.rd]
  | .mulhu o => [o.rd]
  | .divs o => [o.rd]
  | .divu o => [o.rd]
  | .remu o => [o.rd]
  | .and o => [o.rd]
  | .or o => [o.rd]
  | .xor o => [o.rd]
  | .andn o => [o.rd]
  | .shl o => [o.rd]
  | .shr o => [o.rd]
  | .sar o => [o.rd]
  | .rol o => [o.rd]
  | .min o => [o.rd]
  | .max o => [o.rd]
  | .minn o => [o.rd]
  | .maxn o => [o.rd]
  | .clz o => [o.rd]
  | .popc o => [o.rd]
  | .sel o => [o.rd]
  | .bext o => [o.rd]
  | .bins o => [o.rd]
  | .addi o => [o.rd]
  | .shli o => [o.rd]
  | .shri o => [o.rd]
  | .sari o => [o.rd]
  | .andi o => [o.rd]
  | .ori o => [o.rd]
  | .xori o => [o.rd]
  | .roli o => [o.rd]
  | .movi o => [o.rd]
  | .movk o => [o.rd]
  | .addk o => [o.rd]
  | .pget o => [o.rd]
  | .call _ => [63]
  | .callr _ => [63]
  | .spawn o => [o.rd]
  | .srd o => [o.rd]
  | .rdcyc o => [o.rd]
  | .rdmcc o => [o.rd]
  | .rdptp o => [o.rd]
  | .vxs o => [o.vd.setWidth 6]
  | .mstat o => [o.rd]
  | .ld8 o => [o.rd]
  | .ld16 o => [o.rd]
  | .ld32 o => [o.rd]
  | .ld64 o => [o.rd]
  | .lds8 o => [o.rd]
  | .lds16 o => [o.rd]
  | .lds32 o => [o.rd]
  | .aadd o => (if o.rd = 0 then [] else [o.rd])
  | .amin o => (if o.rd = 0 then [] else [o.rd])
  | .amax o => (if o.rd = 0 then [] else [o.rd])
  | .aminn o => (if o.rd = 0 then [] else [o.rd])
  | .amaxn o => (if o.rd = 0 then [] else [o.rd])
  | .aand o => (if o.rd = 0 then [] else [o.rd])
  | .aor o => (if o.rd = 0 then [] else [o.rd])
  | .axor o => (if o.rd = 0 then [] else [o.rd])
  | .axchg o => (if o.rd = 0 then [] else [o.rd])
  | .acas o => (if o.rd = 0 then [] else [o.rd])
  | .afadd o => (if o.rd = 0 then [] else [o.rd])
  | .qpop o => [o.rd]
  | _ => []

/-- The vectors an instruction names as sources (R73). -/
def Instr.vectorReads : Instr → List (BitVec 5)
  | .vadd o => [o.va, o.vb]
  | .vsub o => [o.va, o.vb]
  | .vadds o => [o.va, o.vb]
  | .vaddsn o => [o.va, o.vb]
  | .vsubs o => [o.va, o.vb]
  | .vsubsn o => [o.va, o.vb]
  | .vmul o => [o.va, o.vb]
  | .vmulh o => [o.va, o.vb]
  | .vmac o => [o.va, o.vb, o.vd]
  | .vmin o => [o.va, o.vb]
  | .vmax o => [o.va, o.vb]
  | .vminn o => [o.va, o.vb]
  | .vmaxn o => [o.va, o.vb]
  | .vabsd o => [o.va, o.vb]
  | .vavgn o => [o.va, o.vb]
  | .vand o => [o.va, o.vb]
  | .vor o => [o.va, o.vb]
  | .vxor o => [o.va, o.vb]
  | .vandn o => [o.va, o.vb]
  | .vshl o => [o.va, o.vb]
  | .vshr o => [o.va, o.vb]
  | .vsar o => [o.va, o.vb]
  | .vshli o => [o.va]
  | .vshri o => [o.va]
  | .vsari o => [o.va]
  | .vclz o => [o.va]
  | .vpopc o => [o.va]
  | .vfadd o => [o.va, o.vb]
  | .vfsub o => [o.va, o.vb]
  | .vfmul o => [o.va, o.vb]
  | .vfma o => [o.va, o.vb, o.vd]
  | .vfnma o => [o.va, o.vb, o.vd]
  | .vfmin o => [o.va, o.vb]
  | .vfmax o => [o.va, o.vb]
  | .vfabs o => [o.va]
  | .vfneg o => [o.va]
  | .vcmpeq o => [o.va, o.vb]
  | .vcmpne o => [o.va, o.vb]
  | .vcmplt o => [o.va, o.vb]
  | .vcmple o => [o.va, o.vb]
  | .vcmpltn o => [o.va, o.vb]
  | .vcmplen o => [o.va, o.vb]
  | .vfcmpeq o => [o.va, o.vb]
  | .vfcmplt o => [o.va, o.vb]
  | .vfcmple o => [o.va, o.vb]
  | .vfcmpun o => [o.va, o.vb]
  | .vpermb o => [o.va, o.vb]
  | .vpermw o => [o.va, o.vb]
  | .vrmrg o => [o.va, o.vb]
  | .vrev o => [o.va]
  | .vzip o => [o.va, o.vb]
  | .vunzip o => [o.va, o.vb]
  | .vxs o => [o.va]
  | .vmov o => [o.va]
  | .vsel o => [o.va, o.vb]
  | .vcvt o => [o.va]
  | .vcvtsr o => [o.va, o.vb]
  | .vnarrow o => [o.va, o.vb]
  | .vwiden o => [o.va, o.vb]
  | .vrng o => [o.va, o.vb]
  | .vredadd o => [o.va, o.vb]
  | .vredmax o => [o.va, o.vb]
  | .vredmin o => [o.va, o.vb]
  | .vfredadd o => [o.va, o.vb]
  | .vfredmax o => [o.va, o.vb]
  | .xrcp o => [o.va]
  | .xrsq o => [o.va]
  | .xsqrt o => [o.va]
  | .xexp2 o => [o.va]
  | .xlog2 o => [o.va]
  | .xsint o => [o.va]
  | .xcost o => [o.va]
  | .xtanh o => [o.va]
  | .xsigm o => [o.va]
  | .xgelu o => [o.va]
  | .vst1 o => [o.v]
  | .vst2 o => [o.v]
  | .vst4 o => [o.v]
  | .spst o => [o.v]
  | .spsth o => [o.v]
  | .vgath o => [o.v]
  | .vscat o => [o.v]
  | _ => []

/-- The vectors an instruction writes (R73). -/
def Instr.vectorWrites : Instr → List (BitVec 5)
  | .vadd o => [o.vd]
  | .vsub o => [o.vd]
  | .vadds o => [o.vd]
  | .vaddsn o => [o.vd]
  | .vsubs o => [o.vd]
  | .vsubsn o => [o.vd]
  | .vmul o => [o.vd]
  | .vmulh o => [o.vd]
  | .vmac o => [o.vd]
  | .vmin o => [o.vd]
  | .vmax o => [o.vd]
  | .vminn o => [o.vd]
  | .vmaxn o => [o.vd]
  | .vabsd o => [o.vd]
  | .vavgn o => [o.vd]
  | .vand o => [o.vd]
  | .vor o => [o.vd]
  | .vxor o => [o.vd]
  | .vandn o => [o.vd]
  | .vshl o => [o.vd]
  | .vshr o => [o.vd]
  | .vsar o => [o.vd]
  | .vshli o => [o.vd]
  | .vshri o => [o.vd]
  | .vsari o => [o.vd]
  | .vclz o => [o.vd]
  | .vpopc o => [o.vd]
  | .vfadd o => [o.vd]
  | .vfsub o => [o.vd]
  | .vfmul o => [o.vd]
  | .vfma o => [o.vd]
  | .vfnma o => [o.vd]
  | .vfmin o => [o.vd]
  | .vfmax o => [o.vd]
  | .vfabs o => [o.vd]
  | .vfneg o => [o.vd]
  | .vpermb o => [o.vd]
  | .vpermw o => [o.vd]
  | .vrmrg o => [o.vd]
  | .vrev o => [o.vd]
  | .vzip o => [o.vd]
  | .vunzip o => [o.vd]
  | .vbcs o => [o.vd]
  | .vmovi o => [o.vd]
  | .vmov o => [o.vd]
  | .vsel o => [o.vd]
  | .vcvt o => [o.vd]
  | .vcvtsr o => [o.vd]
  | .vnarrow o => [o.vd]
  | .vwiden o => [o.vd]
  | .vrng o => [o.vd]
  | .vredadd o => [o.vd]
  | .vredmax o => [o.vd]
  | .vredmin o => [o.vd]
  | .vfredadd o => [o.vd]
  | .vfredmax o => [o.vd]
  | .xrcp o => [o.vd]
  | .xrsq o => [o.vd]
  | .xsqrt o => [o.vd]
  | .xexp2 o => [o.vd]
  | .xlog2 o => [o.vd]
  | .xsint o => [o.vd]
  | .xcost o => [o.vd]
  | .xtanh o => [o.vd]
  | .xsigm o => [o.vd]
  | .xgelu o => [o.vd]
  | .vld1 o => [o.v]
  | .vld2 o => [o.v]
  | .vld4 o => [o.v]
  | .spld o => [o.v]
  | .spldh o => [o.v]
  | .vgath o => [o.v]
  | _ => []

/-- What else an instruction writes, for conflicts (R74): p0 and m0 take no write, PSET writes p1 to p47, and a PC
writer writes PC. An SWR writes the special register of its number: the two words of FSTAT, and of TDISC, are two
(DEDUCED, log entry 75). -/
def Instr.otherWrites : Instr → List Written
  | .cmpeq o => (if o.pd = 0 then [] else [.pred o.pd.toNat])
  | .cmpne o => (if o.pd = 0 then [] else [.pred o.pd.toNat])
  | .cmplt o => (if o.pd = 0 then [] else [.pred o.pd.toNat])
  | .cmple o => (if o.pd = 0 then [] else [.pred o.pd.toNat])
  | .cmpltn o => (if o.pd = 0 then [] else [.pred o.pd.toNat])
  | .cmplen o => (if o.pd = 0 then [] else [.pred o.pd.toNat])
  | .cmpeqi o => (if o.pd = 0 then [] else [.pred o.pd.toNat])
  | .cmpnei o => (if o.pd = 0 then [] else [.pred o.pd.toNat])
  | .cmplti o => (if o.pd = 0 then [] else [.pred o.pd.toNat])
  | .cmpgei o => (if o.pd = 0 then [] else [.pred o.pd.toNat])
  | .cmpltni o => (if o.pd = 0 then [] else [.pred o.pd.toNat])
  | .cmpgeni o => (if o.pd = 0 then [] else [.pred o.pd.toNat])
  | .pand o => (if o.pd = 0 then [] else [.pred o.pd.toNat])
  | .por o => (if o.pd = 0 then [] else [.pred o.pd.toNat])
  | .pxor o => (if o.pd = 0 then [] else [.pred o.pd.toNat])
  | .pandn o => (if o.pd = 0 then [] else [.pred o.pd.toNat])
  | .pset _ => ((List.range 47).map fun i => .pred (i + 1))
  | .br _ => [.pc]
  | .call _ => [.pc]
  | .jr _ => [.pc]
  | .callr _ => [.pc]
  | .loop o => [.lc o.lc.toNat]
  | .loopi o => [.lc o.lc.toNat]
  | .lbrk o => [.lc o.lc.toNat, .pc]
  | .exit _ => [.pc]
  | .trap _ => [.pc]
  | .rett _ => [.pc]
  | .swr o => [.sreg o.imm.toNat]
  | .tsig o => ((List.range 8).filter o.mask.getLsbD).map .token
  | .vcmpeq o => (if o.vd.setWidth 4 = 0#4 then [] else [.mask (o.vd.toNat % 16)])
  | .vcmpne o => (if o.vd.setWidth 4 = 0#4 then [] else [.mask (o.vd.toNat % 16)])
  | .vcmplt o => (if o.vd.setWidth 4 = 0#4 then [] else [.mask (o.vd.toNat % 16)])
  | .vcmple o => (if o.vd.setWidth 4 = 0#4 then [] else [.mask (o.vd.toNat % 16)])
  | .vcmpltn o => (if o.vd.setWidth 4 = 0#4 then [] else [.mask (o.vd.toNat % 16)])
  | .vcmplen o => (if o.vd.setWidth 4 = 0#4 then [] else [.mask (o.vd.toNat % 16)])
  | .vfcmpeq o => (if o.vd.setWidth 4 = 0#4 then [] else [.mask (o.vd.toNat % 16)])
  | .vfcmplt o => (if o.vd.setWidth 4 = 0#4 then [] else [.mask (o.vd.toNat % 16)])
  | .vfcmple o => (if o.vd.setWidth 4 = 0#4 then [] else [.mask (o.vd.toNat % 16)])
  | .vfcmpun o => (if o.vd.setWidth 4 = 0#4 then [] else [.mask (o.vd.toNat % 16)])
  | .mand o => (if o.vd.setWidth 4 = 0#4 then [] else [.mask (o.vd.toNat % 16)])
  | .mor o => (if o.vd.setWidth 4 = 0#4 then [] else [.mask (o.vd.toNat % 16)])
  | .mxor o => (if o.vd.setWidth 4 = 0#4 then [] else [.mask (o.vd.toNat % 16)])
  | .mandn o => (if o.vd.setWidth 4 = 0#4 then [] else [.mask (o.vd.toNat % 16)])
  | .many o => (if o.vd = 0 then [] else [.pred o.vd.toNat])
  | .mall o => (if o.vd = 0 then [] else [.pred o.vd.toNat])
  | _ => []

end Sys2Proof

namespace Sys2Proof.Machine

/-! Judging a bundle (R73 to R76). The words are numbered by slot. -/

/-- The instruction whose OP a word holds, whether or not its fields are admitted. -/
def slotInstr (k w : Nat) : Option Instr := rawInstr (slotCls k) w

/-- OP of an S-, X- or M-class word (R58). -/
def wordOp (w : Nat) : Nat := w / 262144 % 128

/-- The lane groups of a V-slot word (R73): a NOP uses none, and W = 3 names no width. -/
def laneGroups (k w : Nat) : Nat :=
  if slotCls k ≠ .v ∨ w % 2147483648 = 0 then 0
  else if bits w 22 2 = 3 then 0 else 2 ^ bits w 22 2

/-- A tile that a PAIRED array does not have (R68). -/
def badTile (w : Nat) : Bool :=
  decide (0x40 ≤ wordOp w ∧ wordOp w ≤ 0x45 ∨ wordOp w = 0x47) && decide (64 ≤ bits w 11 7)

/-- Condition 2, ENCODING (R75): PLH offends too where its other fields are not zero (R78). -/
def encodingBad (solo : Bool) (k w : Nat) : Bool :=
  match decodeSlot (slotCls k) w with
  | .ok _ => slotCls k == .x && !solo && badTile w
  | .error .poolEntry => decide (w / 33554432 ≠ 0 ∨ bits w 12 6 ≠ 0)
  | .error _ => true

/-- Condition 3, PREDICATE_INDEX (R59, R63): G of any word with a header, pd, pa and pb of an instruction that has
them. -/
def predBad (k w : Nat) : Bool :=
  (slotCls k != .v && decide (48 ≤ bits w 25 6)) ||
    (match slotInstr k w with
     | some i => !i.predsOk
     | none => false)

/-- Everything a word writes (R74). -/
def writesOf (k w : Nat) : List Written :=
  match slotInstr k w with
  | some i =>
    ((i.scalarWrites.filter (· != 0)).map fun r => Written.scalar r.toNat) ++ (i.vectorWrites.map fun r => Written.vector r.toNat) ++
      i.otherWrites
  | none => []

/-- The slots of a list of words for which `f` holds, as a mask. -/
def slotMask (f : Nat → Nat → Bool) (ws : List Nat) : Nat :=
  ws.zipIdx.foldl (fun m x => if f x.2 x.1 then m + 2 ^ x.2 else m) 0

/-- Condition 7, WRITE_CONFLICT: the slots that write what another slot writes too (R74). -/
def conflictMask (ws : List Nat) : Nat :=
  slotMask (fun k w =>
    (writesOf k w).any fun t => ws.zipIdx.any fun x => x.2 != k && (writesOf x.2 x.1).contains t) ws

/-- The slots that contribute to a count that passes its limit (R73). -/
def portMask (count : Nat → Nat → Nat) (limit : Nat) (ws : List Nat) : Nat :=
  if limit < ws.zipIdx.foldl (fun n x => n + count x.2 x.1) 0 then slotMask (fun k w => decide (0 < count k w)) ws else 0

/-- A count over the instruction that stands in a word. -/
def countOf (f : Instr → Nat) (k w : Nat) : Nat :=
  match slotInstr k w with
  | some i => f i
  | none => 0

/-- The slots that offend under each of the ten conditions, in the order of R75. `solo`: the array's MODE; `odd`: the
core's place in its pair; `mgmt`: the management core, which has no array and so no MODE: there a tile from 64 up counts under
MGMT_SLOT alone (DESIGN CHOICE, log entry 117). -/
def offences (solo odd mgmt : Bool) (ws : List Nat) : List Nat :=
  [slotMask (fun k w => isPlh (slotCls k) w) ws,
   slotMask (encodingBad (solo || mgmt)) ws,
   slotMask predBad ws,
   slotMask (fun k w => k == 6 && (match slotInstr k w with
     | some (.cpy _) => true
     | some (.cpyf _) => true
     | some (.cpyt _) => true
     | some (.seqrun _) => true
     | _ => false)) ws,
   slotMask (fun k w => slotCls k == .x && solo && odd && decide (0x40 ≤ wordOp w ∧ wordOp w ≤ 0x47)) ws,
   slotMask (fun k w => mgmt && decide (2 ≤ k ∧ k ≤ 5) && w != 0) ws,
   conflictMask ws,
   portMask laneGroups 10 ws,
   portMask (countOf fun i => (i.scalarReads.filter (· != 0)).length) 10 ws |||
     portMask (countOf fun i => i.scalarWrites.length) 4 ws,
   portMask (countOf fun i => i.vectorReads.length) 12 ws |||
     portMask (countOf fun i => i.vectorWrites.length) 6 ws]

/-- The verdict on a bundle (R75): none if it is legal; else the detail of the highest condition that holds, and the
union of the offending slots. -/
def judgeBundle (solo odd mgmt : Bool) (ws : List Nat) : Option (Nat × Nat) :=
  let l := offences solo odd mgmt ws
  match l.findIdx? (· != 0) with
  | some i => some (i + 1, l.foldl (· ||| ·) 0)
  | none => none

/-! Fetch (R54, R76, R289, R322, R325, R337). -/

/-- How the fetch of the bundle at PC ends: its bytes, a miss to walk, or a trap. -/
inductive Fetch where
  | ok (bs : List Byte)
  | miss
  | bad (t : Trap)
  deriving DecidableEq, Repr

/-- The bytes at a physical address: of a peer's memory they are free; of a line written since the first issue they are
the old or the new ones, bundle by bundle (R337). -/
def State.fetchBytes (s : State) (pa : Nat) (key : BitVec 16) : Fetch :=
  let a := s.canon pa
  match s.physKind pa with
  | .peer _ => .ok ((List.range 32).map fun i => BitVec.ofNat 8 (s.free (60000 + i)))
  | _ =>
    if s.lineBad (a / 64) key then .bad { cause := 0x10, addr := s.core.pc }
    else
      let now := memRead s.mem a 32
      let old := memRead s.core.codeMem a 32
      .ok (if now = old then now else if Config.fetchNew s.ctr then now else old)

/-- The piece of memory that the bundle at PC is fetched from, where it is reached (R310, R324, R407). -/
def State.fetchAt (s : State) : Option Piece :=
  let pc := s.core.pc
  if s.mgmt then
    (match mgmtAt pc 32 3 false with
     | .mem => some { va := pc, pa := pc.toNat, n := 32, key := 0 }
     | _ => none)
  else
    match s.core.task with
    | none => none
    | some t =>
      match s.xlate t.context pc 3 with
      | .ok pa leaf _ => some (mkPiece pc pa 32 leaf t.keyid)
      | _ => none

/-- The line of the bundle at PC enters the fetch buffer of 256 lines, through the LLC; a line of a LOCAL page is homed on the
core's die (R337, R340). -/
def State.noteFetch (s : State) : State :=
  match s.fetchAt with
  | none => s
  | some p =>
    let line := s.canon p.pa / 64
    if s.physKind p.pa != .hbm || s.core.fbuf.contains line then s
    else
      (((s.logBad p.pa 32 p.key).home (some (s.core.id / 80)) p).sliceRead line).onCore fun c =>
        { c with fbuf := line :: (if c.fbuf.length < 256 then c.fbuf else c.fbuf.eraseIdx (Config.victim s.ctr 3 % 256)) }

/-- Fetch the bundle at PC. The management core's addresses are physical: a fetch from its registers is one of R407's other
accesses, a fetch from anywhere else outside its ranges is out of range (R310, R407). -/
def State.fetch (s : State) : Fetch :=
  if s.mgmt then
    (match mgmtAt s.core.pc 32 3 false with
     | .mem => s.fetchBytes s.core.pc.toNat 0
     | .bad t => .bad t
     | .reg _ => .bad (violation 0x04 s.core.pc 3))
  else
    match s.core.task with
    | none => .bad (violation 0x05 s.core.pc 3)
    | some t =>
      match s.xlate t.context s.core.pc 3 with
      | .miss => .miss
      | .bad x => .bad x
      | .ok pa leaf _ => s.fetchBytes pa (leafKey leaf t.keyid)

/-- The eight words of the bundle at PC, where its fetch succeeds. -/
def State.fetchWords (s : State) : Option (List Nat) :=
  match s.fetch with
  | .ok bs => some (bundleWords bs)
  | _ => none

/-- The verdict on a bundle for the core in focus. -/
def State.judgeWords (s : State) (ws : List Nat) : Option (Nat × Nat) :=
  judgeBundle (s.arrayOf s.core.id).solo (s.core.id % 2 == 1) s.mgmt ws

/-- ILLEGAL_BUNDLE (R75, R76, R305): the bundle at PC is illegal: it commits no slot and traps. -/
def execIllegalBundle (s : State) : Out :=
  .next (match s.fetchWords.bind s.judgeWords with
    | some (d, m) =>
      s.takeTrap (stamp s s.core { cause := 0x01, detail := BitVec.ofNat 8 d, slots := BitVec.ofNat 8 m })
    | none => s)

/-! The boundary (R38, R306, R308, R310, R311). -/

/-- The core issues, or waits to. -/
def Core.live (c : Core) : Bool := c.st == .active || c.st == .frozen || c.st == .waiting

/-- BUDGET_OVERRUN (R38): TBUDGET is 0 at a boundary of a task that can issue. -/
def execBudgetOverrun (s : State) : Out :=
  .next (if s.mgmt = false ∧ s.core.r.tbudget = 0 ∧
      (s.core.st = .active ∨ s.core.st = .frozen ∨ s.core.st = .waiting) then
    s.takeTrap (stamp s s.core { cause := 0x0C })
  else s)

/-- A pending cause may be delivered at this boundary: a class-H cause waits while INH is set, or ends the task where
there is no handler (R307, R308). -/
def State.deliverable (s : State) (t : Trap) : Bool := trapClass t.cause != .handler || s.mgmt || !s.core.inh

/-- The pending class-B cause that is taken first: the lowest MCC, then the lower code (R306). -/
def State.firstPending (s : State) : Option Trap :=
  (s.core.pend.filter s.deliverable).foldl (fun a t => some (firstCause a t)) none

/-- The fetch of the next bundle fails (R76). -/
def State.fetchFault (s : State) : Option Trap :=
  match s.fetch with
  | .bad t => some t
  | _ => none

/-- TRAP_DELIVERY (R306): of KILL, the pending class-B causes, a page fault of the held bundle answered FAIL (R328) and a
fault of the fetch, the first that is present is taken at this boundary. A cause taken leaves the pending ones. A KILL of a bound task, which has issued nothing, ends it
with nothing outstanding and no trap record (R46, R294, R296). -/
def execTrapDelivery (s : State) : Out :=
  .next (match s.core.kill, s.firstPending with
    | some d, _ =>
      if s.core.st = .bound then
        s.onCore fun c => { c with st := .draining, status := none, kill := none, capReq := none, pf := none }
      else (s.takeTrap (stamp s s.core { cause := 0x13, detail := d })).onCore fun c => { c with kill := none }
    | none, some t =>
      (s.onCore fun c => { c with pend := c.pend.erase t }).takeTrap t
    | none, none =>
      if s.core.pf.any (·.failed) then s.failHeld
      else
        match s.fetchFault with
        | some t => s.takeTrap (stamp s s.core t)
        | none => s)

/-- What a boundary of the core in focus takes before its next bundle, if anything (R306): a capture, the safelight hold
(R399), KILL, the budget, a pending cause, or a page fault answered FAIL. -/
def State.causeNow (s : State) : Option Due :=
  let c := s.core
  if c.capReq.isSome && (c.live || ((c.capReq.any fun k => k.1 == .powerFail) && (c.st == .draining || c.st == .held))) then
    some .capture
  else if c.live && s.mustHold c then some .safelightHold
  else if c.kill.isSome && (c.live || c.st == .bound) then some .trapDelivery
  else if c.live && !s.mgmt && c.r.tbudget == 0 then some .budgetOverrun
  else if c.live && (s.firstPending.isSome || c.pf.any (·.failed)) then some .trapDelivery
  else none

/-! The management core's interrupts (R145, R310, R408). -/

/-- The sources that are enabled and pending. -/
def State.irqs (s : State) : Word := s.reg Key.mien &&& s.reg Key.mipend

/-- The lowest-numbered pending, enabled source (R408). -/
def State.irq (s : State) : Option Nat := (List.range 9).find? fun i => s.irqs.getLsbD i

/-- INTERRUPT (R310, R408): while acceptance is enabled the lowest-numbered pending, enabled source enters the handler
with cause 0x00 and its number; acceptance is then disabled. -/
def execInterrupt (s : State) : Out :=
  .next (match s.mgmt, s.core.accept, s.irq with
    | true, true, some n =>
      (s.enterHandler (stamp s s.core { cause := 0x00, detail := BitVec.ofNat 8 n })).onCore fun c =>
        { c with accept := false, wfi := false }
    | _, _, _ => s)

/-- WFI_WAKE (R145): an enabled source is pending, and WFI's wait ends. -/
def execWfiWake (s : State) : Out :=
  .next (if s.mgmt ∧ s.irqs ≠ 0 then s.onCore fun c => { c with wfi := false } else s)

end Sys2Proof.Machine
end

