-- ==== Sys2Proof/Machine/Vector.lean ====
section
/-! DEFINITION. Vector: the V-class instructions (06, R152 to R171). Sources are read at issue and every result lands at
its fixed landing cycle (R155). -/

namespace Sys2Proof.Machine

/-- The two's-complement value of an e-bit element. -/
def toS (e x : Nat) : Int := if x < 2 ^ (e - 1) then (x : Int) else (x : Int) - ((2 ^ e : Nat) : Int)
/-- The e-bit element of an integer, wrapping. -/
def ofS (e : Nat) (i : Int) : Nat := (i % ((2 ^ e : Nat) : Int)).toNat
/-- Clamp to the signed e-bit range (R106). -/
def clampS (e : Nat) (i : Int) : Int :=
  max (-((2 ^ (e - 1) : Nat) : Int)) (min (((2 ^ (e - 1) : Nat) : Int) - 1) i)
/-- Clamp to the unsigned e-bit range (R106). -/
def clampU (e : Nat) (i : Int) : Int := max 0 (min (((2 ^ e : Nat) : Int) - 1) i)

/-- The number of elements of e bits in the word's width (R152). -/
def nElts (o : VOp) (e : Nat) : Nat := widthBits o.w / e

/-- Land a vector result: element i of e bits is `f i`, under the element mask (R153). -/
def vLand (o : VOp) (s : State) (cycles e n : Nat) (f : Nat → Nat) : Out :=
  .next (s.landV o.a cycles (.vector o.vd) (buildV e n f) (activeBits (s.rdM o.m) e n))

/-- An element-wise integer operation on va and vb (R158). -/
def vInt (o : VOp) (s : State) (cycles : Nat) (f : Nat → Nat → Nat → Nat) : Out :=
  let e := elemBits o.t
  let a := s.rdV o.va
  let b := s.rdV o.vb
  vLand o s cycles e (nElts o e) fun i => f e (elt a e i) (elt b e i)

/-- The same, with the old element of vd (VMAC). -/
def vInt3 (o : VOp) (s : State) (cycles : Nat) (f : Nat → Nat → Nat → Nat → Nat) : Out :=
  let d := s.rdV o.vd
  let e := elemBits o.t
  let a := s.rdV o.va
  let b := s.rdV o.vb
  vLand o s cycles e (nElts o e) fun i => f e (elt a e i) (elt b e i) (elt d e i)

/-- The rounding of VRM at issue (R31, R105). -/
def State.vrmRound (s : State) (t : BitVec 3) (x : Num) : Nat :=
  (fmtT t).round (s.core.iss.vrm.setWidth 2) (s.core.iss.vrm.getLsbD 2) (flushT s.core.iss.nbv t) x

/-- A floating operand in a T format under NBV (R102, R159). -/
def State.fop (s : State) (t : BitVec 3) (x : Nat) : Num := (fmtT t).operand (flushT s.core.iss.nbv t) x

/-- The rounding mode of VRM. -/
def State.vmode (s : State) : BitVec 2 := s.core.iss.vrm.setWidth 2

/-- An element-wise floating operation on va, vb and the old vd (R159). -/
def vFloat (o : VOp) (s : State) (f : BitVec 2 → Num → Num → Num → Num) : Out :=
  let e := tBits o.t
  let a := s.rdV o.va
  let b := s.rdV o.vb
  let d := s.rdV o.vd
  vLand o s 4 e (nElts o e) fun i =>
    s.vrmRound o.t (f s.vmode (s.fop o.t (elt a e i)) (s.fop o.t (elt b e i)) (s.fop o.t (elt d e i)))

/-- A sign operation: only the sign bit of each element changes (R98, R159). -/
def vSign (o : VOp) (s : State) (f : Nat → Nat → Nat) : Out :=
  let e := tBits o.t
  let a := s.rdV o.va
  vLand o s 2 e (nElts o e) fun i => f e (elt a e i)

/-- A compare: the bits of the mask that cover an active element take the condition (R160). -/
def vCmp (o : VOp) (s : State) (cycles e : Nat) (f : Nat → Bool) : Out :=
  let n := nElts o e
  let w := e / 8
  let m := s.rdM o.m
  .next (s.landV o.a cycles (.mask (o.vd.setWidth 4)) (buildV w n fun i => if f i then 2 ^ w - 1 else 0)
    (buildV w n fun i => if active m e i then 2 ^ w - 1 else 0))

/-- An integer compare (R160). -/
def vCmpI (o : VOp) (s : State) (f : Nat → Nat → Nat → Bool) : Out :=
  let e := elemBits o.t
  let a := s.rdV o.va
  let b := s.rdV o.vb
  vCmp o s 2 e fun i => f e (elt a e i) (elt b e i)

/-- A floating compare (R160). -/
def vCmpF (o : VOp) (s : State) (f : Num → Num → Bool) : Out :=
  let e := tBits o.t
  let a := s.rdV o.va
  let b := s.rdV o.vb
  vCmp o s 4 e fun i => f (s.fop o.t (elt a e i)) (s.fop o.t (elt b e i))

/-- A mask operation on all 128 bits (R161). -/
def vMask (o : VOp) (s : State) (f : Mask → Mask → Mask) : Out :=
  .next (s.landV o.a 2 (.mask (o.vd.setWidth 4))
    ((f (s.rdM (o.va.setWidth 4)) (s.rdM (o.vb.setWidth 4))).setWidth 1024) (BitVec.ofNat 1024 (2 ^ 128 - 1)))

/-- A mask test into a predicate (R161). -/
def vTest (o : VOp) (s : State) (f : Mask → Bool) : Out :=
  .next (s.landV o.a 2 (.pred (o.vd.setWidth 6)) (BitVec.ofNat 1024 (bit (f (s.rdM (o.va.setWidth 4)))))
    (BitVec.ofNat 1024 1))

/-- Leading zero bits of an e-bit element (R158). -/
def clzE (e x : Nat) : Nat := if x = 0 then e else e - 1 - Nat.log2 x
/-- An arithmetic shift of an e-bit element (R158). -/
def sarE (e x c : Nat) : Nat := ofS e (toS e x / ((2 ^ c : Nat) : Int))

/-- VADD (R158). -/
def execVadd (o : VOp) (s : State) : Out := vInt o s 2 fun _ a b => (a + b)
/-- VSUB (R158). -/
def execVsub (o : VOp) (s : State) : Out := vInt o s 2 fun e a b => ofS e ((a : Int) - b)
/-- VADDS (R158). -/
def execVadds (o : VOp) (s : State) : Out := vInt o s 2 fun e a b => ofS e (clampS e (toS e a + toS e b))
/-- VADDSN (R158). -/
def execVaddsn (o : VOp) (s : State) : Out := vInt o s 2 fun e a b => ofS e (clampU e ((a : Int) + b))
/-- VSUBS (R158). -/
def execVsubs (o : VOp) (s : State) : Out := vInt o s 2 fun e a b => ofS e (clampS e (toS e a - toS e b))
/-- VSUBSN (R158). -/
def execVsubsn (o : VOp) (s : State) : Out := vInt o s 2 fun e a b => ofS e (clampU e ((a : Int) - b))
/-- VMUL (R158). -/
def execVmul (o : VOp) (s : State) : Out := vInt o s 4 fun _ a b => (a * b)
/-- VMULH (R158). -/
def execVmulh (o : VOp) (s : State) : Out := vInt o s 4 fun e a b => ofS e (toS e a * toS e b / ((2 ^ e : Nat) : Int))
/-- VMAC (R158). -/
def execVmac (o : VOp) (s : State) : Out := vInt3 o s 4 fun _ a b d => d + a * b
/-- VMIN (R158). -/
def execVmin (o : VOp) (s : State) : Out := vInt o s 2 fun e a b => if toS e b < toS e a then b else a
/-- VMAX (R158). -/
def execVmax (o : VOp) (s : State) : Out := vInt o s 2 fun e a b => if toS e a < toS e b then b else a
/-- VMINN (R158). -/
def execVminn (o : VOp) (s : State) : Out := vInt o s 2 fun _ a b => min a b
/-- VMAXN (R158). -/
def execVmaxn (o : VOp) (s : State) : Out := vInt o s 2 fun _ a b => max a b
/-- VABSD (R158). -/
def execVabsd (o : VOp) (s : State) : Out := vInt o s 2 fun e a b => (toS e a - toS e b).natAbs
/-- VAVGN (R158). -/
def execVavgn (o : VOp) (s : State) : Out := vInt o s 2 fun _ a b => (a + b + 1) / 2
/-- VAND (R158). -/
def execVand (o : VOp) (s : State) : Out := vInt o s 2 fun _ a b => a &&& b
/-- VOR (R158). -/
def execVor (o : VOp) (s : State) : Out := vInt o s 2 fun _ a b => a ||| b
/-- VXOR (R158). -/
def execVxor (o : VOp) (s : State) : Out := vInt o s 2 fun _ a b => a ^^^ b
/-- VANDN (R158). -/
def execVandn (o : VOp) (s : State) : Out := vInt o s 2 fun e a b => a &&& (2 ^ e - 1 - b)
/-- VSHL (R158). -/
def execVshl (o : VOp) (s : State) : Out := vInt o s 2 fun e a b => if e ≤ b then 0 else a * 2 ^ b
/-- VSHR (R158). -/
def execVshr (o : VOp) (s : State) : Out := vInt o s 2 fun e a b => if e ≤ b then 0 else a / 2 ^ b
/-- VSAR (R158). -/
def execVsar (o : VOp) (s : State) : Out := vInt o s 2 fun e a b => sarE e a (min b e)
/-- VSHLI (R158). -/
def execVshli (o : VOp) (s : State) : Out := vInt o s 2 fun _ a _ => a * 2 ^ o.vb.toNat
/-- VSHRI (R158). -/
def execVshri (o : VOp) (s : State) : Out := vInt o s 2 fun _ a _ => a / 2 ^ o.vb.toNat
/-- VSARI (R158). -/
def execVsari (o : VOp) (s : State) : Out := vInt o s 2 fun e a _ => sarE e a o.vb.toNat
/-- VCLZ (R158). -/
def execVclz (o : VOp) (s : State) : Out := vInt o s 2 fun e a _ => clzE e a
/-- VPOPC (R158). -/
def execVpopc (o : VOp) (s : State) : Out := vInt o s 2 fun e a _ => popc e a
/-- VFADD (R159). -/
def execVfadd (o : VOp) (s : State) : Out := vFloat o s fun r a b _ => Num.add r a b
/-- VFSUB (R159). -/
def execVfsub (o : VOp) (s : State) : Out := vFloat o s fun r a b _ => Num.add r a b.neg
/-- VFMUL (R159). -/
def execVfmul (o : VOp) (s : State) : Out := vFloat o s fun _ a b _ => Num.mul a b
/-- VFMA (R159). -/
def execVfma (o : VOp) (s : State) : Out := vFloat o s fun r a b d => Num.fma r a b d
/-- VFNMA (R159). -/
def execVfnma (o : VOp) (s : State) : Out := vFloat o s fun r a b d => Num.fma r a.neg b d
/-- VFMIN (R159). -/
def execVfmin (o : VOp) (s : State) : Out := vFloat o s fun _ a b _ => minNum a b
/-- VFMAX (R159). -/
def execVfmax (o : VOp) (s : State) : Out := vFloat o s fun _ a b _ => maxNum a b
/-- VFABS (R159). -/
def execVfabs (o : VOp) (s : State) : Out := vSign o s fun e x => x % 2 ^ (e - 1)
/-- VFNEG (R159). -/
def execVfneg (o : VOp) (s : State) : Out := vSign o s fun e x => x ^^^ 2 ^ (e - 1)
/-- VCMPEQ (R160). -/
def execVcmpeq (o : VOp) (s : State) : Out := vCmpI o s fun _ a b => a == b
/-- VCMPNE (R160). -/
def execVcmpne (o : VOp) (s : State) : Out := vCmpI o s fun _ a b => a != b
/-- VCMPLT (R160). -/
def execVcmplt (o : VOp) (s : State) : Out := vCmpI o s fun e a b => decide (toS e a < toS e b)
/-- VCMPLE (R160). -/
def execVcmple (o : VOp) (s : State) : Out := vCmpI o s fun e a b => decide (toS e a ≤ toS e b)
/-- VCMPLTN (R160). -/
def execVcmpltn (o : VOp) (s : State) : Out := vCmpI o s fun _ a b => decide (a < b)
/-- VCMPLEN (R160). -/
def execVcmplen (o : VOp) (s : State) : Out := vCmpI o s fun _ a b => decide (a ≤ b)
/-- VFCMPEQ (R160). -/
def execVfcmpeq (o : VOp) (s : State) : Out := vCmpF o s fun a b => a.eq b
/-- VFCMPLT (R160). -/
def execVfcmplt (o : VOp) (s : State) : Out := vCmpF o s fun a b => a.lt b
/-- VFCMPLE (R160). -/
def execVfcmple (o : VOp) (s : State) : Out := vCmpF o s fun a b => a.lt b || a.eq b
/-- VFCMPUN (R160). -/
def execVfcmpun (o : VOp) (s : State) : Out := vCmpF o s fun a b => a.isNan || b.isNan
/-- MAND (R161). -/
def execMand (o : VOp) (s : State) : Out := vMask o s fun a b => a &&& b
/-- MOR (R161). -/
def execMor (o : VOp) (s : State) : Out := vMask o s fun a b => a ||| b
/-- MXOR (R161). -/
def execMxor (o : VOp) (s : State) : Out := vMask o s fun a b => a ^^^ b
/-- MANDN (R161). -/
def execMandn (o : VOp) (s : State) : Out := vMask o s fun a b => a &&& ~~~b
/-- MANY (R161). -/
def execMany (o : VOp) (s : State) : Out := vTest o s fun m => m != 0
/-- MALL (R161). -/
def execMall (o : VOp) (s : State) : Out := vTest o s fun m => m == BitVec.allOnes 128
/-- VBCS (R162). -/
def execVbcs (o : VOp) (s : State) : Out :=
  let e := tBits o.t
  let x := (s.rdS (o.va.setWidth 6)).toNat
  vLand o s 2 e (nElts o e) fun _ => x
/-- VXS: an element, sign-extended, to s[vd] (R162). -/
def execVxs (o : VOp) (s : State) : Out :=
  let e := elemBits o.t
  .next (s.landV o.a 4 (.scalar (o.vd.setWidth 6))
    ((BitVec.ofInt 64 (toS e (elt (s.rdV o.va) e o.vb.toNat))).setWidth 1024) (BitVec.ofNat 1024 (2 ^ 64 - 1)))
/-- The element VMOVI builds from imm10 = va:vb (R162). -/
def movImm (t : BitVec 3) (va vb : BitVec 5) : Nat :=
  let i := va.toNat * 32 + vb.toNat
  if t.toNat ≤ 2 then ofS (elemBits t) (toS 10 i) else i * 2 ^ (tBits t - 10)
/-- VMOVI (R162). -/
def execVmovi (o : VOp) (s : State) : Out :=
  let e := tBits o.t
  vLand o s 2 e (nElts o e) fun _ => movImm o.t o.va o.vb
/-- VMOV (R162). -/
def execVmov (o : VOp) (s : State) : Out :=
  let e := tBits o.t
  let a := s.rdV o.va
  vLand o s 2 e (nElts o e) fun i => elt a e i
/-- VSEL: the mask selects, and every element below W is written (R153, R162). -/
def execVsel (o : VOp) (s : State) : Out :=
  let e := tBits o.t
  let a := s.rdV o.va
  let b := s.rdV o.vb
  let m := s.rdM o.m
  .next (s.landV o.a 2 (.vector o.vd) (buildV e (nElts o e) fun i => if active m e i then elt a e i else elt b e i)
    (BitVec.ofNat 1024 (2 ^ widthBits o.w - 1)))
/-- A table lookup (R163). -/
def vPerm (o : VOp) (s : State) (e : Nat) : Out :=
  let a := s.rdV o.va
  let b := s.rdV o.vb
  let n := nElts o e
  vLand o s 3 e n fun i =>
    let x := elt b e i
    if 2 ^ (e - 1) ≤ x then 0 else elt a e (x % n)
/-- VPERMB (R163). -/
def execVpermb (o : VOp) (s : State) : Out := vPerm o s 8
/-- VPERMW (R163). -/
def execVpermw (o : VOp) (s : State) : Out := vPerm o s (elemBits o.t)
/-- VRMRG: no mask, and every byte below W is written (R153, R164). -/
def execVrmrg (o : VOp) (s : State) : Out :=
  let a := s.rdV o.va
  let b := s.rdV o.vb
  let n := widthBits o.w / 8
  let c := o.count
  .next (s.landV o.a 3 (.vector o.vd) (buildV 8 n fun i => if i < c then elt a 8 (n - c + i) else elt b 8 (i - c))
    (BitVec.ofNat 1024 (2 ^ widthBits o.w - 1)))
/-- VREV (R165). -/
def execVrev (o : VOp) (s : State) : Out :=
  let e := elemBits o.t
  let a := s.rdV o.va
  vLand o s 3 e (nElts o e) fun i => elt a e (nElts o e - 1 - i)
/-- VZIP (R165). -/
def execVzip (o : VOp) (s : State) : Out :=
  let e := elemBits o.t
  let a := s.rdV o.va
  let b := s.rdV o.vb
  vLand o s 3 e (nElts o e) fun i => if i % 2 = 0 then elt a e (i / 2) else elt b e (i / 2)
/-- VUNZIP (R165). -/
def execVunzip (o : VOp) (s : State) : Out :=
  let e := elemBits o.t
  let a := s.rdV o.va
  let b := s.rdV o.vb
  let h := nElts o e / 2
  vLand o s 3 e (nElts o e) fun i => if i < h then elt a e (2 * i) else elt b e (2 * (i - h))
/-- One element of VCVT, from T code `src` to T code `dst` (R107 to R109, R166). R102 has no row for a floating source
of an integer destination: a subnormal source is taken at full value under every NBV (DEDUCED, log entry 74). -/
def cvtElt (s : State) (src dst : BitVec 3) (x : Nat) : Nat :=
  let mode := s.vmode
  let sat := s.core.iss.vrm.getLsbD 2
  if src = dst then x
  else if src.toNat ≤ 2 then
    (if dst.toNat ≤ 2 then ofS (tBits dst) (clampS (tBits dst) (toS (tBits src) x))
     else cvtIF (fmtT dst) mode sat (toS (tBits src) x))
  else if dst.toNat ≤ 2 then
    ofS (tBits dst) (((fmtT src).dec x).toIntClamp mode (-((2 ^ (tBits dst - 1) : Nat) : Int))
      (((2 ^ (tBits dst - 1) : Nat) : Int) - 1))
  else cvtFF (fmtT src) (fmtT dst) mode sat x
/-- VCVT (R166). -/
def execVcvt (o : VOp) (s : State) : Out :=
  let src : BitVec 3 := o.vb.setWidth 3
  let a := s.rdV o.va
  vLand o s 4 (tBits o.t) (widthBits o.w / max (tBits src) (tBits o.t)) fun i =>
    cvtElt s src o.t (elt a (tBits src) i)
/-- VCVTSR (R167). -/
def execVcvtsr (o : VOp) (s : State) : Out :=
  let a := s.rdV o.va
  let b := s.rdV o.vb
  vLand o s 4 (tBits o.t) (widthBits o.w / 32) fun i =>
    stochastic (fmtT o.t) s.core.iss.nbv (s.core.iss.vrm.getLsbD 2) (elt a 32 i) (elt b 32 i)
/-- VNARROW (R168). -/
def execVnarrow (o : VOp) (s : State) : Out :=
  let e := elemBits o.t
  let a := s.rdV o.va
  let b := s.rdV o.vb
  let h := nElts o e / 2
  vLand o s 4 e (nElts o e) fun i =>
    ofS e (clampS e (toS (2 * e) (if i < h then elt a (2 * e) i else elt b (2 * e) (i - h))))
/-- VWIDEN (R168). -/
def execVwiden (o : VOp) (s : State) : Out :=
  let e := elemBits o.t
  let a := s.rdV o.va
  let b := s.rdV o.vb
  vLand o s 4 e (nElts o e) fun i => ofS e (toS (e / 2) (elt a (e / 2) i) + toS (e / 2) (elt b (e / 2) i))
/-- VRNG: va supplies the key and vb the counter of each lane (R169). -/
def execVrng (o : VOp) (s : State) : Out :=
  let a := s.rdV o.va
  let b := s.rdV o.vb
  vLand o s 6 32 (nElts o 32) fun i => (cch4 (BitVec.ofNat 32 (elt a 32 i)) (BitVec.ofNat 32 (elt b 32 i))).toNat

/-- The result of a reduction goes to bits [31:0] of vd (R170, R171). -/
def vRed (o : VOp) (s : State) (cycles x : Nat) (rsig : Option (BitVec 32) := none) : Out :=
  .next (s.landV o.a cycles (.vector o.vd) (BitVec.ofNat 1024 (x % 4294967296)) (BitVec.ofNat 1024 4294967295) rsig)
/-- The active elements of va, signed (R170). -/
def activeInts (o : VOp) (s : State) : List Int :=
  let e := elemBits o.t
  let a := s.rdV o.va
  let m := s.rdM o.m
  ((List.range (nElts o e)).filter (active m e)).map fun i => toS e (elt a e i)
/-- c = vb.i32[0] (R170). -/
def redStart (o : VOp) (s : State) : Int := toS 32 (elt (s.rdV o.vb) 32 0)
/-- VREDADD (R170). -/
def execVredadd (o : VOp) (s : State) : Out := vRed o s 6 (ofS 32 ((activeInts o s).foldl (· + ·) (redStart o s)))
/-- VREDMAX (R170). -/
def execVredmax (o : VOp) (s : State) : Out := vRed o s 6 (ofS 32 ((activeInts o s).foldl max (redStart o s)))
/-- VREDMIN (R170). -/
def execVredmin (o : VOp) (s : State) : Out := vRed o s 6 (ofS 32 ((activeInts o s).foldl min (redStart o s)))
/-- The leaves of a floating reduction as FP32 encodings, `fill` for an inactive element (R124, R171). -/
def redLeaves (o : VOp) (s : State) (fill : Nat) : List Nat :=
  let e := tBits o.t
  let a := s.rdV o.va
  let m := s.rdM o.m
  (List.range (nElts o e)).map fun i =>
    if active m e i then
      (if o.t = 5 then elt a 32 i else fp32.round 0 false false ((fmtT o.t).operand true (elt a e i)))
    else fill
/-- The matrix format code of a floating T code (R96, R126). -/
def mcodeT (t : BitVec 3) : Nat := if t = 5 then 0 else if t = 3 then 1 else 2
/-- VFREDADD: inactive elements enter as −0; RSIG is updated at its landing (R126, R171). -/
def execVfredadd (o : VOp) (s : State) : Out :=
  let nbv := s.core.iss.nbv
  let l := redLeaves o s 0x80000000
  vRed o s 10 (add32 nbv (elt (s.rdV o.vb) 32 0) (tree (add32 nbv) 0 l.length l))
    (some (rsigWord nbv 5 (mcodeT o.t) (mcodeT o.t) 0))
/-- The FP32 maximum of encodings (R124). -/
def max32 (nbv : BitVec 8) (a b : Nat) : Nat := rne32 nbv (maxNum (op32 nbv a) (op32 nbv b))
/-- VFREDMAX: inactive elements enter as −∞ (R171). -/
def execVfredmax (o : VOp) (s : State) : Out :=
  let nbv := s.core.iss.nbv
  let l := redLeaves o s 0xFF800000
  vRed o s 10 (max32 nbv (elt (s.rdV o.vb) 32 0) (tree (max32 nbv) 0 l.length l))

end Sys2Proof.Machine
end

