-- ==== Sys2Proof/Machine/Special.lean ====
section
/-! DEFINITION. Special: the X-class special functions, each the exact value rounded once by RNE (R172, R173). Roots and
reciprocals are exact with a sticky bit. The others are enclosed in fixed point at a precision far beyond the formats;
the two ends round alike, or the value is left free. -/

namespace Sys2Proof.Machine

/-- Integer square root, one bit at a time from bit `n`. -/
def isqrt : Nat → Nat → Nat → Nat
  | 0, _, r => r
  | n + 1, x, r => isqrt n x (if (r + 2 ^ n) * (r + 2 ^ n) ≤ x then r + 2 ^ n else r)

/-- The floor of the square root. -/
def sqrtN (x : Nat) : Nat := isqrt (Nat.log2 x / 2 + 2) x 0

/-- A truncated magnitude with a sticky bit below it. -/
def sticky (neg : Bool) (n : Nat) (inexact : Bool) (e : Int) : Num := .fin neg (2 * n + bit inexact) (e - 1)

/-- 1/x for a nonzero finite x. -/
def rcpNum (neg : Bool) (m : Nat) (e : Int) : Num :=
  let k := Nat.log2 m + 64
  sticky neg (2 ^ k / m) (2 ^ k % m != 0) (-(k : Int) - e)

/-- √x for a positive finite x. -/
def sqrtNum (m : Nat) (e : Int) : Num :=
  let m1 := if e % 2 = 0 then m else 2 * m
  let e1 := if e % 2 = 0 then e else e - 1
  let x := m1 * 2 ^ 128
  let r := sqrtN x
  sticky false r (r * r != x) (e1 / 2 - 64)

/-- 1/√x for a positive finite x. -/
def rsqNum (m : Nat) (e : Int) : Num :=
  let m1 := if e % 2 = 0 then m else 2 * m
  let e1 := if e % 2 = 0 then e else e - 1
  let k := Nat.log2 m1 + 64
  let x := 2 ^ (2 * k) / m1
  let r := sqrtN x
  sticky false r (r * r * m1 != 2 ^ (2 * k)) (-(k : Int) - e1 / 2)

/-! Fixed point: an integer i stands for i × 2^−P, with P = `prec`; errors stay far below 2^`slack` units. -/

def prec : Nat := 640
def slack : Nat := 40
def one : Int := ((2 ^ prec : Nat) : Int)

/-- x as fixed point, truncated. -/
def toFix (neg : Bool) (m : Nat) (e : Int) : Int :=
  let x : Int := if 0 ≤ e + prec then ((m * 2 ^ (e + prec).toNat : Nat) : Int)
                 else ((m / 2 ^ (-(e + prec)).toNat : Nat) : Int)
  if neg then -x else x

/-- The product of fixed-point numbers. -/
def fmul (a b : Int) : Int := a * b / one

/-- Terms of a series: t, t·f(1), t·f(1)·f(2), ..., summed over `n` terms. -/
def series (step : Nat → Int → Int) : Nat → Nat → Int → Int → Int
  | 0, _, _, acc => acc
  | n + 1, k, t, acc => series step n (k + 1) (step k t) (acc + t)

/-- Σ x^(2k+1) / (2k+1), the inverse hyperbolic tangent, for |x| ≤ 1/3. -/
def atanhFix (x : Int) : Int :=
  let x2 := fmul x x
  (List.range 210).foldl (fun (p : Int × Int) (k : Nat) => (fmul p.1 x2, p.2 + p.1 / (2 * (k : Int) + 1))) (x, 0) |>.2

/-- ln 2 = 2 atanh(1/3). -/
def ln2 : Int := 2 * atanhFix (one / 3)

/-- atan(1/n). -/
def atanInv (n : Int) : Int :=
  (List.range 290).foldl (fun (p : Int × Int) (k : Nat) =>
    (p.1 / (n * n), p.2 + (if k % 2 = 0 then 1 else -1) * (p.1 / (2 * (k : Int) + 1)))) (one / n, 0) |>.2

/-- π by Machin's formula. -/
def piFix : Int := 16 * atanInv 5 - 4 * atanInv 239

/-- e^x for |x| ≤ 1. -/
def expSmall (x : Int) : Int := series (fun k t => fmul t x / ((k : Int) + 1)) 140 0 one 0

/-- sin x for |x| ≤ 2. -/
def sinSmall (x : Int) : Int :=
  let x2 := fmul x x
  series (fun k t => -(fmul t x2) / ((2 * (k : Int) + 2) * (2 * (k : Int) + 3))) 90 0 x 0

/-- e^x as a significand in fixed point and a power of two. -/
def expFix (x : Int) : Int × Int :=
  let n := x / ln2
  (expSmall (x - n * ln2), n)

/-- A fixed-point number (times 2^k) with its error, as the two ends of an enclosure. -/
def ends (y k : Int) : Option (Num × Num) :=
  let d : Int := ((2 ^ slack : Nat) : Int)
  some (Num.ofScaled (y - d) (k - prec), Num.ofScaled (y + d) (k - prec))

/-- An exact value. -/
def exactly (x : Num) : Option (Num × Num) := some (x, x)

/-- 2^x (R173). -/
def exp2Fn (neg : Bool) (m : Nat) (e : Int) : Option (Num × Num) :=
  if 12 ≤ (Nat.log2 m : Int) + e then exactly (if neg then .fin false 1 (-5000) else .fin false 1 5000)
  else
    let x := toFix neg m e
    let i := x / one
    let f := x - i * one
    if f = 0 ∧ -(prec : Int) ≤ e then exactly (.fin false 1 i) else ends (expSmall (fmul f ln2)) i

/-- log2 x for a positive x (R173). -/
def log2Fn (m : Nat) (e : Int) : Option (Num × Num) :=
  let l := Nat.log2 m
  let k : Int := (l : Int) + e
  if m = 2 ^ l then exactly (Num.ofInt k)
  else
    let z := toFix false m (-(l : Int))
    let w := (z - one) * one / (z + one)
    ends (k * one + 2 * atanhFix w * one / ln2) 0

/-- sin(2π·r) for a fixed-point r in turns, reduced to a quarter turn about 0. -/
def sinTurns (r : Int) : Option (Num × Num) :=
  let q := r % one
  let y := if 4 * q ≤ one then q else if 4 * q ≤ 3 * one then one / 2 - q else q - one
  if 4 * y = one then exactly (.fin false 1 0)
  else if 4 * y = -one then exactly (.fin true 1 0)
  else ends (sinSmall (2 * fmul y piFix)) 0

/-- sin(2π·x): zero with x's sign at integers and half-integers (R173). -/
def sinFn (neg : Bool) (m : Nat) (e : Int) : Option (Num × Num) :=
  let x := toFix neg m e
  if 0 ≤ e ∨ 2 * x % one = 0 then exactly (.fin neg 0 0) else sinTurns x

/-- cos(2π·x): +0 at odd quarters (R173). -/
def cosFn (neg : Bool) (m : Nat) (e : Int) : Option (Num × Num) :=
  if 0 ≤ e then exactly (.fin false 1 0)
  else
    let x := toFix neg m e
    if 2 * x % one ≠ 0 ∧ 4 * x % one = 0 then exactly (.fin false 0 0) else sinTurns (x + one / 4)

/-- tanh x = (1 − u) / (1 + u) with u = e^(−2|x|) (R173). -/
def tanhFn (neg : Bool) (m : Nat) (e : Int) : Option (Num × Num) :=
  if 7 ≤ (Nat.log2 m : Int) + e then some (.fin neg (2 ^ 100 - 1) (-100), .fin neg 1 0)
  else
    let p := expFix (-2 * toFix false m e)
    let u := p.1 / ((2 ^ (-p.2).toNat : Nat) : Int)
    let y := (one - u) * one / (one + u)
    ends (if neg then -y else y) 0

/-- 1 / (1 + e^(−x)) (R173). -/
def sigmFn (neg : Bool) (m : Nat) (e : Int) : Option (Num × Num) :=
  if 8 ≤ (Nat.log2 m : Int) + e then
    (if neg then exactly (.fin false 1 (-5000)) else some (.fin false (2 ^ 100 - 1) (-100), .fin false 1 0))
  else
    let p := expFix (-(toFix false m e))
    let u := p.1 / ((2 ^ (-p.2).toNat : Nat) : Int)
    ends ((if neg then u else one) * one / (one + u)) 0

/-- Φ(x) for 0 ≤ x < 32: 1/2 + φ(x)·Σ x^(2k+1) / (1·3···(2k+1)). -/
def phiFix (x : Int) : Int :=
  let x2 := fmul x x
  let p := expFix (-(x2 / 2))
  let den := ((sqrtN ((2 * piFix * one).toNat) : Nat) : Int)
  let sum := series (fun k t => fmul t x2 / (2 * (k : Int) + 3)) 1600 0 x 0
  one / 2 + (sum * p.1 / den) / ((2 ^ (-p.2).toNat : Nat) : Int)

/-- x·Φ(x) (R173): beyond 20 it rounds to x, below −20 it underflows to −0. -/
def geluFn (neg : Bool) (m : Nat) (e : Int) : Option (Num × Num) :=
  if (5 ≤ (Nat.log2 m : Int) + e) || decide (20 * one ≤ toFix false m e) then
    (if neg then exactly (.fin true 1 (-5000)) else some (.fin false (m * 2 ^ 100 - 1) (e - 100), .fin false m e))
  else
    let ph := phiFix (toFix false m e)
    let y := if neg then one - ph else ph
    let d : Int := ((2 ^ (slack + 250) : Nat) : Int)
    let mm : Int := if neg then -(m : Int) else (m : Int)
    some (Num.ofScaled (mm * (y - d)) (e - prec), Num.ofScaled (mm * (y + d)) (e - prec))

/-- The ten functions (R173). -/
inductive SpecialFn where
  | rcp | rsq | sqrt | exp2 | log2 | sint | cost | tanh | sigm | gelu
  deriving DecidableEq, Repr

/-- The values at zero, infinity and NaN, and the enclosure of every other value (R173). -/
def SpecialFn.eval (g : SpecialFn) (x : Num) : Option (Num × Num) :=
  match x with
  | .nan => exactly .nan
  | .inf s =>
    exactly (match g with
      | .rcp => .fin s 0 0
      | .rsq => if s then .nan else .fin false 0 0
      | .sqrt => if s then .nan else .inf false
      | .exp2 => if s then .fin false 0 0 else .inf false
      | .log2 => if s then .nan else .inf false
      | .sint => .nan
      | .cost => .nan
      | .tanh => .fin s 1 0
      | .sigm => if s then .fin false 0 0 else .fin false 1 0
      | .gelu => if s then .fin true 0 0 else .inf false)
  | .fin s m e =>
    if m = 0 then
      exactly (match g with
        | .rcp => .inf s
        | .rsq => .inf s
        | .sqrt => .fin s 0 0
        | .exp2 => .fin false 1 0
        | .log2 => .inf true
        | .sint => .fin s 0 0
        | .cost => .fin false 1 0
        | .tanh => .fin s 0 0
        | .sigm => .fin false 1 (-1)
        | .gelu => .fin s 0 0)
    else
      match g with
      | .rcp => exactly (rcpNum s m e)
      | .rsq => exactly (if s then .nan else rsqNum m e)
      | .sqrt => exactly (if s then .nan else sqrtNum m e)
      | .exp2 => exp2Fn s m e
      | .log2 => if s then exactly .nan else log2Fn m e
      | .sint => sinFn s m e
      | .cost => cosFn s m e
      | .tanh => tanhFn s m e
      | .sigm => sigmFn s m e
      | .gelu => geluFn s m e

/-- One element: both ends rounded by RNE; a value the enclosure does not decide is `open_` (R172). -/
def SpecialFn.elt (g : SpecialFn) (f : Fmt) (flush : Bool) (open_ x : Nat) : Nat :=
  match g.eval (f.operand flush x) with
  | some (a, b) =>
    let y := f.round 0 false flush a
    if y = f.round 0 false flush b then y else open_
  | none => open_

/-- An XF instruction: one landing-buffer entry, landing at 24 cycles, ready 24 cycles after the unit starts, and the
unit starts one operation every 4 cycles (R157). -/
def xf (o : XFOp) (s : State) (g : SpecialFn) : Out :=
  if s.guard o.h then
    let e := tBits o.t
    let a := s.rdV o.va
    let fl := flushT s.core.iss.nbv o.t
    let y := buildV e (1024 / e) fun i => g.elt (fmtT o.t) fl (s.free (16384 + i)) (elt a e i)
    let p := s.abar o.h.a
    let d := p.2.core.sfuLast
    .next ((p.2.addLanding
      { id := 0, slot := 0, dst := .vector o.vd, data := y, wm := activeBits (s.rdM o.m) e (1024 / e), left := 24,
        wait := some (d + 24), kind := .sfu (d == 0), arrive := p.1 }).onCore fun c => { c with sfuLast := d + 4 })
  else .next (s.arriveNow o.h.a)

/-- XRCP (R173). -/
def execXrcp (o : XFOp) (s : State) : Out := xf o s .rcp
/-- XRSQ (R173). -/
def execXrsq (o : XFOp) (s : State) : Out := xf o s .rsq
/-- XSQRT (R173). -/
def execXsqrt (o : XFOp) (s : State) : Out := xf o s .sqrt
/-- XEXP2 (R173). -/
def execXexp2 (o : XFOp) (s : State) : Out := xf o s .exp2
/-- XLOG2 (R173). -/
def execXlog2 (o : XFOp) (s : State) : Out := xf o s .log2
/-- XSINT (R173). -/
def execXsint (o : XFOp) (s : State) : Out := xf o s .sint
/-- XCOST (R173). -/
def execXcost (o : XFOp) (s : State) : Out := xf o s .cost
/-- XTANH (R173). -/
def execXtanh (o : XFOp) (s : State) : Out := xf o s .tanh
/-- XSIGM (R173). -/
def execXsigm (o : XFOp) (s : State) : Out := xf o s .sigm
/-- XGELU (R173). -/
def execXgelu (o : XFOp) (s : State) : Out := xf o s .gelu

end Sys2Proof.Machine
end

