-- ==== Sys2Proof/Machine/Dispatch.lean ====
section
/-! DEFINITION. Dispatch: one arm per constructor of Instr, each a direct call of that instruction's meaning. -/

namespace Sys2Proof.Machine

def exec (i : Instr) (s : State) : Host.Outcome State Fault Refusal :=
  match i with
  | .nop o => Sys2Proof.Machine.execNop o s
  | .nopV o => Sys2Proof.Machine.execNopV o s
  | .add o => Sys2Proof.Machine.execAdd o s
  | .sub o => Sys2Proof.Machine.execSub o s
  | .mul o => Sys2Proof.Machine.execMul o s
  | .mulh o => Sys2Proof.Machine.execMulh o s
  | .mulhu o => Sys2Proof.Machine.execMulhu o s
  | .divs o => Sys2Proof.Machine.execDivs o s
  | .divu o => Sys2Proof.Machine.execDivu o s
  | .remu o => Sys2Proof.Machine.execRemu o s
  | .and o => Sys2Proof.Machine.execAnd o s
  | .or o => Sys2Proof.Machine.execOr o s
  | .xor o => Sys2Proof.Machine.execXor o s
  | .andn o => Sys2Proof.Machine.execAndn o s
  | .shl o => Sys2Proof.Machine.execShl o s
  | .shr o => Sys2Proof.Machine.execShr o s
  | .sar o => Sys2Proof.Machine.execSar o s
  | .rol o => Sys2Proof.Machine.execRol o s
  | .min o => Sys2Proof.Machine.execMin o s
  | .max o => Sys2Proof.Machine.execMax o s
  | .minn o => Sys2Proof.Machine.execMinn o s
  | .maxn o => Sys2Proof.Machine.execMaxn o s
  | .clz o => Sys2Proof.Machine.execClz o s
  | .popc o => Sys2Proof.Machine.execPopc o s
  | .sel o => Sys2Proof.Machine.execSel o s
  | .bext o => Sys2Proof.Machine.execBext o s
  | .bins o => Sys2Proof.Machine.execBins o s
  | .addi o => Sys2Proof.Machine.execAddi o s
  | .shli o => Sys2Proof.Machine.execShli o s
  | .shri o => Sys2Proof.Machine.execShri o s
  | .sari o => Sys2Proof.Machine.execSari o s
  | .andi o => Sys2Proof.Machine.execAndi o s
  | .ori o => Sys2Proof.Machine.execOri o s
  | .xori o => Sys2Proof.Machine.execXori o s
  | .roli o => Sys2Proof.Machine.execRoli o s
  | .movi o => Sys2Proof.Machine.execMovi o s
  | .movk o => Sys2Proof.Machine.execMovk o s
  | .addk o => Sys2Proof.Machine.execAddk o s
  | .cmpeq o => Sys2Proof.Machine.execCmpeq o s
  | .cmpne o => Sys2Proof.Machine.execCmpne o s
  | .cmplt o => Sys2Proof.Machine.execCmplt o s
  | .cmple o => Sys2Proof.Machine.execCmple o s
  | .cmpltn o => Sys2Proof.Machine.execCmpltn o s
  | .cmplen o => Sys2Proof.Machine.execCmplen o s
  | .cmpeqi o => Sys2Proof.Machine.execCmpeqi o s
  | .cmpnei o => Sys2Proof.Machine.execCmpnei o s
  | .cmplti o => Sys2Proof.Machine.execCmplti o s
  | .cmpgei o => Sys2Proof.Machine.execCmpgei o s
  | .cmpltni o => Sys2Proof.Machine.execCmpltni o s
  | .cmpgeni o => Sys2Proof.Machine.execCmpgeni o s
  | .pand o => Sys2Proof.Machine.execPand o s
  | .por o => Sys2Proof.Machine.execPor o s
  | .pxor o => Sys2Proof.Machine.execPxor o s
  | .pandn o => Sys2Proof.Machine.execPandn o s
  | .pget o => Sys2Proof.Machine.execPget o s
  | .pset o => Sys2Proof.Machine.execPset o s
  | .br o => Sys2Proof.Machine.execBr o s
  | .call o => Sys2Proof.Machine.execCall o s
  | .jr o => Sys2Proof.Machine.execJr o s
  | .callr o => Sys2Proof.Machine.execCallr o s
  | .loop o => Sys2Proof.Machine.execLoop o s
  | .loopi o => Sys2Proof.Machine.execLoopi o s
  | .lbrk o => Sys2Proof.Machine.execLbrk o s
  | .exit o => Sys2Proof.Machine.execExit o s
  | .trap o => Sys2Proof.Machine.execTrap o s
  | .rett o => Sys2Proof.Machine.execRett o s
  | .spawn o => Sys2Proof.Machine.execSpawn o s
  | .srd o => Sys2Proof.Machine.execSrd o s
  | .swr o => Sys2Proof.Machine.execSwr o s
  | .stamp o => Sys2Proof.Machine.execStamp o s
  | .hint o => Sys2Proof.Machine.execHint o s
  | .rdcyc o => Sys2Proof.Machine.execRdcyc o s
  | .rdmcc o => Sys2Proof.Machine.execRdmcc o s
  | .rdptp o => Sys2Proof.Machine.execRdptp o s
  | .wfi o => Sys2Proof.Machine.execWfi o s
  | .twait o => Sys2Proof.Machine.execTwait o s
  | .tsig o => Sys2Proof.Machine.execTsig o s
  | .tlwait o => Sys2Proof.Machine.execTlwait o s
  | .binit o => Sys2Proof.Machine.execBinit o s
  | .barr o => Sys2Proof.Machine.execBarr o s
  | .bwait o => Sys2Proof.Machine.execBwait o s
  | .bsync o => Sys2Proof.Machine.execBsync o s
  | .sstep o => Sys2Proof.Machine.execSstep o s
  | .vadd o => Sys2Proof.Machine.execVadd o s
  | .vsub o => Sys2Proof.Machine.execVsub o s
  | .vadds o => Sys2Proof.Machine.execVadds o s
  | .vaddsn o => Sys2Proof.Machine.execVaddsn o s
  | .vsubs o => Sys2Proof.Machine.execVsubs o s
  | .vsubsn o => Sys2Proof.Machine.execVsubsn o s
  | .vmul o => Sys2Proof.Machine.execVmul o s
  | .vmulh o => Sys2Proof.Machine.execVmulh o s
  | .vmac o => Sys2Proof.Machine.execVmac o s
  | .vmin o => Sys2Proof.Machine.execVmin o s
  | .vmax o => Sys2Proof.Machine.execVmax o s
  | .vminn o => Sys2Proof.Machine.execVminn o s
  | .vmaxn o => Sys2Proof.Machine.execVmaxn o s
  | .vabsd o => Sys2Proof.Machine.execVabsd o s
  | .vavgn o => Sys2Proof.Machine.execVavgn o s
  | .vand o => Sys2Proof.Machine.execVand o s
  | .vor o => Sys2Proof.Machine.execVor o s
  | .vxor o => Sys2Proof.Machine.execVxor o s
  | .vandn o => Sys2Proof.Machine.execVandn o s
  | .vshl o => Sys2Proof.Machine.execVshl o s
  | .vshr o => Sys2Proof.Machine.execVshr o s
  | .vsar o => Sys2Proof.Machine.execVsar o s
  | .vshli o => Sys2Proof.Machine.execVshli o s
  | .vshri o => Sys2Proof.Machine.execVshri o s
  | .vsari o => Sys2Proof.Machine.execVsari o s
  | .vclz o => Sys2Proof.Machine.execVclz o s
  | .vpopc o => Sys2Proof.Machine.execVpopc o s
  | .vfadd o => Sys2Proof.Machine.execVfadd o s
  | .vfsub o => Sys2Proof.Machine.execVfsub o s
  | .vfmul o => Sys2Proof.Machine.execVfmul o s
  | .vfma o => Sys2Proof.Machine.execVfma o s
  | .vfnma o => Sys2Proof.Machine.execVfnma o s
  | .vfmin o => Sys2Proof.Machine.execVfmin o s
  | .vfmax o => Sys2Proof.Machine.execVfmax o s
  | .vfabs o => Sys2Proof.Machine.execVfabs o s
  | .vfneg o => Sys2Proof.Machine.execVfneg o s
  | .vcmpeq o => Sys2Proof.Machine.execVcmpeq o s
  | .vcmpne o => Sys2Proof.Machine.execVcmpne o s
  | .vcmplt o => Sys2Proof.Machine.execVcmplt o s
  | .vcmple o => Sys2Proof.Machine.execVcmple o s
  | .vcmpltn o => Sys2Proof.Machine.execVcmpltn o s
  | .vcmplen o => Sys2Proof.Machine.execVcmplen o s
  | .vfcmpeq o => Sys2Proof.Machine.execVfcmpeq o s
  | .vfcmplt o => Sys2Proof.Machine.execVfcmplt o s
  | .vfcmple o => Sys2Proof.Machine.execVfcmple o s
  | .vfcmpun o => Sys2Proof.Machine.execVfcmpun o s
  | .mand o => Sys2Proof.Machine.execMand o s
  | .mor o => Sys2Proof.Machine.execMor o s
  | .mxor o => Sys2Proof.Machine.execMxor o s
  | .mandn o => Sys2Proof.Machine.execMandn o s
  | .many o => Sys2Proof.Machine.execMany o s
  | .mall o => Sys2Proof.Machine.execMall o s
  | .vpermb o => Sys2Proof.Machine.execVpermb o s
  | .vpermw o => Sys2Proof.Machine.execVpermw o s
  | .vrmrg o => Sys2Proof.Machine.execVrmrg o s
  | .vrev o => Sys2Proof.Machine.execVrev o s
  | .vzip o => Sys2Proof.Machine.execVzip o s
  | .vunzip o => Sys2Proof.Machine.execVunzip o s
  | .vbcs o => Sys2Proof.Machine.execVbcs o s
  | .vxs o => Sys2Proof.Machine.execVxs o s
  | .vmovi o => Sys2Proof.Machine.execVmovi o s
  | .vmov o => Sys2Proof.Machine.execVmov o s
  | .vsel o => Sys2Proof.Machine.execVsel o s
  | .vcvt o => Sys2Proof.Machine.execVcvt o s
  | .vcvtsr o => Sys2Proof.Machine.execVcvtsr o s
  | .vnarrow o => Sys2Proof.Machine.execVnarrow o s
  | .vwiden o => Sys2Proof.Machine.execVwiden o s
  | .vrng o => Sys2Proof.Machine.execVrng o s
  | .vredadd o => Sys2Proof.Machine.execVredadd o s
  | .vredmax o => Sys2Proof.Machine.execVredmax o s
  | .vredmin o => Sys2Proof.Machine.execVredmin o s
  | .vfredadd o => Sys2Proof.Machine.execVfredadd o s
  | .vfredmax o => Sys2Proof.Machine.execVfredmax o s
  | .xrcp o => Sys2Proof.Machine.execXrcp o s
  | .xrsq o => Sys2Proof.Machine.execXrsq o s
  | .xsqrt o => Sys2Proof.Machine.execXsqrt o s
  | .xexp2 o => Sys2Proof.Machine.execXexp2 o s
  | .xlog2 o => Sys2Proof.Machine.execXlog2 o s
  | .xsint o => Sys2Proof.Machine.execXsint o s
  | .xcost o => Sys2Proof.Machine.execXcost o s
  | .xtanh o => Sys2Proof.Machine.execXtanh o s
  | .xsigm o => Sys2Proof.Machine.execXsigm o s
  | .xgelu o => Sys2Proof.Machine.execXgelu o s
  | .mma o => Sys2Proof.Machine.execMma o s
  | .mzero o => Sys2Proof.Machine.execMzero o s
  | .mldt o => Sys2Proof.Machine.execMldt o s
  | .mstt o => Sys2Proof.Machine.execMstt o s
  | .mdrain o => Sys2Proof.Machine.execMdrain o s
  | .mrsum o => Sys2Proof.Machine.execMrsum o s
  | .mmode o => Sys2Proof.Machine.execMmode o s
  | .mstat o => Sys2Proof.Machine.execMstat o s
  | .ld8 o => Sys2Proof.Machine.execLd8 o s
  | .ld16 o => Sys2Proof.Machine.execLd16 o s
  | .ld32 o => Sys2Proof.Machine.execLd32 o s
  | .ld64 o => Sys2Proof.Machine.execLd64 o s
  | .lds8 o => Sys2Proof.Machine.execLds8 o s
  | .lds16 o => Sys2Proof.Machine.execLds16 o s
  | .lds32 o => Sys2Proof.Machine.execLds32 o s
  | .st8 o => Sys2Proof.Machine.execSt8 o s
  | .st16 o => Sys2Proof.Machine.execSt16 o s
  | .st32 o => Sys2Proof.Machine.execSt32 o s
  | .st64 o => Sys2Proof.Machine.execSt64 o s
  | .vld1 o => Sys2Proof.Machine.execVld1 o s
  | .vld2 o => Sys2Proof.Machine.execVld2 o s
  | .vld4 o => Sys2Proof.Machine.execVld4 o s
  | .vst1 o => Sys2Proof.Machine.execVst1 o s
  | .vst2 o => Sys2Proof.Machine.execVst2 o s
  | .vst4 o => Sys2Proof.Machine.execVst4 o s
  | .spld o => Sys2Proof.Machine.execSpld o s
  | .spldh o => Sys2Proof.Machine.execSpldh o s
  | .spst o => Sys2Proof.Machine.execSpst o s
  | .spsth o => Sys2Proof.Machine.execSpsth o s
  | .vgath o => Sys2Proof.Machine.execVgath o s
  | .vscat o => Sys2Proof.Machine.execVscat o s
  | .fence o => Sys2Proof.Machine.execFence o s
  | .aadd o => Sys2Proof.Machine.execAadd o s
  | .amin o => Sys2Proof.Machine.execAmin o s
  | .amax o => Sys2Proof.Machine.execAmax o s
  | .aminn o => Sys2Proof.Machine.execAminn o s
  | .amaxn o => Sys2Proof.Machine.execAmaxn o s
  | .aand o => Sys2Proof.Machine.execAand o s
  | .aor o => Sys2Proof.Machine.execAor o s
  | .axor o => Sys2Proof.Machine.execAxor o s
  | .axchg o => Sys2Proof.Machine.execAxchg o s
  | .acas o => Sys2Proof.Machine.execAcas o s
  | .afadd o => Sys2Proof.Machine.execAfadd o s
  | .pf o => Sys2Proof.Machine.execPf o s
  | .pfc o => Sys2Proof.Machine.execPfc o s
  | .clwb o => Sys2Proof.Machine.execClwb o s
  | .clinv o => Sys2Proof.Machine.execClinv o s
  | .cpy o => Sys2Proof.Machine.execCpy o s
  | .cpyf o => Sys2Proof.Machine.execCpyf o s
  | .cpyt o => Sys2Proof.Machine.execCpyt o s
  | .seqrun o => Sys2Proof.Machine.execSeqrun o s
  | .qpop o => Sys2Proof.Machine.execQpop o s
  | .qpush o => Sys2Proof.Machine.execQpush o s
  | .illegalBundle => Sys2Proof.Machine.execIllegalBundle s
  | .dataArrival id err => Sys2Proof.Machine.execDataArrival id err s
  | .landing id => Sys2Proof.Machine.execLanding id s
  | .freezeEnd => Sys2Proof.Machine.execFreezeEnd s
  | .waitSatisfied => Sys2Proof.Machine.execWaitSatisfied s
  | .frameOverrun => Sys2Proof.Machine.execFrameOverrun s
  | .budgetOverrun => Sys2Proof.Machine.execBudgetOverrun s
  | .trapDelivery => Sys2Proof.Machine.execTrapDelivery s
  | .sfuStart id => Sys2Proof.Machine.execSfuStart id s
  | .sfuResult id => Sys2Proof.Machine.execSfuResult id s
  | .arrayWindowSwitch j => Sys2Proof.Machine.execArrayWindowSwitch j s
  | .matrixEntryStart => Sys2Proof.Machine.execMatrixEntryStart s
  | .matrixBlock => Sys2Proof.Machine.execMatrixBlock s
  | .matrixEntryComplete => Sys2Proof.Machine.execMatrixEntryComplete s
  | .copyEntryStart => Sys2Proof.Machine.execCopyEntryStart s
  | .copyComplete => Sys2Proof.Machine.execCopyComplete s
  | .copyFault addr aux => Sys2Proof.Machine.execCopyFault addr aux s
  | .seqrunComplete num => Sys2Proof.Machine.execSeqrunComplete num s
  | .barrierReleaseDelivery => Sys2Proof.Machine.execBarrierReleaseDelivery s
  | .superstepRelease key => Sys2Proof.Machine.execSuperstepRelease key s
  | .storeAck id => Sys2Proof.Machine.execStoreAck id s
  | .fenceComplete id => Sys2Proof.Machine.execFenceComplete id s
  | .fenceTimeout id => Sys2Proof.Machine.execFenceTimeout id s
  | .pageWalk va kind => Sys2Proof.Machine.execPageWalk va kind s
  | .ownerTagCheck granules store => Sys2Proof.Machine.execOwnerTagCheck granules store s
  | .spawnRecordRead => Sys2Proof.Machine.execSpawnRecordRead s
  | .qtailWrite q v => Sys2Proof.Machine.execQtailWrite q v s
  | .launchRecordFetch q => Sys2Proof.Machine.execLaunchRecordFetch q s
  | .launchAcceptance src => Sys2Proof.Machine.execLaunchAcceptance src s
  | .schedulerSelection die => Sys2Proof.Machine.execSchedulerSelection die s
  | .taskBinding h => Sys2Proof.Machine.execTaskBinding h s
  | .preloadComplete => Sys2Proof.Machine.execPreloadComplete s
  | .firstIssue => Sys2Proof.Machine.execFirstIssue s
  | .taskRetire => Sys2Proof.Machine.execTaskRetire s
  | .cancel wr v => Sys2Proof.Machine.execCancel wr v s
  | .cancelAtDie die serial => Sys2Proof.Machine.execCancelAtDie die serial s
  | .spillMove serial => Sys2Proof.Machine.execSpillMove serial s
  | .reservedEntryGrant serial => Sys2Proof.Machine.execReservedEntryGrant serial s
  | .childPreemptTimeout serial => Sys2Proof.Machine.execChildPreemptTimeout serial s
  | .preempt v => Sys2Proof.Machine.execPreempt v s
  | .switch v => Sys2Proof.Machine.execSwitch v s
  | .resume v => Sys2Proof.Machine.execResume v s
  | .capture => Sys2Proof.Machine.execCapture s
  | .captureComplete => Sys2Proof.Machine.execCaptureComplete s
  | .contextRestore n => Sys2Proof.Machine.execContextRestore n s
  | .retry v => Sys2Proof.Machine.execRetry v s
  | .fail v => Sys2Proof.Machine.execFail v s
  | .tlbInvalidate v => Sys2Proof.Machine.execTlbInvalidate v s
  | .invalidationComplete => Sys2Proof.Machine.execInvalidationComplete s
  | .evbaseWrite v => Sys2Proof.Machine.execEvbaseWrite v s
  | .evconsWrite v => Sys2Proof.Machine.execEvconsWrite v s
  | .switchPoint c => Sys2Proof.Machine.execSwitchPoint c s
  | .clockPauseEnd c => Sys2Proof.Machine.execClockPauseEnd c s
  | .clctlStep c v => Sys2Proof.Machine.execClctlStep c v s
  | .clctlThr c v => Sys2Proof.Machine.execClctlThr c v s
  | .clctlForcewa c v => Sys2Proof.Machine.execClctlForcewa c v s
  | .throttleApply c => Sys2Proof.Machine.execThrottleApply c s
  | .sensorSample n deg => Sys2Proof.Machine.execSensorSample n deg s
  | .tripOverheatWarning n => Sys2Proof.Machine.execTripOverheatWarning n s
  | .powerSample mw uw => Sys2Proof.Machine.execPowerSample mw uw s
  | .limiterFallCheck => Sys2Proof.Machine.execLimiterFallCheck s
  | .limiterRiseCheck => Sys2Proof.Machine.execLimiterRiseCheck s
  | .accountingUpdate uj => Sys2Proof.Machine.execAccountingUpdate uj s
  | .correctedError c => Sys2Proof.Machine.execCorrectedError c s
  | .clusterRetire v => Sys2Proof.Machine.execClusterRetire v s
  | .interrupt => Sys2Proof.Machine.execInterrupt s
  | .wfiWake => Sys2Proof.Machine.execWfiWake s
  | .keyWrapLoad v => Sys2Proof.Machine.execKeyWrapLoad v s
  | .keyWrapDone => Sys2Proof.Machine.execKeyWrapDone s
  | .shutterFire v => Sys2Proof.Machine.execShutterFire v s
  | .shutterN => Sys2Proof.Machine.execShutterN s
  | .readout addr => Sys2Proof.Machine.execReadout addr s
  | .moduleReset x => Sys2Proof.Machine.execModuleReset x s
  | .eyeMeasurement sel vmarg tmarg => Sys2Proof.Machine.execEyeMeasurement sel vmarg tmarg s
  | .laneRepair v => Sys2Proof.Machine.execLaneRepair v s
  | .channelRetrain v => Sys2Proof.Machine.execChannelRetrain v s
  | .hbmrepDone ok => Sys2Proof.Machine.execHbmrepDone ok s
  | .scrubRead line => Sys2Proof.Machine.execScrubRead line s
  | .scrubWriteback => Sys2Proof.Machine.execScrubWriteback s
  | .loupeWindowEnd => Sys2Proof.Machine.execLoupeWindowEnd s
  | .enlargerWordRead seg => Sys2Proof.Machine.execEnlargerWordRead seg s
  | .enlargerDelivery seg => Sys2Proof.Machine.execEnlargerDelivery seg s
  | .enlargerFailover => Sys2Proof.Machine.execEnlargerFailover s
  | .flitReceive f => Sys2Proof.Machine.execFlitReceive f s
  | .replayRequest link seq => Sys2Proof.Machine.execReplayRequest link seq s
  | .flitAck link seq => Sys2Proof.Machine.execFlitAck link seq s
  | .retireMarker link epoch => Sys2Proof.Machine.execRetireMarker link epoch s
  | .incarnationAnnouncement pos inc => Sys2Proof.Machine.execIncarnationAnnouncement pos inc s
  | .hibernatedAnnouncement pos inc => Sys2Proof.Machine.execHibernatedAnnouncement pos inc s
  | .remoteRequest q => Sys2Proof.Machine.execRemoteRequest q s
  | .remoteAnswer x => Sys2Proof.Machine.execRemoteAnswer x s
  | .retransmitTimeout core id => Sys2Proof.Machine.execRetransmitTimeout core id s
  | .hibernatingTimeout core id => Sys2Proof.Machine.execHibernatingTimeout core id s
  | .proofProbe idx => Sys2Proof.Machine.execProofProbe idx s
  | .probeRequest who from_ => Sys2Proof.Machine.execProbeRequest who from_ s
  | .probeAnswer idx x => Sys2Proof.Machine.execProbeAnswer idx x s
  | .probeTimeout idx => Sys2Proof.Machine.execProbeTimeout idx s
  | .prfrel v => Sys2Proof.Machine.execPrfrel v s
  | .treeStreamReceive x => Sys2Proof.Machine.execTreeStreamReceive x s
  | .treeAck id from_ failed => Sys2Proof.Machine.execTreeAck id from_ failed s
  | .fifoBind v => Sys2Proof.Machine.execFifoBind v s
  | .fifoUnbind v => Sys2Proof.Machine.execFifoUnbind v s
  | .fifoWordTransfer who which x => Sys2Proof.Machine.execFifoWordTransfer who which x s
  | .timelineWrite t v => Sys2Proof.Machine.execTimelineWrite t v s
  | .landingWindowWrite port w off data => Sys2Proof.Machine.execLandingWindowWrite port w off data s
  | .bar4Access port off write => Sys2Proof.Machine.execBar4Access port off write s
  | .spdmRequest port keyExchange => Sys2Proof.Machine.execSpdmRequest port keyExchange s
  | .ptpset v => Sys2Proof.Machine.execPtpset v s
  | .ppsPulse => Sys2Proof.Machine.execPpsPulse s
  | .powerFailWarning => Sys2Proof.Machine.execPowerFailWarning s
  | .fire v => Sys2Proof.Machine.execFire v s
  | .fixerDrain => Sys2Proof.Machine.execFixerDrain s
  | .fixerChunk => Sys2Proof.Machine.execFixerChunk s
  | .contactSheetWrite => Sys2Proof.Machine.execContactSheetWrite s
  | .fixerListValidate => Sys2Proof.Machine.execFixerListValidate s
  | .resmtrUpdate mj => Sys2Proof.Machine.execResmtrUpdate mj s
  | .brownOut => Sys2Proof.Machine.execBrownOut s
  | .safelightHold => Sys2Proof.Machine.execSafelightHold s
  | .safelightExit => Sys2Proof.Machine.execSafelightExit s
  | .safelightDisable => Sys2Proof.Machine.execSafelightDisable s
  | .collectiveRejoin n x => Sys2Proof.Machine.execCollectiveRejoin n x s
  | .stepAnnouncement pos serial stepv => Sys2Proof.Machine.execStepAnnouncement pos serial stepv s
  | .registerWrite wr off v => Sys2Proof.Machine.execRegisterWrite wr off v s
  | .linkUp link => Sys2Proof.Machine.execLinkUp link s
  | .keyRotation link => Sys2Proof.Machine.execKeyRotation link s
  | .hostLinkDown port => Sys2Proof.Machine.execHostLinkDown port s
  | .hostLinkUp port => Sys2Proof.Machine.execHostLinkUp port s
  | .ptmResponse port ns => Sys2Proof.Machine.execPtmResponse port ns s
  | .channelError peer chan => Sys2Proof.Machine.execChannelError peer chan s

end Sys2Proof.Machine
end

