-- ==== Sys2Proof/Machine/Due.lean ====
section
/-! DEFINITION. Due: what time does. Each tick the counters move (R5, R53) and the events that fall due are listed, in a
fixed order; each cycle of a core does the same for its landings, releases and waits (R6, R7, R157, R236). Nothing
here runs an instruction: the lists are run by Step. -/

namespace Sys2Proof.Machine

/-- An event for the module, and one for a core. -/
def here (i : Due) : Option Nat × Due := (none, i)
def onto (n : Nat) (i : Due) : Option Nat × Due := (some n, i)

/-! The counters of a tick. -/

/-- A landing whose data comes from memory: its wait is counted in ticks (R445). -/
def Landing.ticked (l : Landing) : Bool :=
  match l.kind with
  | .load _ _ _ => true
  | .atomic => true
  | _ => false

/-- A landing that comes from the scratchpad: its wait is counted in cycles (R332). -/
def Landing.cycled (l : Landing) : Bool :=
  match l.kind with
  | .rows _ _ => true
  | .gather _ _ => true
  | _ => false

/-- The unanswered requests of a context: its core, the access each is a part of, and its name. -/
def Core.requests (c : Core) : List (Nat × Option Nat × Nat) :=
  (c.remotes.filter fun r => r.into.isNone).map fun r => (c.id, (r.land.map (·.1)).or r.acc, r.id)

/-- One tick of a fence. An access of another core that it awaits is awaited until it is performed: no fence holds it, and at
PANEL and SYSTEM scope its requests are answered (R245 to R248). -/
def Fence.tick (held : List (Nat × Nat)) (reqs : List (Nat × Option Nat × Nat)) (f : Fence) : Fence :=
  let sent := reqs.filter fun x => decide (5 ≤ f.scope.toNat) && f.past.any fun p => p.1 == x.1 && some p.2 == x.2.1
  { f with age := f.age + 1, past := f.past.filter held.contains,
           remotes := if f.order then (f.remotes ++ sent.map (·.2.2)).dedup.filter fun i => reqs.any fun x => x.2.2 == i
             else f.remotes }

/-- One tick of what a core awaits. `held`: the accesses that fences hold anywhere; `reqs`: the requests unanswered. -/
def Core.tick (held : List (Nat × Nat)) (reqs : List (Nat × Option Nat × Nat)) (c : Core) : Core :=
  { c with
    lands := c.lands.map fun l =>
      if l.ticked && !c.reissue.contains l.id then { l with wait := l.wait.map (· - 1) } else l
    stores := c.stores.map fun p => if p.act == .done && p.holds.isEmpty then { p with left := p.left - 1 } else p
    fences := c.fences.map (Fence.tick held reqs)
    remotes := c.remotes.map fun r => { r with age := r.age + 1, hib := r.hib.map (· + 1) }
    cq := c.cq.map fun e =>
      match e.phase with
      | .flying n => { e with phase := .flying (n - 1) }
      | _ => e }

/-- Every permitted core of the next task of a child in a reserved entry is held by a waiting task (R299). -/
def State.heldUp (s : State) (l : Launch) : Bool :=
  l.place == .pool true && l.undispatched &&
    (let p := s.permitted l (l.next.headD l.cursor)
     !p.isEmpty && p.all fun n => (s.coreAt n).st == .waiting)

/-- One tick of a launch. -/
def State.tickLaunch (s : State) (l : Launch) : Launch :=
  { l with
    phase := match l.phase with
      | .reading n => if l.place = .spilled ∨ l.unread = true ∨ s.supply.hib = true then .reading n else .reading (n - 1)
      | p => p
    blocked := if s.heldUp l then l.blocked + 1 else 0 }

/-- One tick of the module's counters: MCC, PTP and whatever else waits for time (R53, R385). -/
def State.tickAll (s : State) : State :=
  let t := s.tickPtp.beginReads
  ({ t with
    mcc := t.mcc + 1
    proofs := t.proofs.map fun p => { p with age := p.age + 1, probing := p.probing.map (· + 1) }
    inval := t.inval.map (· - 1)
    readBusy := t.readBusy.map fun x => (x.1, x.2 - 1)
    handoffs := t.handoffs.map fun h => { h with left := h.left - 1 }
    cancels := t.cancels.map fun c => { c with left := c.left - 1 }
    launches := t.launches.map t.tickLaunch
    scrub := t.scrub.map fun x => { x with left := x.left - 1 }
    rejoin := t.rejoin.map fun r => { r with age := r.age + 1 }
    clusters := t.clusters.map fun x => (x.1, { x.2 with pause := if x.2.pause ≤ 1 then x.2.pause else x.2.pause - 1 })
    } : State).mapCores (Core.tick (s.cores.flatMap Core.heldIds)
      ((s.cores ++ s.slots.map fun p => p.2.core).flatMap Core.requests))

/-! What falls due in a tick. -/

/-- A word of a FIFO can leave: not while its context is captured or held, and to another module only into a granted place
(R375, R399). -/
def Core.fifoDue (c : Core) (pos : Nat) (f : Fifo) : Bool :=
  c.st != .captured && c.st != .held && !f.outb.isEmpty && f.peer.any fun p => p.1 == pos || decide (0 < f.room)

/-- What falls due on a core: data, remote answers overdue, fences, acknowledgements, FIFO words, records of children.
`pos`: the module's position. -/
def Core.dueTick (pos : Nat) (c : Core) : List (Option Nat × Due) :=
  ((c.lands.filter fun l =>
      l.ticked && l.wait == some 0 && l.awaits.isEmpty && l.holds.isEmpty && !c.reissue.contains l.id).map fun l =>
    onto c.id (.dataArrival l.id)) ++
  (c.remotes.flatMap fun r =>
    (if r.hib.any fun n => decide (3300000000 ≤ n) then [here (.hibernatingTimeout c.id r.id)] else []) ++
    (if 66000 ≤ r.age then [here (.retransmitTimeout c.id r.id)] else [])) ++
  (c.fences.flatMap fun f =>
    if f.ready c then [onto c.id (.fenceComplete f.id)]
    else if 5 ≤ f.scope.toNat ∧ 660000 ≤ f.age then [onto c.id (.fenceTimeout f.id)] else []) ++
  ((c.stores.filter fun p => p.left == 0 && p.act == .done && p.holds.isEmpty).map fun p => onto c.id (.storeAck p.id)) ++
  ((List.range 16).filterMap fun k =>
    match c.fifo[k]? with
    | some f => if c.fifoDue pos f then some (here (.fifoWordTransfer c.id (BitVec.ofNat 4 k))) else none
    | none => none) ++
  (c.spawnsDue.map fun _ => onto c.id .spawnRecordRead)

/-- Launches are accepted: no channel of HBM is out of service (R351). A host's queue is served at STAGE 4 only (R422,
`State.queueServed`); before that no task runs that could spawn. -/
def State.takesLaunches (s : State) : Bool := s.rfld Key.bootst 40 8 == 0

/-- The first steps of the scheduler in a tick (R289, R297): record reads, the selections, the ends of checks. -/
def State.dueSelect (s : State) : List (Option Nat × Due) :=
  ((s.readBusy.filter fun x => x.2 == 8).map fun x => here (.launchRecordFetch (BitVec.ofNat 6 x.1))) ++
  (if s.launches.isEmpty then [] else (List.range 8).map fun d => here (.schedulerSelection d)) ++
  ((s.readBusy.filter fun x => x.2 == 0).map fun x => here (.launchAcceptance (.queue (BitVec.ofNat 6 x.1)))) ++
  (if s.takesLaunches then
    (s.launches.filter fun l => l.phase == .reading 0).map fun l => here (.launchAcceptance (.child l.serial)) else [])

/-- The hand-offs that bind in this tick, by position, with the clusters taken so far (R289, R320): those whose time has
come; but a dispatcher binds one task per cluster, except for a gang, after a rerun that has taken the cycle, and no task
with DETM.EN, to be staged or not, to a cluster whose change is deferred. -/
def State.bindable (s : State) : List (Nat × HandOff) → List Nat → List Nat
  | [], _ => []
  | (i, h) :: l, taken =>
    let gang := (s.launch h.serial).any fun m => m.gangLevel.isSome
    let cs := h.tasks.map fun x => x.2 / 8
    let held := (!gang && cs.any taken.contains) ||
      (s.launch h.serial).any fun m => h.tasks.any fun x => !s.takesDetm m x.2
    if h.left == 0 && !held then i :: s.bindable l (cs ++ taken) else s.bindable l taken

/-- The later steps of the scheduler in a tick (R289, R295, R298, R299): the bindings, the cancels, the pool's. -/
def State.dueBind (s : State) : List (Option Nat × Due) :=
  let rerun := (s.boundAt.filter fun x => x.2 == s.mcc).map (·.1)
  let bound := s.bindable (s.handoffs.zipIdx.map fun x => (x.2, x.1)) rerun
  let spilled := s.launches.filter fun l => l.place == .spilled && s.oldestSpilled l
  let asked := s.launches.filter fun l => l.place == .spilled && s.parentBlocked l
  (bound.zipIdx.map fun x => here (.taskBinding (x.1 - x.2))) ++
  ((s.cancels.filter fun c => c.left == 0).flatMap fun c => c.dies.map fun d => here (.cancelAtDie d c.serial)) ++
  (spilled.map fun l => here (.spillMove l.serial)) ++
  ((asked.insertionSort fun a b => b.prio ≤ a.prio).map fun l => here (.reservedEntryGrant l.serial)) ++
  ((s.launches.filter fun l => decide (330000 ≤ l.blocked)).map fun l => here (.childPreemptTimeout l.serial))

/-- The steps of supersteps and of invalidations (R237, R329, R346). -/
def State.dueMemory (s : State) : List (Option Nat × Due) :=
  ((s.steps.filter fun x => s.commDone x.key).map fun x => here (.superstepRelease x.key)) ++
  (if s.inval = some 0 then [here .invalidationComplete] else [])

/-- The steps of the Enlarger, once the cycles of a tick are over: its deliveries rank after what the cores themselves
write in the cycle (R331, R333, R345). -/
def State.dueEnlarger (s : State) : List (Option Nat × Due) :=
  s.segs.map fun g => here (if g.read.isNone then .enlargerWordRead g.id else .enlargerDelivery g.id)

/-- The owner's proof cache (R369): the later entries first, since an end of a probe takes entries away. -/
def State.dueProofs (s : State) : List (Option Nat × Due) :=
  (s.proofs.zipIdx.reverse.flatMap fun x =>
    if x.1.probing.any fun n => decide (3300000000 ≤ n) then [here (.probeTimeout x.2)]
    else if 33000000 ≤ x.1.age ∧ x.1.probing = none then [here (.proofProbe x.2)] else [])

/-- What every core of a cluster takes at the boundary of its switch point, before the step changes (R321). Its record's MCC
is that of this tick, the pause's first, though R321 does not say which tick of the pause it is taken in (DESIGN CHOICE, log
entry 96). -/
def State.causesAt (s : State) (c : Nat) : List (Option Nat × Due) :=
  (s.cores.filter fun k => k.id / 8 == c && k.st != .free).filterMap fun k =>
    (s.focus k.id).causeNow.map fun d => onto k.id d

/-- The clusters' requests (R320, R321, R410 to R412, R421). -/
def State.dueClusters (s : State) : List (Option Nat × Due) :=
  (s.clusters.flatMap fun x =>
    (if x.2.pause = 1 then [here (.clockPauseEnd x.1)] else []) ++
    (if s.switchDue x.1 then s.causesAt x.1 ++ [here (.switchPoint x.1)] else []) ++
    (if x.2.wantThr.isSome && x.2.k % 16 == 0 then [here (.throttleApply x.1)] else [])) ++
  (if s.rfld Key.clret 8 1 = 1 ∧ s.clusterEmpty (s.rfld Key.clret 0 7) = true then
    [here (.clusterRetire (s.reg Key.clret))] else [])

/-- The periodic checks of power and of the Loupe, the patrol, and the overheat warning (R356, R358, R415, R416). -/
def State.duePeriodic (s : State) : List (Option Nat × Due) :=
  let n := s.mcc.toNat
  let on := !s.supply.hib
  (if n % 330000 = 0 then [here .limiterFallCheck] else []) ++
  (if n % 3300000 = 0 then [here .limiterRiseCheck] else []) ++
  (if s.loupeOn = true ∧ n % (s.rfld Key.loupectl 32 8 * 1048576) = 0 then [here .loupeWindowEnd] else []) ++
  (if on = true ∧ (s.scrub.any fun x => x.left == 0) = true then [here .scrubWriteback] else []) ++
  (if on = true ∧ s.rfld Key.sqctl 16 1 = 1 ∧ n % s.patrolTicks = 0 then [here (.scrubRead s.patrol)] else []) ++
  ((s.hot.filter fun x => decide (x.2 + 3300000 ≤ n)).map fun x => here (.tripOverheatWarning x.1))

/-- The drain after a warning (R388, R393, R396). -/
def State.dueDrain (s : State) : List (Option Nat × Due) :=
  if s.supply.hib = false then []
  else if s.supply.ended then [here .contactSheetWrite]
  else if s.supply.draining then [here .fixerChunk]
  else if s.allCaptured then [here .fixerDrain] else []

/-- The next part of a boot, and the ends of the checks of collective groups (R406, R422). -/
def State.dueBoot (s : State) : List (Option Nat × Due) :=
  (match s.bootNext with
   | some p => [here (.moduleReset p)]
   | none => []) ++
  ((s.rejoin.filter fun r => decide (3300000000 ≤ r.age)).map fun r => here (.collectiveRejoin r.entry))

/-- What falls due as a tick begins. -/
def State.dueTick (s : State) : List (Option Nat × Due) :=
  s.cores.flatMap (Core.dueTick s.pos) ++ s.dueSelect

/-- What falls due in a tick after the selections. The switch points come first: a cause that arises later in this tick is not
taken at their boundary, and its record has the new step (R321). -/
def State.dueLater (s : State) : List (Option Nat × Due) :=
  s.dueClusters ++ s.dueBind ++ s.dueMemory ++ s.dueProofs ++ s.duePeriodic ++ s.dueDrain ++ s.dueBoot

/-! The cycles of a tick (R5, R407, R410). -/

/-- A cluster's clock against the tick, in 33rds: 3.3, 3.0, 2.6, 2.2, 1.6 GHz (R37). -/
def stepRate (step : BitVec 3) : Nat :=
  if step = 0 then 33 else if step = 1 then 30 else if step = 2 then 26 else if step = 3 then 22 else 16

/-- One tick of a cluster's clock; a paused cluster has no cycle. -/
def Cluster.clock (k : Cluster) : Cluster :=
  if k.pause = 0 then { k with acc := if 33 ≤ k.acc + stepRate k.step then k.acc + stepRate k.step - 33
                                      else k.acc + stepRate k.step } else k

/-- A cycle of the cluster runs in this tick. -/
def Cluster.runs (k : Cluster) : Bool := k.pause == 0 && decide (k.acc < stepRate k.step)

/-- A core has a cycle in this tick; the management core's is every second tick (R407). -/
def State.coreRuns (s : State) (n : Nat) : Bool :=
  if n = mgmtId then s.mcc.toNat % 2 == 0 else (s.cluster (n / 8)).runs

/-- The clocks of all clusters move; the cores that hold a context, and have a cycle, take their turns, the lowest
number first. -/
def State.startCycles (s : State) : State :=
  let t := (List.range 80).foldl (fun (t : State) c => t.onCluster c Cluster.clock) s
  { t with
    turn := ((t.cores.filter fun c => c.st != .free && t.coreRuns c.id).map (·.id)).insertionSort (· ≤ ·)
    phase := .pick }

/-- The cycles of this tick are over: k counts them, the arrays in use take a step of their windows, and the Enlarger
goes on (R175, R345, R412). -/
def State.endCycles (s : State) : State :=
  let ran := (List.range 80).filter fun c => (s.cluster c).runs
  { ran.foldl (fun (t : State) c => t.onCluster c fun k => { k with k := k.k + 1 }) s with
    due := ((s.arrays.filter fun x => x.2.set && (s.cluster (x.1 / 4)).runs).map fun x => here (.arrayWindowSwitch x.1)) ++
      s.dueEnlarger
    phase := .tick }

/-! What falls due in a cycle of the core in focus. -/

/-- The counts of a cycle: landings and their data, releases, misses, the start of a bound task. After a restore no
landing counts before the resumed issue (R52). -/
def Core.cycle (c : Core) : Core :=
  let counts := c.live || c.st == .draining
  { c with
    lands := if counts && c.reissue.isEmpty then
        c.lands.map fun l => { l with left := l.left - 1, wait := if l.ticked then l.wait else l.wait.map (· - 1) }
      else c.lands
    relWait := if counts then c.relWait.map fun p => (p.1, p.2 - 1) else c.relWait
    wantLeft := c.wantLeft - 1
    task := match c.task with
      | some t => if c.st = .bound then some { t with left := t.left - 1 } else some t
      | none => none
    staged := c.staged.map fun t => { t with left := max 1 (t.left - 1) } }

/-- Data is late in this cycle (R7, R71, R157): a landing cycle has passed, or has come without its data. -/
def Core.late (before after : Core) : Bool :=
  before.lands.zip after.lands |>.any fun x =>
    !after.reissue.contains x.2.id && x.2.left == 0 &&
      (x.1.left == 0 ||
        !(match x.2.kind with
          | .sfu b => b && x.2.wait == some 0
          | _ => x.2.arrived || (x.2.cycled && x.2.wait == some 0)))

/-- The landings of a cycle: data from the scratchpad, starts and ends of the special-function unit, and the writes, in
program order. -/
def Core.dueLands (c : Core) : List (Option Nat × Due) :=
  let ls := c.lands.filter fun l => !c.reissue.contains l.id
  ((ls.filter fun l => l.cycled && l.wait == some 0).map fun l => onto c.id (.dataArrival l.id)) ++
  (ls.flatMap fun l =>
    match l.kind with
    | .sfu false => if l.wait = some 24 then [onto c.id (.sfuStart l.id)] else []
    | .sfu true => if l.left = 0 ∧ l.wait = some 0 then [onto c.id (.sfuResult l.id)] else []
    | _ => if l.left = 0 then [onto c.id (.landing l.id)] else [])

/-- The misses whose time has come (R45, R260, R325). -/
def Core.dueWants (c : Core) : List (Option Nat × Due) :=
  if c.wantLeft = 0 then
    c.want.map fun w =>
      match w with
      | .walk va kind => onto c.id (.pageWalk va kind)
      | .tag gs store => onto c.id (.ownerTagCheck gs store)
  else []

/-- What ends the wait or the freeze of the context (R46): the held bundle is then evaluated again. A fault that system
software has answered ends its freeze a cycle later. In a cycle that is not admitted a waiting bundle is not (R412). -/
def Core.dueResume (c : Core) (admitted : Bool) : List (Option Nat × Due) :=
  if c.st = .frozen ∧ c.lateFrozen = false ∧ c.pf = none ∧ (c.want.isEmpty || c.wantLeft == 0) = true ∧
      c.reissue.isEmpty = true ∧ (c.left.any fun x => x.held) = false then [onto c.id .freezeEnd]
  else if c.st = .waiting ∧ admitted = true then [onto c.id .waitSatisfied] else []

/-- The start of a bound task, and the preload of the task staged behind it (R281, R289, R290). A first issue needs a
cycle that the throttle admits (R412): the counters that start with it start there (R25, R45, R53; DEDUCED, log
entry 88). -/
def Core.dueStart (c : Core) (admitted : Bool) : List (Option Nat × Due) :=
  let ready := c.st == .bound && c.kill.isNone && c.task.any fun t => t.left == 0
  (match c.preloading with
   | some (t, staged) =>
     if (staged || ready) && t.preFault.isNone && !c.awaits 0 then [onto c.id .preloadComplete] else []
   | none => []) ++
  (if ready && admitted then [onto c.id .firstIssue] else [])

/-- The core in focus may issue in this cycle (R412). -/
def State.admitted (s : State) : Bool := s.mgmt || s.admits (s.core.id / 8)

/-- An uncorrectable word of the register file ends the task: MEMORY_ERROR pends for the next boundary (R419). Its TRC3
and TRC4 are not given, and free (DESIGN CHOICE, log entry 83). -/
def State.regError (s : State) : State :=
  if s.core.badReg && !s.mgmt && (s.core.live || s.core.st == .draining) then
    (s.onCore fun c => { c with badReg := false }).raiseB s.core.id
      { cause := 0x10, addr := BitVec.ofNat 64 (s.free 0x70000000000000), aux := BitVec.ofNat 64 (s.free 0x70000000000001) }
  else s

/-- The first part of a cycle of the core in focus. -/
def State.startCycle (s : State) : State :=
  let c := s.core.cycle
  let late := c.live && s.core.late c
  let d := { c with rowsWas := c.rows, lateFrozen := late, st := if late then .frozen else c.st,
                    port := (c.port.filter fun p => p.2 != 0).map fun p => (p.1, p.2 - 1), cqPast := 0,
                    stamps := if late then [] else c.stamps,
                    want := if c.wantLeft = 0 then [] else c.want }
  { s with
    core := d
    due :=
      (match d.restoring with
       | some n => if d.delay = 0 then [onto d.id (.contextRestore n)] else []
       | none => []) ++
      (if d.relWait.any fun p => p.2 == 0 then [onto d.id .barrierReleaseDelivery] else []) ++
      (if d.live || d.st == .draining then d.dueLands else []) ++ c.dueWants ++ d.dueStart s.admitted ++
      { d with want := c.want }.dueResume s.admitted ++
      (if s.mgmt && d.wfi && s.irqs != 0 then [onto d.id .wfiWake] else [])
    phase := .issue }

/-! The queues' phases (R34, R184, R222). -/

/-- The copy queue's first entry starts: not while its context is captured or held (R226, R399). -/
def State.copyStarts (s : State) : Bool := (s.core.live || s.core.st == .draining) && s.copyDue

/-- What the matrix queue does next in a cycle. -/
inductive MStep where
  | start | block | complete
  deriving DecidableEq, Repr

/-- What the matrix queue does next in this cycle, if anything. -/
def State.dueMatrix (s : State) : Option MStep :=
  if s.core.live || s.core.st == .draining then
    match s.core.mq with
    | e :: _ =>
      if e.running && e.done == e.blocksDue && !s.core.mqDid then some .complete
      else if s.canStart then some .start
      else if s.blockDue then some .block
      else none
    | [] => none
  else none

/-! The end of a cycle. -/

/-- The names of the accesses that posted parts and remote requests belong to; those of a landing count with it. -/
def Core.accesses (c : Core) : List Nat :=
  ((c.stores.filter fun p =>
      match p.act with
      | .atomic _ _ _ _ _ (some _) _ => false
      | _ => true).map (·.acc) ++
    c.remotes.filterMap fun r => if r.land.isNone then r.acc else none).dedup

/-- Requests of the core that memory has not answered (R199): each access counts once, a gather once for each row, and a
copy engine's request once, the copy in flight as one where it asks nothing of a peer. -/
def Core.outstanding (c : Core) : Nat :=
  (c.lands.foldl (fun n l =>
    match l.kind with
    | .load _ _ _ => if l.arrived then n else n + 1
    | .atomic => if l.arrived then n else n + 1
    | .rows _ _ => if l.arrived then n else n + 1
    | .gather base offs =>
      if l.arrived then n
      else n + ((List.range 32).map fun i => gatherAddr base (elt offs 32 i) / 64).dedup.length
    | _ => n) 0) + c.accesses.length + (c.remotes.filter fun r => r.land.isNone && r.acc.isNone).length +
  (c.cq.filter fun e =>
    match e.phase with
    | .flying _ => true
    | _ => false).length

/-- What a context that is frozen leaves as its cycle ends (R46). -/
def Core.leaves (c : Core) : Option Left :=
  if c.st = .frozen then
    some { entries := c.entries, reqs := c.outstanding, words := c.fifo.toList.map fun f => (f.inb.length, f.outb.length),
           held := c.pf.isSome, short := c.left.any (·.short) }
  else none

/-- The counts that end a cycle: RSIG (R32), FSTAT (R43), TBUDGET and the cycle counter (R38, R45), the delays. The
cycle in which EXIT commits is an active one (log entry 59); the management core counts every cycle (R149, R407). -/
def Core.endCycle (c : Core) : Core :=
  let d := c.applyRsig
  let r := { d.r with
    fstat := d.r.fstat ||| d.fstatSet
    tbudget := if (c.live || c.note == .exit) && d.r.tbudget != BitVec.allOnes 64 && d.r.tbudget != 0 then d.r.tbudget - 1 else d.r.tbudget }
  { d with
    r := r, fstatSet := 0, note := .none, left := d.leaves
    cyc := if c.id = mgmtId ∨ c.st = .active ∨ c.st = .waiting ∨ c.note = .exit then c.cyc + 1 else c.cyc
    delay := c.delay - 1, tilePort := c.tilePort - 1, sfuLast := c.sfuLast - 1, mqDid := false
    mq := c.mq.map fun e => { e with fresh := false }
    cq := c.cq.map fun e => { e with fresh := false } }

/-- The last part of a cycle of the core in focus: a drained task retires, a capture completes (R46, R313). -/
def State.endCycle (s : State) : State :=
  let c := s.core.endCycle
  let key := match c.task with
    | some t => c.id * 65536 + t.context.toNat
    | none => 0
  { s with
    core := c
    heldCyc := if c.task.isSome && c.st != .captured && c.st != .held then
        Sparse.set s.heldCyc key (Sparse.get 0 s.heldCyc key + 1) else s.heldCyc
    irqSet := if c.id = mgmtId then 0 else s.irqSet
    due := (if c.drained then [onto c.id .taskRetire] else []) ++
      (if c.st = .captured ∧ c.capReq.isSome = true then [onto c.id .captureComplete] else [])
    phase := .pick }

end Sys2Proof.Machine
end

