-- ==== Sys2Proof/Machine/Bundle.lean ====
section
/-! DEFINITION. Bundle: the issue of a bundle, all of its slots or none (R8, R45 to R48, R56, R57, R137, R140), the order
of a boundary (R306), and the phases of a cycle (R34). -/

namespace Sys2Proof.Machine

/-- Go on with the state an outcome leaves; a stop stays a stop. -/
def onNext {α β : Type} (o : Host.Outcome α Fault Refusal) (f : α → Host.Outcome β Fault Refusal) :
    Host.Outcome β Fault Refusal :=
  match o with
  | .next t => f t
  | .fault r => .fault r
  | .refused r => .refused r

/-! The slots of a bundle (R34, R56, R57). -/

/-- The order of token changes within the committing bundle: SWR to TKVAL, TWAIT, TSIG, then everything else (R34). -/
def slotRank : Instr → Nat
  | .swr o => if o.imm = 0x016 then 0 else 3
  | .twait _ => 1
  | .tsig _ => 2
  | _ => 3

/-- The instructions of a bundle with their slots. A word of zeros is a NOP without effect (R61). -/
def slotsOf (ws : List Nat) : List (Nat × Instr) :=
  ws.zipIdx.filterMap fun x => if x.1 = 0 then none else (decodeWord (slotCls x.2) x.1).map fun i => (x.2, i)

/-- The slots in the order in which they act: by rank, and by slot number within a rank. -/
def inOrder (l : List (Nat × Instr)) : List (Nat × Instr) :=
  (List.range 4).flatMap fun r => l.filter fun x => slotRank x.2 == r

/-- The instruction of a slot is executed. -/
def State.runOne (s : State) (x : Nat × Instr) : Out := exec x.2 { s with slot := x.1 }

/-- The bundle does not commit this slot. -/
def Note.stops : Note → Bool
  | .frozen => true
  | .waiting => true
  | .trap _ => true
  | _ => false

/-- Take the tokens, the scratchpad rows, the FIFOs and the matrix queue from another state of the core in focus. -/
def State.takeOver (s t : State) : State :=
  s.onCore fun c =>
    { c with r := { c.r with tkval := t.core.r.tkval }, rows := t.core.rows, badWords := t.core.badWords,
             fifo := t.core.fifo, mq := t.core.mq, mqNext := t.core.mqNext }

/-- Take the copy queue too. -/
def State.takeQueues (s t : State) : State :=
  (s.takeOver t).onCore fun c => { c with cq := t.core.cq, cqNext := t.core.cqNext, cqNum := t.core.cqNum }

/-- Try every slot alone on the state before the bundle, but for the tokens, which the slots change in turn, the
scratchpad rows, which a slot reads as the slots before it leave them (R56), and the queues, whose places and words the
slots of a bundle share (R45). -/
def State.trySlots (s : State) : List (Nat × Instr) → Host.Outcome (List (Nat × Instr × State)) Fault Refusal
  | [] => .next []
  | x :: l =>
    onNext (s.runOne x) fun t =>
      onNext ((if t.core.note.stops then s else s.takeQueues t).trySlots l) fun r =>
        .next ((x.1, x.2, t) :: r)

/-- Execute the slots one after another, each on what the ones before it left; their sources are those of the issue
(R57). It ends early where a slot cannot commit after the others. -/
def State.runSlots (s : State) : List (Nat × Instr) → Out
  | [] => .next s
  | x :: l => onNext (s.runOne x) fun t => if t.core.note.stops then .next t else t.runSlots l

/-- The STAMP targets of a bundle (R150). -/
def State.stampsOf (s : State) (l : List (Nat × Instr)) : List (Nat × Word) :=
  l.filterMap fun x =>
    match x.2 with
    | .stamp o => if s.guard o.h then some (x.1, stampTarget s.core.iss.fbase o.imm) else none
    | _ => none

/-- The bundle freezes (R45): nothing of it commits; misses are under way, or it is `short` of room. How long a miss takes is
not architected (R445). -/
def State.freezeBundle (s : State) (wants : List Want) (short : Bool) : State :=
  s.onCore fun c => { c with st := .frozen, note := .frozen, want := wants, waitOn := [], stamps := [],
                             wantLeft := Config.memTicks s.ctr % 1000000 + 1, left := some { short := short } }

/-- The bundle waits (R45, R233, R234): of its slots only those that wait have acted, on arrivals and marks. -/
def State.waitBundle (s : State) (l : List (Nat × Instr)) (waits : List (Nat × Instr)) : Out :=
  onNext (waits.foldl (fun (o : Out) x =>
    onNext o fun t =>
      onNext (t.runOne x) fun u => .next (if u.core.note = .waiting then u.onCore fun c => { c with note := .none } else t))
    (.next s)) fun t =>
    .next (t.onCore fun c => { c with st := .waiting, note := .waiting, stamps := s.stampsOf l })

/-! The next bundle (R137, R140). -/

/-- The armed loops that end at a bundle, innermost first (R140). -/
def loopsAt (lc : Vector Lc 4) (x : Word) : List Nat :=
  ((List.range 4).filter fun i =>
    let l := lc.getD i { count := 0, start := 0, stop := 0 }
    l.count != 0 && l.stop == x).insertionSort fun i j =>
      let a := lc.getD i { count := 0, start := 0, stop := 0 }
      let b := lc.getD j { count := 0, start := 0, stop := 0 }
      b.start.toNat < a.start.toNat ∨ (a.start = b.start ∧ j ≤ i)

/-- Loop-back (R140): the counters after it, and the address of the next bundle. `old`: the counters as they stood before
the commit. -/
def loopBack (old : Vector Lc 4) (x : Word) : List Nat → Vector Lc 4 → Vector Lc 4 × Word
  | [], lc => (lc, x + 32)
  | i :: l, lc =>
    let a := old.getD i { count := 0, start := 0, stop := 0 }
    if 1 < a.count.toNat then (lc.setIfInBounds i { a with count := a.count - 1 }, a.start)
    else loopBack old x l (lc.setIfInBounds i { a with count := 0 })

/-- The bundle at PC has committed: PC moves (R137). `old`: the counters as they stood before. -/
def Core.advance (c : Core) (old : Vector Lc 4) : Core :=
  match c.note with
  | .jump x => { c with pc := x }
  | .skip x => { c with pc := x }
  | .armed => { c with pc := c.pc + 32 }
  | .exit => c
  | _ =>
    let r := loopBack old c.pc (loopsAt old c.pc) c.r.lc
    { c with pc := r.2, r := { c.r with lc := r.1 } }

/-- The bundle commits (R57): PC moves. -/
def State.commitBundle (s : State) (old : Vector Lc 4) : State := s.onCore fun c => c.advance old

/-- What a frozen context had in use at the end of its last cycle and has not now: it is open to the bundle only in the
next (R46). -/
def Core.gained (c : Core) : Left :=
  match c.left with
  | some x =>
    { entries := x.entries - c.entries, reqs := x.reqs - c.outstanding,
      words := x.words.zipIdx.map fun w =>
        let f := c.fifo.getD w.2 {}
        (f.inb.length - w.1.1, w.1.2 - f.outb.length) }
  | none => {}

/-- The state on which a bundle is evaluated: sources are read from the registers as they stand now (R57). -/
def State.issueState (s : State) : State :=
  s.onCore fun c =>
    { c with iss := c.r, busy := c.lands.map (·.dst), note := .none, waitOn := [], stamps := [], want := [],
             gain := c.gained }

/-- The slots that can commit need more landing-buffer entries, or requests, than are free (R50, R199). For a bundle that
was frozen, what has been freed since the last cycle is not yet free (R46). -/
def State.crowded (s : State) (r : List (Nat × Instr × State)) : Bool :=
  let ok := r.filter fun x => !x.2.2.core.note.stops
  decide (256 < ok.foldl (fun n x => n + (x.2.2.core.entries - s.core.entries)) (s.core.entries + s.core.gain.entries) ∨
    8192 < ok.foldl (fun n x => n + (x.2.2.core.outstanding - s.core.outstanding))
      (s.core.outstanding + s.core.gain.reqs))

/-- What a bundle does once all its slots can commit (R137). -/
def State.commitSlots (s : State) (l : List (Nat × Instr)) : Out :=
  onNext (s.runSlots l) fun t =>
    if t.core.note.stops then .next (s.freezeBundle [] true) else .next (t.commitBundle s.core.iss.lc)

/-- A trap of a slot: nothing of the bundle commits, tokens, rows and queues included (R8). What the trap itself does to
the copy queue stays (R225). -/
def State.untoken (s t : State) : State :=
  (t.takeOver s).onCore fun c =>
    { c with cq := c.cq.filter fun e => decide (e.num < s.core.cqNum), cqNext := s.core.cqNext, cqNum := s.core.cqNum }

/-- Decide a bundle from the trial of its slots (R45, R47, R48, R306): a freeze; while a slot waits, the lowest slot's
trap of those taken all the same, or the wait; otherwise the trap of the lowest failing slot, or the commit of all. A
slot that fails its check needs no entry, so its trap comes before a freeze for what it alone would need (DEDUCED, log
entry 70). R150 does not say whether a frozen cycle of a ready bundle makes the overrun test: here the freeze comes first, a
miss met at issue among them, and the test is made in the cycles that do not freeze (DESIGN CHOICE, log entry 93). -/
def State.decideBundle (s : State) (l : List (Nat × Instr)) (r : List (Nat × Instr × State)) : Out :=
  let noted := fun (n : Note) => r.filter fun x => x.2.2.core.note == n
  let lowest := fun (a : List (Nat × Instr × State)) => a.foldl (fun (m : Option (Nat × Instr × State)) x =>
    match m with
    | some y => if x.1 < y.1 then some x else some y
    | none => some x) none
  let waits := noted .waiting
  let traps := noted (.trap true) ++ (if waits.isEmpty then noted (.trap false) else [])
  if !(noted .frozen).isEmpty then
    .next (s.freezeBundle ((noted .frozen).flatMap fun x => x.2.2.core.want) ((noted .frozen).any fun x => x.2.2.core.want.isEmpty))
  else if s.crowded r then .next (s.freezeBundle [] true)
  else
    match lowest traps with
    | some (_, .stamp _, t) =>
      if t.core.note = .trap true then execFrameOverrun (s.onCore fun c => { c with stamps := s.stampsOf l })
      else .next (s.untoken t)
    | some (_, _, t) => .next (s.untoken t)
    | none => if waits.isEmpty then s.commitSlots l else s.waitBundle l (waits.map fun x => (x.1, x.2.1))

/-- A first resumed bundle that has frozen or trapped has not issued: FBASE still waits for its move (R316). One that waits has
not issued either (R47), but its STAMP or TWAIT needs FBASE: M1 is then the MCC of its first evaluation (DESIGN CHOICE, log
entry 94). -/
def State.keepM0 (s t : State) : State :=
  match s.core.resumeM0, t.core.note with
  | some m0, .frozen => t.onCore fun c => { c with resumeM0 := some m0, r := { c.r with fbase := s.core.r.fbase } }
  | some m0, .trap _ => t.onCore fun c => { c with resumeM0 := some m0, r := { c.r with fbase := s.core.r.fbase } }
  | _, _ => t

/-- Issue the bundle whose words are given. -/
def State.issueWords (s : State) (ws : List Nat) : Out :=
  let t := s.resumeFbase.issueState
  let l := inOrder (slotsOf ws)
  onNext (onNext (t.trySlots l) fun r => t.decideBundle l r) fun u => .next (s.keepM0 u)

/-! What is due (Due.lean) is done by the meaning of its row. -/

/-- The meaning of the row that a due event names. -/
def Due.run (d : Due) (s : State) : Out :=
  match d with
  | .dataArrival id => execDataArrival id false s
  | .hibernatingTimeout core id => execHibernatingTimeout core id s
  | .retransmitTimeout core id => execRetransmitTimeout core id s
  | .fenceComplete id => execFenceComplete id s
  | .fenceTimeout id => execFenceTimeout id s
  | .storeAck id => execStoreAck id s
  | .fifoWordTransfer core q => execFifoWordTransfer core q.toNat .out s
  | .launchRecordFetch q => execLaunchRecordFetch q s
  | .schedulerSelection die => execSchedulerSelection die s
  | .launchAcceptance src => execLaunchAcceptance src s
  | .taskBinding h => execTaskBinding h s
  | .cancelAtDie die serial => execCancelAtDie die serial s
  | .spillMove serial => execSpillMove serial s
  | .reservedEntryGrant serial => execReservedEntryGrant serial s
  | .childPreemptTimeout serial => execChildPreemptTimeout serial s
  | .superstepRelease key => execSuperstepRelease key s
  | .enlargerWordRead id => execEnlargerWordRead id s
  | .enlargerDelivery id => execEnlargerDelivery id s
  | .invalidationComplete => execInvalidationComplete s
  | .probeTimeout i => execProbeTimeout i s
  | .proofProbe i => execProofProbe i s
  | .clockPauseEnd c => execClockPauseEnd c s
  | .switchPoint c => execSwitchPoint c s
  | .capture => execCapture s
  | .safelightHold => execSafelightHold s
  | .trapDelivery => execTrapDelivery s
  | .budgetOverrun => execBudgetOverrun s
  | .throttleApply c => execThrottleApply c s
  | .clusterRetire v => execClusterRetire v s
  | .limiterFallCheck => execLimiterFallCheck s
  | .limiterRiseCheck => execLimiterRiseCheck s
  | .loupeWindowEnd => execLoupeWindowEnd s
  | .scrubRead line => execScrubRead line s
  | .scrubWriteback => execScrubWriteback s
  | .collectiveRejoin n => execCollectiveRejoin n .timeUp s
  | .moduleReset part =>
    (match s.boot with
     | some p => execModuleReset ⟨p, part⟩ s
     | none => .next s)
  | .tripOverheatWarning n => execTripOverheatWarning n s
  | .contactSheetWrite => execContactSheetWrite s
  | .fixerChunk => execFixerChunk s
  | .fixerDrain => execFixerDrain s
  | .arrayWindowSwitch j => execArrayWindowSwitch j s
  | .contextRestore n => execContextRestore n s
  | .barrierReleaseDelivery => execBarrierReleaseDelivery s
  | .sfuStart id => execSfuStart id s
  | .sfuResult id => execSfuResult id s
  | .landing id => execLanding id s
  | .pageWalk va kind => execPageWalk va kind s
  | .ownerTagCheck gs store => execOwnerTagCheck gs store s
  | .freezeEnd => execFreezeEnd s
  | .waitSatisfied => execWaitSatisfied s
  | .firstIssue => execFirstIssue s
  | .preloadComplete => execPreloadComplete s
  | .wfiWake => execWfiWake s
  | .taskRetire => execTaskRetire s
  | .captureComplete => execCaptureComplete s
  | .spawnRecordRead => execSpawnRecordRead s

/-- Do the first thing that is due, on its core. -/
def State.doDue (s : State) : Out :=
  match s.due with
  | [] => .next s
  | (some n, d) :: l => d.run (({ s with due := l } : State).focus n)
  | (none, d) :: l => d.run { s with due := l }

/-! The boundary (R306). -/

/-- The fetch of the next bundle, its decision at decode, and its issue (R76). -/
def State.nextBundle (s : State) : Out :=
  let t := s.noteFetch
  match s.fetch with
  | .miss => .next (t.freezeBundle [.walk s.core.pc 3] false)
  | .bad _ => execTrapDelivery t
  | .ok bs =>
    match t.judgeWords (bundleWords bs) with
    | some _ => execIllegalBundle t
    | none => t.issueWords (bundleWords bs)

/-- The context may take its next bundle in this cycle. -/
def State.canIssue (s : State) : Bool :=
  s.core.st == .active && s.core.delay == 0 && !s.core.wfi && s.core.reissue.isEmpty && s.admitted

/-- A cycle that is not admitted: the context issues nothing and stays active, but one whose bundle was frozen for want of
room stays frozen as long as that lasts (R45, R46, R412). -/
def State.notAdmitted (s : State) : State :=
  if s.core.st == .active && s.core.left.any (·.short) then
    (match s.nextBundle with
     | .next t => if t.core.note == .frozen && t.core.left.any (·.short) then s.onCore fun c => { c with st := .frozen } else s
     | _ => s)
  else s

/-- The boundary of a cycle of the core in focus (R306): what comes before a bundle, landings to be issued again,
interrupts, then the next bundle. -/
def State.boundary (s : State) : Out :=
  let c := s.core
  match s.causeNow with
  | some d => d.run s
  | none =>
    if c.live && !c.reissue.isEmpty && c.pf.isNone && c.delay == 0 && s.admitted then
      (let t := s.reissueBoundary
       if t.core.note.stops || !t.canIssue then .next t else t.nextBundle)
    else if s.canIssue = false then .next s.notAdmitted
    else if s.mgmt && c.accept && s.irq.isSome then execInterrupt s
    else s.nextBundle

/-! The phases (R34). -/

/-- The issue phase: the boundary, and after it the requests that the memory slots' ports have left rows for, and the copy
queue's phase. -/
def State.issuePhase (s : State) : Out :=
  s.boundary |> fun o => onNext o fun t => .next { t.onCore Core.servePorts with phase := .copy }

/-- The copy queue's phase: what it does, one step at a time, in the order of its entries, and then the matrix queue's phase
(R34, R222). -/
def State.copyPhase (s : State) : Out :=
  if s.copyStarts && s.core.firstCopy.any s.startsBefore then execCopyEntryStart s
  else if s.copyEnds then execCopyComplete s
  else if s.copyStarts then execCopyEntryStart s
  else .next { s with phase := .matrix }

/-- The matrix queue's phase. -/
def State.matrixPhase (s : State) : Out :=
  match s.dueMatrix with
  | some .complete => execMatrixEntryComplete s
  | some .start => execMatrixEntryStart s
  | some .block => execMatrixBlock s
  | none => .next { s with phase := .close }

/-- The next core of this tick takes its cycle; when all have, the tick's cycles are over. -/
def State.pickPhase (s : State) : State :=
  match s.turn with
  | [] => s.endCycles
  | n :: l => { ({ s with turn := l } : State).focus n with phase := .land }

/-- An outside agent's row acts: but after a power-fail warning a host's write to BAR0 is dropped (R389). -/
def State.takeRow (s : State) (i : Instr) : Out := if s.supply.hib && barZero i then .next s else exec i s

/-- An outside agent's row acts; a landing-window write waits for its ports, and a host's access behind one waits with it (R256,
R331; log entry 107). -/
def State.takeHost (s : State) (x : Input) : Out :=
  if hostRow x.row && !s.landWait.isEmpty then .next { s with landWait := s.landWait ++ [x] }
  else
    match x.row with
    | .landingWindowWrite port w off data => s.windowStep x port w (off + BitVec.ofNat 16 x.done) (data.drop x.done)
    | i => s.takeRow i

/-- What outside agents do reaches the module between ticks; a TLP without IDE, only where its port does not demand it
(R376). A host's access that has to wait comes again in the next tick, ahead of what arrives meanwhile (R256, R331). -/
def State.tickPhase (s : State) : Out :=
  match s.inputs with
  | x :: l =>
    let t : State := { s with inputs := l }
    match x.bare with
    | some p =>
      if s.ideNeeded p then .next (t.turnAway p x.row) else t.takeHost x
    | none => t.takeHost x
  | [] =>
    let t := s.tickAll.sweepSaved
    .next { t with due := t.dueTick, phase := .bind, inputs := t.landWait, landWait := [] }

/-- After the selections of a tick: its bindings, and all else that falls due. -/
def State.bindPhase (s : State) : State := { s with due := s.dueLater, phase := .cycle }

/-- One step of the phase the machine stands in. -/
def State.phaseStep (s : State) : Out :=
  match s.phase with
  | .tick => s.tickPhase
  | .bind => .next s.bindPhase
  | .cycle => .next s.startCycles
  | .pick => .next s.pickPhase
  | .land => .next s.startCycle.regError
  | .issue => s.issuePhase
  | .copy => s.copyPhase
  | .matrix => s.matrixPhase
  | .close => .next s.endCycle

/-- While no clock runs, only a module reset or a readout does anything (R53, R402, R426, R427). But a module that has powered
down after a hibernation restarts by itself as soon as its input carries its draw (R387). -/
def State.haltedStep (s : State) : Out :=
  match s.inputs with
  | { row := .moduleReset x, .. } :: l => execModuleReset x { s with inputs := l }
  | { row := .readout a, .. } :: l => execReadout a { s with inputs := l }
  | { row := .safelightExit, .. } :: l =>
    if s.supply.down then execSafelightExit { s with inputs := l } else .fault .clocksStopped
  | _ => if s.supply.down && !s.supply.lost then execModuleReset ⟨s.restartPins, .reset⟩ s else .fault .clocksStopped

/-! A program placed for the next step (log entry 6). -/

/-- Where `withFetchWord` places a bundle: virtual and physical address. -/
def placeAt : Nat := 0x1000000

/-- The leaf that maps the first 1 GB of HBM, readable, writable and executable (R324). -/
def placeLeaf : Word := 0x1F

/-- A context as it stands at its first issue, with PC at the placed bundle (R18, R25). -/
def placedCore (c : Core) (mem : List Host.Cell) : Core :=
  let r := { Regs.reset with p := 1 }
  { id := c.id, st := .active, r := r, iss := r, pc := BitVec.ofNat 64 placeAt, codeMem := mem,
    rows := c.rows, rowsWas := c.rows, prevCtx := c.prevCtx, utlb := c.utlb, ctlb := c.ctlb,
    task := some { serial := 0, index := 0, context := 0, keyid := 0, scratch := 12288, half := 2, preloaded := true,
                   left := 0 } }

/-- Tables for CONTEXT 0 at ROOTBASE 0, and 32 bytes at `placeAt` (R322, R323). -/
def State.place (s : State) (bs : List Byte) : State :=
  let s1 := ((s.focus 0).setReg Key.rootbase 0)
  let s2 := s1.physWrite 0 (leBytes 8 0x200001) 0
  let s3 := s2.physWrite 0x200000 (leBytes 8 0x201001) 0
  let s4 := s3.physWrite 0x201000 (leBytes 8 placeLeaf.toNat) 0
  let s5 := (s4.physWrite placeAt bs 0).cacheLeaf 0 (BitVec.ofNat 64 placeAt) placeLeaf 1073741824
  { s5 with core := placedCore s5.core s5.mem, phase := .issue, due := [], halted := false }

/-- The slot a class's word is placed in: S0, V0, X or M1, which every instruction of its class may take (R70). -/
def placeSlot : Cls → Nat
  | .s => 0
  | .v => 2
  | .x => 5
  | .m => 7

end Sys2Proof.Machine
end

