-- ==== Sys2Proof/Machine/Step.lean ====
section
/-! DEFINITION. Step: one step of the machine, and how a word is placed for it to run. A step does the first thing that
is due, or one step of the phase; a cycle of a core is the phases land, issue, copy, matrix and close (R34). -/

namespace Sys2Proof.Machine

/-- One step of the machine. Free values move on with each step. -/
def step (s : State) : Host.Outcome State Fault Refusal :=
  if s.halted then s.haltedStep
  else
    match s.due with
    | [] => s.tickCtr.phaseStep
    | _ :: _ => s.tickCtr.doDue

/-- The state with the word of an instruction stored where step fetches its next bundle: in the slot of its class, the
other seven words NOP. A program is loaded from outside the machine; this stands for that load (log entry 6). -/
def State.withFetchWord (s : State) (_nbits w : Nat) : State :=
  match decodeAny (w % 4294967296) with
  | some i => s.place (bundleBytes (placeSlot (i.cls.getD .s)) (w % 4294967296))
  | none => s.place (bundleBytes 0 (w % 4294967296))

end Sys2Proof.Machine
end

