-- ==== Sys2Proof/Safety.lean ====
section
/-! DEFINITION. Safety: what counts as a safe run, in the terms the statements use. -/

namespace Sys2Proof.Machine

/-- The invariant of memory: its list is in the one canonical form (no two listings of one memory). -/
def State.canonical (s : State) : Bool := Memory.wf s.mem

/-- A clock runs, so that a step can be taken (R5, R53). -/
def State.clocked (s : State) : Bool := !s.halted

/-- `k` steps run from a state without a fault and without a refusal. -/
def State.safeFor : Nat → State → Bool
  | 0, _ => true
  | k + 1, s =>
    match step s with
    | .next t => State.safeFor k t
    | _ => false

end Sys2Proof.Machine
end

