-- ==== Sys2Proof/Certificates/Slice0/Obligations.lean ====
section
/-! DEFINITION. Obligations: the statements for the provers, and the predicates they share. -/

/-! What the statements share. -/

namespace Sys2Proof.Claims

open Sys2Proof.Machine

/-- The outcome of an S-, X- or M-class word whose own effect turns `s` into `t`: a guard of 0 leaves the effect out, and
the A bit arrives either way (R59, R60). -/
abbrev Runs (i : Instr) (h : Hdr) (s t : State) : Prop :=
  exec i s = .next ((if s.rdP h.g = true then t else s).arriveNow h.a)

/-- An SR-format word writes f(a, b) to s[rd]. -/
def writesRR (mk : SROp → Instr) (f : Word → Word → Word) : Prop :=
  ∀ (o : SROp) (s : State), Runs (mk o) o.h s (s.wrS o.rd (f (s.rdS o.ra) (s.rdS o.rb)))

/-- An SI-format word writes f(a, imm6) to s[rd]. -/
def writesRI (mk : SIOp → Instr) (f : Word → BitVec 6 → Word) : Prop :=
  ∀ (o : SIOp) (s : State), Runs (mk o) o.h s (s.wrS o.rd (f (s.rdS o.ra) o.imm))

/-- A compare of two registers writes f(a, b) to p[pd]. -/
def comparesRR (mk : CmpOp → Instr) (f : Word → Word → Bool) : Prop :=
  ∀ (o : CmpOp) (s : State), Runs (mk o) o.h s (s.wrP o.pd (f (s.rdS o.ra) (s.rdS o.rb)))

/-- A compare with an immediate writes f(a, imm6) to p[pd]. -/
def comparesRI (mk : CmpIOp → Instr) (f : Word → BitVec 6 → Bool) : Prop :=
  ∀ (o : CmpIOp) (s : State), Runs (mk o) o.h s (s.wrP o.pd (f (s.rdS o.ra) o.imm))

/-- A predicate operation writes f(a, b) to p[pd]. -/
def combines (mk : PredOp → Instr) (f : Bool → Bool → Bool) : Prop :=
  ∀ (o : PredOp) (s : State), Runs (mk o) o.h s (s.wrP o.pd (f (s.rdP o.pa) (s.rdP o.pb)))

/-- Memory reads as before at every address. -/
def SameMemory (s t : State) : Prop := ∀ a, memGet t.mem a = memGet s.mem a

/-- No state outside the task's registers, its arrivals and its launch has changed: memory and its lines, the module's
registers, timelines and clocks, tiles, scratchpad rows, queues and PC. -/
def Quiet (s t : State) : Prop :=
  SameMemory s t ∧ t.lines = s.lines ∧ t.regs = s.regs ∧ t.timelines = s.timelines ∧ t.mcc = s.mcc ∧ t.ptp = s.ptp ∧
  t.arrays = s.arrays ∧ t.core.rows = s.core.rows ∧ t.core.mq = s.core.mq ∧ t.core.cq = s.core.cq ∧
  t.core.fifo = s.core.fifo ∧ t.core.pc = s.core.pc

/-- The registers are `r`, but for FSTAT, which may have gained ABARDROP (R36). -/
def RegsAre (t : State) (r : Regs) : Prop :=
  t.core.r = r ∨ t.core.r = { r with fstat := r.fstat ||| 2 }

/-- SRD of a special register writes `x`, a function of the registers at issue, to s[rd]. -/
def reads (n : BitVec 12) (x : Regs → Word) : Prop :=
  ∀ (o : SKOp) (s : State), o.imm = n → s.mgmt = false → Runs (.srd o) o.h s (s.wrS o.rd (x s.core.iss))

/-- SWR of a special register changes the registers by `f` of the word written. -/
def writesSpecial (n : BitVec 12) (f : Regs → Word → Regs) : Prop :=
  ∀ (o : SKOp) (s : State), o.imm = n → s.mgmt = false → Runs (.swr o) o.h s (s.onRegs fun r => f r (s.rdS o.rd))

/-- The trap a slot takes: its cause with the slot's bit, FEPOCH and MCC of now (R41, R306). -/
def slotTrap (s : State) (t : Trap) : Trap :=
  { t with slots := BitVec.ofNat 8 (2 ^ s.slot), epoch := s.core.r.fepoch, mcc := s.mcc }

/-- The value of token k. -/
def token (x : BitVec 32) (k : Nat) : Nat := (x.extractLsb' (4 * k) 4).toNat

/-- A V-class result: element j of e bits is f j below n elements, for the elements that are active, and it lands after
`c` cycles (R153, R155). -/
def Elements (i : Instr) (o : VOp) (s : State) (c e n : Nat) (f : Nat → Nat) : Prop :=
  ∃ data wm : Vec, exec i s = .next (s.landV o.a c (.vector o.vd) data wm) ∧
    (∀ j, j < n → (data.extractLsb' (e * j) e).toNat = f j % 2 ^ e) ∧
    ∀ b, b < 1024 → wm.getLsbD b = (decide (b < e * n) && (s.rdM o.m).getLsbD (e * (b / e) / 8))

/-- Element j of e bits of a vector. -/
def el (x : Vec) (e j : Nat) : Nat := (x.extractLsb' (e * j) e).toNat

/-- The value of an e-bit element read as two's complement. -/
def sgn (e x : Nat) : Int := if 2 * x < 2 ^ e then (x : Int) else (x : Int) - 2 ^ e

/-- An integer V-class word of two sources, element by element. -/
def elementwise (mk : VOp → Instr) (c : Nat) (f : Nat → Nat → Nat → Int) : Prop :=
  ∀ (o : VOp) (s : State), (mk o).wf = true →
    Elements (mk o) o s c (elemBits o.t) (widthBits o.w / elemBits o.t) fun j =>
      (f (elemBits o.t) (el (s.rdV o.va) (elemBits o.t) j) (el (s.rdV o.vb) (elemBits o.t) j) %
        2 ^ elemBits o.t).toNat

/-- A floating V-class word: every element is the rounding under VRM of f of the operands (R102, R105, R159). -/
def floating (mk : VOp → Instr) (f : BitVec 2 → Machine.Num → Machine.Num → Machine.Num → Machine.Num) : Prop :=
  ∀ (o : VOp) (s : State), (mk o).wf = true →
    Elements (mk o) o s 4 (tBits o.t) (widthBits o.w / tBits o.t) fun j =>
      s.vrmRound o.t (f s.vmode (s.fop o.t (el (s.rdV o.va) (tBits o.t) j)) (s.fop o.t (el (s.rdV o.vb) (tBits o.t) j))
        (s.fop o.t (el (s.rdV o.vd) (tBits o.t) j)))

/-- A compare lands in a mask after `c` cycles: bit b takes the condition of the element that covers it, where that
element is active (R153, R160). -/
def MaskOf (i : Instr) (o : VOp) (s : State) (c e : Nat) (f : Nat → Bool) : Prop :=
  ∃ data wm : Vec, exec i s = .next (s.landV o.a c (.mask (o.vd.setWidth 4)) data wm) ∧
    ∀ b, b < 128 →
      wm.getLsbD b = (decide (8 * b < widthBits o.w) && (s.rdM o.m).getLsbD (e * (8 * b / e) / 8)) ∧
      (8 * b < widthBits o.w → data.getLsbD b = f (8 * b / e))

/-- An integer compare. -/
def comparesInt (mk : VOp → Instr) (f : Nat → Nat → Nat → Bool) : Prop :=
  ∀ (o : VOp) (s : State), (mk o).wf = true →
    MaskOf (mk o) o s 2 (elemBits o.t) fun j =>
      f (elemBits o.t) (el (s.rdV o.va) (elemBits o.t) j) (el (s.rdV o.vb) (elemBits o.t) j)

/-- A floating compare. -/
def comparesFloat (mk : VOp → Instr) (f : Machine.Num → Machine.Num → Bool) : Prop :=
  ∀ (o : VOp) (s : State), (mk o).wf = true →
    MaskOf (mk o) o s 4 (tBits o.t) fun j =>
      f (s.fop o.t (el (s.rdV o.va) (tBits o.t) j)) (s.fop o.t (el (s.rdV o.vb) (tBits o.t) j))

/-- A mask operation writes f of two masks to all 128 bits after two cycles (R161). -/
def masks (mk : VOp → Instr) (f : Mask → Mask → Mask) : Prop :=
  ∀ (o : VOp) (s : State), ∃ data wm : Vec,
    exec (mk o) s = .next (s.landV o.a 2 (.mask (o.vd.setWidth 4)) data wm) ∧
    data.setWidth 128 = f (s.rdM (o.va.setWidth 4)) (s.rdM (o.vb.setWidth 4)) ∧ wm.setWidth 128 = BitVec.allOnes 128

/-- A reduction lands f in bits 31 to 0 of vd, which alone are written, after `c` cycles (R170, R171). -/
def reduces (mk : VOp → Instr) (c : Nat) (u : VOp → State → Option (BitVec 32)) (f : VOp → State → Nat) : Prop :=
  ∀ (o : VOp) (s : State), ∃ data wm : Vec,
    exec (mk o) s = .next (s.landV o.a c (.vector o.vd) data wm (u o s)) ∧
    (data.setWidth 32).toNat = f o s % 2 ^ 32 ∧ ∀ b, b < 1024 → wm.getLsbD b = decide (b < 32)

/-- n is the magnitude x rounded to an integer under a mode (R104). -/
def Rounds (mode : BitVec 2) (neg : Bool) (n : Nat) (x : ℚ) : Prop :=
  (mode = 0 → |(n : ℚ) - x| ≤ 1 / 2 ∧ (|(n : ℚ) - x| = 1 / 2 → n % 2 = 0)) ∧
  (mode = 1 ∨ (mode = 2 ∧ neg = true) ∨ (mode = 3 ∧ neg = false) → (n : ℚ) ≤ x ∧ x < n + 1) ∧
  ((mode = 2 ∧ neg = false) ∨ (mode = 3 ∧ neg = true) → x ≤ n ∧ (n : ℚ) < x + 1)

/-- The value of a sign, a significand and an exponent. -/
def val (neg : Bool) (m : Nat) (e : Int) : ℚ := (if neg then -1 else 1) * m * 2 ^ e

/-- The rational value of a finite number. -/
def value : Machine.Num → ℚ
  | .fin s m e => val s m e
  | _ => 0

end Sys2Proof.Claims

open Sys2Proof Sys2Proof.Machine Sys2Proof.Claims

/-! Registers (R6, R18, R19). -/

/-- R18, R57: sources are the registers at issue; s0 reads 0, p0 reads 1 and m0 reads all ones. -/
def Sys2Proof.Claims.SourceReads : Prop :=
  ∀ (s : State),
    (s.rdS 0 = 0 ∧ s.rdP 0 = true ∧ s.rdM 0 = BitVec.allOnes 128) ∧
    (∀ i : BitVec 6, i ≠ 0 → DstReg.scalar i ∉ s.core.busy → s.rdS i = s.core.iss.s[i.toNat]) ∧
    (∀ i : BitVec 5, DstReg.vector i ∉ s.core.busy → s.rdV i = s.core.iss.v[i.toNat]) ∧
    (∀ i : BitVec 4, i ≠ 0 → DstReg.mask i ∉ s.core.busy → s.rdM i = s.core.iss.m[i.toNat]) ∧
    ∀ i : BitVec 6, i ≠ 0 → DstReg.pred i ∉ s.core.busy → s.rdP i = s.core.iss.p.getLsbD i.toNat

/-- R19: writes to s0, p0 and m0 are discarded; a write to another register changes that register alone. -/
def Sys2Proof.Claims.RegisterWrites : Prop :=
  ∀ (r : Regs) (x : Word) (y : Mask) (b : Bool),
    (r.setS 0 x = r ∧ r.setM 0 y = r ∧ r.setP 0 b = r) ∧
    (∀ i j : BitVec 6, i ≠ 0 → (r.setS i x).getS j = if j = i then x else r.getS j) ∧
    (∀ i j : BitVec 4, i ≠ 0 → (r.setM i y).getM j = if j = i then y else r.getM j) ∧
    (∀ i j : BitVec 6, i ≠ 0 → i.toNat < 48 → (r.setP i b).getP j = if j = i then b else r.getP j) ∧
    ∀ (i : BitVec 6), ∃ s p m, r.setS i x = { r with s := s } ∧ r.setP i b = { r with p := p } ∧
      r.setM (i.setWidth 4) y = { r with m := m }

/-- Sources are the registers at issue; writes to s0, p0 and m0 are discarded: R18, R19, R57. -/
def Obligations.Registers : Prop :=
  SourceReads ∧ RegisterWrites

/-! Scalar words (05). -/

/-- R129, R131: the register arithmetic, and the constants. -/
def Obligations.ScalarArithmetic : Prop :=
  (writesRR .add fun a b => a + b) ∧ (writesRR .sub fun a b => a - b) ∧ (writesRR .mul fun a b => a * b) ∧
  (writesRR .mulh fun a b => ((a.signExtend 128 * b.signExtend 128) >>> 64).setWidth 64) ∧
  (writesRR .mulhu fun a b => ((a.setWidth 128 * b.setWidth 128) >>> 64).setWidth 64) ∧
  (writesRR .divs fun a b => if b = 0 then BitVec.allOnes 64 else a.sdiv b) ∧
  (writesRR .divu fun a b => if b = 0 then BitVec.allOnes 64 else a / b) ∧
  (writesRR .remu fun a b => if b = 0 then a else a % b) ∧
  (writesRR .and fun a b => a &&& b) ∧ (writesRR .or fun a b => a ||| b) ∧ (writesRR .xor fun a b => a ^^^ b) ∧
  (writesRR .andn fun a b => a &&& ~~~b) ∧
  (writesRR .shl fun a b => a <<< (b.toNat % 64)) ∧ (writesRR .shr fun a b => a >>> (b.toNat % 64)) ∧
  (writesRR .sar fun a b => a.sshiftRight (b.toNat % 64)) ∧
  (writesRR .rol fun a b => a <<< (b.toNat % 64) ||| a >>> (64 - b.toNat % 64)) ∧
  (writesRR .min fun a b => if a.toInt ≤ b.toInt then a else b) ∧
  (writesRR .max fun a b => if b.toInt ≤ a.toInt then a else b) ∧
  (writesRR .minn fun a b => if a.toNat ≤ b.toNat then a else b) ∧
  (writesRR .maxn fun a b => if b.toNat ≤ a.toNat then a else b) ∧
  (∀ (o : SKOp) (s : State), Runs (.movi o) o.h s (s.wrS o.rd (o.imm.signExtend 64))) ∧
  (∀ (o : SKOp) (s : State), Runs (.movk o) o.h s (s.wrS o.rd (s.rdS o.rd <<< 12 ||| o.imm.setWidth 64))) ∧
  ∀ (o : SKOp) (s : State), Runs (.addk o) o.h s (s.wrS o.rd (s.rdS o.rd + o.imm.signExtend 64))

/-- R130: the immediate forms. -/
def Obligations.ScalarImmediates : Prop :=
  (writesRI .addi fun a i => a + i.signExtend 64) ∧ (writesRI .shli fun a i => a <<< i.toNat) ∧
  (writesRI .shri fun a i => a >>> i.toNat) ∧ (writesRI .sari fun a i => a.sshiftRight i.toNat) ∧
  (writesRI .andi fun a i => a &&& i.signExtend 64) ∧ (writesRI .ori fun a i => a ||| i.signExtend 64) ∧
  (writesRI .xori fun a i => a ^^^ i.signExtend 64) ∧
  writesRI .roli fun a i => a <<< i.toNat ||| a >>> (64 - i.toNat)

/-- R132: BEXT and BINS, bit by bit: pos = b[5:0], and the last bit of the field is pos + b[13:8], or bit 63. -/
def Obligations.BitFields : Prop :=
  (∀ (o : SROp) (s : State), ∃ x : Word, Runs (.bext o) o.h s (s.wrS o.rd x) ∧
    ∀ i, i < 64 → x.getLsbD i =
      (decide (i ≤ ((s.rdS o.rb).extractLsb' 8 6).toNat) &&
        (s.rdS o.ra).getLsbD (((s.rdS o.rb).extractLsb' 0 6).toNat + i))) ∧
  ∀ (o : SROp) (s : State), ∃ x : Word, Runs (.bins o) o.h s (s.wrS o.rd x) ∧
    ∀ i, i < 64 → x.getLsbD i =
      if ((s.rdS o.rb).extractLsb' 0 6).toNat ≤ i ∧
          i ≤ ((s.rdS o.rb).extractLsb' 0 6).toNat + ((s.rdS o.rb).extractLsb' 8 6).toNat then
        (s.rdS o.ra).getLsbD (i - ((s.rdS o.rb).extractLsb' 0 6).toNat)
      else (s.rdS o.rd).getLsbD i

/-- R134: the compares; pd = 0 discards the result. -/
def Obligations.Compares : Prop :=
  (comparesRR .cmpeq fun a b => decide (a = b)) ∧ (comparesRR .cmpne fun a b => decide (a ≠ b)) ∧
  (comparesRR .cmplt fun a b => decide (a.toInt < b.toInt)) ∧ (comparesRR .cmple fun a b => decide (a.toInt ≤ b.toInt)) ∧
  (comparesRR .cmpltn fun a b => decide (a.toNat < b.toNat)) ∧
  (comparesRR .cmplen fun a b => decide (a.toNat ≤ b.toNat)) ∧
  (comparesRI .cmpeqi fun a i => decide (a = i.signExtend 64)) ∧
  (comparesRI .cmpnei fun a i => decide (a ≠ i.signExtend 64)) ∧
  (comparesRI .cmplti fun a i => decide (a.toInt < i.toInt)) ∧
    (comparesRI .cmpgei fun a i => decide (i.toInt ≤ a.toInt)) ∧
  (comparesRI .cmpltni fun a i => decide (a.toNat < i.toNat)) ∧
  (comparesRI .cmpgeni fun a i => decide (i.toNat ≤ a.toNat)) ∧
  ∀ (s : State) (b : Bool) (pd : BitVec 6), s.wrP 0 b = s ∧
    (pd ≠ 0 → pd.toNat < 48 → (s.wrP pd b).core.r.p.getLsbD pd.toNat = b)

/-- R129, R133, R135, R136: counts, SEL, predicate operations, PGET and PSET. -/
def Obligations.PredicatesAndCounts : Prop :=
  (∀ (o : SR2Op) (s : State), ∃ n : Nat, Runs (.clz o) o.h s (s.wrS o.rd (BitVec.ofNat 64 n)) ∧ n ≤ 64 ∧
    (∀ i, 64 - n ≤ i → (s.rdS o.ra).getLsbD i = false) ∧ (n < 64 → (s.rdS o.ra).getLsbD (63 - n) = true)) ∧
  (∀ (o : SR2Op) (s : State),
    Runs (.popc o) o.h s (s.wrS o.rd (BitVec.ofNat 64 ((List.range 64).countP fun i => (s.rdS o.ra).getLsbD i)))) ∧
  (∀ (o : SROp) (s : State), exec (.sel o) s =
    .next ((s.wrS o.rd (if s.rdP o.h.g = true then s.rdS o.ra else s.rdS o.rb)).arriveNow o.h.a)) ∧
  (combines .pand fun a b => a && b) ∧ (combines .por fun a b => a || b) ∧ (combines .pxor fun a b => a != b) ∧
  (combines .pandn fun a b => a && !b) ∧
  (∀ (o : RdOp) (s : State), ∃ x : Word, Runs (.pget o) o.h s (s.wrS o.rd x) ∧
    ∀ i, i < 64 → x.getLsbD i = (decide (i < 48) && s.rdP (BitVec.ofNat 6 i))) ∧
  ∀ (o : RaOp) (s : State), ∃ p : BitVec 48, Runs (.pset o) o.h s (s.onRegs fun r => { r with p := p }) ∧
    ∀ i, i < 48 → p.getLsbD i = if i = 0 then s.core.r.p.getLsbD 0 else (s.rdS o.ra).getLsbD i

/-- R138, R139, R141: the words that decide the next PC note where it goes. -/
def Sys2Proof.Claims.ControlTransfers : Prop :=
  (∀ (o : BrOp) (s : State),
    Runs (.br o) o.h s (s.noteNext (.jump (s.core.pc + 32#64 * o.disp.signExtend 64)))) ∧
  (∀ (o : BrOp) (s : State),
    Runs (.call o) o.h s
      ((s.wrS 63 (s.core.pc + 32)).noteNext (.jump (s.core.pc + 32#64 * o.disp.signExtend 64)))) ∧
  (∀ (o : RaOp) (s : State), Runs (.jr o) o.h s (s.noteNext (.jump (s.rdS o.ra >>> 5 <<< 5)))) ∧
  (∀ (o : RaOp) (s : State),
    Runs (.callr o) o.h s ((s.wrS 63 (s.core.pc + 32)).noteNext (.jump (s.rdS o.ra >>> 5 <<< 5)))) ∧
  (∀ (o : LoopOp) (s : State) (n : BitVec 32), n = (s.rdS o.ra).setWidth 32 →
    Runs (.loop o) o.h s
      ((s.onRegs fun r => { r with
          lc := r.lc.set o.lc.toNat { count := n, start := s.core.pc + 32,
                                      stop := s.core.pc + BitVec.ofNat 64 (32 * (o.len.toNat + 1)) } o.lc.isLt }).noteNext
        (if n = 0 then .skip (s.core.pc + BitVec.ofNat 64 (32 * (o.len.toNat + 1)) + 32) else .armed))) ∧
  (∀ (o : LoopIOp) (s : State) (n : BitVec 32), n = o.imm.setWidth 32 →
    Runs (.loopi o) o.h s
      ((s.onRegs fun r => { r with
          lc := r.lc.set o.lc.toNat { count := n, start := s.core.pc + 32,
                                      stop := s.core.pc + BitVec.ofNat 64 (32 * (o.len.toNat + 1)) } o.lc.isLt }).noteNext
        (if n = 0 then .skip (s.core.pc + BitVec.ofNat 64 (32 * (o.len.toNat + 1)) + 32) else .armed))) ∧
  ∀ (o : LcOp) (s : State) (l : Lc), l = s.core.iss.lc[o.lc.toNat]'o.lc.isLt →
    (l.count = 0 → Runs (.lbrk o) o.h s (s.noteNext (.jump (s.core.pc + 32)))) ∧
    (l.count ≠ 0 → ∃ lc : Vector Lc 4,
      Runs (.lbrk o) o.h s ((s.onRegs fun r => { r with lc := lc }).noteNext (.jump (l.stop + 32))) ∧
      ∀ (i : Nat) (h : i < 4),
        lc[i] = if i = o.lc.toNat ∨ (s.core.iss.lc[i].count ≠ 0 ∧ l.start.toNat ≤ s.core.iss.lc[i].start.toNat ∧
                    s.core.iss.lc[i].start.toNat ≤ l.stop.toNat ∧ l.start.toNat ≤ s.core.iss.lc[i].stop.toNat ∧
                    s.core.iss.lc[i].stop.toNat ≤ l.stop.toNat)
                then { s.core.r.lc[i] with count := 0 } else s.core.r.lc[i])

/-- An armed loop ends at the bundle at PC. -/
def Sys2Proof.Claims.EndsHere (s : State) (old : Vector Lc 4) (i : Fin 4) : Prop := old[i].count ≠ 0 ∧ old[i].stop = s.core.pc

/-- Loop i is inside loop j: it has the higher START, or, of equal ones, the higher number (R140). -/
def Sys2Proof.Claims.Inside (old : Vector Lc 4) (i j : Fin 4) : Prop :=
  old[j].start.toNat < old[i].start.toNat ∨ (old[i].start = old[j].start ∧ j < i)

/-- R137, R140: the next PC when a bundle commits. `old`: the loop counters before the commit. Of the loops that end at it, the
innermost with more than one iteration left goes back, and those inside it end; where each is in its last one, all end. -/
def Sys2Proof.Claims.NextPc : Prop :=
  ∀ (s : State) (old : Vector Lc 4),
    (∀ x, s.core.note = .jump x → (s.commitBundle old).core.pc = x) ∧
    (∀ x, s.core.note = .skip x → (s.commitBundle old).core.pc = x) ∧
    (s.core.note = .armed → (s.commitBundle old).core.pc = s.core.pc + 32) ∧
    (s.core.note = .none →
      (∀ (i : Nat) (h : i < 4), old[i].count = 0 ∨ old[i].stop ≠ s.core.pc) →
        (s.commitBundle old).core.pc = s.core.pc + 32 ∧ (s.commitBundle old).core.r = s.core.r) ∧
    (s.core.note = .none → ∀ i : Fin 4, EndsHere s old i → old[i].count ≠ 1 →
      (∀ j : Fin 4, EndsHere s old j → Inside old j i → old[j].count = 1) →
        (s.commitBundle old).core.pc = old[i].start ∧
        (s.commitBundle old).core.r.lc[i] = { old[i] with count := old[i].count - 1 } ∧
        ∀ j : Fin 4, j ≠ i →
          (EndsHere s old j → Inside old j i → (s.commitBundle old).core.r.lc[j] = { old[j] with count := 0 }) ∧
          (¬(EndsHere s old j ∧ Inside old j i) → (s.commitBundle old).core.r.lc[j] = s.core.r.lc[j])) ∧
    (s.core.note = .none → (∀ j : Fin 4, EndsHere s old j → old[j].count = 1) →
      (s.commitBundle old).core.pc = s.core.pc + 32 ∧
      ∀ j : Fin 4, (EndsHere s old j → (s.commitBundle old).core.r.lc[j] = { old[j] with count := 0 }) ∧
        (¬EndsHere s old j → (s.commitBundle old).core.r.lc[j] = s.core.r.lc[j]))

/-- What branches, calls, loops and LBRK do to PC and the loop counters: R137, R138, R139, R140, R141. -/
def Obligations.ControlFlow : Prop :=
  ControlTransfers ∧ NextPc

/-- R142 to R145: EXIT, TRAP, and the management core's RETT and WFI. -/
def Obligations.TaskAndHandlerEnds : Prop :=
  (∀ (o : Hdr) (s : State), s.mgmt = false → s.core.pend = [] → s.core.cq = [] →
    Runs (.exit o) o s (s.onCore fun c => { c with st := .draining, note := c.note.join .exit })) ∧
  (∀ (o : Hdr) (s : State) (x : Trap), s.mgmt = false → s.rdP o.g = true → s.core.pend = [x] → s.core.cq = [] →
    ∃ t, exec (.exit o) s = .next (t.arriveNow o.a) ∧ t.core.st = .draining ∧ t.core.status = some x ∧
      t.core.pend = [] ∧ t.core.r = s.core.r ∧ SameMemory s t) ∧
  (∀ (o : ImmOp) (s : State), s.rdP o.h.g = true →
    exec (.trap o) s = .next (s.takeTrap (slotTrap s { cause := 0x02, aux := o.imm.setWidth 64 }))) ∧
  (∀ (o : Hdr) (s : State), s.mgmt = true →
    Runs (.rett o) o s (s.onCore fun c =>
      { c with accept := true,
               note := .jump ((c.iss.trc[2] + if (c.iss.trc[0]).extractLsb' 0 8 = 2#8 then 32 else 0) &&& ~~~31#64) })) ∧
  ∀ (o : Hdr) (s : State), s.mgmt = true →
    Runs (.wfi o) o s (if s.reg Key.mien &&& s.reg Key.mipend = 0 then s.onCore fun c => { c with wfi := true } else s)

/-- R26, R128, R142, R144, R145, R150: what a task, or the management core, may not execute traps PRIVILEGE: EXIT, SPAWN and
STAMP on the management core, RETT and WFI in a task; so do a write of a read-only special register, and SRD or SWR of a
register that the management core does not implement. -/
def Obligations.PrivilegeTraps : Prop :=
  ∀ (s : State) (o : Hdr) (k : SKOp) (i : ImmOp) (p : SR2Op), s.rdP o.g = true → s.rdP k.h.g = true →
      s.rdP i.h.g = true → s.rdP p.h.g = true →
    (s.mgmt = true → exec (.spawn p) s = .next (s.takeTrap (slotTrap s { cause := 0x14 }))) ∧
    (s.mgmt = true → exec (.exit o) s = .next (s.takeTrap (slotTrap s { cause := 0x14 }))) ∧
    (s.mgmt = false → exec (.rett o) s = .next (s.takeTrap (slotTrap s { cause := 0x14 }))) ∧
    (s.mgmt = false → exec (.wfi o) s = .next (s.takeTrap (slotTrap s { cause := 0x14 }))) ∧
    (s.mgmt = true → exec (.stamp i) s = .next (s.takeTrap (slotTrap s { cause := 0x14 }))) ∧
    (k.imm.toNat ∈ [0x000, 0x001, 0x002, 0x008, 0x009, 0x00A, 0x00B, 0x00C, 0x00D, 0x00E, 0x00F, 0x010, 0x019, 0x01A,
        0x030, 0x031, 0x032, 0x033, 0x034, 0x035, 0x036, 0x037, 0x03E, 0x03F, 0x040, 0x041] →
      exec (.swr k) s = .next (s.takeTrap (slotTrap s { cause := 0x14 }))) ∧
    (s.mgmt = true → (k.imm.toNat < 0x030 ∨ 0x038 < k.imm.toNat) →
      exec (.srd k) s = .next (s.takeTrap (slotTrap s { cause := 0x14 })) ∧
      exec (.swr k) s = .next (s.takeTrap (slotTrap s { cause := 0x14 })))

/-- R25, R26, R44, R148: what SRD reads. Word 1 of TDISC reads 0 outside solo mode; CPYST and QST are made of the copy
queue and of the link FIFOs as they stand; the management core reads TRC0 to TRC7 and THND. -/
def Sys2Proof.Claims.SpecialRegisterReads : Prop :=
  (reads 0x000 fun r => r.taskid) ∧ (reads 0x001 fun r => r.launchid) ∧ (reads 0x002 fun r => r.levels) ∧
  (∀ n : Fin 8, reads (BitVec.ofNat 12 (8 + n)) fun r => (r.coord[n]).setWidth 64) ∧
  (reads 0x010 fun r => r.nbv.setWidth 64) ∧ (reads 0x011 fun r => r.detm.setWidth 64) ∧
  (reads 0x012 fun r => r.rsig.setWidth 64) ∧ (reads 0x013 fun r => r.ftsel.setWidth 64) ∧
  (reads 0x014 fun r => r.vrm.setWidth 64) ∧ (reads 0x015 fun r => r.tkceil.setWidth 64) ∧
  (reads 0x016 fun r => r.tkval.setWidth 64) ∧ (reads 0x017 fun r => r.abar.setWidth 64) ∧
  (reads 0x018 fun r => r.fbase) ∧ (reads 0x019 fun r => r.ssn.setWidth 64) ∧
  (reads 0x01A fun _ => 5 * 4096 + 3 * 256 + 5 * 16 + 6) ∧ (reads 0x01B fun r => r.discf.setWidth 64) ∧
  (∀ n : Fin 4, reads (BitVec.ofNat 12 (0x1C + n)) fun r => (r.disc[n]).setWidth 64) ∧
  (∀ n : Fin 16, reads (BitVec.ofNat 12 (0x20 + n)) fun r => (r.ft[n]).setWidth 64) ∧
  (∀ n : Fin 8, reads (BitVec.ofNat 12 (0x30 + n)) fun r => r.trc[n]) ∧ (reads 0x038 fun r => r.thnd) ∧
  (reads 0x03A fun r => r.fstat.extractLsb' 0 64) ∧ (reads 0x03B fun r => r.fstat.extractLsb' 64 64) ∧
  (reads 0x03C fun r => r.tdisc.extractLsb' 0 64) ∧
  (reads 0x040 fun r => BitVec.ofNat 64 (r.fepStep.toNat * 65536 + r.fepCount.toNat)) ∧
  (reads 0x041 fun r => r.tbudget) ∧
  (∀ (o : SKOp) (s : State), o.imm = 0x03D → s.mgmt = false → Runs (.srd o) o.h s
    (s.wrS o.rd (if (s.arrayOf s.core.id).solo = true then s.core.iss.tdisc.extractLsb' 64 64 else 0))) ∧
  (∀ (o : SKOp) (s : State), o.imm = 0x03E → s.mgmt = false → s.core.cq.length ≤ 64 → ∃ x : Word,
    Runs (.srd o) o.h s (s.wrS o.rd x) ∧ (x.extractLsb' 0 7).toNat = s.core.cq.length ∧
    ((∀ e ∈ s.core.cq, e.phase = .waiting) → x.extractLsb' 7 57 = 0) ∧
    (∀ e l, s.core.cq = e :: l → (∃ t, e.phase = .flying t) → x.getLsbD 7 = true) ∧
    ∀ e l, s.core.cq = e :: l → (∃ t, e.phase = .faulted t) → x.getLsbD 8 = true ∧ x.extractLsb' 9 6 = e.pos) ∧
  (∀ (o : SKOp) (s : State), o.imm = 0x03F → s.mgmt = false → ∃ x : Word, Runs (.srd o) o.h s (s.wrS o.rd x) ∧
    ∀ (i : Nat) (h : i < 16) (f : Fifo), s.core.fifo[i]'h = f →
      x.getLsbD (4 * i) = f.peer.isSome ∧ x.getLsbD (4 * i + 1) = f.inb.isEmpty ∧
      x.getLsbD (4 * i + 2) = decide (64 ≤ f.outb.length) ∧ x.getLsbD (4 * i + 3) = f.err) ∧
  (∀ (n : Fin 8) (o : SKOp) (s : State), o.imm = BitVec.ofNat 12 (0x30 + n) → s.mgmt = true →
    Runs (.srd o) o.h s (s.wrS o.rd (s.core.iss.trc[n]))) ∧
  ∀ (o : SKOp) (s : State), o.imm = 0x038 → s.mgmt = true → Runs (.srd o) o.h s (s.wrS o.rd s.core.iss.thnd)

/-- R26, R29, R33, R35 to R37, R39, R42, R148: what SWR writes; a write to THND also clears INH (R308), but on the management
core it changes THND alone (R310), and a write of TRC0 to TRC7 there traps PRIVILEGE as everywhere. -/
def Sys2Proof.Claims.SpecialRegisterWrites : Prop :=
  (writesSpecial 0x011 fun r x =>
    if r.detm.getLsbD 0 = true then { r with detm := (r.detm &&& 1) ||| (x.setWidth 2 &&& 2) } else r) ∧
  (writesSpecial 0x012 fun r x => { r with rsig := x.setWidth 32 }) ∧
  (writesSpecial 0x013 fun r x => { r with ftsel := x.setWidth 3 }) ∧
  (writesSpecial 0x014 fun r x => { r with vrm := x.setWidth 3 }) ∧
  (writesSpecial 0x015 fun r x => { r with tkceil := x.setWidth 32 }) ∧
  (writesSpecial 0x016 fun r x => { r with tkval := x.setWidth 32 }) ∧
  (writesSpecial 0x017 fun r x => { r with abar := x.setWidth 8 &&& 0x9F }) ∧
  (writesSpecial 0x018 fun r x => { r with fbase := x }) ∧
  (writesSpecial 0x01B fun r x => { r with discf := r.discf &&& ~~~(x.setWidth 5) }) ∧
  (∀ n : Fin 4, writesSpecial (BitVec.ofNat 12 (0x1C + n)) fun r x =>
    { r with disc := r.disc.set n (x.setWidth 32 &&& 0xFFFF7FFF) }) ∧
  (∀ n : Fin 16, writesSpecial (BitVec.ofNat 12 (0x20 + n)) fun r x =>
    { r with ft := r.ft.set n (x.setWidth 32 &&& 0x07FFFFFF) }) ∧
  (writesSpecial 0x03A fun r x => { r with fstat := r.fstat &&& ~~~((x &&& 0xF).setWidth 128) }) ∧
  (writesSpecial 0x03B fun r x => { r with fstat := r.fstat &&& ~~~(x.setWidth 128 <<< 64) }) ∧
  (writesSpecial 0x03C fun r x => { r with tdisc := (r.tdisc >>> 64 <<< 64) ||| x.setWidth 128 }) ∧
  (writesSpecial 0x03D fun r x => { r with tdisc := (r.tdisc.setWidth 64).setWidth 128 ||| x.setWidth 128 <<< 64 }) ∧
  (∀ (o : SKOp) (s : State), o.imm = 0x038 → s.mgmt = false →
    Runs (.swr o) o.h s ((s.onRegs fun r => { r with thnd := s.rdS o.rd &&& 0x01FFFFFFFFFFFFE0 }).onCore fun c =>
      { c with inh := false })) ∧
  (∀ (o : SKOp) (s : State), o.imm = 0x038 → s.mgmt = true →
    Runs (.swr o) o.h s (s.onRegs fun r => { r with thnd := s.rdS o.rd &&& 0x01FFFFFFFFFFFFE0 })) ∧
  ∀ (n : Fin 8) (o : SKOp) (s : State), o.imm = BitVec.ofNat 12 (0x30 + n) → s.rdP o.h.g = true →
    exec (.swr o) s = .next (s.takeTrap (slotTrap s { cause := 0x14 }))

/-- What SRD reads and SWR writes, register by register: R25, R26, R29, R33, R35, R36, R37, R39, R42, R148, R308. -/
def Obligations.SpecialRegisters : Prop :=
  SpecialRegisterReads ∧ SpecialRegisterWrites

/-- R53, R61, R149, R151: the clock reads, HINT and the NOPs. -/
def Obligations.ClocksAndNops : Prop :=
  (∀ (o : RdOp) (s : State), Runs (.rdcyc o) o.h s (s.wrS o.rd s.core.cyc)) ∧
  (∀ (o : RdOp) (s : State), Runs (.rdmcc o) o.h s (s.wrS o.rd s.mcc)) ∧
  (∀ (o : RdOp) (s : State), Runs (.rdptp o) o.h s
    (s.wrS o.rd (if (s.reg Key.ptpctl).getLsbD 2 = true then BitVec.ofNat 64 s.ptp else BitVec.allOnes 64))) ∧
  (∀ (o : ImmOp) (s : State), Runs (.hint o) o.h s s) ∧
  (∀ (o : NopOp) (s : State), exec (.nop o) s = .next (s.arriveNow (o.h.a && s.rdP o.h.g))) ∧
  ∀ (o : NopVOp) (s : State), exec (.nopV o) s = .next (s.arriveNow o.a)

/-! Traps (R41, R304 to R311, R328). -/

/-- R41, R307: on a tile core with THND set and INH clear, a handler-class cause is recorded in TRC0 to TRC7 and the core
goes to THND, with INH set, four cycles passing before the handler's first bundle; no other register and no byte of
memory changes. -/
def Sys2Proof.Claims.HandlerEntry : Prop :=
  ∀ (s : State) (t : Trap), t.cause ∈ [0x02, 0x05, 0x09, 0x0A, 0x0B, 0x0D, 0x0E, 0x0F] → t.entry = none →
    s.mgmt = false → s.core.r.thnd ≠ 0 → s.core.inh = false →
    ∃ trc : Vector Word 8,
      s.takeTrap t = s.onCore (fun c =>
        { c with r := { c.r with trc := trc }, pc := c.r.thnd, inh := true, delay := 4, st := .active, waitOn := [],
                 stamps := [], want := [], note := .trap false, pf := none, wfi := false }) ∧
      trc[0] = BitVec.ofNat 64 (t.cause.toNat + 256 * t.detail.toNat) ∧ trc[1] = t.slots.setWidth 64 ∧
      trc[2] = s.core.pc ∧ trc[3] = t.addr ∧ trc[4] = 0 ∧ trc[5] = t.epoch ∧ trc[6] = s.mcc ∧ trc[7] = t.aux

/-- The task of `s` has ended by `t` in `u`: it drains with the cause as its status, its record in TRC0 to TRC7, nothing
pending, and PC and memory as they were (R311). -/
def Sys2Proof.Claims.EndedBy (s u : State) (t : Trap) : Prop :=
  u.core.st = .draining ∧ u.core.status = some t ∧
  u.core.r.trc[0] = BitVec.ofNat 64 (t.cause.toNat + 256 * t.detail.toNat) ∧ u.core.r.trc[1] = t.slots.setWidth 64 ∧
  u.core.r.trc[2] = s.core.pc ∧ u.core.r.trc[3] = t.addr ∧ u.core.r.trc[6] = s.mcc ∧ u.core.r.trc[7] = t.aux ∧
  u.core.pc = s.core.pc ∧ u.core.pend = [] ∧ SameMemory s u

/-- R304, R308, R311: a cause of class E, or one of class H where THND is 0, leaves the task draining with the cause as its
status and its record in TRC0 to TRC7; so does a class-I cause of class H while INH is set. -/
def Sys2Proof.Claims.TaskEndingTrap : Prop :=
  ∀ (s : State) (t : Trap), t.entry = none → s.mgmt = false →
    (t.cause ∈ [0x01, 0x04, 0x06, 0x07, 0x08, 0x0C, 0x10, 0x13, 0x14, 0x15] → EndedBy s (s.takeTrap t) t) ∧
    (t.cause ∈ [0x02, 0x05, 0x09, 0x0A, 0x0B, 0x0D, 0x0E, 0x0F] → s.core.r.thnd = 0 → EndedBy s (s.takeTrap t) t) ∧
    (t.cause ∈ [0x02, 0x05, 0x09, 0x0A, 0x0B, 0x0D] → s.core.inh = true →
      EndedBy s (s.trapSlot t) (slotTrap s t) ∧ (s.trapEarly t).core.st = .draining ∧
      (s.trapEarly t).core.status = some (slotTrap s t))

/-- R306, R308: while INH is 1 a class-B cause of class H stays pending, and the boundary takes nothing for it; once INH is
0 the boundary delivers it to the handler, or ends the task where THND is 0. -/
def Sys2Proof.Claims.PendingCauses : Prop :=
  ∀ (s : State) (x : Trap), x.cause ∈ [0x09, 0x0A, 0x0B, 0x0D, 0x0E, 0x0F] → x.entry = none → s.mgmt = false →
    s.core.kill = none → s.core.pend = [x] →
    (s.core.inh = true → s.core.pf = none → s.causeNow ≠ some .trapDelivery ∧
      (s.fetchFault = none → exec .trapDelivery s = .next s)) ∧
    (s.core.inh = false → s.core.r.thnd ≠ 0 → ∃ u, exec .trapDelivery s = .next u ∧ u.core.pc = s.core.r.thnd ∧
      u.core.inh = true ∧ u.core.pend = [] ∧ u.core.r.trc[0] = x.cause.setWidth 64 + 256#64 * x.detail.setWidth 64 ∧
      u.core.r.trc[2] = s.core.pc ∧ u.core.r.trc[5] = x.epoch ∧ u.core.r.trc[6] = s.mcc ∧ SameMemory s u) ∧
    (s.core.inh = false → s.core.r.thnd = 0 → ∃ u, exec .trapDelivery s = .next u ∧ EndedBy s u x)

/-- R41, R225, R304: a handler-class trap that names a queue entry sets TRC4 to VALID, its queue and its index; the fault of
a copy entry, once taken, takes the entry from its queue. -/
def Sys2Proof.Claims.EntryTraps : Prop :=
  ∀ (s : State) (t : Trap) (pos : BitVec 6), s.mgmt = false → s.core.r.thnd ≠ 0 → s.core.inh = false →
    (t.cause = 0x0D → t.entry = some (false, pos) → (s.takeTrap t).core.pc = s.core.r.thnd ∧
      (s.takeTrap t).core.r.trc[4] = 128#64 + pos.setWidth 64 ∧ (s.takeTrap t).core.r.trc[3] = t.addr ∧
      (s.takeTrap t).core.cq = s.core.cq.filter (fun e => decide (e.pos ≠ pos)) ∧ SameMemory s (s.takeTrap t)) ∧
    (t.cause ∈ [0x09, 0x0A, 0x0B] → t.entry = some (true, pos) → (s.takeTrap t).core.pc = s.core.r.thnd ∧
      (s.takeTrap t).core.r.trc[4] = 192#64 + pos.setWidth 64 ∧ (s.takeTrap t).core.cq = s.core.cq ∧
      (s.takeTrap t).core.mq = s.core.mq) ∧
    (t.cause ∈ [0x09, 0x0A, 0x0B] → t.entry = some (false, pos) → (s.takeTrap t).core.pc = s.core.r.thnd ∧
      (s.takeTrap t).core.r.trc[4] = 128#64 + pos.setWidth 64 ∧ (s.takeTrap t).core.cq = s.core.cq)

/-- R304, R327, R328: a page fault at issue writes the trap record and freezes the context on its core with the fault held
for system software; a KIND 1 event that names the task and the address is posted, or held while the ring has no room. -/
def Sys2Proof.Claims.PageFaultTrap : Prop :=
  ∀ (s : State) (t : Trap) (k : Task), t.cause = 0x03 → t.entry = none → s.mgmt = false → s.core.task = some k →
    ∃ u, s.takeTrap t = u ∧ u.core.st = .frozen ∧ u.core.pc = s.core.pc ∧
      u.core.pf = some { detail := t.detail, va := t.addr, kind := t.aux.setWidth 3 } ∧
      u.core.r.trc[0] = BitVec.ofNat 64 (3 + 256 * t.detail.toNat) ∧ u.core.r.trc[1] = t.slots.setWidth 64 ∧
      u.core.r.trc[2] = s.core.pc ∧ u.core.r.trc[3] = t.addr ∧ u.core.r.trc[6] = s.mcc ∧ u.core.r.trc[7] = t.aux ∧
      u.core.r.tbudget = s.core.r.tbudget ∧ u.core.cq = s.core.cq ∧ u.core.mq = s.core.mq ∧
      (s.held = [] → s.evRoom = true → u.held = [] ∧
        u.reg Key.evprod = BitVec.ofNat 64 (((s.reg Key.evprod).extractLsb' 0 32).toNat + 1) &&& 0xFFFFFFFF) ∧
      (s.held ≠ [] ∨ s.evRoom = false → u.held = s.held ++
        [{ kind := 1, status := t.detail, core := s.core.id, serial := k.serial, index := k.index, context := k.context,
           va := t.addr, mcc := s.mcc }] ∧ SameMemory s u)

/-- R310, R422, R423: on the management core a trap enters the handler while acceptance is enabled, and disables it; while
it is disabled the core restarts at its recovery entry, at the address that the firmware names, with RECOV one more, MIEN
0, MIPEND kept and its registers 0. -/
def Sys2Proof.Claims.ManagementTrap : Prop :=
  ∀ (s : State) (t : Trap), t.entry = none → s.mgmt = true →
    (s.core.accept = true →
      (s.takeTrap t).core.pc = s.core.r.thnd ∧ (s.takeTrap t).core.accept = false ∧
      (s.takeTrap t).core.r.trc[0] = BitVec.ofNat 64 (t.cause.toNat + 256 * t.detail.toNat) ∧
      (s.takeTrap t).core.r.trc[2] = s.core.pc ∧ (s.takeTrap t).core.r.s = s.core.r.s ∧ SameMemory s (s.takeTrap t)) ∧
    (s.core.accept = false → ∃ u, s.takeTrap t = u ∧ u.core.pc = firmwareEntry ∧ u.core.accept = true ∧ u.core.wfi = false ∧
      (u.reg Key.bootst).extractLsb' 48 16 = (s.reg Key.bootst).extractLsb' 48 16 + 1 ∧
      (u.reg Key.bootst).extractLsb' 0 48 = (s.reg Key.bootst).extractLsb' 0 48 ∧ u.reg Key.mien = 0 ∧
      u.reg Key.mipend = s.reg Key.mipend ∧ (∀ i : BitVec 6, u.core.r.getS i = 0) ∧ u.core.r.p = 1 ∧
      (∀ (i : Nat) (h : i < 4), u.core.r.lc[i].count = 0) ∧ u.core.r.thnd = 0 ∧
      (∀ (i : Nat) (h : i < 8), u.core.r.trc[i] = 0) ∧ u.arrays = s.arrays ∧ u.launches = s.launches ∧ SameMemory s u)

/-- Taking a trap: the handler, the end of the task, a page fault, the management core: R41, R225, R304, R306, R307,
R308, R310, R311, R327, R328, R422, R423. -/
def Obligations.TrapDelivery : Prop :=
  HandlerEntry ∧ TaskEndingTrap ∧ PendingCauses ∧ EntryTraps ∧ PageFaultTrap ∧ ManagementTrap

/-- R145, R306, R310, R408: the boundary's own steps. A KILL ends a running task; a pending cause that can be delivered
is taken; an exhausted TBUDGET is BUDGET_OVERRUN; the lowest pending, enabled source interrupts the management core;
an enabled pending source ends WFI. -/
def Sys2Proof.Claims.BoundarySteps : Prop :=
  ∀ (s : State),
    (∀ d, s.core.kill = some d → s.core.st ≠ .bound → s.mgmt = false → ∃ t, exec .trapDelivery s = .next t ∧
      t.core.st = .draining ∧ t.core.kill = none ∧
      t.core.r.trc[0] = BitVec.ofNat 64 (0x13 + 256 * d.toNat)) ∧
    (∀ x, s.core.kill = none → s.core.pend = [x] → s.mgmt = false → trapClass x.cause = .ends → x.entry = none →
      ∃ t, exec .trapDelivery s = .next t ∧ t.core.st = .draining ∧ t.core.status = some x ∧ t.core.pend = []) ∧
    (s.mgmt = false → s.core.st = .active → s.core.r.tbudget = 0 → ∃ t, exec .budgetOverrun s = .next t ∧
      t.core.st = .draining ∧ t.core.r.trc[0] = 0x0C ∧ t.core.r.trc[2] = s.core.pc) ∧
    (∀ n : Nat, n < 9 → s.mgmt = true → s.core.accept = true →
      (s.reg Key.mien &&& s.reg Key.mipend).getLsbD n = true →
      (∀ m, m < n → (s.reg Key.mien &&& s.reg Key.mipend).getLsbD m = false) → ∃ t, exec .interrupt s = .next t ∧
        t.core.pc = s.core.r.thnd ∧ t.core.accept = false ∧ t.core.r.trc[0] = BitVec.ofNat 64 (256 * n) ∧
        t.core.r.trc[2] = s.core.pc) ∧
    (s.mgmt = true → s.reg Key.mien &&& s.reg Key.mipend ≠ 0 →
      exec .wfiWake s = .next (s.onCore fun c => { c with wfi := false }))

/-- What two slots may not both write, of the fields that name it (R74): a mask, a predicate, a loop counter, a special
register, a token, a scalar, a vector, or PC. -/
def Sys2Proof.Claims.Writes (k w : Nat) (t : Written) : Prop :=
  ∃ i, slotInstr k w = some i ∧
    ((∃ r ∈ i.scalarWrites, r ≠ 0 ∧ t = .scalar r.toNat) ∨ (∃ r ∈ i.vectorWrites, t = .vector r.toNat) ∨ t ∈ i.otherWrites)

/-- The sum of a count over the eight slots. -/
def Sys2Proof.Claims.total (f : Nat → Nat → Nat) (ws : List Nat) : Nat := (ws.zipIdx.map fun x => f x.2 x.1).sum

/-- Scalar fields read and written, and vectors, by the instruction in a word (R73). -/
def Sys2Proof.Claims.count (f : Instr → Nat) (k w : Nat) : Nat := (slotInstr k w).elim 0 f

/-- R65, R73: the lane groups of a V-slot word. -/
def Sys2Proof.Claims.groups (k w : Nat) : Nat :=
  if k < 2 ∨ 4 < k ∨ w % 2 ^ 31 = 0 ∨ w / 2 ^ 22 % 4 = 3 then 0 else 2 ^ (w / 2 ^ 22 % 4)

/-- R73 to R75: slot k, with the word w, offends under a condition of the table, by its detail. -/
def Sys2Proof.Claims.Offends (solo odd mgmt : Bool) (ws : List Nat) (k w : Nat) : Nat → Prop
  | 1 => isPlh (slotCls k) w = true
  | 2 => (∃ x, decodeSlot (slotCls k) w = .error x ∧
        (x = .poolEntry → w / 2 ^ 25 ≠ 0 ∨ w / 2 ^ 12 % 2 ^ 6 ≠ 0)) ∨
      (slotCls k = .x ∧ solo = false ∧ mgmt = false ∧ w / 2 ^ 18 % 2 ^ 7 ∈ [0x40, 0x41, 0x42, 0x43, 0x44, 0x45, 0x47] ∧
        64 ≤ w / 2 ^ 11 % 2 ^ 7)
  | 3 => (slotCls k ≠ .v ∧ 48 ≤ w / 2 ^ 25 % 2 ^ 6) ∨ ∃ i, slotInstr k w = some i ∧ i.predsOk = false
  | 4 => k = 6 ∧ ∃ i, slotInstr k w = some i ∧ ((∃ o, i = .cpy o) ∨ (∃ o, i = .cpyf o) ∨ (∃ o, i = .cpyt o) ∨ ∃ o, i = .seqrun o)
  | 5 => slotCls k = .x ∧ solo = true ∧ odd = true ∧ 0x40 ≤ w / 2 ^ 18 % 2 ^ 7 ∧ w / 2 ^ 18 % 2 ^ 7 ≤ 0x47
  | 6 => mgmt = true ∧ 2 ≤ k ∧ k ≤ 5 ∧ w ≠ 0
  | 7 => ∃ (j v : Nat) (t : Written), j ≠ k ∧ ws[j]? = some v ∧ Writes k w t ∧ Writes j v t
  | 8 => 10 < total groups ws ∧ 0 < groups k w
  | 9 => (10 < total (count fun i => (i.scalarReads.filter (· ≠ 0)).length) ws ∧
        0 < count (fun i => (i.scalarReads.filter (· ≠ 0)).length) k w) ∨
      (4 < total (count fun i => i.scalarWrites.length) ws ∧ 0 < count (fun i => i.scalarWrites.length) k w)
  | 10 => (12 < total (count fun i => i.vectorReads.length) ws ∧ 0 < count (fun i => i.vectorReads.length) k w) ∨
      (6 < total (count fun i => i.vectorWrites.length) ws ∧ 0 < count (fun i => i.vectorWrites.length) k w)
  | _ => False

/-- R68, R73 to R75: a bundle is illegal where some slot offends under one of the ten conditions; the detail is that of the
first of them, and the slots are those that offend under any. That the management core counts no tile number under ENCODING,
where it has no array to be in a mode, is the model's choice (log entry 117). -/
def Sys2Proof.Claims.IllegalConditions : Prop :=
  (∀ (solo odd mgmt : Bool) (ws : List Nat), ws.length = 8 → (∀ w ∈ ws, w < 2 ^ 32) →
    (judgeBundle solo odd mgmt ws = none ↔ ∀ k w n, ws[k]? = some w → ¬Offends solo odd mgmt ws k w n) ∧
    ∀ d m, judgeBundle solo odd mgmt ws = some (d, m) →
      (∃ k w, ws[k]? = some w ∧ Offends solo odd mgmt ws k w d) ∧
      (∀ k w n, n < d → ws[k]? = some w → ¬Offends solo odd mgmt ws k w n) ∧
      ∀ k, m.testBit k = true ↔ ∃ w n, ws[k]? = some w ∧ Offends solo odd mgmt ws k w n) ∧
  ∀ (s : State) (ws : List Nat), s.judgeWords ws =
    judgeBundle (s.arrayOf s.core.id).solo (s.core.id % 2 == 1) s.mgmt ws

/-- R75, R76, R305: the words of an illegal bundle commit nothing: it traps ILLEGAL_BUNDLE with the first condition of the
table that holds, and the slots concerned. -/
def Sys2Proof.Claims.IllegalBundle : Prop :=
  ∀ (s : State) (bs : List Byte) (d m : Nat), s.fetch = .ok bs → s.mgmt = false → d < 256 →
    s.judgeWords (bundleWords bs) = some (d, m) → ∃ t, exec .illegalBundle s = .next t ∧ t.core.st = .draining ∧
      t.core.r.trc[0] = BitVec.ofNat 64 (1 + 256 * d) ∧ t.core.r.trc[1] = (BitVec.ofNat 8 m).setWidth 64 ∧
      t.core.r.trc[2] = s.core.pc ∧ SameMemory s t

/-- KILL, pending causes, the budget, interrupts and illegal bundles, condition by condition, at a boundary: R68, R73,
R74, R75, R76, R145, R305, R306, R310, R408. -/
def Obligations.Boundaries : Prop :=
  BoundarySteps ∧ IllegalConditions ∧ IllegalBundle

/-! Tokens, timelines, barriers, supersteps (R21 to R23, R228 to R238). -/

/-- R150: once MCC has reached the target, and within its window under DETM.ARM, STAMP lets its bundle issue. Before that
the bundle waits; past the window of an armed target it traps FRAME_OVERRUN with the target in TRC7. -/
def Sys2Proof.Claims.StampWindow : Prop :=
  ∀ (o : ImmOp) (s : State) (t : Word), t = s.core.iss.fbase + 16#64 * o.imm.setWidth 64 → s.rdP o.h.g = true →
    s.mgmt = false →
    (t.toNat ≤ s.mcc.toNat → (s.core.iss.detm.getLsbD 1 = false ∨ s.mcc.toNat ≤ t.toNat + 15) →
      exec (.stamp o) s = .next (s.arriveNow o.h.a)) ∧
    (s.mcc.toNat < t.toNat → ∃ u, exec (.stamp o) s = .next u ∧ u.core.st = .waiting ∧ u.core.note = .waiting ∧
      u.core.r = s.core.r ∧ u.core.pc = s.core.pc ∧ SameMemory s u) ∧
    (s.core.iss.detm.getLsbD 1 = true → t.toNat + 15 < s.mcc.toNat → ∃ u, exec (.stamp o) s = .next u ∧
      u.core.note = .trap true ∧ u.core.r.trc[0] = 0x0A ∧ u.core.r.trc[7] = t) ∧
    (∀ k, s.core.stamps = [(k, t)] → s.core.r.detm.getLsbD 1 = true → t.toNat + 15 < s.mcc.toNat →
      ∃ u, exec .frameOverrun s = .next u ∧ u.core.r.trc[0] = 0x0A ∧
        u.core.r.trc[1] = (BitVec.ofNat 8 (2 ^ k)).setWidth 64 ∧ u.core.r.trc[6] = s.mcc ∧ u.core.r.trc[7] = t)

/-- R21, R229: TWAIT decrements every token of its mask once all are at least 1, and waits before; TSIG increments every
token of its mask, or traps TOKEN_OVERFLOW and changes none. -/
def Sys2Proof.Claims.TokenWords : Prop :=
  ∀ (o : TokOp) (s : State), s.rdP o.h.g = true →
    (s.core.cq = [] → (∀ k, k < 8 → o.mask.getLsbD k = true → 1 ≤ token s.core.r.tkval k) → ∃ v : BitVec 32,
      exec (.twait o) s = .next ((s.onRegs fun r => { r with tkval := v }).arriveNow o.h.a) ∧
      ∀ k, k < 8 → token v k = token s.core.r.tkval k - if o.mask.getLsbD k = true then 1 else 0) ∧
    (∀ k, s.core.cq = [] → k < 8 → o.mask.getLsbD k = true → token s.core.r.tkval k = 0 →
      ∃ u, exec (.twait o) s = .next u ∧ u.core.st = .waiting ∧ u.core.r = s.core.r ∧ SameMemory s u) ∧
    ((∀ k, k < 8 → o.mask.getLsbD k = true → token s.core.r.tkval k < token s.core.r.tkceil k) → ∃ v : BitVec 32,
      exec (.tsig o) s = .next ((s.onRegs fun r => { r with tkval := v }).arriveNow o.h.a) ∧
      ∀ k, k < 8 → token v k = token s.core.r.tkval k + if o.mask.getLsbD k = true then 1 else 0) ∧
    (∀ k, s.mgmt = false → k < 8 → o.mask.getLsbD k = true → token s.core.r.tkceil k ≤ token s.core.r.tkval k →
      ∃ u, exec (.tsig o) s = .next u ∧ u.core.note = .trap false ∧ u.core.r.trc[0] = 0x09 ∧
        u.core.r.tkval = s.core.r.tkval)

/-- R23, R230: TLWAIT on a bound counter that has reached s[ra] lets its bundle issue; it waits before, and traps
DESCRIPTOR on an unbound index. A host write raises a counter and never lowers it (R382). -/
def Sys2Proof.Claims.Timelines : Prop :=
  ∀ (o : TlOp) (s : State), s.rdP o.h.g = true →
    (s.core.tl[o.tl.toNat] = .copy → s.core.cq = [] → (s.rdS o.ra).toNat ≤ s.core.ctl → s.core.ctl < 2 ^ 64 →
      exec (.tlwait o) s = .next (s.arriveNow o.h.a)) ∧
    (s.core.tl[o.tl.toNat] = .copy → s.core.cq = [] → s.core.ctl < (s.rdS o.ra).toNat →
      ∃ u, exec (.tlwait o) s = .next u ∧ u.core.st = .waiting ∧ u.core.r = s.core.r ∧ SameMemory s u) ∧
    (∀ n, s.core.tl[o.tl.toNat] = .module n →
      ((s.rdS o.ra).toNat ≤ (Sparse.get 0 s.timelines n.toNat).toNat →
        exec (.tlwait o) s = .next (s.arriveNow o.h.a)) ∧
      ((Sparse.get 0 s.timelines n.toNat).toNat < (s.rdS o.ra).toNat →
        ∃ u, exec (.tlwait o) s = .next u ∧ u.core.st = .waiting ∧ u.core.r = s.core.r ∧ SameMemory s u)) ∧
    (s.core.tl[o.tl.toNat] = .unbound → s.mgmt = false → ∃ u, exec (.tlwait o) s = .next u ∧
      u.core.note = .trap false ∧ u.core.r.trc[0] = 0x08 ∧ u.core.r.trc[7] = s.rdS o.ra) ∧
    (∀ (n : BitVec 12) (v : Word), ∃ u, exec (.timelineWrite n v) s = .next u ∧
      (Sparse.get 0 u.timelines n.toNat).toNat = max (Sparse.get 0 s.timelines n.toNat).toNat v.toNat ∧
      SameMemory s u)

/-- STAMP, TWAIT, TSIG and TLWAIT issue, wait or trap: R21, R23, R150, R229, R230, R382. -/
def Obligations.Waits : Prop :=
  StampWindow ∧ TokenWords ∧ Timelines

/-- The barrier instance of a core's task. -/
def Sys2Proof.Claims.barrierOf (s : State) (b : BitVec 5) (x : Barrier) : Prop := s.barrier b = some x

/-- R22, R231 to R236: BINIT makes an instance at phase 0; BARR arrives, and the last arrival starts the next phase; BWAIT
and BSYNC wait while the phase stands, and issue and clear their record once it has passed; an uninitialised barrier
traps BARRIER_ORPHANED; a release is made by the last arrival, BSYNC's own among them, and is delivered when it is counted to 0. -/
def Obligations.Barriers : Prop :=
  ∀ (s : State) (k : Task) (b : BitVec 5) (h : Hdr), s.core.task = some k → s.rdP h.g = true →
    (∀ ra : BitVec 6, s.barrierUsable b = true → s.barrier b = none →
      (s.rdS ra).toNat < 2 ^ 24 → (s.rdS ra).toNat % 2 ^ 16 ≠ 0 →
      ∃ u x, exec (.binit { h := h, b := b, ra := ra }) s = .next (u.arriveNow h.a) ∧ barrierOf u b x ∧
        x.e.toNat = (s.rdS ra).toNat % 2 ^ 16 ∧ x.q.toNat = (s.rdS ra).toNat / 2 ^ 16 ∧ x.arrived = 0 ∧ x.p = 0 ∧
        u.core.r = s.core.r ∧ SameMemory s u) ∧
    (∀ x, barrierOf s b x → x.broken = false →
      ∃ u y, exec (.barr { h := h, b := b }) s = .next (u.arriveNow h.a) ∧ barrierOf u b y ∧
        u.core.arr[b.toNat] = some x.p ∧ u.core.r = s.core.r ∧ SameMemory s u ∧
        (if x.arrived + 1 = x.e then y.arrived = 0 ∧ y.p = x.p + 1 else y.arrived = x.arrived + 1 ∧ y.p = x.p)) ∧
    (∀ x p, barrierOf s b x → s.core.orphan = [] → s.core.relWait = [] → s.core.arr[b.toNat] = some p → x.p ≠ p →
      exec (.bwait { h := h, b := b }) s = .next ((s.clearWait b).arriveNow h.a)) ∧
    (∀ x, barrierOf s b x → s.core.orphan = [] → s.core.arr[b.toNat] = some x.p → x.broken = false →
      ∃ u, exec (.bwait { h := h, b := b }) s = .next u ∧ u.core.st = .waiting ∧ u.core.r = s.core.r ∧ SameMemory s u) ∧
    (∀ x p q, barrierOf s b x → s.core.orphan = [] → s.core.relWait = [] → s.core.arr[b.toNat] = some p →
      s.core.firstReady[b.toNat] = some (s.core.pc, q) → x.p ≠ p →
      exec (.bsync { h := h, b := b }) s = .next ((s.clearWait b).arriveNow h.a)) ∧
    (∀ x, barrierOf s b x → s.core.orphan = [] → s.core.arr[b.toNat] = none → x.broken = false → x.arrived + 1 ≠ x.e →
      ∃ u y, exec (.bsync { h := h, b := b }) s = .next u ∧ u.core.st = .waiting ∧ barrierOf u b y ∧
        y.arrived = x.arrived + 1 ∧ u.core.arr[b.toNat] = some x.p) ∧
    (∀ x, barrierOf s b x → s.core.orphan = [] → s.core.arr[b.toNat] = none → x.broken = false → x.arrived + 1 = x.e →
      ∃ u y k, exec (.bsync { h := h, b := b }) s = .next u ∧ u.core.st = .waiting ∧ barrierOf u b y ∧
        y.arrived = 0 ∧ y.p = x.p + 1 ∧ u.core.arr[b.toNat] = some x.p ∧ k ≤ 1 ∧
        (b.toNat, [2, 4, 12, 40].getD (b.toNat / 8) 0 + k) ∈ u.core.relWait) ∧
    (s.barrier b = none → s.core.orphan = [] → s.mgmt = false → ∃ u v w,
      exec (.barr { h := h, b := b }) s = .next u ∧ u.core.note = .trap false ∧ u.core.r.trc[0] = 0x0B ∧
      exec (.bwait { h := h, b := b }) s = .next v ∧ v.core.note = .trap false ∧ v.core.r.trc[0] = 0x0B ∧
      exec (.bsync { h := h, b := b }) s = .next w ∧ w.core.note = .trap false ∧ w.core.r.trc[0] = 0x0B) ∧
    exec .barrierReleaseDelivery s =
      .next (s.onCore fun c => { c with relWait := c.relWait.filter fun p => decide (p.2 ≠ 0) })

/-- R237: SSTEP makes its arrival and waits; once its instance's step is over and the release is there, it issues. -/
def Sys2Proof.Claims.Supersteps : Prop :=
  ∀ (o : LvOp) (s : State) (k : Task) (l : Launch) (key : StepKey), s.rdP o.h.g = true → s.core.task = some k →
    s.launch k.serial = some l → o.n.toNat < l.count → l.cores o.n.toNat = true → l.sstep o.n.toNat = true →
    s.core.orphan = [] →
    key = { serial := k.serial, level := o.n.toNat, inst := l.inst o.n.toNat k.index } →
    (∀ p, s.core.ssArr.find? (fun a => a.1 == o.n.toNat) = some (o.n.toNat, p, s.core.pc) → p ≠ (s.stepInst key).steps →
      s.core.relWait = [] →
      exec (.sstep o) s = .next (((s.onCore fun c =>
        { c with ssArr := c.ssArr.filter fun a => a.1 != o.n.toNat }).acquire).arriveNow o.h.a)) ∧
    (s.core.ssArr.find? (fun a => a.1 == o.n.toNat) = none → ∃ u, exec (.sstep o) s = .next u ∧ u.core.st = .waiting ∧
      (o.n.toNat, (s.stepInst key).steps, s.core.pc) ∈ u.core.ssArr ∧ u.core.r = s.core.r ∧ SameMemory s u)

/-- R46: a waiting context becomes active to be evaluated again, and so does a frozen one whose condition has cleared, if
no data of its cycle was late and no page fault is held; any other context stays as it is. -/
def Sys2Proof.Claims.WaitsEnd : Prop :=
  ∀ (s : State),
    (s.core.st = .waiting → exec .waitSatisfied s = .next (s.onCore fun c => { c with st := .active })) ∧
    (s.core.st ≠ .waiting → exec .waitSatisfied s = .next s) ∧
    (s.core.st = .frozen → s.core.lateFrozen = false → s.core.pf = none →
      exec .freezeEnd s = .next (s.onCore fun c => { c with st := .active })) ∧
    (s.core.st ≠ .frozen ∨ s.core.lateFrozen = true ∨ s.core.pf ≠ none → exec .freezeEnd s = .next s)

/-- R237: when the communication step of an instance has ended, SSN of each of its members goes up by one; of a core that holds
no member at most cached lines go. -/
def Sys2Proof.Claims.SuperstepRelease : Prop :=
  ∀ (s : State) (key : StepKey), s.commDone key = true → s.groups = [] →
    ∃ u, exec (.superstepRelease key) s = .next u ∧ SameMemory s u ∧ (u.stepInst key).arrived = [] ∧
      (u.stepInst key).comm = false ∧
      (s.inStep key s.core = true → s.core.st ≠ .free → u.core.r.ssn = s.core.r.ssn + 1) ∧
      (s.inStep key s.core = false → u.core = { s.core with l1 := u.core.l1 })

/-- SSTEP arrives, waits and issues; how waits and freezes end; the release advances SSN: R46, R237, R238. -/
def Obligations.SuperstepWords : Prop :=
  Supersteps ∧ WaitsEnd ∧ SuperstepRelease

/-! Vector words (06). -/

/-- R158: integer arithmetic, element by element. -/
def Sys2Proof.Claims.VectorInteger : Prop :=
  (elementwise .vadd 2 fun _ a b => a + b) ∧ (elementwise .vsub 2 fun _ a b => a - b) ∧
  (elementwise .vadds 2 fun e a b => max (-2 ^ (e - 1)) (min (2 ^ (e - 1) - 1) (sgn e a + sgn e b))) ∧
  (elementwise .vaddsn 2 fun e a b => min (2 ^ e - 1) (a + b)) ∧
  (elementwise .vsubs 2 fun e a b => max (-2 ^ (e - 1)) (min (2 ^ (e - 1) - 1) (sgn e a - sgn e b))) ∧
  (elementwise .vsubsn 2 fun _ a b => max 0 ((a : Int) - b)) ∧
  (elementwise .vmul 4 fun _ a b => a * b) ∧ (elementwise .vmulh 4 fun e a b => sgn e a * sgn e b / 2 ^ e) ∧
  (∀ (o : VOp) (s : State), (Instr.vmac o).wf = true →
    Elements (.vmac o) o s 4 (elemBits o.t) (widthBits o.w / elemBits o.t) fun j =>
      el (s.rdV o.vd) (elemBits o.t) j + el (s.rdV o.va) (elemBits o.t) j * el (s.rdV o.vb) (elemBits o.t) j) ∧
  (elementwise .vmin 2 fun e a b => min (sgn e a) (sgn e b)) ∧
    (elementwise .vmax 2 fun e a b => max (sgn e a) (sgn e b)) ∧
  (elementwise .vminn 2 fun _ a b => min a b) ∧ (elementwise .vmaxn 2 fun _ a b => max a b) ∧
  (elementwise .vabsd 2 fun e a b => |sgn e a - sgn e b|) ∧
  (elementwise .vavgn 2 fun _ a b => ((a + b + 1) / 2 : Nat)) ∧
  (elementwise .vand 2 fun _ a b => (a &&& b : Nat)) ∧ (elementwise .vor 2 fun _ a b => (a ||| b : Nat)) ∧
  (elementwise .vxor 2 fun _ a b => (a ^^^ b : Nat)) ∧ elementwise .vandn 2 fun e a b => (a &&& (2 ^ e - 1 - b) : Nat)

/-- R158, R162, R163, R165: shifts, counts, moves, lookups and element orders. -/
def Sys2Proof.Claims.VectorShiftsAndMoves : Prop :=
  (elementwise .vshl 2 fun e a b => if e ≤ b then 0 else a * 2 ^ b) ∧
  (elementwise .vshr 2 fun e a b => if e ≤ b then 0 else (a / 2 ^ b : Nat)) ∧
  (elementwise .vsar 2 fun e a b => sgn e a / 2 ^ min b e) ∧
  (∀ (o : VOp) (s : State) (e : Nat), e = elemBits o.t →
    ((Instr.vshli o).wf = true →
      Elements (.vshli o) o s 2 e (widthBits o.w / e) fun j => el (s.rdV o.va) e j * 2 ^ o.vb.toNat) ∧
    ((Instr.vshri o).wf = true →
      Elements (.vshri o) o s 2 e (widthBits o.w / e) fun j => el (s.rdV o.va) e j / 2 ^ o.vb.toNat) ∧
    ((Instr.vsari o).wf = true →
      Elements (.vsari o) o s 2 e (widthBits o.w / e) fun j =>
        (sgn e (el (s.rdV o.va) e j) / 2 ^ o.vb.toNat % 2 ^ e).toNat) ∧
    ((Instr.vpopc o).wf = true →
      Elements (.vpopc o) o s 2 e (widthBits o.w / e) fun j =>
        (List.range e).countP fun i => (s.rdV o.va).getLsbD (e * j + i)) ∧
    ((Instr.vclz o).wf = true →
      Elements (.vclz o) o s 2 e (widthBits o.w / e) fun j =>
        if el (s.rdV o.va) e j = 0 then e else e - 1 - Nat.log2 (el (s.rdV o.va) e j)) ∧
    ((Instr.vrev o).wf = true →
      Elements (.vrev o) o s 3 e (widthBits o.w / e) fun j => el (s.rdV o.va) e (widthBits o.w / e - 1 - j)) ∧
    ((Instr.vzip o).wf = true →
      Elements (.vzip o) o s 3 e (widthBits o.w / e) fun j =>
        el (if j % 2 = 0 then s.rdV o.va else s.rdV o.vb) e (j / 2)) ∧
    ((Instr.vunzip o).wf = true →
      Elements (.vunzip o) o s 3 e (widthBits o.w / e) fun j =>
        if 2 * j < widthBits o.w / e then el (s.rdV o.va) e (2 * j)
        else el (s.rdV o.vb) e (2 * j - widthBits o.w / e)) ∧
    ((Instr.vpermw o).wf = true →
      Elements (.vpermw o) o s 3 e (widthBits o.w / e) fun j =>
        if 2 ^ (e - 1) ≤ el (s.rdV o.vb) e j then 0
        else el (s.rdV o.va) e (el (s.rdV o.vb) e j % (widthBits o.w / e)))) ∧
  (∀ (o : VOp) (s : State), (Instr.vpermb o).wf = true →
    Elements (.vpermb o) o s 3 8 (widthBits o.w / 8) fun j =>
      if 128 ≤ el (s.rdV o.vb) 8 j then 0 else el (s.rdV o.va) 8 (el (s.rdV o.vb) 8 j % (widthBits o.w / 8))) ∧
  (∀ (o : VOp) (s : State) (e : Nat), e = tBits o.t →
    ((Instr.vmov o).wf = true →
      Elements (.vmov o) o s 2 e (widthBits o.w / e) fun j => el (s.rdV o.va) e j) ∧
    ((Instr.vbcs o).wf = true →
      Elements (.vbcs o) o s 2 e (widthBits o.w / e) fun _ => (s.rdS (o.va.setWidth 6)).toNat) ∧
    ((Instr.vmovi o).wf = true → o.t.toNat ≤ 2 →
      Elements (.vmovi o) o s 2 e (widthBits o.w / e) fun _ =>
        (sgn 10 (o.va.toNat * 32 + o.vb.toNat) % 2 ^ e).toNat) ∧
    ((Instr.vmovi o).wf = true → 3 ≤ o.t.toNat →
      Elements (.vmovi o) o s 2 e (widthBits o.w / e) fun _ => (o.va.toNat * 32 + o.vb.toNat) * 2 ^ (e - 10))) ∧
  (∀ (o : VOp) (s : State), (Instr.vxs o).wf = true → ∃ data wm : Vec,
    exec (.vxs o) s = .next (s.landV o.a 4 (.scalar (o.vd.setWidth 6)) data wm) ∧
    (data.setWidth 64).toInt = sgn (elemBits o.t) (el (s.rdV o.va) (elemBits o.t) o.vb.toNat) ∧
    ∀ b, b < 1024 → wm.getLsbD b = decide (b < 64)) ∧
  (∀ (o : VOp) (s : State), (Instr.vsel o).wf = true → ∃ data wm : Vec,
    exec (.vsel o) s = .next (s.landV o.a 2 (.vector o.vd) data wm) ∧
    (∀ j, j < widthBits o.w / tBits o.t → el data (tBits o.t) j =
      el (if (s.rdM o.m).getLsbD (tBits o.t * j / 8) = true then s.rdV o.va else s.rdV o.vb) (tBits o.t) j) ∧
    ∀ b, b < 1024 → wm.getLsbD b = decide (b < widthBits o.w)) ∧
  ∀ (o : VOp) (s : State), (Instr.vrmrg o).wf = true → ∃ data wm : Vec,
    exec (.vrmrg o) s = .next (s.landV o.a 3 (.vector o.vd) data wm) ∧
    (∀ j, j < widthBits o.w / 8 → el data 8 j =
      if j < o.t.toNat * 16 + o.m.toNat then
        el (s.rdV o.va) 8 (widthBits o.w / 8 - (o.t.toNat * 16 + o.m.toNat) + j)
      else el (s.rdV o.vb) 8 (j - (o.t.toNat * 16 + o.m.toNat))) ∧
    ∀ b, b < 1024 → wm.getLsbD b = decide (b < widthBits o.w)

/-- Integer vector words, element by element: R153, R155, R158, R162, R163, R165. -/
def Obligations.VectorArithmetic : Prop :=
  VectorInteger ∧ VectorShiftsAndMoves

/-- R98, R102, R159: floating arithmetic: exact in the operands, rounded once under VRM. -/
def Sys2Proof.Claims.VectorFloating : Prop :=
  (floating .vfadd fun m a b _ => Machine.Num.add m a b) ∧ (floating .vfsub fun m a b _ => Machine.Num.add m a b.neg) ∧
  (floating .vfmul fun _ a b _ => Machine.Num.mul a b) ∧
    (floating .vfma fun m a b d => Machine.Num.add m (Machine.Num.mul a b) d) ∧
  (floating .vfnma fun m a b d => Machine.Num.add m (Machine.Num.mul a.neg b) d) ∧
    (floating .vfmin fun _ a b _ => minNum a b) ∧
  (floating .vfmax fun _ a b _ => maxNum a b) ∧
  ∀ (o : VOp) (s : State) (e : Nat), e = tBits o.t →
    ((Instr.vfabs o).wf = true → Elements (.vfabs o) o s 2 e (widthBits o.w / e) fun j =>
      el (s.rdV o.va) e j % 2 ^ (e - 1)) ∧
    ((Instr.vfneg o).wf = true → Elements (.vfneg o) o s 2 e (widthBits o.w / e) fun j =>
      el (s.rdV o.va) e j ^^^ 2 ^ (e - 1))

/-- R160, R161: compares into masks, and mask operations. -/
def Sys2Proof.Claims.VectorComparesAndMasks : Prop :=
  (comparesInt .vcmpeq fun _ a b => decide (a = b)) ∧ (comparesInt .vcmpne fun _ a b => decide (a ≠ b)) ∧
  (comparesInt .vcmplt fun e a b => decide (sgn e a < sgn e b)) ∧
  (comparesInt .vcmple fun e a b => decide (sgn e a ≤ sgn e b)) ∧
  (comparesInt .vcmpltn fun _ a b => decide (a < b)) ∧ (comparesInt .vcmplen fun _ a b => decide (a ≤ b)) ∧
  (comparesFloat .vfcmpeq fun a b => a.eq b) ∧ (comparesFloat .vfcmplt fun a b => a.lt b) ∧
  (comparesFloat .vfcmple fun a b => a.lt b || a.eq b) ∧ (comparesFloat .vfcmpun fun a b => a.isNan || b.isNan) ∧
  (masks .mand fun a b => a &&& b) ∧ (masks .mor fun a b => a ||| b) ∧ (masks .mxor fun a b => a ^^^ b) ∧
  (masks .mandn fun a b => a &&& ~~~b) ∧
  ∀ (o : VOp) (s : State), ∃ x y wx wy : Vec,
    exec (.many o) s = .next (s.landV o.a 2 (.pred (o.vd.setWidth 6)) x wx) ∧
    exec (.mall o) s = .next (s.landV o.a 2 (.pred (o.vd.setWidth 6)) y wy) ∧
    x.getLsbD 0 = decide (s.rdM (o.va.setWidth 4) ≠ 0) ∧
    y.getLsbD 0 = decide (s.rdM (o.va.setWidth 4) = BitVec.allOnes 128) ∧
    ∀ b, b < 1024 → wx.getLsbD b = decide (b = 0) ∧ wy.getLsbD b = decide (b = 0)

/-- R107 to R109, R124, R126, R166 to R171: conversions, random lanes and reductions. -/
def Obligations.VectorConversionsAndReductions : Prop :=
  (∀ (o : VOp) (s : State),
    ((Instr.vcvt o).wf = true →
      Elements (.vcvt o) o s 4 (tBits o.t) (widthBits o.w / max (tBits (o.vb.setWidth 3)) (tBits o.t)) fun j =>
        cvtElt s (o.vb.setWidth 3) o.t (el (s.rdV o.va) (tBits (o.vb.setWidth 3)) j)) ∧
    ((Instr.vcvtsr o).wf = true →
      Elements (.vcvtsr o) o s 4 (tBits o.t) (widthBits o.w / 32) fun j =>
        stochastic (fmtT o.t) s.core.iss.nbv (s.core.iss.vrm.getLsbD 2) (el (s.rdV o.va) 32 j) (el (s.rdV o.vb) 32 j)) ∧
    ((Instr.vnarrow o).wf = true →
      Elements (.vnarrow o) o s 4 (elemBits o.t) (widthBits o.w / elemBits o.t) fun j =>
        (max (-2 ^ (elemBits o.t - 1)) (min (2 ^ (elemBits o.t - 1) - 1)
          (sgn (2 * elemBits o.t)
            (if j < widthBits o.w / elemBits o.t / 2 then el (s.rdV o.va) (2 * elemBits o.t) j
             else el (s.rdV o.vb) (2 * elemBits o.t) (j - widthBits o.w / elemBits o.t / 2)))) % 2 ^ elemBits o.t).toNat) ∧
    ((Instr.vwiden o).wf = true →
      Elements (.vwiden o) o s 4 (elemBits o.t) (widthBits o.w / elemBits o.t) fun j =>
        ((sgn (elemBits o.t / 2) (el (s.rdV o.va) (elemBits o.t / 2) j) +
          sgn (elemBits o.t / 2) (el (s.rdV o.vb) (elemBits o.t / 2) j)) % 2 ^ elemBits o.t).toNat) ∧
    ((Instr.vrng o).wf = true →
      Elements (.vrng o) o s 6 32 (widthBits o.w / 32) fun j =>
        (cch4 (BitVec.ofNat 32 (el (s.rdV o.va) 32 j)) (BitVec.ofNat 32 (el (s.rdV o.vb) 32 j))).toNat)) ∧
  (reduces .vredadd 6 (fun _ _ => none) fun o s =>
    ((activeInts o s).foldl (· + ·) (sgn 32 (el (s.rdV o.vb) 32 0)) % 2 ^ 32).toNat) ∧
  (reduces .vredmax 6 (fun _ _ => none) fun o s =>
    ((activeInts o s).foldl max (sgn 32 (el (s.rdV o.vb) 32 0)) % 2 ^ 32).toNat) ∧
  (reduces .vredmin 6 (fun _ _ => none) fun o s =>
    ((activeInts o s).foldl min (sgn 32 (el (s.rdV o.vb) 32 0)) % 2 ^ 32).toNat) ∧
  (reduces .vfredadd 10
    (fun o s => some (rsigWord s.core.iss.nbv 5 (mcodeT o.t) (mcodeT o.t) 0)) fun o s =>
    add32 s.core.iss.nbv (el (s.rdV o.vb) 32 0)
      (tree (add32 s.core.iss.nbv) 0 (redLeaves o s 0x80000000).length (redLeaves o s 0x80000000))) ∧
  reduces .vfredmax 10 (fun _ _ => none) fun o s =>
    max32 s.core.iss.nbv (el (s.rdV o.vb) 32 0)
      (tree (max32 s.core.iss.nbv) 0 (redLeaves o s 0xFF800000).length (redLeaves o s 0xFF800000))

/-- R157, R172, R173: a special function lands in 24 cycles under an entry of the landing buffer, ready 24 cycles after
its unit starts it; the ten words differ in their function alone. -/
def Sys2Proof.Claims.specialFunction (mk : XFOp → Instr) (g : SpecialFn) : Prop :=
  ∀ (o : XFOp) (s : State), (mk o).wf = true → s.rdP o.h.g = true → s.core.entries < 256 → o.h.a = false →
    ∃ data wm : Vec,
      exec (mk o) s = .next ((s.addLanding
        { id := 0, slot := 0, dst := .vector o.vd, data := data, wm := wm, left := 24,
          wait := some (s.core.sfuLast + 24), kind := .sfu (s.core.sfuLast == 0) }).onCore fun c =>
            { c with sfuLast := s.core.sfuLast + 4 }) ∧
      (∀ j, j < 1024 / tBits o.t → el data (tBits o.t) j =
        g.elt (fmtT o.t) (flushT s.core.iss.nbv o.t) (s.free (16384 + j)) (el (s.rdV o.va) (tBits o.t) j) %
          2 ^ tBits o.t) ∧
      ∀ b, b < 1024 → wm.getLsbD b = (s.rdM o.m).getLsbD (tBits o.t * (b / tBits o.t) / 8)

def Obligations.SpecialFunctions : Prop :=
  specialFunction .xrcp .rcp ∧ specialFunction .xrsq .rsq ∧ specialFunction .xsqrt .sqrt ∧ specialFunction .xexp2 .exp2 ∧
  specialFunction .xlog2 .log2 ∧ specialFunction .xsint .sint ∧ specialFunction .xcost .cost ∧
  specialFunction .xtanh .tanh ∧ specialFunction .xsigm .sigm ∧ specialFunction .xgelu .gelu ∧
  (∀ (s : State) (l : Landing), s.core.lands = [l] → l.kind = .sfu false →
    exec (.sfuStart l.id) s = .next (s.onCore fun c => { c with lands := [{ l with kind := .sfu true, wait := some 24 }] })) ∧
  ∀ (s : State) (l : Landing), s.core.lands = [l] → l.kind = .sfu true → l.left = 0 → l.wait = some 0 →
    l.err = none → l.lost = false → l.arrive = none → l.rsig = none →
    exec (.sfuResult l.id) s =
      .next (s.onCore fun c => { c with lands := [], r := c.r.land l.dst l.data l.wm })

/-- R6, R51, R155, R156: a V-class result is a landing of its fixed cycle count without an entry; when its count has run
out and its data is there it is written to the bits it covers, and no other register bit changes. -/
def Obligations.Landings : Prop :=
  (∀ (s : State) (c : Nat) (d : DstReg) (x wm : Vec) (r : Option (BitVec 32)),
    s.landV false c d x wm r = s.onCore fun k =>
      { k with nextId := k.nextId + 1, lands := k.lands ++
        [{ id := k.nextId, slot := s.slot, dst := d, data := x, wm := wm, left := c, wait := none, pc := k.pc,
           kind := .fixed, rsig := r }] }) ∧
  (∀ (s : State) (l : Landing), s.core.lands = [l] → l.left = 0 → l.wait = none → l.awaits = [] → l.holds = [] →
    l.err = none → l.lost = false → l.arrive = none → l.rsig = none → l.kind = .fixed →
    exec (.landing l.id) s = .next (s.onCore fun c => { c with lands := [], r := c.r.land l.dst l.data l.wm })) ∧
  (∀ (r : Regs) (i j : BitVec 5) (x wm : Vec) (b : Nat), b < 1024 →
    ((r.land (.vector i) x wm).getV j).getLsbD b =
      if j = i ∧ wm.getLsbD b = true then x.getLsbD b else (r.getV j).getLsbD b) ∧
  ∀ (r : Regs) (i j : BitVec 4) (x wm : Vec) (b : Nat), b < 128 → i ≠ 0 →
    ((r.land (.mask i) x wm).getM j).getLsbD b =
      if j = i ∧ wm.getLsbD b = true then x.getLsbD b else (r.getM j).getLsbD b

/-! The matrix queue (07). -/

/-- R179, R183, R191 to R193: with a place in the queue and its checks passed, a matrix word enters the queue at the next
index; MMODE sets the queue mode, MMA becomes the companion of a later MRSUM. -/
def Sys2Proof.Claims.QueueEntries : Prop :=
  ∀ (s : State) (h : Hdr), s.rdP h.g = true → h.a = false → s.core.mq.length < 32 →
    (∀ o : MmaOp, o.h = h → mmaCheck o s (s.rdS o.sd) = none → ∃ e : MEntry,
      exec (.mma o) s = .next (s.onCore fun c =>
        { c with mq := c.mq ++ [e], mqNext := c.mqNext + 1, comp := some (mmaArgs o s (s.rdS o.sd)) }) ∧
      e.idx = s.core.mqNext ∧ e.op = .mma (mmaArgs o s (s.rdS o.sd)) ∧ e.tile = o.tile ∧
      e.wait = (s.rdS o.sd).extractLsb' 40 8 ∧
      e.sig = if (s.rdS o.sd).getLsbD 51 = true then some ((s.rdS o.sd).extractLsb' 48 3) else none) ∧
    (∀ o : MmaOp, o.h = h → s.mgmt = false → (s.rdS o.sd).extractLsb' 52 12 ≠ 0 → ∃ u, exec (.mma o) s = .next u ∧
      u.core.note = .trap false ∧ u.core.r.trc[0] = 0x08 ∧ u.core.r.trc[7] = s.rdS o.sd ∧ u.core.mq = s.core.mq) ∧
    (∀ o : MzeroOp, o.h = h → o.acc ≠ 3 → exec (.mzero o) s = .next (s.onCore fun c =>
      { c with mq := c.mq ++ [{ idx := c.mqNext, op := .mzero o.acc, tile := o.tile, after := c.nextId }],
               mqNext := c.mqNext + 1 })) ∧
    (∀ (o : MrsumOp) (g : MmaArgs) (p : Pair), o.h = h → s.core.comp = some g → pairOf (ftA g.ft) (ftB g.ft) = some p →
      p.kind = .int → s.core.rowsFault [(g.arow, (g.kb + 1) * p.ra, 0), (g.brow, (g.kb + 1) * p.rb, 0)] = none →
      exec (.mrsum o) s = .next (s.onCore fun c =>
        { c with mq := c.mq ++ [{ idx := c.mqNext, op := .mrsum g o.sh o.neg o.row, tile := o.tile, after := c.nextId }],
                 mqNext := c.mqNext + 1 })) ∧
    (∀ o : MrsumOp, o.h = h → s.mgmt = false → s.core.comp = none → ∃ u, exec (.mrsum o) s = .next u ∧
      u.core.note = .trap false ∧
      u.core.r.trc[0] = 0x07) ∧
    ∀ o : MmodeOp, o.h = h → exec (.mmode o) s = .next (s.onCore fun c =>
      { c with mq := c.mq ++ [{ idx := c.mqNext, op := .mmode, tile := 0, after := c.nextId }],
               mqNext := c.mqNext + 1, mqRnd := o.rnd, mqSat := o.sat })

/-- R112, R113: the operand formats, accumulator mode, GROUP, SS and signedness bits that MMA accepts together. -/
def Sys2Proof.Claims.Admits (a b acc grp : Nat) (ss : BitVec 2) (sa sb : Bool) : Prop :=
  ((a, b) ∈ [(0, 0), (1, 1), (2, 2), (3, 3), (3, 4), (4, 3), (4, 4)] ∧ acc = 0 ∧ grp = 0 ∧ sa = false ∧ sb = false) ∨
  ((a, b) ∈ [(1, 7), (1, 8)] ∧ acc = 0 ∧ grp ≠ 0 ∧ sa = false ∧ sb = false) ∨
  ((a, b) ∈ [(5, 7), (5, 8)] ∧ acc = 0 ∧ grp ≠ 0 ∧ ss = 0 ∧ sb = false) ∨
  ((a, b) ∈ [(5, 5), (6, 6)] ∧ (acc = 1 ∨ acc = 2) ∧ grp = 0 ∧ ss = 0)

/-- R96, R112: the width of a matrix format code, and the depth of a pair by the code of its A. -/
def Sys2Proof.Claims.codeBits (f : Nat) : Nat := [32, 16, 16, 8, 8, 8, 4, 8, 4, 16, 32].getD f 8
def Sys2Proof.Claims.depth (a : Nat) : Nat := [1, 4, 4, 8, 8, 8, 16].getD a 1

/-- The outcome of a trap at issue. -/
def Sys2Proof.Claims.traps (s : State) (t : Trap) : Out := .next (s.takeTrap (slotTrap s t))

/-- ROW_RANGE: a row outside the task's declared rows, with the access kind of R305. -/
def Sys2Proof.Claims.rowRange (r kind : Nat) : Trap :=
  { cause := 4, detail := 3, addr := BitVec.ofNat 64 (64 * r), aux := BitVec.ofNat 64 kind }

/-- The first row of some that the task has not declared (R281). -/
def Sys2Proof.Claims.undeclared (s : State) (l : List Nat) : Option Nat := l.find? fun r => !s.core.rowOk r

/-- R31, R112, R113, R116, R182, R190: the checks of MMA in their order, each with its trap: a reserved bit, a use that
R112 or R113 refuses, a group that K does not divide or a side table past the last row, an operand outside its bank group,
a row that the task has not declared. Where several rows offend, that the first is sought in A, then B, then the side table
is the model's reading (DEDUCED, log entry 62). A full queue freezes its bundle. -/
def Sys2Proof.Claims.MatrixChecks : Prop :=
  ∀ (o : MmaOp) (s : State) (x : Word) (ft : BitVec 32) (a b acc grp side K na nb : Nat), s.rdP o.h.g = true →
    x = s.rdS o.sd → ft = s.ftInUse → a = (ft.extractLsb' 0 4).toNat → b = (ft.extractLsb' 4 4).toNat →
    acc = (ft.extractLsb' 8 2).toNat → grp = (ft.extractLsb' 10 2).toNat → side = (ft.extractLsb' 12 15).toNat →
    K = depth a * ((x.extractLsb' 30 10).toNat + 1) → na = 32 * K * codeBits a / 512 → nb = 32 * K * codeBits b / 512 →
    (32 ≤ s.core.mq.length → exec (.mma o) s = .next s.freeze) ∧
    (s.core.iss.ftsel.getLsbD 2 = false → ft = s.core.iss.ft[0]) ∧
    (∀ (n : Fin 4) (m : Fin 16), s.core.iss.ftsel.getLsbD 2 = true → (n : Nat) = (s.core.iss.ftsel.extractLsb' 0 2).toNat →
      (m : Nat) = s.core.iss.lc[n].count.toNat % 16 → ft = s.core.iss.ft[m]) ∧
    (s.core.mq.length < 32 → x.extractLsb' 52 12 ≠ 0 → exec (.mma o) s = traps s { cause := 8, aux := x }) ∧
    (s.core.mq.length < 32 → x.extractLsb' 52 12 = 0 →
      (¬Admits a b acc grp o.ss o.sa o.sb → exec (.mma o) s = traps s { cause := 7, aux := x }) ∧
      (Admits a b acc grp o.ss o.sa o.sb →
        (grp ≠ 0 → (K % (16 * 2 ^ grp) ≠ 0 ∨ 24576 < side + 2 * (K / (16 * 2 ^ grp))) →
          exec (.mma o) s = traps s { cause := 8, aux := x }) ∧
        ((grp ≠ 0 → K % (16 * 2 ^ grp) = 0 ∧ side + 2 * (K / (16 * 2 ^ grp)) ≤ 24576) →
          (12288 < (x.extractLsb' 0 15).toNat + na ∨ (x.extractLsb' 15 15).toNat < 12288 ∨
            24576 < (x.extractLsb' 15 15).toNat + nb → exec (.mma o) s = traps s { cause := 6, aux := x }) ∧
          ((x.extractLsb' 0 15).toNat + na ≤ 12288 → 12288 ≤ (x.extractLsb' 15 15).toNat →
            (x.extractLsb' 15 15).toNat + nb ≤ 24576 → ∀ rows, rows =
              (List.range na).map (fun i => (x.extractLsb' 0 15).toNat + i) ++
              (List.range nb).map (fun i => (x.extractLsb' 15 15).toNat + i) ++
              (if grp = 0 then [] else (List.range (2 * (K / (16 * 2 ^ grp)))).map fun i => side + i) →
            (∀ r, undeclared s rows = some r → exec (.mma o) s = traps s (rowRange r 0)) ∧
            (undeclared s rows = none → mmaCheck o s x = none)))))

/-- R190, R192 to R195: what MLDT, MSTT, MDRAIN, MZERO and MRSUM refuse, and what they trap: a reserved bit, an accumulator
mode of 3 or a missing integer companion, a range or a field that their entries refuse, a row that the task has not declared.
That MDRAIN's destination is looked at before its parameters is the model's reading (DEDUCED, log entry 62). -/
def Sys2Proof.Claims.TransferChecks : Prop :=
  ∀ (s : State) (h : Hdr) (tile : BitVec 7) (sd : BitVec 6) (x : Word) (r p f w : Nat), s.rdP h.g = true → x = s.rdS sd →
    r = (x.extractLsb' 0 15).toNat → p = (x.extractLsb' 15 15).toNat → f = (x.extractLsb' 46 4).toNat → w = codeBits f →
    (s.core.tilePort = 0 → s.core.tileBusy tile.toNat = 0 →
      (∀ acc, (x.extractLsb' 15 49 ≠ 0 ∨ (acc ≠ 3 ∧ 24576 < r + 64) →
          exec (.mldt { h := h, tile := tile, sd := sd, acc := acc }) s = traps s { cause := 8, aux := x }) ∧
        (x.extractLsb' 15 49 = 0 → acc = 3 →
          exec (.mldt { h := h, tile := tile, sd := sd, acc := acc }) s = traps s { cause := 7, aux := x }) ∧
        ∀ q, x.extractLsb' 15 49 = 0 → acc ≠ 3 → r + 64 ≤ 24576 →
          undeclared s ((List.range 64).map fun i => r + i) = some q →
          exec (.mldt { h := h, tile := tile, sd := sd, acc := acc }) s = traps s (rowRange q 0)) ∧
      (x.extractLsb' 15 49 ≠ 0 ∨ 24576 < r + 64 →
        exec (.mstt { h := h, tile := tile, sd := sd }) s = traps s { cause := 8, aux := x }) ∧
      (∀ q, x.extractLsb' 15 49 = 0 → r + 64 ≤ 24576 → undeclared s ((List.range 64).map fun i => r + i) = some q →
        exec (.mstt { h := h, tile := tile, sd := sd }) s = traps s (rowRange q 1)) ∧
      ∀ (uns req : Bool) (bad : Prop), (bad ↔ x.extractLsb' 50 14 ≠ 0 ∨ f ∈ [6, 7, 8] ∨ 11 ≤ f ∨
          (req = true ∧ ((s.tile tile.toNat).acc = 0 ∨ f ≤ 4)) ∨ (uns = true ∧ f ≤ 4) ∨ 24576 < r + 2 * w ∨
          (req = true ∧ 24576 ≤ p + 3)) →
        (bad → exec (.mdrain { h := h, tile := tile, sd := sd, uns := uns, req := req }) s =
          traps s { cause := 8, aux := x }) ∧
        (∀ q, ¬bad → undeclared s ((List.range (2 * w)).map fun i => r + i) = some q →
          exec (.mdrain { h := h, tile := tile, sd := sd, uns := uns, req := req }) s = traps s (rowRange q 1)) ∧
        ∀ q, ¬bad → undeclared s ((List.range (2 * w)).map fun i => r + i) = none → req = true →
          undeclared s ((List.range 4).map fun i => p + i) = some q →
          exec (.mdrain { h := h, tile := tile, sd := sd, uns := uns, req := req }) s = traps s (rowRange q 0)) ∧
    (s.core.mq.length < 32 →
      (∀ o : MzeroOp, o.h = h → o.acc = 3 → exec (.mzero o) s = traps s { cause := 7 }) ∧
      ∀ o : MrsumOp, o.h = h →
        (s.core.comp = none → exec (.mrsum o) s = traps s { cause := 7 }) ∧
        ∀ (g : MmaArgs) (a b : Nat), s.core.comp = some g → a = (g.ft.extractLsb' 0 4).toNat →
          b = (g.ft.extractLsb' 4 4).toNat →
          ((a, b) ∉ [(5, 5), (6, 6)] → exec (.mrsum o) s = traps s { cause := 7 }) ∧
          ∀ q, (a, b) ∈ [(5, 5), (6, 6)] → undeclared s ((List.range (4 * (g.kb + 1))).map (fun i => g.arow + i) ++
              (List.range (4 * (g.kb + 1))).map fun i => g.brow + i) = some q →
            exec (.mrsum o) s = traps s (rowRange q 0)) ∧
    (32 ≤ s.core.mq.length →
      (∀ o : MzeroOp, o.h = h → exec (.mzero o) s = .next s.freeze) ∧
      (∀ o : MrsumOp, o.h = h → exec (.mrsum o) s = .next s.freeze) ∧
      ∀ o : MmodeOp, o.h = h → exec (.mmode o) s = .next s.freeze)

/-- MMA, MZERO, MRSUM and MMODE enter the matrix queue, and MLDT, MSTT, MDRAIN and MSTAT issue, unless a check fails,
which traps: R31, R112, R116, R179, R182, R183, R190, R191, R192, R193, R194, R195. -/
def Obligations.MatrixIssue : Prop :=
  QueueEntries ∧ MatrixChecks ∧ TransferChecks

/-- R184 to R186, R191, R193, R253: the head entry starts and takes its tokens, reads a block in a served cycle once the
accesses before it in its task's program have been performed, each row as it is or as it was when the cycle began, and
completes after its last block; an MZERO leaves its tile zero, unsaturated, in its mode. That an MMA keeps the mark of an
uncorrectable cell, unless Z starts it from zero, is the model's choice (log entry 85). -/
def Obligations.MatrixQueueSteps : Prop :=
  ∀ (s : State) (e : MEntry) (l : List MEntry), s.core.mq = e :: l →
    (s.canStart = true → e.op ≠ .mmode → exec .matrixEntryStart s = .next (s.onCore fun c =>
      { c with mq := { e with running := true } :: l, r := { c.r with tkval := tokDec c.r.tkval e.wait } })) ∧
    (s.served = true → s.core.mqDid = false → e.running = true → e.done < e.blocksDue →
      e.early s.core = false → ∃ (e' : MEntry) (rd : Nat → Row),
        exec .matrixBlock s = .next (s.onCore fun c => { c with mq := e' :: l, mqDid := true }) ∧
        e'.done = e.done + 1 ∧ e'.blocks = ((e.rowsOf e.done).1.map rd, (e.rowsOf e.done).2.1.map rd,
          (e.rowsOf e.done).2.2.map rd) :: e.blocks ∧
        ∀ r, rd r = s.core.row r ∨ rd r = { s.core with rows := s.core.rowsWas }.row r) ∧
    (∀ g, e.op = .mma g → e.early s.core = true → exec .matrixBlock s = .next s) ∧
    (∀ acc, e.op = .mzero acc → e.running = true → e.done = 1 → s.core.mqDid = false → e.sig = none → e.arrive = none →
      e.bad = none → ∃ u, exec .matrixEntryComplete s = .next u ∧ u.core.mq = l ∧
        u.tile e.tile.toNat = { cells := 0, sat := false, acc := acc } ∧ u.core.r = s.core.r ∧ SameMemory s u) ∧
    (∀ (g : MmaArgs), e.op = .mma g → e.running = true → e.done = g.kb + 1 → s.core.mqDid = false → e.sig = none →
      e.arrive = none → e.bad = none → ∃ u, exec .matrixEntryComplete s = .next u ∧ u.core.mq = l ∧
        u.tile e.tile.toNat = (if g.z = true then { mmaTile g (blocksOf e.blocks) (s.tile e.tile.toNat) with bad := [] }
          else mmaTile g (blocksOf e.blocks) (s.tile e.tile.toNat)) ∧
        u.core.rsigM = s.core.rsigM ++ [rsigWord g.nbv g.ss.toNat (ftA g.ft) (ftB g.ft) (ftAcc g.ft)]) ∧
    (∀ (g : MmaArgs) (sh : BitVec 3) (neg row : Bool), e.op = .mrsum g sh neg row → e.running = true → e.done = g.kb + 1 →
      s.core.mqDid = false → e.sig = none → e.arrive = none → e.bad = none →
      ∃ u, exec .matrixEntryComplete s = .next u ∧ u.core.mq = l ∧
        u.tile e.tile.toNat = mrsumTile g sh.toNat neg row (blocksOf e.blocks) (s.tile e.tile.toNat) ∧
        u.core.rsigM = s.core.rsigM ∧ u.core.r = s.core.r ∧ SameMemory s u) ∧
    ∀ (j : Nat) (a : ArraySt), s.arrays = [(j, a)] → a.set = true →
      exec (.arrayWindowSwitch j) s = .next { s with arrays := [(j, { a with count := a.count + 1 })] }

/-- An integer of w bits, signed or unsigned (R100). -/
def Sys2Proof.Claims.ival (w : Nat) (signed : Bool) (x : Nat) : Int := if signed then sgn w x else x

/-- R180, R186: element k of row (or column) r of an operand: the blocks one after another, K innermost. -/
def Sys2Proof.Claims.opElt (blks : List Nat) (d w r k : Nat) : Nat :=
  blks.getD (k / d) 0 / 2 ^ (w * (r * d + k % d)) % 2 ^ w

/-- R112 to R114, R180, R191: the cells of an integer MMA: the old cell, or 0 under Z, plus the dot product of the A row
and the B column, wrapping or clamped as the accumulator mode says. -/
def Sys2Proof.Claims.IntegerCells : Prop :=
  ∀ (g : MmaArgs) (p : Pair) (bl : Blocks) (old i j a b K : Nat), pairOf a b = some p → a = (g.ft.extractLsb' 0 4).toNat →
    b = (g.ft.extractLsb' 4 4).toNat → (a, b) ∈ [(5, 5), (6, 6)] → K = depth a * (g.kb + 1) →
    ∃ x : Int,
      x = (if g.z = true then 0 else sgn 32 old) + ((List.range K).map fun n =>
        ival (codeBits a) g.sa (opElt bl.a (depth a) (codeBits a) i n) *
        ival (codeBits b) g.sb (opElt bl.b (depth a) (codeBits b) j n)).sum ∧
      (g.ft.extractLsb' 8 2 ≠ 2 → ((mmaCell g p bl old i j).1 : Int) = x % 2 ^ 32 ∧ (mmaCell g p bl old i j).2 = false) ∧
      (g.ft.extractLsb' 8 2 = 2 →
        ((mmaCell g p bl old i j).1 : Int) = max (-2 ^ 31) (min (2 ^ 31 - 1) x) % 2 ^ 32 ∧
        ((mmaCell g p bl old i j).2 = true ↔ x < -2 ^ 31 ∨ 2 ^ 31 - 1 < x))

/-- x / 2^q truncated toward zero. -/
def Sys2Proof.Claims.truncAt (q : Int) (x : ℚ) : Int := if 0 ≤ x then ⌊x / 2 ^ q⌋ else -⌊-x / 2 ^ q⌋

/-- R102, R118, R119, R121: a summation unit adds its terms and the accumulator: NaN and infinities first; zeros; else each
value is truncated W bits below the greatest exponent, and the sum is rounded once, toward zero under NBV 1. -/
def Sys2Proof.Claims.BlockAlignment : Prop :=
  ∀ (nbv : BitVec 8) (c : Nat) (t l : List Machine.Num) (W : Int), l = fp32.operand (nbv == 1) c :: t →
    W = (if nbv = 1 then 27 else if nbv = 2 then 30 else 36) →
    (.nan ∈ l → blockAlign nbv c t = 0x7FC00000) ∧
    (.nan ∉ l → .inf false ∈ l → .inf true ∈ l → blockAlign nbv c t = 0x7FC00000) ∧
    (∀ s, .nan ∉ l → .inf s ∈ l → .inf (!s) ∉ l → blockAlign nbv c t = if s then 0xFF800000 else 0x7F800000) ∧
    ((∀ x ∈ l, ∃ s m e, x = .fin s m e) →
      ((∀ x ∈ l, value x = 0) →
        ((∀ x ∈ l, ∃ m e, x = .fin true m e) → blockAlign nbv c t = 0x80000000) ∧
        (∀ x ∈ l, (∃ m e, x = .fin false m e) → blockAlign nbv c t = 0)) ∧
      ∀ emax S : Int, (∀ x ∈ l, |value x| < 2 ^ (emax + 1)) → (∃ x ∈ l, 2 ^ emax ≤ |value x|) →
        S = (l.map fun x => truncAt (emax - W) (value x)).sum →
        (S = 0 → blockAlign nbv c t = 0) ∧
        (S ≠ 0 → blockAlign nbv c t =
          fp32.round (if nbv = 1 then 1 else 0) false (nbv == 1) (.fin (decide (S < 0)) S.natAbs (emax - W))))

/-- The value of a floating matrix operand: subnormals below 32 bits, and at 32 under NBV 1, are zeros (R96, R102). -/
def Sys2Proof.Claims.opnd (nbv : BitVec 8) (f x : Nat) : Machine.Num :=
  ([fp32, bf16, fp16, fe4m3, fe5m2].getD f fp32).operand (f != 0 || nbv == 1) x

/-- R118, R120: the three shapes: units in ascending order, each added to the accumulator; the fixed tree over the products,
each rounded to FP32; fused operations one after another. -/
def Sys2Proof.Claims.SumShapes : Prop :=
  ∀ (nbv : BitVec 8) (n c : Nat) (ab : List (Machine.Num × Machine.Num)), 0 < n →
    fp32Sum nbv n 0 c [] = c ∧
    (ab ≠ [] → fp32Sum nbv n 0 c ab =
      fp32Sum nbv n 0 (blockAlign nbv c ((ab.take n).map fun x => Machine.Num.mul x.1 x.2)) (ab.drop n)) ∧
    fp32Sum nbv n 1 c ab = add32 nbv c
      (tree (add32 nbv) 0 ab.length (ab.map fun x => fp32.round 0 false (nbv == 1) (Machine.Num.mul x.1 x.2))) ∧
    fp32Sum nbv n 2 c [] = c ∧
    ∀ x y, fp32Sum nbv n 2 c ((x, y) :: ab) =
      fp32Sum nbv n 2 (fp32.round 0 false (nbv == 1) (Machine.Num.fma 0 x y (fp32.operand (nbv == 1) c))) ab

/-- R112, R115 to R118, R121, R180, R191: the cells of an MMA with an FP32 accumulator: the old cell, or 0 under Z, and the
products over K in units of the pair's block; a GQ operand is dequantised by its group's zero point and scale, and of
INT8 × GQ each group is one term. No such cell sets SAT. -/
def Sys2Proof.Claims.FloatCells : Prop :=
  ∀ (g : MmaArgs) (p : Pair) (bl : Blocks) (old i j a b c K size v : Nat) (A B : Nat → Nat), pairOf a b = some p →
    a = (g.ft.extractLsb' 0 4).toNat → b = (g.ft.extractLsb' 4 4).toNat → c = (if g.z = true then 0 else old) →
    K = depth a * (g.kb + 1) → size = 16 * 2 ^ (g.ft.extractLsb' 10 2).toNat →
    v = (if g.nbv = 1 then 1 else if g.nbv = 2 then 2 else 4) → (∀ k, A k = opElt bl.a (depth a) (codeBits a) i k) →
    (∀ k, B k = opElt bl.b (depth a) (codeBits b) j k) →
    ∀ (scale : Nat → Machine.Num) (zp : Nat → Nat),
      (∀ q, scale q = fp16.operand true (bl.side.getD q 0 / 2 ^ (32 * j) % 2 ^ 16)) →
      (∀ q, zp q = bl.side.getD q 0 / 2 ^ (32 * j + 16) % 2 ^ 8) →
      (a ≤ 4 → b ≤ 4 → mmaCell g p bl old i j =
        (fp32Sum g.nbv (v * [2, 4, 4, 8, 8].getD a 0) g.ss c
          ((List.range K).map fun k => (opnd g.nbv a (A k), opnd g.nbv b (B k))), false)) ∧
      (a = 1 → b ∈ [7, 8] → mmaCell g p bl old i j =
        (fp32Sum g.nbv (v * 4) g.ss c
          ((List.range K).map fun k => (opnd g.nbv 1 (A k),
            Machine.Num.mul (.fin (decide (B k < zp (k / size))) ((B k : Int) - zp (k / size)).natAbs 0)
              (scale (k / size)))), false)) ∧
      (a = 5 → b ∈ [7, 8] → ∀ S : Nat → Int,
        (∀ q, S q = ((List.range size).map fun n => ival 8 g.sa (A (q * size + n)) * B (q * size + n)).sum -
          zp q * ((List.range size).map fun n => ival 8 g.sa (A (q * size + n))).sum) →
        mmaCell g p bl old i j =
          (fp32Sum g.nbv 1 0 c ((List.range (K / size)).map fun q =>
            (.fin (decide (S q < 0)) (S q).natAbs 0, scale q)), false))

/-- R114, R178, R191, R192: the tile after an MMA, cell by cell, with its accumulator mode, and SAT where a cell clamped; the
tile after an MRSUM: to each cell is added the sum over K of its row of A, or its column of B, shifted and negated as it asks. -/
def Sys2Proof.Claims.TileCells : Prop :=
  ∀ (g : MmaArgs) (p : Pair) (bl : Blocks) (t : Tile) (a b K : Nat) (cell : Tile → Nat → Nat → Nat), pairOf a b = some p →
    a = (g.ft.extractLsb' 0 4).toNat → b = (g.ft.extractLsb' 4 4).toNat → K = depth a * (g.kb + 1) →
    (∀ u i j, cell u i j = (u.cells.extractLsb' (32 * (32 * i + j)) 32).toNat) →
    ((∀ i j, i < 32 → j < 32 → cell (mmaTile g bl t) i j = (mmaCell g p bl (cell t i j) i j).1 % 2 ^ 32) ∧
      ((mmaTile g bl t).sat = true ↔
        t.sat = true ∨ ∃ i j, i < 32 ∧ j < 32 ∧ (mmaCell g p bl (cell t i j) i j).2 = true) ∧
      (mmaTile g bl t).acc = g.ft.extractLsb' 8 2 ∧ (mmaTile g bl t).bad = t.bad) ∧
    ∀ (sh : Nat) (neg row : Bool) (x : Nat → Nat → Int),
      (∀ i j, x i j = sgn 32 (cell t i j) + (if neg = true then -1 else 1) * 2 ^ sh * ((List.range K).map fun n =>
        if row = true then ival (codeBits a) g.sa (opElt bl.a (depth a) (codeBits a) i n)
        else ival (codeBits b) g.sb (opElt bl.b (depth a) (codeBits b) j n)).sum) →
      (∀ i j, i < 32 → j < 32 →
        (g.ft.extractLsb' 8 2 ≠ 2 → (cell (mrsumTile g sh neg row bl t) i j : Int) = x i j % 2 ^ 32) ∧
        (g.ft.extractLsb' 8 2 = 2 → (cell (mrsumTile g sh neg row bl t) i j : Int) =
          max (-2 ^ 31) (min (2 ^ 31 - 1) (x i j)) % 2 ^ 32)) ∧
      ((mrsumTile g sh neg row bl t).sat = true ↔ t.sat = true ∨
        (g.ft.extractLsb' 8 2 = 2 ∧ ∃ i j, i < 32 ∧ j < 32 ∧ (x i j < -2 ^ 31 ∨ 2 ^ 31 - 1 < x i j))) ∧
      (mrsumTile g sh neg row bl t).acc = t.acc ∧ (mrsumTile g sh neg row bl t).bad = t.bad

/-- R108, R109, R196: one cell of MDRAIN, in the queue mode: FP32 kept or narrowed, or rounded to INT32, plus ZO, clamped; an
INT32 rounded to a floating format, or requantised by its column's multiplier and shift, plus ZO, clamped. -/
def Sys2Proof.Claims.DrainCells : Prop :=
  ∀ (acc : BitVec 2) (f : Nat) (mode : BitVec 2) (sat req uns : Bool) (zo : Int) (p x j w : Nat) (lo hi y : Int),
    x < 2 ^ 32 → w = codeBits f → lo = (if uns = true then 0 else -2 ^ (w - 1)) →
    hi = (if uns = true then 2 ^ w - 1 else 2 ^ (w - 1) - 1) → y = sgn 32 x →
    (acc = 0 →
      (f = 0 → drainCell acc f mode sat req uns zo p x j = x) ∧
      (1 ≤ f → f ≤ 4 → drainCell acc f mode sat req uns zo p x j =
        ([fp32, bf16, fp16, fe4m3, fe5m2].getD f fp32).round mode sat true (fp32.dec x)) ∧
      (f ∈ [5, 9, 10] → ∃ n : Int, drainCell acc f mode sat req uns zo p x j = (max lo (min hi (n + zo)) % 2 ^ w).toNat ∧
        (fp32.dec x = .nan → n = 0) ∧ (∀ s, fp32.dec x = .inf s → n = if s then -2 ^ 31 else 2 ^ 31 - 1) ∧
        ∀ s m e, fp32.dec x = .fin s m e → ∃ k : Nat, Rounds mode s k (m * 2 ^ e) ∧
          n = max (-2 ^ 31) (min (2 ^ 31 - 1) (if s then -(k : Int) else k)))) ∧
    (acc ≠ 0 →
      (f ≤ 4 → drainCell acc f mode sat req uns zo p x j =
        ([fp32, bf16, fp16, fe4m3, fe5m2].getD f fp32).round mode sat false (.fin (decide (y < 0)) y.natAbs 0)) ∧
      (f ∈ [5, 9, 10] → ∀ (m : Int) (k : Nat), m = sgn 32 (p / 2 ^ (64 * j) % 2 ^ 32) →
        k = p / 2 ^ (64 * j + 32) % 2 ^ 6 →
        drainCell acc f mode sat req uns zo p x j = (max lo (min hi
          ((if req = true then (y * m + if k = 0 then 0 else 2 ^ (k - 1)) / 2 ^ k else y) + zo)) % 2 ^ w).toNat))

/-- The cells of MMA, MRSUM and MDRAIN: integer dot products, aligned blocks and their sums, scales, row sums,
conversions: R113, R114, R115, R116, R117, R118, R119, R120, R121, R191, R192, R196. -/
def Obligations.MatrixCells : Prop :=
  IntegerCells ∧ BlockAlignment ∧ SumShapes ∧ FloatCells ∧ TileCells ∧ DrainCells

/-- R190, R194 to R197: with its tile idle and the tile port free, MLDT fills the tile from 64 rows, MSTT copies it to 64
rows, MDRAIN converts it to rows and updates RSIG, each taking the port for 16 cycles; MSTAT reads the tile's and the
queue's status. -/
def Sys2Proof.Claims.TileTransfers : Prop :=
  ∀ (s : State) (h : Hdr) (tile : BitVec 7) (sd : BitVec 6), s.rdP h.g = true → h.a = false → s.core.tilePort = 0 →
    (s.core.tileBusy tile.toNat = 0 →
      (∀ acc, tileRowsCheck s (s.rdS sd) acc 0 = none →
        (∀ q, q < 64 → s.core.rowBad (((s.rdS sd).extractLsb' 0 15).toNat + q) = false) →
        ∃ u, exec (.mldt { h := h, tile := tile, sd := sd, acc := acc }) s = .next u ∧
          (u.tile tile.toNat).sat = false ∧ (u.tile tile.toNat).acc = acc ∧
          (∀ q, q < 64 → (u.tile tile.toNat).cells.extractLsb' (512 * q) 512 =
            s.core.row (((s.rdS sd).extractLsb' 0 15).toNat + q)) ∧
          u.core.tilePort = 16 ∧ u.core.r = s.core.r ∧ u.core.rows = s.core.rows ∧ SameMemory s u) ∧
      (tileRowsCheck s (s.rdS sd) 0 1 = none → (s.tile tile.toNat).bad = [] →
        ∃ u, exec (.mstt { h := h, tile := tile, sd := sd }) s = .next u ∧
          (∀ q, q < 64 → u.core.row (((s.rdS sd).extractLsb' 0 15).toNat + q) =
            (s.tile tile.toNat).cells.extractLsb' (512 * q) 512) ∧
          (∀ q, q < ((s.rdS sd).extractLsb' 0 15).toNat ∨ ((s.rdS sd).extractLsb' 0 15).toNat + 64 ≤ q →
            u.core.row q = s.core.row q) ∧
          u.arrays = s.arrays ∧ u.core.tilePort = 16 ∧ u.core.r = s.core.r ∧ SameMemory s u) ∧
      (∀ (uns req : Bool), drainCheck { h := h, tile := tile, sd := sd, uns := uns, req := req } s (s.rdS sd) = none →
        (s.tile tile.toNat).bad = [] →
        ∃ u, exec (.mdrain { h := h, tile := tile, sd := sd, uns := uns, req := req }) s = .next u ∧
          u.core.rsigD = s.core.rsigD ++
            [rsigWord s.core.iss.nbv 4 ((s.rdS sd).extractLsb' 46 4).toNat 0 (s.tile tile.toNat).acc.toNat] ∧
          (∀ n, n < 1024 → ∀ f w : Nat, f = ((s.rdS sd).extractLsb' 46 4).toNat → w = mBits f →
            ((u.core.row (((s.rdS sd).extractLsb' 0 15).toNat + w * n / 512)).extractLsb' (w * n % 512) w).toNat =
              drainCell (s.tile tile.toNat).acc f s.core.mqRnd s.core.mqSat req uns ((s.rdS sd).extractLsb' 30 16).toInt
                (rowsNat (s.core.rowsAt ((s.rdS sd).extractLsb' 15 15).toNat 4))
                ((s.tile tile.toNat).cells.extractLsb' (32 * n) 32).toNat (n % 32) % 2 ^ w) ∧
          (∀ q, q < ((s.rdS sd).extractLsb' 0 15).toNat ∨
              ((s.rdS sd).extractLsb' 0 15).toNat + 2 * mBits ((s.rdS sd).extractLsb' 46 4).toNat ≤ q →
            u.core.row q = s.core.row q) ∧
          u.arrays = s.arrays ∧ u.core.tilePort = 16 ∧ u.core.r = s.core.r ∧ SameMemory s u)) ∧
    ∀ rd : BitVec 6, ∃ x : Word, exec (.mstat { h := h, tile := tile, rd := rd }) s = .next (s.wrS rd x) ∧
      (x.getLsbD 0 = (s.tile tile.toNat).sat) ∧ x.extractLsb' 1 2 = (s.tile tile.toNat).acc

/-- R194: while its tile is busy, or the tile port has been taken by an MLDT, MSTT or MDRAIN of the last 16 cycles, each of
the three freezes its bundle, whatever its operands; the port counts down by one in each cycle. -/
def Sys2Proof.Claims.TileHolds : Prop :=
  ∀ (s : State) (h : Hdr) (tile : BitVec 7) (sd : BitVec 6) (acc : BitVec 2) (uns req : Bool), s.rdP h.g = true →
    ((s.core.tileBusy tile.toNat ≠ 0 ∨ s.core.tilePort ≠ 0) →
      exec (.mldt { h := h, tile := tile, sd := sd, acc := acc }) s = .next s.freeze ∧
      exec (.mstt { h := h, tile := tile, sd := sd }) s = .next s.freeze ∧
      exec (.mdrain { h := h, tile := tile, sd := sd, uns := uns, req := req }) s = .next s.freeze) ∧
    s.freeze.core.st = .frozen ∧ s.freeze.core.r = s.core.r ∧ s.freeze.core.pc = s.core.pc ∧ SameMemory s s.freeze ∧
    s.core.endCycle.tilePort = s.core.tilePort - 1

/-- R190, R194 to R197: under any guard and A bit, with the tile idle and the tile port free, MLDT, MSTT and MDRAIN complete
on every operand that R190, R194 and R195 admit, uncorrectable data among them: MLDT still sets SAT and ACC, and raises
MEMORY_ERROR with the first such row; each takes the tile port for 16 cycles. MSTAT completes always, with the fields of
the tile and of the queue. A suppressed one has no effect. -/
def Sys2Proof.Claims.MatrixTransferCompletion : Prop :=
  ∀ (s : State) (h : Hdr) (tile : BitVec 7) (sd rd : BitVec 6) (x : Word) (r p f w : Nat), x = s.rdS sd →
    r = (x.extractLsb' 0 15).toNat → p = (x.extractLsb' 15 15).toNat → f = (x.extractLsb' 46 4).toNat → w = mBits f →
    (s.rdP h.g = true → s.core.tilePort = 0 → s.core.tileBusy tile.toNat = 0 →
      (x.extractLsb' 15 49 = 0 → r + 64 ≤ 24576 → (∀ q : Nat, q < 64 → s.core.rowOk ((r + q : Nat) : Int) = true) →
        (∀ acc, acc ≠ 3 → ∃ u, exec (.mldt { h := h, tile := tile, sd := sd, acc := acc }) s = .next (u.arriveNow h.a) ∧
          (u.tile tile.toNat).sat = false ∧ (u.tile tile.toNat).acc = acc ∧ u.core.tilePort = 16 ∧
          u.core.r = s.core.r ∧ u.core.rows = s.core.rows ∧ SameMemory s u ∧
          ((∀ q, q < 64 → s.core.rowBad (r + q) = false) → u.core.pend = s.core.pend ∧
            ∀ q, q < 64 → (u.tile tile.toNat).cells.extractLsb' (512 * q) 512 = s.core.row (r + q)) ∧
          ∀ q, q < 64 → s.core.rowBad (r + q) = true → (∀ i, i < q → s.core.rowBad (r + i) = false) →
            s.core.st = .active → ∃ t, u.core.pend = s.core.pend ++ [t] ∧ t.cause = 0x10 ∧
              t.addr = BitVec.ofNat 64 (64 * (r + q)) ∧ t.aux = s.core.pc) ∧
        ∃ u, exec (.mstt { h := h, tile := tile, sd := sd }) s = .next (u.arriveNow h.a) ∧ u.arrays = s.arrays ∧
          u.core.tilePort = 16 ∧ u.core.r = s.core.r ∧ SameMemory s u ∧
          (∀ q, q < r ∨ r + 64 ≤ q → u.core.row q = s.core.row q) ∧
          ((s.tile tile.toNat).bad = [] → ∀ q, q < 64 → u.core.row (r + q) =
            (s.tile tile.toNat).cells.extractLsb' (512 * q) 512)) ∧
      ∀ (uns req : Bool), x.extractLsb' 50 14 = 0 → f ∈ [0, 1, 2, 3, 4, 5, 9, 10] →
        (req = true → (s.tile tile.toNat).acc ≠ 0 ∧ 5 ≤ f) → (uns = true → 5 ≤ f) → r + 2 * w ≤ 24576 →
        (∀ q : Nat, q < 2 * w → s.core.rowOk ((r + q : Nat) : Int) = true) →
        (req = true → p + 3 < 24576 ∧ ∀ q : Nat, q < 4 → s.core.rowOk ((p + q : Nat) : Int) = true) →
        ∃ u, exec (.mdrain { h := h, tile := tile, sd := sd, uns := uns, req := req }) s = .next (u.arriveNow h.a) ∧
          u.arrays = s.arrays ∧ u.core.tilePort = 16 ∧ u.core.r = s.core.r ∧ SameMemory s u ∧
          (∀ q, q < r ∨ r + 2 * w ≤ q → u.core.row q = s.core.row q) ∧
          u.core.rsigD = s.core.rsigD ++ [rsigWord s.core.iss.nbv 4 f 0 (s.tile tile.toNat).acc.toNat]) ∧
    (s.rdP h.g = true → ∃ y : Word, exec (.mstat { h := h, tile := tile, rd := rd }) s = .next ((s.wrS rd y).arriveNow h.a) ∧
      y.getLsbD 0 = (s.tile tile.toNat).sat ∧ y.extractLsb' 1 2 = (s.tile tile.toNat).acc ∧ y.extractLsb' 3 3 = 0 ∧
      (s.core.mq.length ≤ 32 → (y.extractLsb' 6 6).toNat = s.core.tileBusy tile.toNat ∧
        (y.extractLsb' 12 6).toNat = s.core.mq.length) ∧
      (s.core.mq.length ≤ 32 →
        y.extractLsb' 18 2 = (if (s.arrayOf s.core.id).solo = true then 0 else (s.arrayOf s.core.id).win) ∧
        y.getLsbD 20 = (s.arrayOf s.core.id).solo ∧ y.extractLsb' 21 2 = s.core.mqRnd ∧ y.getLsbD 23 = s.core.mqSat ∧
        y.extractLsb' 24 40 = 0)) ∧
    (s.rdP h.g = false →
      (∀ acc, exec (.mldt { h := h, tile := tile, sd := sd, acc := acc }) s = .next (s.arriveNow h.a)) ∧
      exec (.mstt { h := h, tile := tile, sd := sd }) s = .next (s.arriveNow h.a) ∧
      (∀ uns req, exec (.mdrain { h := h, tile := tile, sd := sd, uns := uns, req := req }) s = .next (s.arriveNow h.a)) ∧
      exec (.mstat { h := h, tile := tile, rd := rd }) s = .next (s.arriveNow h.a))

/-- MLDT, MSTT, MDRAIN and MSTAT, which complete on all they admit; a busy tile or tile port freezes the bundle: R59,
R190, R194, R195, R196, R197. -/
def Obligations.MatrixTransfers : Prop :=
  TileTransfers ∧ TileHolds ∧ MatrixTransferCompletion

/-! Memory (08, 12). -/

namespace Sys2Proof.Claims

open Sys2Proof.Machine

/-- `n` bytes of memory from `a`, as the model reads them. -/
def bytesAt (s : State) (a n : Nat) : List Byte := (List.range n).map fun i => memGet s.mem (a + i)

/-- Memory holds `bs` from `a` on, and every other byte is as in `s`. -/
def Stored (s t : State) (a : Nat) (bs : List Byte) : Prop :=
  bytesAt t a bs.length = bs ∧ ∀ x, (x < a ∨ a + bs.length ≤ x) → memGet t.mem x = memGet s.mem x

/-- An access of `n` bytes at `va` passes its checks and reaches one piece of this module's HBM whose lines pass their
check, and no fence, held access or child's record stands before it. -/
def Reaches (s : State) (va : Word) (n : Nat) (kind : BitVec 3) (plain word : Bool) (p : Piece) : Prop :=
  s.access va n kind plain word = .ok (.mem [p]) ∧ p.n = n ∧ p.va = va ∧ s.physKind p.pa = .hbm ∧
  s.badLine p.pa n p.key = none ∧ s.core.fences = [] ∧ (∀ q ∈ s.core.stores, q.holds = []) ∧
  (∀ l ∈ s.core.lands, l.holds = []) ∧ s.core.spawns = []

/-- A load of `n` bytes takes an entry that lands at its landing cycle with the bytes memory holds at its issue. -/
def LoadTaken (i : Instr) (s : State) (d : DstReg) (va : Word) (n : Nat) (sext : Bool) (left : Nat) (p : Piece) : Prop :=
  ∃ t l, exec i s = .next t ∧ l ∈ t.core.lands ∧ l.id = s.core.nextId ∧ l.dst = d ∧ l.left = left ∧
    l.kind = .load va n sext ∧ l.data.toNat = leNat (bytesAt s (s.canon p.pa) n) ∧ l.err = none ∧
    t.core.r = s.core.r ∧ SameMemory s t

/-- A scalar load. -/
def loads (mk : LdOp → Instr) (n : Nat) (sext : Bool) : Prop :=
  ∀ (o : LdOp) (s : State) (p : Piece), s.rdP o.h.g = true → o.h.a = false →
    Reaches s (s.rdS o.ra) n 0 true (n == 8) p →
    (o.rd ≠ 0 → LoadTaken (mk o) s (.scalar o.rd) (s.rdS o.ra) n sext
      ((8 + (o.l.extractLsb' 0 3).toNat) * 2 ^ (o.l.extractLsb' 3 3).toNat) p) ∧
    (o.rd = 0 → ∃ t, exec (mk o) s = .next t ∧ t.core.r = s.core.r ∧ t.core.lands = s.core.lands ∧ SameMemory s t)

/-- A vector load. -/
def loadsVector (mk : VLdOp → Instr) (n : Nat) : Prop :=
  ∀ (o : VLdOp) (s : State) (p : Piece), s.rdP o.h.g = true → o.h.a = false →
    Reaches s (s.rdS o.ra) n 0 true false p →
    LoadTaken (mk o) s (.vector o.v) (s.rdS o.ra) n false
      ((8 + (o.l.extractLsb' 0 3).toNat) * 2 ^ (o.l.extractLsb' 3 3).toNat) p

/-- The outcome of a store: its bytes are in memory, every other byte and every register is as before, and the store
stands posted until it is acknowledged. -/
def StoreMade (i : Instr) (s : State) (a : Nat) (bs : List Byte) : Prop :=
  ∃ t q, exec i s = .next t ∧ Stored s t a bs ∧ t.core.r = s.core.r ∧ t.core.stores = s.core.stores ++ [q] ∧
    q.id = s.core.nextId ∧ q.act = .done ∧ q.holds = []

/-- A scalar store of the low `n` bytes of its source at ra + n × imm6. -/
def stores (mk : StOp → Instr) (n : Nat) : Prop :=
  ∀ (o : StOp) (s : State) (p : Piece), s.rdP o.h.g = true → o.h.a = false → s.canonical = true →
    Reaches s (s.rdS o.ra + BitVec.ofNat 64 n * o.imm.signExtend 64) n 1 true (n == 8) p →
    ∃ bs : List Byte, bs.length = n ∧ (∀ (i : Nat) (h : i < bs.length), bs[i] = (s.rdS o.src).extractLsb' (8 * i) 8) ∧
      StoreMade (mk o) s (s.canon p.pa) bs

/-- A vector store of the low `n` bytes of its source at ra + n × imm6. -/
def storesVector (mk : VStOp → Instr) (n : Nat) : Prop :=
  ∀ (o : VStOp) (s : State) (p : Piece), s.rdP o.h.g = true → o.h.a = false → s.canonical = true →
    Reaches s (s.rdS o.ra + BitVec.ofNat 64 n * o.imm.signExtend 64) n 1 true false p →
    ∃ bs : List Byte, bs.length = n ∧ (∀ (i : Nat) (h : i < bs.length), bs[i] = (s.rdV o.v).extractLsb' (8 * i) 8) ∧
      StoreMade (mk o) s (s.canon p.pa) bs

/-- An atomic of `n` bytes: memory takes f of the old word, b and d, where there is one; the old word lands at 64 unless
rd is s0. -/
def atomics (mk : SROp → Instr) (n : Nat) (f : State → Nat → Nat → Nat → Option Nat) : Prop :=
  ∀ (o : SROp) (s : State) (p : Piece), s.rdP o.h.g = true → o.h.a = false → s.canonical = true →
    Reaches s (s.rdS o.ra) n 2 false false p → (s.rdS o.ra).toNat % n = 0 →
    ∃ t, exec (mk o) s = .next t ∧ t.core.r = s.core.r ∧
      (match f s (leNat (bytesAt s (s.canon p.pa) n)) (s.rdS o.rb).toNat (s.rdS o.rd).toNat with
       | some x => Stored s t (s.canon p.pa) (leBytes n x)
       | none => SameMemory s t) ∧
      (o.rd ≠ 0 → ∃ l ∈ t.core.lands, l.id = s.core.nextId ∧ l.dst = .scalar o.rd ∧ l.left = 64 ∧
        l.data.toNat = leNat (bytesAt s (s.canon p.pa) n)) ∧
      (o.rd = 0 → t.core.lands = s.core.lands)

/-- The signed value of a 64-bit word. -/
def int64 (x : Nat) : Int := (BitVec.ofNat 64 x).toInt

end Sys2Proof.Claims

/-- R49, R70, R71, R199, R202, R203: a load whose checks pass and that nothing holds takes a landing-buffer entry that lands
at its landing code's cycle; a load to s0 writes nothing. That the load reads memory at its issue is the model's choice
(log entry 17: accesses are performed at issue). Loads of several pieces, and loads with the A bit, are not covered. -/
def Sys2Proof.Claims.LoadIssue : Prop :=
  loads .ld8 1 false ∧ loads .ld16 2 false ∧ loads .ld32 4 false ∧ loads .ld64 8 false ∧ loads .lds8 1 true ∧
  loads .lds16 2 true ∧ loads .lds32 4 true ∧ loadsVector .vld1 32 ∧ loadsVector .vld2 64 ∧ loadsVector .vld4 128

/-- R6, R49, R51, R202: the data arrives, and the landing writes it, zero- or sign-extended. -/
def Sys2Proof.Claims.LoadLanding : Prop :=
  ∀ (s : State) (l : Landing) (va : Word) (n : Nat) (sext : Bool) (rd : BitVec 6), s.core.lands = [l] →
    l.kind = .load va n sext → n ∈ [1, 2, 4, 8] → l.dst = .scalar rd → rd ≠ 0 → l.awaits = [] → l.holds = [] →
    l.err = none → l.lost = false → l.arrive = none → l.rsig = none → l.data.toNat < 2 ^ (8 * n) →
    (exec (.dataArrival l.id false) s = .next (s.onCore fun c => { c with lands := [{ l with wait := none }] })) ∧
    (l.left = 0 → l.wait = none → ∃ t, exec (.landing l.id) s = .next t ∧ t.core.lands = [] ∧
      t.core.r = s.core.r.setS rd (t.core.r.getS rd) ∧
      (sext = false → (t.core.r.getS rd).toNat = l.data.toNat) ∧
      (sext = true → (t.core.r.getS rd).toInt = sgn (8 * n) l.data.toNat) ∧ SameMemory s t)

/-- Scalar and vector loads read memory and land at their cycle: R6, R49, R51, R70, R71, R199, R202, R203. -/
def Obligations.Loads : Prop :=
  LoadIssue ∧ LoadLanding

/-- R199, R202, R203: stores write their bytes at the scaled address, little-endian, and no other byte of memory. That memory
changes in the issue step, the store standing performed until it is acknowledged, is the model's choice (log entry 17). -/
def Sys2Proof.Claims.StoreEffects : Prop :=
  stores .st8 1 ∧ stores .st16 2 ∧ stores .st32 4 ∧ stores .st64 8 ∧ storesVector .vst1 32 ∧ storesVector .vst2 64 ∧
  storesVector .vst4 128

/-- R210 to R213: the atomics. That memory changes in the issue step is the model's choice (log entry 17). -/
def Sys2Proof.Claims.AtomicEffects : Prop :=
  (atomics .aadd 8 fun _ old b _ => some ((old + b) % 2 ^ 64)) ∧
  (atomics .amin 8 fun _ old b _ => some (if int64 b < int64 old then b else old)) ∧
  (atomics .amax 8 fun _ old b _ => some (if int64 old < int64 b then b else old)) ∧
  (atomics .aminn 8 fun _ old b _ => some (min old b)) ∧ (atomics .amaxn 8 fun _ old b _ => some (max old b)) ∧
  (atomics .aand 8 fun _ old b _ => some (old &&& b)) ∧ (atomics .aor 8 fun _ old b _ => some (old ||| b)) ∧
  (atomics .axor 8 fun _ old b _ => some (old ^^^ b)) ∧ (atomics .axchg 8 fun _ _ b _ => some b) ∧
  (atomics .acas 8 fun _ old b d => if old = d then some b else none) ∧
  atomics .afadd 4 fun s old b _ => some (add32 s.core.iss.nbv old (b % 2 ^ 32))

/-- Stores and atomics change the bytes they name and no others: R70, R199, R202, R203, R210, R211, R212, R213. -/
def Obligations.StoresAndAtomics : Prop :=
  StoreEffects ∧ AtomicEffects

/-- R200, R204, R206, R281, R305: a scratchpad row outside the declared rows traps ACCESS_VIOLATION with detail 3. -/
def Sys2Proof.Claims.UndeclaredRow : Prop :=
  ∀ (s : State) (r : Int) (n : Nat) (kind : BitVec 3) (x : Int), s.mgmt = false → s.core.badRange r n = some x →
    ∃ t, s.rowsReach r n kind = .error t ∧ t.core.st = .draining ∧
      t.core.r.trc[0] = 0x0304 ∧ t.core.r.trc[3] = BitVec.ofInt 64 (64 * x) ∧
      t.core.r.trc[7] = kind.setWidth 64

/-- R204 to R206, R332, R334: the scratchpad's loads and stores, gathers and scatters. -/
def Sys2Proof.Claims.ScratchpadAccess : Prop :=
  (∀ (o : VLdOp) (s : State) (q : Nat), s.rdP o.h.g = true → o.h.a = false →
    (s.cluster (s.core.id / 8)).wa = false → (∀ i, i < 2 → s.core.rowBad (q + i) = false) →
    (s.rowsReach (2 * ((s.rdS o.ra).toNat / 128 : Nat)) 2 0 = .ok q → ∃ l,
      exec (.spld o) s = .next ((s.usePort [q, q + 1]).addLanding l) ∧
      l.dst = .vector o.v ∧ l.data = (s.core.row (q + 1)).setWidth 1024 <<< 512 ||| (s.core.row q).setWidth 1024 ∧
      l.wm = BitVec.allOnes 1024 ∧ l.wait = some 6 ∧
      l.left = (8 + (o.l.extractLsb' 0 3).toNat) * 2 ^ (o.l.extractLsb' 3 3).toNat) ∧
    (s.rowsReach ((s.rdS o.ra).toNat / 64 : Nat) 1 0 = .ok q → ∃ l,
      exec (.spldh o) s = .next ((s.usePort [q]).addLanding l) ∧
      l.dst = .vector o.v ∧ l.data.setWidth 512 = s.core.row q ∧ l.wm.toNat = 2 ^ 512 - 1 ∧ l.wait = some 6)) ∧
  (∀ (o : VStOp) (s : State) (q : Nat), s.rdP o.h.g = true → o.h.a = false →
    (∀ r : Int, r = ((s.rdS o.ra).toNat / 64 : Nat) + o.imm.toInt →
      (s.rowsReach (r - r % 2) 2 1 = .ok q → ∃ t, exec (.spst o) s = .next t ∧
        t.core.row q = (s.rdV o.v).extractLsb' 0 512 ∧ t.core.row (q + 1) = (s.rdV o.v).extractLsb' 512 512 ∧
        (∀ x, x ≠ q → x ≠ q + 1 → t.core.row x = s.core.row x) ∧ t.core.r = s.core.r ∧ SameMemory s t) ∧
      (s.rowsReach r 1 1 = .ok q → ∃ t, exec (.spsth o) s = .next t ∧
        t.core.row q = (s.rdV o.v).extractLsb' 0 512 ∧ (∀ x, x ≠ q → t.core.row x = s.core.row x) ∧
        t.core.r = s.core.r ∧ SameMemory s t))) ∧
  (∀ (o : VLdOp) (s : State), s.rdP o.h.g = true → o.h.a = false →
    (∀ j, j < 32 → s.core.rowOk ((((s.rdS o.ra + BitVec.ofNat 64 (el (s.rdV o.v) 32 j)).toNat / 4 * 4) / 64 : Nat) : Int) = true) →
    ∃ l rows, exec (.vgath o) s = .next ((s.usePort rows).addLanding l) ∧ l.dst = .vector o.v ∧
      l.wm = BitVec.allOnes 1024 ∧
      ∀ j, j < 32 → ∀ x, x = (s.rdS o.ra + BitVec.ofNat 64 (el (s.rdV o.v) 32 j)).toNat / 4 * 4 →
        el l.data 32 j = ((s.core.row (x / 64)).extractLsb' (8 * (x % 64)) 32).toNat) ∧
  ∀ (o : VStOp) (s : State) (base : Word), s.rdP o.h.g = true → o.h.a = false →
    base = (s.rdS o.ra >>> 6 <<< 6) + 64#64 * o.imm.signExtend 64 →
    (∀ j, j < 16 →
      s.core.rowOk ((((base + BitVec.ofNat 64 (el (s.rdV o.v) 32 (16 + j))).toNat / 4 * 4) / 64 : Nat) : Int) = true) →
    ∃ t, exec (.vscat o) s = .next t ∧ t.core.r = s.core.r ∧ SameMemory s t ∧
      (∀ a : Nat, (∀ j x, j < 16 → x = (base + BitVec.ofNat 64 (el (s.rdV o.v) 32 (16 + j))).toNat / 4 * 4 → a < x ∨ x + 4 ≤ a) →
        t.core.spByte a = s.core.spByte a) ∧
      ∀ j x, j < 16 → x = (base + BitVec.ofNat 64 (el (s.rdV o.v) 32 (16 + j))).toNat / 4 * 4 →
        (∀ k, j < k → k < 16 → (base + BitVec.ofNat 64 (el (s.rdV o.v) 32 (16 + k))).toNat / 4 * 4 ≠ x) →
        ((t.core.row (x / 64)).extractLsb' (8 * (x % 64)) 32).toNat = el (s.rdV o.v) 32 j

/-- Scratchpad loads, stores, gathers and scatters; undeclared rows trap: R200, R204, R205, R206, R281, R332, R334. -/
def Obligations.ScratchpadAccesses : Prop :=
  UndeclaredRow ∧ ScratchpadAccess

/-- No access of another context is held by a fence or awaits a peer. -/
def Sys2Proof.Claims.OthersSettled (s : State) : Prop :=
  (∀ c ∈ s.others, (∀ l ∈ c.lands, l.holds = []) ∧ (∀ q ∈ c.stores, q.holds = []) ∧ ∀ r ∈ c.remotes, r.into ≠ none) ∧
  ∀ p ∈ s.slots, ∀ r ∈ p.2.core.remotes, r.into ≠ none

/-- R199, R207 to R209, R245, R248: a fence of TASK scope, or one that awaits nothing, completes in its issue cycle; another
stands until what it awaits has completed, or until it times out; an acknowledgement takes a performed store away. A release
at PANEL or SYSTEM scope orders the task's earlier requests to peers too, of which no module counts as lost at its time-out;
that it orders those of other tasks, and the accesses their fences hold, is the model's reading (DEDUCED, log entry 18). -/
def Obligations.Fences : Prop :=
  (∀ (o : FenceOp) (s : State), s.rdP o.h.g = true → o.h.a = false →
    (o.scope = 0 ∨ (s.core.lands = [] ∧ s.core.stores = [] ∧ s.core.remotes = [] ∧ s.core.spawns = [] ∧
      (o.scope.toNat < 5 ∨ o.kind = 0 ∨ OthersSettled s)) → exec (.fence o) s = .next s) ∧
    (∀ q, o.scope ≠ 0 → o.scope.toNat < 5 → o.kind ≠ 0 → s.core.stores = [q] → q.act = .done → q.holds = [] →
      (∀ l ∈ s.core.lands, l.holds = []) → s.core.spawns = [] →
      ∃ f, exec (.fence o) s = .next (s.onCore fun c => { c with fences := c.fences ++ [f], nextId := c.nextId + 2 }) ∧
        f.id = s.core.nextId ∧ f.kind = o.kind ∧ f.scope = o.scope ∧ f.stores = [q.id] ∧ f.order = false) ∧
    (∀ r va, 5 ≤ o.scope.toNat → o.kind = 1 → s.core.lands = [] → s.core.stores = [] → s.core.spawns = [] →
      s.core.remotes = [r] → r.kind = .load va → r.into = none → OthersSettled s →
      ∃ f, exec (.fence o) s = .next (s.onCore fun c => { c with fences := c.fences ++ [f], nextId := c.nextId + 2 }) ∧
        f.kind = 1 ∧ f.scope = o.scope ∧ f.order = true ∧ f.remotes = [r.id])) ∧
  (∀ (s : State) (f : Fence), s.core.fences = [f] → s.core.lands = [] → s.core.stores = [] → s.core.spawns = [] →
    f.remotes = [] → f.past = [] → f.lost = [] →
      exec (.fenceComplete f.id) s = .next (s.onCore fun c => { c with fences := [] })) ∧
  (∀ (s : State) (f : Fence) (r : Remote), s.core.fences = [f] → s.core.lands = [] → s.core.stores = [] →
    s.core.spawns = [] → s.core.remotes = [r] → f.remotes = [r.id] → f.lost = [] → 5 ≤ f.scope.toNat →
      660000 ≤ f.age → r.module < 64 →
    (f.order = false → ∃ t, exec (.fenceTimeout f.id) s = .next t ∧ t.core.fences = [] ∧ t.core.r.fstat.getLsbD 0 = true ∧
      t.core.r.fstat.getLsbD (64 + r.module) = true ∧ SameMemory s t) ∧
    (f.order = true → ∃ t, exec (.fenceTimeout f.id) s = .next t ∧ t.core.fences = [] ∧ t.core.r = s.core.r ∧ SameMemory s t)) ∧
  ∀ (s : State) (q : Posted), s.core.stores = [q] → q.act = .done → q.holds = [] →
    exec (.storeAck q.id) s = .next (s.onCore fun c => { c with stores := [] })

/-- R214, R336, R342: prefetches and cache maintenance change no register and no byte of memory; PF's line, where the LLC
holds it, is in the L1; CLINV takes its line away; PFC sets the read count of a clean line. CLWB and CLINV are posted as
stores are, and wait where fences hold stores. -/
def Sys2Proof.Claims.CacheWords : Prop :=
  (∀ (o : RaOp) (s : State), s.rdP o.h.g = true → o.h.a = false →
    (∃ t, exec (.pf o) s = .next t ∧ t.core.r = s.core.r ∧ SameMemory s t ∧
      (∀ p line, s.prefetchPiece (s.rdS o.ra) = some p → p.lines s = [line] → line < 0x200000000 →
        s.physKind p.pa = .hbm → Sparse.find t.llc line ≠ none → line ∈ t.core.l1)) ∧
    (∀ p, s.access (s.rdS o.ra) 1 5 true false = .ok (.mem [p]) → s.core.fences ≠ [] → s.core.holders false ≠ [] →
      ∃ t q, exec (.clwb o) s = .next t ∧ t.core.stores = s.core.stores ++ [q] ∧ q.act = .cache p false ∧
        q.holds = s.core.holders false ∧ t.llc = s.llc ∧ t.core.l1 = s.core.l1 ∧ t.core.r = s.core.r ∧ SameMemory s t) ∧
    (∀ p, s.access (s.rdS o.ra) 1 5 true false = .ok (.mem [p]) → s.core.fences = [] → s.physKind p.pa = .hbm →
      (∃ t q, exec (.clwb o) s = .next t ∧ t.core.stores = s.core.stores ++ [q] ∧ q.act = .done ∧ t.core.r = s.core.r ∧
        SameMemory s t) ∧
      (s.keptLine (s.rdS o.ra) = false → ∃ t q, exec (.clinv o) s = .next t ∧ t.core.stores = s.core.stores ++ [q] ∧
        q.act = .done ∧ s.canon p.pa / 64 ∉ t.core.l1 ∧ t.core.r = s.core.r ∧ SameMemory s t))) ∧
  ∀ (o : PfcOp) (s : State), s.rdP o.h.g = true → o.h.a = false →
    ∃ t, exec (.pfc o) s = .next t ∧ t.core.r = s.core.r ∧ SameMemory s t ∧
      ∀ p, s.prefetchPiece (s.rdS o.ra) = some p → p.chk = false → o.n ≠ 0 →
        Sparse.find t.llc (s.canon p.pa / 64) = some false →
        Sparse.find t.readCounts (s.canon p.pa / 64) = some o.n.toNat

/-- R24, R46, R227, R374, R375: QPOP takes the oldest inbound word, whose place it grants to a peer in another module, and sets
ERR with the last word of a peer that is gone; QPUSH appends to the outbound side; a full or empty side
freezes the bundle; for a bundle that was frozen, a word or a place that has come since its last cycle counts from the next
one on; an unbound FIFO traps. -/
def Sys2Proof.Claims.LinkFifos : Prop :=
  (∀ (o : QpopOp) (s : State) (m ch : Nat) (w : Word) (ws : List Word), s.rdP o.h.g = true → o.h.a = false →
    (s.core.fifo[o.q.toNat]).peer = some (m, ch) → (s.core.fifo[o.q.toNat]).err = false →
    ((s.core.fifo[o.q.toNat]).inb = w :: ws → (s.newWords o.q).1 ≤ ws.length → ∃ t, exec (.qpop o) s = .next t ∧
      t.core.r = s.core.r.setS o.rd w ∧ (t.core.fifo[o.q.toNat]).inb = ws ∧
      ((t.core.fifo[o.q.toNat]).err = true ↔ (s.core.fifo[o.q.toNat]).gone = true ∧ ws = []) ∧
      t.outbox = s.outbox ++ (if m = s.pos then [] else [.credit m ch 1]) ∧ SameMemory s t) ∧
    ((s.core.fifo[o.q.toNat]).inb.length ≤ (s.newWords o.q).1 → exec (.qpop o) s = .next s.freeze)) ∧
  (∀ (o : QpushOp) (s : State) (x : Nat × Nat), s.rdP o.h.g = true → o.h.a = false →
    (s.core.fifo[o.q.toNat]).peer = some x → (s.core.fifo[o.q.toNat]).err = false →
    (s.core.fifo[o.q.toNat]).gone = false →
    ((s.core.fifo[o.q.toNat]).outb.length + (s.newWords o.q).2 < 64 → ∃ t, exec (.qpush o) s = .next t ∧ t.core.r = s.core.r ∧
      (t.core.fifo[o.q.toNat]).outb = (s.core.fifo[o.q.toNat]).outb ++ [s.rdS o.ra] ∧ SameMemory s t) ∧
    (64 ≤ (s.core.fifo[o.q.toNat]).outb.length + (s.newWords o.q).2 → exec (.qpush o) s = .next s.freeze)) ∧
  ∀ (o : QpushOp) (s : State), s.rdP o.h.g = true → s.mgmt = false → (s.core.fifo[o.q.toNat]).peer = none →
    ∃ t, exec (.qpush o) s = .next t ∧ t.core.st = .draining ∧ t.core.r.trc[0] = 0x15 ∧
      t.core.r.trc[7] = o.q.setWidth 64

/-- Prefetch and cache maintenance; QPOP and QPUSH: R24, R46, R208, R214, R227, R336, R342, R374, R375. -/
def Obligations.CachesAndFifos : Prop :=
  CacheWords ∧ LinkFifos

/-! Translation and owner tags (R259 to R262, R323 to R326). -/

/-- R326: the miss that an access waits for ends with the leaf in the µTLB: from a TLB behind it, or by a walk; a walk that
finds none leaves the µTLB as it is; registers and memory stay. -/
def Sys2Proof.Claims.PageWalks : Prop :=
  ∀ (s : State) (va : Word) (kind : BitVec 3) (k : Task), s.core.task = some k →
    (∀ leaf size, s.inval = none → s.tlbDeep k.context va = none → s.walk k.context va kind = .ok (leaf, size) →
      0 < size →
      ∃ t e, exec (.pageWalk va kind) s = .next t ∧ t.tlbFind k.context va = some e ∧ e.leaf = leaf ∧ e.size = size ∧
        t.core.r = s.core.r ∧ SameMemory s t) ∧
    (∀ x, s.inval = none → s.tlbDeep k.context va = some x → s.stillHeld k.context va kind x = true →
      ∃ t e, exec (.pageWalk va kind) s = .next t ∧ t.tlbFind k.context va = some e ∧ e.leaf = x.leaf ∧ e.size = x.size ∧
        t.core.r = s.core.r ∧ SameMemory s t) ∧
    ∀ x, s.tlbDeep k.context va = none → s.walk k.context va kind = .error x →
      ∃ t, exec (.pageWalk va kind) s = .next t ∧ t.core.utlb = s.core.utlb ∧ t.core.r = s.core.r ∧ SameMemory s t

/-- R260 to R262, R341: a granule's first writer of a step becomes its writer, is granted, and the line is pinned; another
task's access on a written granule is a conflict, and no tag of the access changes; nor does one whose lines cannot be
pinned together: two new lines of one slice need two places. -/
def Sys2Proof.Claims.OwnerTags : Prop :=
  ∀ (s : State) (n : Nat) (k : Task), s.core.task = some k →
    (Sparse.find s.tags n = none → s.canPin [] n = true → ∃ t g, exec (.ownerTagCheck [n] true) s = .next t ∧
      Sparse.find t.tags n = some g ∧ g.wv = true ∧ g.writer = BitVec.ofNat 20 k.index ∧
      g.serial = k.serial ∧ g.step = s.core.r.ssn ∧ (n, true) ∈ t.core.grants ∧ (Sparse.find t.pins n).isSome = true ∧
      t.core.r = s.core.r ∧ SameMemory s t) ∧
    (∀ g store gs, n ∈ gs → Sparse.find s.tags n = some g → g.current k.serial s.core.r.ssn = true → g.wv = true →
      g.writer ≠ BitVec.ofNat 20 k.index → exec (.ownerTagCheck gs store) s = .next s) ∧
    (∀ store gs, n ∈ gs → s.canPin [] n = false → exec (.ownerTagCheck gs store) s = .next s) ∧
    ∀ store m, m ≠ n → homeSlice (64 * m) = homeSlice (64 * n) → Sparse.find s.pins m = none → Sparse.find s.pins n = none →
      (s.pins.filter fun p => homeSlice (64 * p.1) == homeSlice (64 * n)).length = 32767 →
      s.canPin [] n = true ∧ exec (.ownerTagCheck [n, m] store) s = .next s

/-- A walk caches its leaf; the first writer of a granule is granted: R260, R262, R326, R341. -/
def Obligations.TranslationAndTags : Prop :=
  PageWalks ∧ OwnerTags

/-! Copies and the Enlarger (R215 to R226, R343 to R349). -/

/-- A copy word with a descriptor that passes enters the queue at the next free position and with the next number, in the
state `pre` of its issue. -/
def Sys2Proof.Claims.enqueues (mk : CpyOp → Instr) (kind : CopyKind) (pre : State → Task → State) : Prop :=
  ∀ (o : CpyOp) (s u : State) (k : Task), s.rdP o.h.g = true → o.h.a = false → s.core.task = some k → u = pre s k →
    s.core.cq.length < 64 → declared k ((s.rdS o.ra).toNat / 64) = true →
    u.descOk k kind (s.core.row ((s.rdS o.ra).toNat / 64)) = true → (kind = .cpyt → s.reg Key.treebase ≠ 0) →
    exec (mk o) s = .next (u.onCore fun c =>
      { c with cq := c.cq ++ [{ pos := c.nextPos, num := c.cqNum, kind := kind, desc := c.row ((s.rdS o.ra).toNat / 64),
                                sig := if o.sen = true then some o.k else none, wait := o.wait, arrive := none,
                                after := c.nextId }],
               cqNext := c.nextPos + 1, cqNum := c.cqNum + 1 })

/-- R215 to R217, R223, R335, R343: the four copy words; SEQRUN's check reads the grant of its CONTEXT at its home slice. -/
def Sys2Proof.Claims.CopyIssue : Prop :=
  enqueues .cpy .cpy (fun s _ => s) ∧ enqueues .cpyf .cpyf (fun s _ => s) ∧ enqueues .cpyt .cpyt (fun s _ => s) ∧
  enqueues .seqrun .seqrun fun s k =>
    s.agentLook (((s.reg Key.enlgt).extractLsb' 19 33).toNat * 524288 + 8 * k.context.toNat) 8

/-- R218, R222 to R225, R253, R331: the engine starts the first entry that is due and takes its tokens; when a copy
completes, the accesses before it performed and its requests for rows served, one row of two that a bank's shared ports move in
a cycle, its bytes are where its
destination says, in the scratchpad or in memory, and nowhere else, and the timeline advances; a copy of no bytes moves
none; a fault stays in the queue for its task; SEQRUN lands when its segment does, and completes at the copy-engine step
(R34). That a copy reads and writes all its bytes in the step of its completion is the model's choice (log entry 25), and so
is what a copy of no bytes does (log entry 79). -/
def Sys2Proof.Claims.CopyQueueSteps : Prop :=
  ∀ (s : State) (e : CopyEntry) (k : Task), s.core.cq = [e] → s.core.task = some k →
    (s.copyDue = true → e.phase = .waiting → e.kind = .cpy → s.core.r.detm = 0 → ∃ n,
      exec .copyEntryStart s = .next (s.onCore fun c =>
        { c with cq := [{ e with phase := .flying n, toMove := e.rows }], cqPast := max c.cqPast e.num,
                 r := { c.r with tkval := tokDec c.r.tkval e.wait } })) ∧
    (∀ row, e.phase = .flying 0 → e.len ≠ 0 → s.core.unperformed e.after = false → s.core.tileRows = [] →
      s.core.preloading = none → e.toMove = [row] →
      (s.core.port.count (rowBank row, 0) < 2 → s.core.servePorts =
        { s.core with port := s.core.port ++ [(rowBank row, 0)], cq := [{ e with toMove := [] }] }) ∧
      (2 ≤ s.core.port.count (rowBank row, 0) → s.core.servePorts = s.core)) ∧
    (e.phase = .flying 0 → e.kind = .cpy → e.len = 0 → e.arrive = none → e.sig = none → s.core.cqDone = [] →
      s.core.wordSigs = [] → e.num = s.core.ctl + 1 → ∃ t, exec .copyComplete s = .next t ∧ t.core.cq = [] ∧
        t.core.ctl = e.num ∧
      t.core.r = s.core.r ∧ SameMemory s t) ∧
    (∀ bs : List Byte, e.phase = .flying 0 → e.kind = .cpy → e.len ≠ 0 → e.nl = 0 → e.arrive = none → e.sig = none →
      s.core.cqDone = [] → s.core.wordSigs = [] → e.num = s.core.ctl + 1 → bs.length = e.len →
      s.core.unperformed e.after = false → e.toMove = [] → (∀ r ∈ s.core.remotes, r.into ≠ some e.num) →
      (e.sk = false → e.dk = true → (∀ p ∈ (s.vparts k.context k.keyid 6 e.src e.len).1, s.physKind p.pa = .hbm) →
        s.vread k.context k.keyid e.num e.src e.len = (bs, none) →
        ∃ t, exec .copyComplete s = .next t ∧ t.core.cq = [] ∧ t.core.ctl = e.num ∧
          (∀ (i : Nat) (h : i < bs.length), t.core.spByte (e.dst.toNat + i) = bs[i]) ∧
          (∀ a, (a < e.dst.toNat ∨ e.dst.toNat + bs.length ≤ a) → t.core.spByte a = s.core.spByte a) ∧
          t.core.r = s.core.r ∧ SameMemory s t) ∧
      (∀ pa leaf size, e.sk = true → e.dk = false → (∀ i, i < e.len → s.core.rowBad ((e.src.toNat + i) / 64) = false) →
        bs = ((List.range e.len).map fun i => s.core.spByte (e.src.toNat + i)) →
        s.engineXlate k.context e.dst 7 = .ok (pa, leaf, size) → e.dst.toNat % size + e.len ≤ size →
        s.physKind pa = .hbm → s.badLine pa e.len (leafKey leaf k.keyid) = none → s.canonical = true →
        ∃ t, exec .copyComplete s = .next t ∧ t.core.cq = [] ∧ t.core.ctl = e.num ∧ Stored s t (s.canon pa) bs ∧
          t.core.rows = s.core.rows ∧ t.core.r = s.core.r)) ∧
    (∀ n addr aux, e.phase = .flying n → e.sig = none → s.core.st = .active →
      ∃ t x, exec (.copyFault addr aux) s = .next t ∧ t.core.cq = [{ e with phase := .faulted x }] ∧
        t.core.pend = s.core.pend ++ [x] ∧ x.cause = 0x0D ∧ x.addr = addr ∧ x.aux = aux ∧
        x.entry = some (false, e.pos) ∧ SameMemory s t) ∧
    (e.phase = .held → exec (.seqrunComplete e.num) s =
      .next (s.onCore fun c => { c with cq := [{ e with phase := .landed }] })) ∧
    (e.phase = .landed → e.arrive = none → e.sig = none → s.core.cqDone = [] → s.core.wordSigs = [] →
      e.num = s.core.ctl + 1 → ∃ t, exec .copyComplete s = .next t ∧ t.core.cq = [] ∧ t.core.ctl = e.num ∧
      t.core.r = s.core.r ∧ SameMemory s t)

/-- The copy words enter the queue; the engine starts, moves, completes and faults: R34, R215, R216, R217, R218, R221,
R222, R223, R224, R225, R253, R331. -/
def Obligations.Copies : Prop :=
  CopyIssue ∧ CopyQueueSteps

/-- R253, R331, R343, R345 to R347, R349: the Enlarger reads its next word with the word's source, once the issuing task's earlier
accesses have been performed; an untagged word goes to its one receiver's rows, which the memory slots leave free; a failover reads the words in hand again. -/
def Obligations.EnlargerSteps : Prop :=
  (∀ (s : State) (g : Segment) (l : Launch) (w data : List Byte) (n : Nat) (ps : List Piece), s.segs = [g] →
    g.read = none → s.segEarly g = false → s.launch g.serial = some l → w = s.transferWord (g.first + g.word) →
    l.wordOk w = true → n = 64 * (bits (wordField w 8 2) 0 15 + 1) →
    partsBy (fun a => s.sysXlate l.context a 6) l.keyid (n / 65536 + 2) (BitVec.ofNat 64 (wordField w 0 8)) n = (ps, none) →
    (∀ p ∈ ps, s.physKind p.pa = .hbm) → s.partsBytes 0 ps = (data, none) →
    ∃ t, exec (.enlargerWordRead g.id) s = .next t ∧ t.segs = [{ g with read := some w, data := data }] ∧
      t.core.r = s.core.r ∧ SameMemory s t) ∧
  (∀ (s : State) (g : Segment), s.segs = [g] → s.segEarly g = true → exec (.enlargerWordRead g.id) s = .next s) ∧
  (∀ (s : State) (g : Segment) (l : Launch) (w : List Byte) (k : Task), s.segs = [g] → g.read = some w →
    s.launch g.serial = some l → wordTag w = none → receivers w = [k.index] → bits (wordField w 24 2) 15 1 = 0 →
    s.core.task = some k → k.serial = l.serial → s.core.st = .active → s.core.port = [] → g.given = [] →
    (∀ i, i < g.data.length / 64 → declared (l.mkTask 0 0) (wordField w 10 2 % 32768 + i) = true) →
    g.word + 1 ≠ g.count → g.data.length = 64 →
    ∃ t, exec (.enlargerDelivery g.id) s = .next t ∧
      t.segs = [{ g with word := g.word + 1, read := none, data := [], given := [] }] ∧
      t.core.row (wordField w 10 2 % 32768) = BitVec.ofNat 512 (leNat g.data) ∧
      (∀ r, r < 24576 → r ≠ wordField w 10 2 % 32768 → t.core.row r = s.core.row r) ∧ t.core.r = s.core.r ∧
      SameMemory s t) ∧
  ∀ (s : State), ∃ t, exec .enlargerFailover s = .next t ∧
    t.segs = s.segs.map (fun g => { g with read := none, data := [], given := [] }) ∧ (t.reg Key.enlgt).getLsbD 0 = true ∧
    t.core = s.core ∧ SameMemory s t

/-! Clusters, power and heat (13, 15). -/

/-- R320, R409 to R412: writes of CLCTL request; a switch point brings the requests into force, a FORCEWA alone among them,
with write-assist, the bias and FEPOCH of the cluster's cores, and pauses its clocks; a throttle change applies at a cycle
with k mod 16 = 0. The pause's count of 133 is the model's (log entry 15), and so is the bias of a step (log entry 4). -/
def Sys2Proof.Claims.ClusterSettings : Prop :=
  ∀ (s : State) (c : Nat) (v : Word), c < 80 →
    (v.toNat % 8 ≤ 4 → ∃ t, exec (.clctlStep c v) s = .next t ∧ t.rfld (Key.clctl c) 0 3 = v.toNat % 8 ∧
      (t.cluster c).step = (s.cluster c).step ∧
      (t.cluster c).want = (if (s.cluster c).step = t.targetStep c then none else some (t.targetStep c)) ∧
      t.core = s.core ∧ SameMemory s t) ∧
    (4 < v.toNat % 8 → ∃ t, exec (.clctlStep c v) s = .next t ∧ t.regs = s.regs) ∧
    (1 ≤ v.toNat / 16 % 32 → v.toNat / 16 % 32 ≤ 16 → ∃ t, exec (.clctlThr c v) s = .next t ∧
      t.rfld (Key.clctl c) 4 5 = v.toNat / 16 % 32 ∧ (t.cluster c).throttle = (s.cluster c).throttle ∧
      ((s.cluster c).throttle ≠ v.toNat / 16 % 32 → (t.cluster c).wantThr = some (v.toNat / 16 % 32))) ∧
    (∃ t, exec (.clctlForcewa c v) s = .next t ∧ t.rfld (Key.clctl c) 10 1 = v.toNat / 1024 % 2 ∧
      (t.cluster c).wa = (s.cluster c).wa ∧ (t.cluster c).wantWa =
        (if (s.cluster c).forced = v.getLsbD 10 then none else some (v.getLsbD 10))) ∧
    (∀ x, s.switchDue c = true → (s.cluster c).want = some x → ∃ t, exec (.switchPoint c) s = .next t ∧
      (t.cluster c).step = x ∧ (t.cluster c).want = none ∧ (t.cluster c).wantWa = none ∧ (t.cluster c).pause = 133 ∧
      (t.cluster c).wa = ((s.cluster c).wantWa.getD (s.cluster c).forced || decide (3 ≤ x.toNat)) ∧
      t.rfld (Key.clstat c) 32 16 = biasFor c x ∧
      (s.core.id / 8 = c → s.core.task ≠ none → s.core.st ≠ .captured → s.core.st ≠ .held →
        t.core.r = { s.core.r with fepStep := x, fepCount := s.core.r.fepCount + 1 }) ∧
      SameMemory s t) ∧
    (∀ x, s.switchDue c = true → (s.cluster c).want = none → (s.cluster c).wantWa = some x →
      ∃ t, exec (.switchPoint c) s = .next t ∧ (t.cluster c).step = (s.cluster c).step ∧ (t.cluster c).wantWa = none ∧
        (t.cluster c).wa = (x || decide (3 ≤ (s.cluster c).step.toNat)) ∧ (t.cluster c).pause = 133 ∧ SameMemory s t) ∧
    (exec (.clockPauseEnd c) s = .next (s.onCluster c fun k => { k with pause := 0 })) ∧
    ∀ x, (s.cluster c).wantThr = some x → (s.cluster c).k % 16 = 0 → s.detmHeld c = false →
      exec (.throttleApply c) s = .next (s.onCluster c fun k => { k with throttle := x, wantThr := none })

/-- R413 to R415: a sample is held; reaching ALERT latches the sensor's bit of TALERT and pends TEMPALERT; reaching TRIP
trips the sensor and pends TRIP; falling below COOL ends the trip. -/
def Sys2Proof.Claims.TemperatureSamples : Prop :=
  ∀ (s : State) (n : Nat) (deg : BitVec 16), n < 90 → ∃ t, exec (.sensorSample n deg) s = .next t ∧
    t.rfld (Key.temp n) 0 16 = deg.toNat ∧ SameMemory s t ∧ t.core = s.core ∧
    (s.rfld (Key.temp n) 16 1 = 0 → (BitVec.ofNat 16 (s.rfld Key.tlimit 32 16)).toInt ≤ deg.toInt →
      (t.reg (Key.talert (n / 64))).getLsbD (n % 64) = true ∧ (t.reg Key.mipend).getLsbD 0 = true) ∧
    (n ∉ s.tripped → (BitVec.ofNat 16 (s.rfld Key.tlimit 48 16)).toInt ≤ deg.toInt →
      n ∈ t.tripped ∧ (t.reg Key.mipend).getLsbD 2 = true) ∧
    (n ∈ s.tripped → deg.toInt < (BitVec.ofNat 16 (s.rfld Key.tlimit 16 16)).toInt → n ∉ t.tripped)

/-- R416, R418, R419: LIM falls by 2 above 3,600 W, by 1 while the average exceeds 3,000 W, and rises by 1 while it is
below 2,900 W, between 4 and 16; the energy of a cluster held by one CONTEXT is added to that CONTEXT's count; a
corrected error is counted, and pends SOFTERR at its threshold. The average is that of the samples of the last 20 ms; of
fewer, before 20 ms have passed, by the model's choice (log entry 101). -/
def Sys2Proof.Claims.PowerAndErrors : Prop :=
  ∀ (s : State),
    (∀ mw uw, ∃ t, exec (.powerSample mw uw) s = .next t ∧ t.samples = ((1000 * mw + uw) :: s.samples).take 2000 ∧
      (t.rfld Key.csctl 16 5 : Int) = if 3600000000 < 1000 * mw + uw then max 4 (min 16 ((s.rfld Key.csctl 16 5 : Int) - 2))
        else s.rfld Key.csctl 16 5) ∧
    (∀ n : Nat, s.samples.length = n + 1 →
      (3000000000 * (n + 1) < s.samples.sum → ∃ t, exec .limiterFallCheck s = .next t ∧
        (t.rfld Key.csctl 16 5 : Int) = max 4 (min 16 ((s.rfld Key.csctl 16 5 : Int) - 1))) ∧
      (s.samples.sum ≤ 3000000000 * (n + 1) → exec .limiterFallCheck s = .next s) ∧
      (s.samples.sum < 2900000000 * (n + 1) → ∃ t, exec .limiterRiseCheck s = .next t ∧
        (t.rfld Key.csctl 16 5 : Int) = max 4 (min 16 ((s.rfld Key.csctl 16 5 : Int) + 1))) ∧
      (2900000000 * (n + 1) ≤ s.samples.sum → exec .limiterRiseCheck s = .next s)) ∧
    (∀ ctx n e a, s.heldCyc = [(ctx, n)] → ctx < 65536 → 0 < n → 0 < e →
      s.reg Key.acctbase = BitVec.ofNat 64 (a * 524288) → 0 < a → a * 524288 + 524288 ≤ 0x8000000000 →
      s.badLine (a * 524288 + 8 * ctx) 8 0 = none → s.canonical = true →
      ∃ t, exec (.accountingUpdate [e]) s = .next t ∧ t.heldCyc = [] ∧
        Stored s t (a * 524288 + 8 * ctx)
          (leBytes 8 ((leNat (bytesAt s (a * 524288 + 8 * ctx) 8) + e) % 2 ^ 64))) ∧
    ∀ c, c < 80 → (s.cluster c).ce < 65535 → ∃ t, exec (.correctedError c) s = .next t ∧
      (t.cluster c).ce = (s.cluster c).ce + 1 ∧
      ((s.cluster c).ce + 1 = s.rfld (Key.clctl c) 16 16 → (t.reg Key.mipend).getLsbD 6 = true)

/-- Temperature samples, the limiter, accounting and corrected errors: R413, R414, R415, R416, R418, R419. -/
def Obligations.TemperatureAndPower : Prop :=
  TemperatureSamples ∧ PowerAndErrors

/-- R420, R421: a CLRET write with GO starts the retirement of an empty cluster; once it is empty the die's spare takes its
number: USED is set and SPLOG names it; where the spare is used already, the number's DEAD bit is set. That FAILPHYS is the
number itself is the model's choice (log entry 4). -/
def Sys2Proof.Claims.ClusterRetirement : Prop :=
  ∀ (s : State) (v : Word) (c : Nat), c < 80 → s.clusterEmpty c = true →
    (s.rfld Key.clret 8 1 = 0 → v.getLsbD 7 = true → v.toNat % 128 = c →
      exec (.clusterRetire v) s = .next (s.setReg Key.clret (BitVec.ofNat 64 (256 + c)))) ∧
    (s.rfld Key.clret 8 1 = 1 → s.rfld Key.clret 0 7 = c → s.rfld (Key.spare (c / 10)) 16 1 = 0 →
      ∃ t, exec (.clusterRetire v) s = .next t ∧ t.rfld Key.clret 8 1 = 0 ∧ t.rfld (Key.spare (c / 10)) 16 1 = 1 ∧
        t.rfld (Key.spare (c / 10)) 12 4 = c % 10 ∧ t.rfld (Key.spare (c / 10)) 8 4 = c % 10 ∧
        (s.slots = [] → SameMemory s t)) ∧
    (s.rfld Key.clret 8 1 = 1 → s.rfld Key.clret 0 7 = c → s.rfld (Key.spare (c / 10)) 16 1 = 1 →
      ∃ t, exec (.clusterRetire v) s = .next t ∧ t.rfld Key.clret 8 1 = 0 ∧
        t.rfld (Key.spare (c / 10)) (17 + c % 10) 1 = 1 ∧ (s.slots = [] → SameMemory s t))

/-- Cluster steps, throttles and write-assist; retirement onto the spare: R320, R409, R410, R411, R412, R420, R421. -/
def Obligations.Clusters : Prop :=
  ClusterSettings ∧ ClusterRetirement

/-- R354, R425: KWCTL.GO sets BUSY and starts an action on the KIND, the INDEX and the wrapped key of that moment (by the
model's choice, log entry 102); a write while one is in progress changes KIND and INDEX alone; the end of the action clears
BUSY, pends KWDONE and gives a RESULT: 3 without a session, else 1 with the KEYID's key replaced, or 2. -/
def Sys2Proof.Claims.KeyWrapping : Prop :=
  ∀ (s : State) (v : Word),
    (s.rfld Key.kwctl 31 1 = 0 → v.getLsbD 16 = true →
      exec (.keyWrapLoad v) s = .next { s.setReg Key.kwctl ((v &&& 0x0300FFFF) ||| 0x80000000) with
        kwJob := some { kind := (v.extractLsb' 24 2).toNat, index := (v.extractLsb' 0 16).toNat, wrapped := s.wrapped } }) ∧
    (s.rfld Key.kwctl 31 1 = 1 → exec (.keyWrapLoad v) s =
      .next (s.setReg Key.kwctl ((s.reg Key.kwctl &&& 0xE0000000) ||| (v &&& 0x0300FFFF)))) ∧
    (s.kwJob = none → exec .keyWrapDone s = .next s) ∧
    (∀ j, s.kwJob = some j → s.session = none → ∃ t, exec .keyWrapDone s = .next t ∧ t.kwJob = none ∧
      t.rfld Key.kwctl 31 1 = 0 ∧ t.rfld Key.kwctl 29 2 = 3 ∧ (t.reg Key.mipend).getLsbD 8 = true ∧ t.keyGen = s.keyGen ∧
      SameMemory s t) ∧
    ∀ j p, s.kwJob = some j → s.session = some p → j.kind = 0 → j.index < 65536 → ∃ t, exec .keyWrapDone s = .next t ∧
      t.kwJob = none ∧ t.rfld Key.kwctl 31 1 = 0 ∧ (t.reg Key.mipend).getLsbD 8 = true ∧ SameMemory s t ∧
      ((t.rfld Key.kwctl 29 2 = 1 ∧ t.gen (BitVec.ofNat 16 j.index) = s.gen (BitVec.ofNat 16 j.index) + 1) ∨
        (t.rfld Key.kwctl 29 2 = 2 ∧ t.keyGen = s.keyGen))

/-- R426, R427: the Shutter fires under ARM alone, and stops every clock; a readout changes nothing but what leaves by the
port. -/
def Sys2Proof.Claims.ShutterAndReadout : Prop :=
  ∀ (s : State) (v addr : Word),
    (v.getLsbD 1 = true → s.rfld Key.shctl 0 1 = 1 → ∃ t, exec (.shutterFire v) s = .next t ∧ t.halted = true) ∧
    (s.rfld Key.shctl 0 1 = 0 → ∃ t, exec (.shutterFire v) s = .next t ∧ t.halted = s.halted) ∧
    (s.rfld Key.shctl 0 1 = 1 → exec .shutterN s = .next { s with halted := true }) ∧
    (s.rfld Key.shctl 0 1 = 0 → exec .shutterN s = .next s) ∧
    ∃ x : Word, exec (.readout addr) s = .next { s with outbox := s.outbox ++ [.readout addr x] }

/-- Key wrapping; the Shutter and the readout: R354, R425, R426, R427. -/
def Obligations.KeysAndShutter : Prop :=
  KeyWrapping ∧ ShutterAndReadout

/-- R352, R353: an eye measurement is held and counted, and a margin below its threshold on a lane in service pends EYE; an
HBMREP action sets BUSY, and its end clears BUSY with a RESULT: 1 when done, 2 where a repair finds no spare left, 3 when it
fails. That a repair takes spare lane 64 before 65 is the model's choice (log entry 42). -/
def Sys2Proof.Claims.LaneCare : Prop :=
  ∀ (s : State) (sel vm tm : BitVec 16) (v : Word),
    (sel.toNat % 128 < 66 → ∃ t, exec (.eyeMeasurement sel vm tm) s = .next t ∧
      t.eye sel.toNat = (vm, tm, (s.eye sel.toNat).2.2 + 1) ∧ t.core = s.core ∧ SameMemory s t ∧
      (s.laneUp sel.toNat = true → (vm.toNat < s.rfld Key.eyeth 16 16 ∨ tm.toNat < s.rfld Key.eyeth 0 16) →
        (t.reg Key.mipend).getLsbD 3 = true)) ∧
    (s.rfld Key.hbmrep 31 1 = 0 → v.toNat / 2 ^ 24 % 4 = 1 → exec (.laneRepair v) s =
      .next { s.setReg Key.hbmrep ((v &&& 0xFF7F) ||| 0x80000000) with hbmAct := 1, hbmSel := v.toNat % 65536 }) ∧
    (s.rfld Key.hbmrep 31 1 = 0 → v.toNat / 2 ^ 24 % 4 = 2 → exec (.channelRetrain v) s =
      .next { s.setReg Key.hbmrep ((v &&& 0xFF7F) ||| 0x80000000) with hbmAct := 2, hbmSel := v.toNat % 65536 }) ∧
    (s.rfld Key.hbmrep 31 1 = 1 → s.hbmAct = 2 → ∃ t, exec (.hbmrepDone true) s = .next t ∧
      t.rfld Key.hbmrep 31 1 = 0 ∧ t.rfld Key.hbmrep 29 2 = 1 ∧ t.laneMap = s.laneMap) ∧
    (s.rfld Key.hbmrep 31 1 = 1 → s.hbmAct = 1 → s.laneMap = [] → s.spares = [] → s.hbmSel % 128 < 64 →
      ∃ t, exec (.hbmrepDone true) s = .next t ∧ t.rfld Key.hbmrep 31 1 = 0 ∧ t.rfld Key.hbmrep 29 2 = 1 ∧
        t.laneMap = [(s.hbmSel, 64)]) ∧
    (∀ ok : Bool, s.rfld Key.hbmrep 31 1 = 1 → s.hbmAct = 1 → s.hbmSel / 128 * 128 + 64 ∈ s.spares →
      s.hbmSel / 128 * 128 + 65 ∈ s.spares → ∃ t, exec (.hbmrepDone ok) s = .next t ∧ t.rfld Key.hbmrep 31 1 = 0 ∧
        t.rfld Key.hbmrep 29 2 = 2 ∧ t.laneMap = s.laneMap) ∧
    (s.rfld Key.hbmrep 31 1 = 1 → s.hbmAct = 2 ∨ (s.hbmAct = 1 ∧ s.spares = []) →
      ∃ t, exec (.hbmrepDone false) s = .next t ∧ t.rfld Key.hbmrep 31 1 = 0 ∧ t.rfld Key.hbmrep 29 2 = 3 ∧
        t.laneMap = s.laneMap)

/-- R356 to R359, R389: the Squeegee counts and logs an uncorrectable line and writes back a correctable one that no write has
reached; at the end of a window the Loupe writes its entry for a hot page and starts its counts afresh; both stop at a
power-fail warning. That the turn is that of the line `s.patrol`, which moves on by one line at each read, that the error log is
a list that a read appends to, and that a write-back stands in `s.scrub` for `s.memWait` ticks and is due by itself, are the
model's choices (log entry 81). -/
def Sys2Proof.Claims.PatrolAndLoupe : Prop :=
  ∀ (s : State) (line : Nat) (i : LineInfo),
    (s.rfld Key.sqctl 16 1 = 1 → s.supply.hib = false → line = s.patrol → line < 0x1FFFFFFFF → s.lineInfo line = some i →
        s.scrub = none →
      (i.bad = true → s.rfld Key.sqstat 24 24 < 16777215 → ∃ t, exec (.scrubRead line) s = .next t ∧
        t.rfld Key.sqstat 24 24 = s.rfld Key.sqstat 24 24 + 1 ∧ t.errLog = s.errLog ++ [line] ∧ t.patrol = line + 1 ∧
        t.scrub = s.scrub ∧ SameMemory s t) ∧
      (i.bad = false → i.soft = true → exec (.scrubRead line) s =
        .next { s with
          patrol := line + 1
          scrub := some { line := line, data := bytesAt s (64 * line) 64, left := s.memWait } })) ∧
    (∀ x : Scrub, s.scrub = some x → s.supply.hib = false → x.stale = false → s.lineInfo x.line = some i →
      s.rfld Key.sqstat 0 24 < 16777215 → ∃ t, exec .scrubWriteback s = .next t ∧ t.scrub = none ∧
        t.lineInfo x.line = some { i with soft := false } ∧
        t.rfld Key.sqstat 0 24 = s.rfld Key.sqstat 0 24 + 1 ∧ SameMemory s t) ∧
    (∀ x : Scrub, s.scrub = some x → s.supply.hib = false → x.stale = true →
      exec .scrubWriteback s = .next { s with scrub := none }) ∧
    (s.supply.hib = true → exec .scrubWriteback s = .next s ∧ exec (.scrubRead line) s = .next s ∧
      exec .loupeWindowEnd s = .next s) ∧
    ∀ page n base, s.rfld Key.loupectl 40 1 = 1 → s.supply.hib = false → s.misses = [(page, n)] → s.rfld Key.loupectl 0 32 ≤ n →
      pagePinned s.pinnedPages page = false → s.reg Key.loupebase = BitVec.ofNat 64 (base * 16384) →
      base * 16384 + 16384 ≤ 0x8000000000 → s.badLine (base * 16384) 16 0 = none → s.canonical = true →
      ∃ t, exec .loupeWindowEnd s = .next t ∧ t.misses = [] ∧ t.rfld Key.loupebase 0 10 = 1 ∧
        Stored s t (base * 16384) (leBytes 8 (65536 * page) ++ leBytes 4 n ++ leBytes 4 0)

/-- Lanes, the Squeegee and the Loupe: R352, R353, R356, R357, R358, R359, R389. -/
def Obligations.LaneCareAndPatrol : Prop :=
  LaneCare ∧ PatrolAndLoupe

/-! Registers and ports (13). -/

/-- The registers whose writable fields take any value, at the management core's offsets: the RW fields and the W1C fields. -/
def Sys2Proof.Claims.fieldMaps : List (Nat × Word × Word) :=
  [(0x30, 0xFFFF00FF, 0), (0x100, 0x1FF, 0), (0x108, 0, 0x1FF), (0x148, 0xFFFFFFFFFFFFFFFF, 0),
   (0x150, 0xFFFFFFFFFFFFFFFF, 0), (0x158, 0xFFFFFFFFFFFFFFFF, 0), (0x160, 0xFFFFFFFFFFFFFFFF, 0),
   (0x168, 0xFFFFFFFFFFFFFFFF, 0), (0x178, 0x000FFFFFFFF80000, 0), (0x188, 0, 0xFFFFFFFFFFFFFFFF),
   (0x190, 0, 0xFFFFFFFFFFFFFFFF), (0x198, 0, 0xFFFFFFFFFFFFFFFF), (0x1A0, 0, 0xFFFFFFFFFFFFFFFF),
   (0x10010, 0x000FFFFFFFFF0000, 0), (0x10020, 0xFFFFFFFFFFFFFFFF, 0), (0x10078, 0x000FFFFFFFF80000, 0),
   (0x10080, 0x000FFFFFFFFFFFE0, 0), (0x10088, 0x000FFFFFFFF80000, 0), (0x10098, 0, 0x0000FFFFFFFFFFFF),
   (0x100A8, 0x000FFFFFFFFFC000, 0), (0x100B0, 0, 0xFFFFFFFF), (0x100C0, 0x000FFFFFFFFFF000, 0),
   (0x100C8, 0xFFFFFFFFFFFFFFFF, 0), (0x100D8, 0x000FFFFFFFFF0000, 0), (0x100E0, 0x000FFFF00000FFFF, 0),
   (0x10100, 0x000FFFF00000FFFF, 0)]

/-- A register after a write of v: the RW fields take it, the W1C fields lose its ones but for those that `kept` holds. -/
def Sys2Proof.Claims.written (old v rw w1c kept : Word) : Word :=
  ((old &&& ~~~rw) ||| (v &&& rw)) &&& ~~~(v &&& w1c &&& ~~~kept)

/-- A write gives register k the bits of v under the mask, and changes nothing else. -/
def Sys2Proof.Claims.Sets (s : State) (wr : Writer) (off k : Nat) (v mask : Word) : Prop :=
  ∃ t, exec (.registerWrite wr off v) s = .next t ∧ t.reg k = (s.reg k &&& ~~~mask) ||| (v &&& mask) ∧
    (∀ j, j ≠ k → t.reg j = s.reg j) ∧ { t with regs := s.regs } = s

/-- R285, R315, R327, R343, R352, R356, R359, R378 to R381, R383, R386, R389, R407, R413, R417: a register write changes the
register's writable fields: RW fields take what is written, some only within their limits, W1C fields are cleared by ones, but
for a source that has pended in the same cycle (R408); read-only registers stay; a window and a ring are set up only while
they are off. A port sees neither the management core's page nor the other port's registers, and its writes of the block are
dropped in a hibernation. Registers whose write acts (R312, R319, R328, R329, R387, R420, R425, R426) have statements of their own. -/
def Sys2Proof.Claims.RegisterWriteRules : Prop :=
  ∀ (s : State) (v : Word),
    (∀ x ∈ fieldMaps,
      exec (.registerWrite .mgmt x.1 v) s =
        .next (s.setReg x.1 (written (s.reg x.1) v x.2.1 x.2.2 (if x.1 = 0x108 then s.irqSet else 0))) ∧
      (s.supply.hib = false → 0x10000 ≤ x.1 → x.1 ≠ 0x10100 → exec (.registerWrite .hp0 x.1 v) s =
        .next (s.setReg x.1 (written (s.reg x.1) v x.2.1 x.2.2 0))) ∧
      (s.supply.hib = false → 0x10000 ≤ x.1 → x.1 ≠ 0x10100 → x.1 ≠ 0x100E0 → exec (.registerWrite .hp1 x.1 v) s =
        .next (s.setReg x.1 (written (s.reg x.1) v x.2.1 x.2.2 0)))) ∧
    (s.supply.hib = false → exec (.registerWrite .hp1 0x100E0 v) s =
      .next (s.setReg 0x10100 (written (s.reg 0x10100) v 0x000FFFF00000FFFF 0 0))) ∧
    (∀ wr k, wr ≠ .mgmt → k < 0x10000 ∨ k = 0x10100 ∨ k = 0x10108 → exec (.registerWrite wr k v) s = .next s) ∧
    (∀ wr k, wr ≠ .mgmt → s.supply.hib = true → 0x10000 ≤ k → k < 0x20000 → exec (.registerWrite wr k v) s = .next s) ∧
    (∀ k ∈ [0x08, 0x10, 0x40, 0x110, 0x118, 0x120, 0x128, 0x130, 0x138, 0x10000, 0x10050],
      exec (.registerWrite .mgmt k v) s = .next s) ∧
    (∀ n, n < 96 → exec (.registerWrite .mgmt (0x700 + 8 * n) v) s = .next s) ∧
    (∀ n, n < 8 → exec (.registerWrite .mgmt (0xA00 + 8 * n) v) s = .next s) ∧
    Sets s .mgmt 0x10018 0x10018 v (if (v.extractLsb' 0 13).toNat ≤ 4096 then 0x1FFF else 0) ∧
    Sets s .mgmt 0x170 0x170 v
      (0x100 ||| if 1 ≤ (v.extractLsb' 0 6).toNat ∧ (v.extractLsb' 0 6).toNat ≤ 40 then 0x3F else 0) ∧
    Sets s .mgmt 0x10090 0x10090 v (0x10000 ||| if v.extractLsb' 0 16 ≠ 0 then 0xFFFF else 0) ∧
    Sets s .mgmt 0x100A0 0x100A0 v (0x100FFFFFFFF ||| if v.extractLsb' 32 8 ≠ 0 then 0xFF00000000 else 0) ∧
    (s.supply.hib = false → Sets s .mgmt 0x28 0x28 v (0x000FFFFFC0000000 |||
      if v.extractLsb' 0 12 = 0 ∨ (2 ≤ (v.extractLsb' 0 12).toNat ∧ (v.extractLsb' 0 12).toNat ≤ 1536) then 0xFFF else 0)) ∧
    (∀ k ∈ [0x20, 0x28, 0x38], s.supply.hib = true → exec (.registerWrite .mgmt k v) s = .next s) ∧
    (s.supply.hib = false → exec (.registerWrite .mgmt 0x38 v) s = .next (s.setReg 0x38 (v &&& 0x000FFFFFFFFFF800))) ∧
    exec (.registerWrite .mgmt 0x18 v) s =
      .next (s.setReg 0x18 (BitVec.ofNat 64 (max 20000 (v.extractLsb' 0 32).toNat))) ∧
    (∃ t, exec (.registerWrite .mgmt 0x180 v) s = .next t ∧ t = s.setReg 0x180 (t.reg 0x180) ∧
      (t.reg 0x180).extractLsb' 0 48 = v.extractLsb' 0 48 &&& 0xFFFFFFFF0000 ∧
      ((t.reg 0x180).extractLsb' 48 16).toInt = min 1680 (v.extractLsb' 48 16).toInt) ∧
    (∃ t, exec (.registerWrite .mgmt 0x10048 v) s = .next t ∧ t.reg 0x10048 =
      if 5 ≤ (v.extractLsb' 0 5).toNat ∧ (v.extractLsb' 0 5).toNat ≤ 16 then (s.reg 0x10048 &&& ~~~0x1F) ||| (v &&& 0x1F)
      else s.reg 0x10048) ∧
    (∀ n, n < 64 →
      Sets s .mgmt (0x11000 + 8 * n) (0x11000 + 8 * n) v
        (0xC0 ||| if 1 ≤ (v.extractLsb' 0 5).toNat ∧ (v.extractLsb' 0 5).toNat ≤ 16 then 0x1F else 0) ∧
      (32 ≤ n → exec (.registerWrite .hp0 (0x11000 + 8 * n) v) s = .next s) ∧
      (n < 32 → exec (.registerWrite .hp1 (0x11000 + 8 * n) v) s = .next s) ∧
      exec (.registerWrite .mgmt (0x13018 + 32 * n) v) s =
        .next (s.setReg (0x13018 + 32 * n) (written (s.reg (0x13018 + 32 * n)) v 0 0xFFFFFFFF00000000 0)) ∧
      ((s.reg (0x13008 + 32 * n)).getLsbD 63 = true → ∀ o ∈ [0, 8, 16],
        exec (.registerWrite .mgmt (0x13000 + 32 * n + o) v) s = .next s) ∧
      ((s.reg (0x13008 + 32 * n)).getLsbD 63 = false →
        exec (.registerWrite .mgmt (0x13000 + 32 * n) v) s = .next (s.setReg (0x13000 + 32 * n) v) ∧
        exec (.registerWrite .mgmt (0x13008 + 32 * n) v) s =
          .next (s.setReg (0x13008 + 32 * n) (v &&& 0xE0000FFF01FFFFFF)) ∧
        exec (.registerWrite .mgmt (0x13010 + 32 * n) v) s =
          .next (s.setReg (0x13010 + 32 * n) (v &&& 0x000FFFFFFFFF0000)))) ∧
    ∀ (port : BitVec 1) (i : Nat) (wr : Writer), i < 32 → wr = (if port = 0 then .hp0 else .hp1) →
      ((s.reg (0x11000 + 8 * (32 * port.toNat + i))).getLsbD 7 = true →
        exec (.registerWrite wr (0x800000 + 4096 * i) v) s = .next s) ∧
      ((s.reg (0x11000 + 8 * (32 * port.toNat + i))).getLsbD 7 = false →
        Sets s wr (0x800000 + 4096 * i) (0x20000 + 32 * (32 * port.toNat + i)) v (0xFFFFFFFFFFFFF800 |||
          if 4 ≤ (v.extractLsb' 0 5).toNat ∧ (v.extractLsb' 0 5).toNat ≤ 16 then 0x1F else 0))

/-- R376, R380, R382, R389: what a port reaches in BAR2, named from 0x80_0000 on: the counter of timeline t at 0x8_0000 + 8t, which
a write raises and a read gives, and the registers of its own queue i at 0x1000 i; in a hibernation, and for a TLP without IDE
where the port's IDEREQ demands it, a host's read of BAR0 or BAR2 is an Unsupported Request. -/
def Sys2Proof.Claims.BarTwo : Prop :=
  ∀ (s : State) (v : Word) (off : Nat) (port : BitVec 1) (wr : Writer) (ide : Bool),
    wr = (if port = 0 then .hp0 else .hp1) →
    (∀ t : BitVec 12, exec (.registerWrite wr (0x880000 + 8 * t.toNat) v) s = exec (.timelineWrite t v) s ∧
      (s.supply.hib = false → s.ideNeeded port = false ∨ ide = true → s.hostLoad port (0x880000 + 8 * t.toNat) ide = some (Sparse.get 0 s.timelines t.toNat))) ∧
    (∀ i, i < 32 → s.supply.hib = false → s.ideNeeded port = false ∨ ide = true →
      s.hostLoad port (0x800000 + 4096 * i) ide = some (s.reg (Key.qring (32 * port.toNat + i))) ∧
      s.hostLoad port (0x800000 + 4096 * i + 16) ide = some (s.reg (Key.qhead (32 * port.toNat + i)))) ∧
    (s.supply.hib = true ∨ (s.ideNeeded port = true ∧ ide = false) → s.hostLoad port off ide = none) ∧
    (s.ideNeeded 0 = (s.reg 0x100E8).getLsbD 7 ∧ s.ideNeeded 1 = (s.reg 0x10108).getLsbD 7)

/-- R376, R377, R424, R425: host accesses through BAR4 reach HBM under B4BASE; an SPDM request is answered with the
measurement blocks, and a key exchange makes the session; a link's state is held. That an access of any length is one step,
and that a read which passes 512 GB is answered as a whole without data, are the model's choices (log entry 39); so is the
form of the blocks (log entry 104). -/
def Sys2Proof.Claims.HostPorts : Prop :=
  ∀ (s : State) (port : BitVec 1) (off : BitVec 36) (a : Nat) (key : BitVec 16),
    a = ((s.reg (Key.b4base port.toNat)).extractLsb' 36 16).toNat * 2 ^ 36 + off.toNat →
    key = (s.reg (Key.b4base port.toNat)).extractLsb' 0 16 → s.supply.hib = false →
    (∀ d, d ≠ [] → a + d.length ≤ 0x8000000000 → s.badLine a d.length key = none → s.canonical = true →
      ∃ t, exec (.bar4Access port off (.write d)) s = .next t ∧ Stored s t a d ∧ t.core.r = s.core.r) ∧
    (∀ n, n ≠ 0 → a + n ≤ 0x8000000000 → s.badLine a n key = none →
      ∃ t, exec (.bar4Access port off (.read n)) s = .next t ∧
      t.outbox = s.outbox ++ [.hostRead port.toNat (some (bytesAt s a n))] ∧ t.core.r = s.core.r ∧ SameMemory s t) ∧
    (∀ n, 0x8000000000 < a + n → exec (.bar4Access port off (.read n)) s =
      .next { s with outbox := s.outbox ++ [.hostRead port.toNat none] }) ∧
    (∀ kx : Bool, ∃ t sig secret, exec (.spdmRequest port kx) s = .next t ∧
      t.outbox = s.outbox ++ [.spdm port.toNat (((List.range 4).zip s.measured).flatMap (fun x =>
        leBytes 1 (x.1 + 1) ++ x.2) ++ sig)] ∧ sig.length = 64 ∧ t.core = s.core ∧ t.regs = s.regs ∧ SameMemory s t ∧
      t.session = (if kx = true then some (port.toNat, secret) else s.session) ∧
      (kx = true → port.toNat ∈ t.ideKeys)) ∧
    (∃ t, exec (.hostLinkDown port) s = .next t ∧ port.toNat ∈ t.hostDown ∧ t.core = s.core) ∧
    ∃ t, exec (.hostLinkUp port) s = .next t ∧ port.toNat ∉ t.hostDown ∧ t.core = s.core

/-- Register writes by fields and by writer; BAR2, BAR4, SPDM and the host links: R376, R377, R378, R380, R382, R389,
R407, R408, R424, R425. -/
def Obligations.RegisterAndPortWrites : Prop :=
  RegisterWriteRules ∧ BarTwo ∧ HostPorts

/-- R383, R384: a byte written into an enabled landing window reaches the target's row; a write of the commit row also
advances WINSTAT and the window's timeline; a write into a disabled window is dropped and counted. -/
def Sys2Proof.Claims.LandingWindows : Prop :=
  ∀ (s : State) (w : BitVec 6) (off : BitVec 16) (x : Byte) (a b : Word) (l : Launch) (t0 : Task),
    a = s.reg (Key.wina w.toNat) → b = s.reg (Key.winb w.toNat) →
    s.launch (a.extractLsb' 32 32) = some l →
    (b.getLsbD 63 = true → b.getLsbD 61 = true → s.supply.hib = false → s.core.task = some t0 →
      s.recvAt l (a.extractLsb' 0 32).toNat = .core s.core.id s.core.half →
      off.toNat / 64 ≤ (b.extractLsb' 15 10).toNat →
      declared (l.mkTask 0 0) ((b.extractLsb' 0 15).toNat + off.toNat / 64) = true →
      ∃ t, exec (.landingWindowWrite 0 w off [x]) s = .next t ∧
        t.core.row ((b.extractLsb' 0 15).toNat + off.toNat / 64) =
          setByte (s.core.row ((b.extractLsb' 0 15).toNat + off.toNat / 64)) (off.toNat % 64) x ∧
        t.core.r = s.core.r ∧ SameMemory s t ∧
        (off.toNat / 64 = (b.extractLsb' 15 10).toNat →
          Sparse.get 0 t.timelines (b.extractLsb' 32 12).toNat =
            Sparse.get 0 s.timelines (b.extractLsb' 32 12).toNat + 1 ∧
          t.rfld (Key.winstat w.toNat) 0 32 = (s.rfld (Key.winstat w.toNat) 0 32 + 1) % 2 ^ 32) ∧
        (off.toNat / 64 ≠ (b.extractLsb' 15 10).toNat → t.timelines = s.timelines)) ∧
    (b.getLsbD 63 = false → s.rfld (Key.winstat w.toNat) 32 32 < 4294967295 →
      ∃ t, exec (.landingWindowWrite 0 w off [x]) s = .next t ∧
        t.rfld (Key.winstat w.toNat) 32 32 = s.rfld (Key.winstat w.toNat) 32 32 + 1 ∧ t.core = s.core ∧
        t.timelines = s.timelines ∧ SameMemory s t)

/-- R385: the first write of PTPSET after reset sets the time and no later one does; a pulse, or a PTM answer from the
selected port, that finds the clock up to 1 µs behind steps it forward. -/
def Sys2Proof.Claims.PtpClock : Prop :=
  ∀ (s : State) (v : Word),
    (s.rfld Key.ptpctl 2 1 = 0 → ∃ t, exec (.ptpset v) s = .next t ∧ t.ptp = v.toNat ∧ t.rfld Key.ptpctl 2 1 = 1) ∧
    (s.rfld Key.ptpctl 2 1 = 1 → exec (.ptpset v) s = .next s) ∧
    (∀ n, s.rfld Key.ptpctl 2 1 = 1 → s.rfld Key.ptpctl 0 2 = 3 → s.ptp ≤ n * 1000000000 →
      n * 1000000000 ≤ s.ptp + 1000 → ∃ t, exec .ppsPulse s = .next t ∧ t.ptp = n * 1000000000 ∧ t.core = s.core) ∧
    (∀ port : BitVec 1, s.rfld Key.ptpctl 2 1 = 1 → s.rfld Key.ptpctl 0 2 = port.toNat + 1 → s.ptp ≤ v.toNat →
      v.toNat ≤ s.ptp + 1000 → ∃ t, exec (.ptmResponse port v) s = .next t ∧ t.ptp = v.toNat ∧ t.core = s.core) ∧
    ∀ port : BitVec 1, s.rfld Key.ptpctl 0 2 ≠ port.toNat + 1 → exec (.ptmResponse port v) s = .next s

/-- Landing-window writes; the PTP clock: R383, R384, R385. -/
def Obligations.WindowsAndClock : Prop :=
  LandingWindows ∧ PtpClock

/-! The panel (13). -/

/-- R360, R362, R363: the flit that is due is taken and acknowledged; its failure makes one replay request, and flits that only
follow it make none; replays send the kept flits again, and more than 16 of one flit take the link down; an acknowledgement
empties the replay buffer; key epochs rotate and retire, and a rotation waits while two are live; a link that comes up
announces the incarnation (R365). -/
def Sys2Proof.Claims.Links : Prop :=
  (∀ (s : State) (f : Flit), (s.link f.link).up = true → (s.link f.link).resync = false →
    (f.ok = true → (s.link f.link).rxLive.contains f.epoch = true → f.seq = (s.link f.link).rxSeq →
      ∃ t, exec (.flitReceive f) s = .next t ∧ (t.link f.link).rxSeq = f.seq + 1 ∧
        t.outbox = s.outbox ++ [.flitAck f.link f.seq] ∧ t.core = s.core ∧ SameMemory s t) ∧
    (f.ok = false → (s.link f.link).rxSeq ≤ f.seq → (s.link f.link).asked = false →
      ∃ t, exec (.flitReceive f) s = .next t ∧ t.outbox = s.outbox ++ [.replay f.link (s.link f.link).rxSeq] ∧
        (t.link f.link).asked = true ∧ (t.link f.link).rxSeq = (s.link f.link).rxSeq ∧ t.core = s.core ∧
        SameMemory s t) ∧
    ((s.link f.link).rxSeq < f.seq → (s.link f.link).asked = true → exec (.flitReceive f) s = .next s) ∧
    (f.seq < (s.link f.link).rxSeq → exec (.flitReceive f) s = .next s)) ∧
  (∀ (s : State) (k seq : Nat), (s.link k).up = true →
    (Sparse.get 0 (s.link k).tries seq < 16 → ∃ t, exec (.replayRequest k seq) s = .next t ∧
      t.outbox = s.outbox ++ ((s.link k).replay.filter fun f => decide (seq ≤ f.1)).map (fun f => .resend k f.1 f.2) ∧
      (t.link k).up = true ∧ t.core = s.core ∧ SameMemory s t) ∧
    (16 ≤ Sparse.get 0 (s.link k).tries seq → ∃ t, exec (.replayRequest k seq) s = .next t ∧ (t.link k).up = false ∧
      (t.link k).replay = [] ∧ t.core = s.core ∧ SameMemory s t)) ∧
  ∀ (s : State) (k seq : Nat) (e : BitVec 8),
    (∃ t, exec (.flitAck k seq) s = .next t ∧
      (t.link k).replay = (s.link k).replay.filter (fun f => decide (seq < f.1)) ∧ t.core = s.core ∧ SameMemory s t) ∧
    ((s.link k).rxWait = 0 → ∃ t, exec (.retireMarker k e) s = .next t ∧
      (t.link k).rxLive = (s.link k).rxLive.filter (· != e) ∧ t.core = s.core ∧ SameMemory s t) ∧
    ((s.link k).rxWait = 1 → (s.link k).rxLive = [e, e + 1] → ∃ t, exec (.retireMarker k e) s = .next t ∧
      (t.link k).rxLive = [e + 1, e + 2] ∧ (t.link k).rxWait = 0 ∧ t.core = s.core ∧ SameMemory s t) ∧
    ((s.link k).txLive = [(s.link k).txEpoch] → (s.link k).rotate = 0 → ∃ t, exec (.keyRotation k) s = .next t ∧
      (t.link k).txEpoch = (s.link k).txEpoch + 1 ∧ t.core = s.core ∧ SameMemory s t) ∧
    ((s.link k).txLive = [e, e + 1] → (s.link k).replay = [(seq, e)] → ∃ t, exec (.keyRotation k) s = .next t ∧
      (t.link k).txEpoch = (s.link k).txEpoch ∧ (t.link k).rotate = (s.link k).rotate + 1 ∧ t.outbox = s.outbox ∧
      t.core = s.core ∧ SameMemory s t) ∧
    ((s.link k).txLive = [(s.link k).txEpoch] → ∃ t, exec (.linkUp k) s = .next t ∧ (t.link k).up = true ∧
      (t.link k).replay = [] ∧ t.outbox = s.outbox ++ [.announce k s.inc s.supply.hib] ∧ t.core = s.core ∧
      SameMemory s t)

/-- R365, R369: an announcement teaches the position's incarnation; a new one retires every proof of the old; one that says
nothing new changes no proof. -/
def Sys2Proof.Claims.Incarnations : Prop :=
  ∀ (s : State) (j : Nat) (inc : BitVec 16), ∃ t u,
    exec (.incarnationAnnouncement j inc) s = .next t ∧ exec (.hibernatedAnnouncement j inc) s = .next u ∧
    (t.peer j).inc = inc ∧ (t.peer j).hib = false ∧ (u.peer j).inc = inc ∧ (u.peer j).hib = true ∧
    ((s.peer j).inc = inc → (s.peer j).hib = false → t.proofs = s.proofs) ∧
    ((s.peer j).inc ≠ inc → (∀ p ∈ t.proofs, p.who.module ≠ j) ∧ ∀ p ∈ u.proofs, p.who.module ≠ j) ∧
    u.core = s.core ∧ t.core.r = s.core.r ∧ SameMemory s t ∧ SameMemory s u

/-- Flits, replays, acknowledgements, key epochs, incarnations: R360, R362, R363, R365, R369. -/
def Obligations.LinksAndIncarnations : Prop :=
  Links ∧ Incarnations

/-- A request's turn has come: none of its module's that were issued before it is still to be received (R361). -/
def Sys2Proof.Claims.InTurn (s : State) (q : RemoteReq) : Prop :=
  (s.peer q.who.module).rxInc = q.reqInc ∧ (s.peer q.who.module).waiting = [] ∧
  q.order ≤ max (s.peer q.who.module).next q.settled

/-- R250, R361, R368 to R371, R389: in its turn the owner performs a request once, answers a repeated one from its proof cache,
refuses one while the module hibernates; a request ahead of its turn waits; proofs that stand are probed and retired. R361
asks for the order without a form for it: the fields order and settled, and the waiting requests, are the model's choice (log
entry 24); that a load which comes again gets its first answer is its reading (DEDUCED, log entry 123). -/
def Obligations.RemoteOwner : Prop :=
  (∀ (s : State) (q : RemoteReq), (s.peer q.who.module).rxInc = q.reqInc → (s.peer q.who.module).waiting = [] →
    max (s.peer q.who.module).next q.settled < q.order → ∃ t, exec (.remoteRequest q) s = .next t ∧
      (t.peer q.who.module).waiting = [q] ∧ t.outbox = s.outbox ∧ t.proofs = s.proofs ∧ t.core = s.core ∧
      SameMemory s t) ∧
  (∀ (s : State) (q : RemoteReq) (n : Nat), q.kind = .load n → InTurn s q →
    (s.supply.hib = true → ∃ t, exec (.remoteRequest q) s = .next t ∧
      t.outbox = s.outbox ++ [.answer q.who q.serial .hibernating []] ∧ t.core = s.core ∧ SameMemory s t) ∧
    (s.supply.hib = false → s.supply.safe = false → q.ownerInc = s.inc → q.addr + n ≤ 0x8000000000 →
      s.badLine q.addr n q.keyid = none → ∃ t, exec (.remoteRequest q) s = .next t ∧
        (∀ x, (s.peer q.who.module).loads = [x] → x.1 = q.order → q.settled ≤ q.order →
          t.outbox = s.outbox ++ [.answer q.who q.serial x.2.1 x.2.2] ∧ t.core = s.core) ∧
        ((∀ x ∈ (s.peer q.who.module).loads, x.1 ≠ q.order) →
          t.outbox = s.outbox ++ [.answer q.who q.serial .done (bytesAt s q.addr n)]) ∧
        t.core.r = s.core.r ∧ SameMemory s t)) ∧
  (∀ (s : State) (q : RemoteReq) (d : List Byte), q.kind = .store d → InTurn s q → s.supply.hib = false →
    s.supply.safe = false →
    q.ownerInc = s.inc → q.reqInc = (s.peer q.who.module).inc → (s.peer q.who.module).released = none →
    s.acktOf q.who = some q.ackt → 1 ≤ (q.serial - q.ackt).toNat → (q.serial - q.ackt).toNat ≤ 1073741824 →
    (∀ p, s.proofOf q.who q.serial = some p → ∃ t, exec (.remoteRequest q) s = .next t ∧
      t.outbox = s.outbox ++ [.answer q.who q.serial p.status p.data] ∧ t.proofs = s.proofs ∧ t.core = s.core ∧
      SameMemory s t) ∧
    (s.proofOf q.who q.serial = none → s.proofs.length < 32768 → d ≠ [] → q.addr + d.length ≤ 0x8000000000 →
      s.badLine q.addr d.length q.keyid = none → s.canonical = true → ∃ t, exec (.remoteRequest q) s = .next t ∧
        Stored s t q.addr d ∧ t.outbox = s.outbox ++ [.answer q.who q.serial .done []] ∧
        t.proofs = s.proofs ++ [{ who := q.who, serial := q.serial, status := .done, data := [] }] ∧
        t.core.r = s.core.r)) ∧
  (∀ (s : State) (p : Proof), s.proofs = [p] → (s.peer p.who.module).hib = false →
    (33000000 ≤ p.age → p.probing = none → ∃ t, exec (.proofProbe 0) s = .next t ∧
      t.outbox = s.outbox ++ [.probe p.who p.serial] ∧ t.proofs = [{ p with probing := some 0 }] ∧ t.core = s.core) ∧
    (∀ n, p.probing = some n → 3300000000 ≤ n → ∃ t, exec (.probeTimeout 0) s = .next t ∧ t.proofs = [] ∧
      (∀ x ∈ t.ackts, x.1.module ≠ p.who.module) ∧ t.core = s.core ∧ SameMemory s t) ∧
    (∀ n, p.probing = some n → exec (.probeAnswer 0 .hibernating) s =
      .next { s with proofs := [{ p with age := 0, probing := none }] }) ∧
    (∀ n v, p.probing = some n → (v - p.serial).toNat < 2147483648 →
      exec (.probeAnswer 0 (.ackt v (s.peer p.who.module).inc)) s = .next { s with proofs := [] }) ∧
    ∀ n v, p.probing = some n → 2147483648 ≤ (v - p.serial).toNat →
      exec (.probeAnswer 0 (.ackt v (s.peer p.who.module).inc)) s =
        .next { s with proofs := [{ p with age := 0, probing := none }] }) ∧
  (∀ (s : State) (who : Requester) (m : Nat), ∃ t x, exec (.probeRequest who m) s = .next t ∧
    t.outbox = s.outbox ++ [.probeAns m who x] ∧ t.core = s.core ∧ SameMemory s t ∧
    (s.supply.hib = true → x = .hibernating) ∧
    ∀ n a, s.supply.hib = false → s.ctxs = [] → s.rqTable = [(who.core * 4096 + who.slot, n, a)] → x = .ackt a s.inc) ∧
  ∀ (s : State) (v : Word) (j : Nat), j = (v.extractLsb' 0 6).toNat →
    (v.getLsbD 7 = true → (s.peer j).hib = true → ∃ t, exec (.prfrel v) s = .next t ∧
      (∀ p ∈ t.proofs, p.who.module ≠ j) ∧ (t.peer j).released = some (s.peer j).inc ∧ t.core = s.core) ∧
    ((s.peer j).hib = false → exec (.prfrel v) s = .next s)

/-- R366, R370, R371, R400: an answer ends the requester's wait, with the data or with FABRIC_ERROR; RETRY and HIBERNATING
keep it; 20 µs of silence send the request again, eight times, and then PEER_LOST arises; HIBERNATING answers end it after
1 s. -/
def Obligations.RemoteRequester : Prop :=
  ∀ (s : State) (r : Remote), s.core.remotes = [r] →
    (∀ l d, r.land = some (l.id, 0) → s.core.lands = [l] → l.awaits = [(r.id, 0)] → l.data = 0 →
      ∃ t, exec (.remoteAnswer { core := s.core.id, id := r.id, status := .done, data := d }) s = .next t ∧
        t.core.remotes = [] ∧ t.core.r = s.core.r ∧ SameMemory s t ∧
        t.core.lands = [{ l with data := BitVec.ofNat 1024 (leNat d), awaits := [], wait := none }]) ∧
    (∀ d, r.land = none → ∃ t, exec (.remoteAnswer { core := s.core.id, id := r.id, status := .done, data := d }) s = .next t ∧
      t.core.remotes = [] ∧ t.core.lands = s.core.lands ∧ t.core.r = s.core.r ∧ SameMemory s t) ∧
    (∀ d, exec (.remoteAnswer { core := s.core.id, id := r.id, status := .retry, data := d }) s =
      .next (s.onCore fun c => { c with remotes := [{ r with tries := 0, age := 0, hib := none }] })) ∧
    (∀ d, r.hib = none → exec (.remoteAnswer { core := s.core.id, id := r.id, status := .hibernating, data := d }) s =
      .next (s.onCore fun c => { c with remotes := [{ r with tries := 0, age := 0, hib := some 0 }] })) ∧
    (∀ x k d, (x, k) ∈ [(AnsStatus.unknownOutcome, 1), (.ownerMemory, 2), (.address, 4)] → r.into = none →
      s.core.st = .active →
      ∃ t p, exec (.remoteAnswer { core := s.core.id, id := r.id, status := x, data := d }) s = .next t ∧
        t.core.remotes = [] ∧ t.core.pend = s.core.pend ++ [p] ∧ p.cause = 0x0E ∧ p.detail = BitVec.ofNat 8 k ∧
        p.addr = r.va ∧ t.core.r = s.core.r ∧ SameMemory s t) ∧
    (66000 ≤ r.age → r.tries < 8 → (s.peer r.module).hib = false → ∃ t,
      exec (.retransmitTimeout s.core.id r.id) s = .next t ∧
        t.core.remotes = [{ r with tries := r.tries + 1, age := 0 }] ∧ t.outbox = s.outbox ++ [s.reqMsg s.core r] ∧
        t.core.r = s.core.r ∧ SameMemory s t) ∧
    (66000 ≤ r.age → r.tries = 8 → (s.peer r.module).hib = false → r.into = none → s.core.st = .active → ∃ t p,
      exec (.retransmitTimeout s.core.id r.id) s = .next t ∧ t.core.remotes = [] ∧ t.core.pend = s.core.pend ++ [p] ∧
        p.cause = 0x0F ∧ p.aux = BitVec.ofNat 64 r.module ∧ SameMemory s t) ∧
    ∀ n, r.hib = some n → 3300000000 ≤ n → r.into = none → s.core.st = .active → ∃ t p,
      exec (.hibernatingTimeout s.core.id r.id) s = .next t ∧ t.core.remotes = [] ∧
        t.core.pend = s.core.pend ++ [p] ∧ p.cause = 0x0E ∧ p.detail = 3 ∧ SameMemory s t

/-- R373 to R375: a tree stream is written where DELIVER is set, forwarded, and acknowledged once the subtree has;
QBINDB binds and unbinds a task's FIFO; words move while there is room; a FIFO whose other end is gone keeps its inbound
words and loses its outbound ones. One message for a stream, one acknowledgement with a mask, KEYID 0 for its writes, grants
that come as inputs, and the loss of a word that finds no place are the model's choices (log entry 24). -/
def Obligations.TreesAndChannels : Prop :=
  (∀ (s : State) (x : TreeStream) (mask fl dst : Nat) (data : List Byte), x.lines = [(dst, data)] →
    (s.treeEntry x.entry.toNat = (mask, fl, x.sender, true) → fl % 2 = 1 → fl / 2 % 2 = 1 → s.children mask = [] →
      data ≠ [] → dst + data.length ≤ 0x8000000000 → s.badLine dst data.length 0 = none →
      s.canonical = true → ∃ t, exec (.treeStreamReceive x) s = .next t ∧ Stored s t dst data ∧
        t.outbox = s.outbox ++ [.treeAck x.sender x.id 0] ∧ t.core.r = s.core.r) ∧
    (s.treeEntry x.entry.toNat = (mask, fl, x.sender, false) → ∃ t, exec (.treeStreamReceive x) s = .next t ∧
      t.outbox = s.outbox ++ [.treeAck x.sender x.id (2 ^ s.pos)] ∧ t.core.r = s.core.r ∧ SameMemory s t)) ∧
  (∀ (s : State) (x : Tree) (j k m : Nat), s.trees = [x] → x.core = none →
    (x.waits = [j] → ∃ t, exec (.treeAck x.id j m) s = .next t ∧ t.trees = [] ∧
      t.outbox = s.outbox ++ [.treeAck x.parent x.id (x.failed ||| m)] ∧ t.core = s.core) ∧
    (x.waits = [j, k] → j ≠ k → exec (.treeAck x.id j m) s =
      .next { s with trees := [{ x with waits := [k], failed := x.failed ||| m }] })) ∧
  (∀ (s : State) (v : Word) (k : Task), s.core.task = some k → s.core.st = .active →
    s.reg Key.qbinda = BitVec.ofNat 64 (k.serial.toNat * 2 ^ 32 + k.index) → k.index < 2 ^ 32 →
    (s.core.fifo[(v.extractLsb' 0 4).toNat]).peer = none →
    (v.getLsbD 63 = false → ∃ t, exec (.fifoBind v) s = .next t ∧
      (t.core.fifo[(v.extractLsb' 0 4).toNat]).peer =
        some ((v.extractLsb' 8 6).toNat, (v.extractLsb' 16 12).toNat) ∧ t.core.r = s.core.r ∧ SameMemory s t) ∧
    (v.getLsbD 63 = true → ∃ t, exec (.fifoUnbind v) s = .next t ∧
      (t.core.fifo[(v.extractLsb' 0 4).toNat]).peer = none ∧ t.core.r = s.core.r ∧ SameMemory s t)) ∧
  ∀ (s : State) (q : BitVec 4) (w : Word) (m ch : Nat), (s.core.fifo[q.toNat]).peer = some (m, ch) →
    s.core.fifoOf (m, ch) = some q → s.core.st ≠ .free → s.others = [] →
    ((s.core.fifo[q.toNat]).inb.length < 64 → ∃ t, exec (.fifoWordTransfer m ch (.word w)) s = .next t ∧
      (t.core.fifo[q.toNat]).inb = (s.core.fifo[q.toNat]).inb ++ [w] ∧ t.core.r = s.core.r ∧ SameMemory s t) ∧
    (64 ≤ (s.core.fifo[q.toNat]).inb.length → ∃ t, exec (.fifoWordTransfer m ch (.word w)) s = .next t ∧
      (t.core.fifo[q.toNat]).inb = (s.core.fifo[q.toNat]).inb ∧ t.core.r = s.core.r ∧ SameMemory s t) ∧
    (∀ n, ∃ t, exec (.fifoWordTransfer m ch (.room n)) s = .next t ∧
      (t.core.fifo[q.toNat]).room = (s.core.fifo[q.toNat]).room + n ∧ t.core.r = s.core.r ∧ SameMemory s t) ∧
    (∀ ws, m ≠ s.pos → (s.core.fifo[q.toNat]).outb = w :: ws →
      (0 < (s.core.fifo[q.toNat]).room → ∃ t, exec (.fifoWordTransfer s.core.id q.toNat .out) s = .next t ∧
        (t.core.fifo[q.toNat]).outb = ws ∧ (t.core.fifo[q.toNat]).room = (s.core.fifo[q.toNat]).room - 1 ∧
        t.outbox = s.outbox ++ [.fifo m ch w] ∧ t.core.r = s.core.r ∧ SameMemory s t) ∧
      ((s.core.fifo[q.toNat]).room = 0 → exec (.fifoWordTransfer s.core.id q.toNat .out) s = .next s)) ∧
    ∃ t, exec (.channelError m ch) s = .next t ∧ (t.core.fifo[q.toNat]).outb = [] ∧
      (t.core.fifo[q.toNat]).inb = (s.core.fifo[q.toNat]).inb ∧ (t.core.fifo[q.toNat]).gone = true ∧
      (t.core.fifo[q.toNat]).err = (s.core.fifo[q.toNat]).inb.isEmpty

/-! Hibernation (14). -/

/-- R387, R388, R391, R398, R399, R401, R415: a warning, FIRE, a sensor 1 ms at TRIP + 10 °C, and SLEN written 0 in
safelight mode begin a hibernation, with MCC latched and the resident task to be captured; a brown-out begins safelight
mode where SLEN is 1; a task of a shed die is held in place and released at its end. -/
def Obligations.WarningsAndSafelight : Prop :=
  ∀ (s : State),
    (s.supply.hib = true → exec .powerFailWarning s = .next { s with supply := { s.supply with lost := true } }) ∧
    (s.supply.hib = true → exec .safelightExit s = .next { s with supply := { s.supply with lost := false } }) ∧
    (s.supply.hib = false → s.others = [] → ∃ t, exec .powerFailWarning s = .next t ∧ t.supply.hib = true ∧
      t.supply.mccw = s.mcc ∧ (s.core.st ≠ .captured → SameMemory s t) ∧
      (s.core.st = .active → s.core.task ≠ none → s.core.capReq = none → s.core.restoring = none →
        s.core.staged = none → s.handoffs = [] → t.core.capReq = some (.powerFail, s.core.id))) ∧
    (∀ v, v.getLsbD 2 = true → s.others = [] → ∃ t, exec (.fire v) s = .next t ∧ t.supply.hib = true) ∧
    (∀ v, v.getLsbD 2 = false → exec (.fire v) s = .next s) ∧
    (∀ n t0, Sparse.find s.hot n = some t0 → t0 + 3300000 ≤ s.mcc.toNat → s.others = [] →
      ∃ t, exec (.tripOverheatWarning n) s = .next t ∧ t.supply.hib = true) ∧
    (∀ n, Sparse.find s.hot n = none → exec (.tripOverheatWarning n) s = .next s) ∧
    (∃ t, exec .fixerListValidate s = .next t ∧ t.core = { s.core with l1 := t.core.l1 } ∧ t.supply = s.supply ∧ SameMemory s t ∧
      (s.rfld Key.fxctl 3 13 = 0 → t.rfld Key.fxstat 32 16 = 0)) ∧
    (∀ mj, s.supply.safe = false → ∃ t, exec (.resmtrUpdate mj) s = .next t ∧ t.reg Key.resmtr = mj.setWidth 64 ∧
      t.core = s.core ∧ SameMemory s t ∧
      (s.fit = true → mj.toNat < 1000 * s.rfld Key.fxstat 0 32 → (t.reg Key.mipend).getLsbD 4 = true)) ∧
    (s.supply.hib = false → s.rfld Key.fxctl 1 1 = 1 → s.others = [] → s.handoffs = [] → s.core.st = .active →
      s.core.staged = none → s.core.restoring = none → ∃ t, exec .brownOut s = .next t ∧ t.supply.safe = true ∧
      t.supply.shed = ((List.range 8).filter fun d => s.rfld Key.slpol d 1 == 0) ∧
      (t.reg Key.mipend).getLsbD 5 = true ∧ t.core = s.core ∧ SameMemory s t) ∧
    (s.supply.hib = false → s.rfld Key.fxctl 1 1 = 0 → s.others = [] → ∃ t, exec .brownOut s = .next t ∧
      t.supply.hib = true) ∧
    (s.mustHold s.core = false → exec .safelightHold s = .next s) ∧
    (s.mustHold s.core = true → s.core.st = .active → s.core.lands = [] → s.core.remotes = [] → s.core.mq = [] →
      ∃ t, exec .safelightHold s = .next t ∧ t.core.st = .held ∧ t.core.haltMcc = s.mcc ∧ t.core.pc = s.core.pc ∧
        t.core.r.s = s.core.r.s ∧ SameMemory s t) ∧
    (s.supply.safe = true → s.supply.hib = false → s.others = [] → ∃ t, exec .safelightExit s = .next t ∧
      (s.core.st ≠ .held → t.supply.safe = false ∧ t.supply.shed = [] ∧ t.core = s.core ∧
        (t.reg Key.mipend).getLsbD 5 = true) ∧
      (s.core.st = .held → s.core.task ≠ none → s.core.kill = none → s.core.haltDrain = false → s.core.lands = [] →
        s.core.remotes = [] → s.core.reissue = [] → t.core.st = .active ∧ t.core.r.fstat.getLsbD 3 = true ∧
        t.core.r.s = s.core.r.s ∧ t.core.pc = s.core.pc)) ∧
    (s.supply.safe = true → s.others = [] → ∃ t, exec .safelightDisable s = .next t ∧ t.supply.hib = true ∧
      t.rfld Key.fxctl 1 1 = 0)

/-- R388, R391, R393, R395 to R397, R402: with every task captured the regions are put in order, the system's first, with the
records of invalid and discarded entries whatever ARM is; chunks of 64 KB go to the Fixer area until the reserve or the area
ends; the contact sheet is written into the Fixer area, its header in clear, unless a usable one still stands there, and the
module powers down. The place of a region, 1 GB into the area and behind what has been drained, the order of the records of
entries that are not drained, and the sheet as plain data beside its bytes are the model's choices (log entry 45). -/
def Obligations.FixerDrain : Prop :=
  ∀ (s : State),
    (s.supply.hib = true → s.supply.draining = false → s.allCaptured = true →
      (s.sheet.usable = true →
        exec .fixerDrain s = .next { s with supply := { s.supply with draining := true, ended := true } }) ∧
      (s.sheet.usable = false → ∃ t, exec .fixerDrain s = .next t ∧ t.supply.draining = true ∧
        t.supply.ended = s.supply.ended ∧ t.core = { s.core with l1 := t.core.l1 } ∧ SameMemory s t ∧
        (s.rfld Key.fxctl 0 1 = 0 →
          t.supply.regions = s.sysRegions ++ s.listRegions.filter fun r => r.state != 0) ∧
        ∀ r, s.rfld Key.fxctl 0 1 = 1 → s.listRegions = [r] → r.class ≤ 1 → t.supply.regions = s.sysRegions ++ [r])) ∧
    (∀ (r : Region) (n : Nat), s.supply.draining = true → s.supply.ended = false → s.supply.regions = [r] → r.state = 0 →
      r.done < r.len → n = min 65536 (r.len - r.done) →
      (s.supply.used + n ≤ (s.rfld Key.fxarea 0 12 - 1) * 1073741824 →
        (if r.class = 0 then 20000 else s.rfld Key.fxthr 0 32) < s.rfld Key.resmtr 0 32 →
        ∃ t, exec .fixerChunk s = .next t ∧ t.supply.used = s.supply.used + n ∧ t.supply.ended = false ∧
          t.supply.regions = [{ r with
            done := r.done + n, off := if r.done = 0 then 1073741824 + s.supply.used else r.off }] ∧ t.core = s.core ∧
          (∀ a, a < s.fixerArea + 1073741824 + s.supply.used ∨ s.fixerArea + 1073741824 + s.supply.used + n ≤ a →
            memGet t.mem a = memGet s.mem a) ∧
          (s.supply.image = [] → s.canonical = true → ∀ a, r.addr + r.done ≤ a → a < r.addr + r.done + n → a < 2 ^ 60 →
            (s.lineInfo (a / 64)).any (·.bad) = false → memGet t.supply.image a = memGet s.mem a)) ∧
      (s.rfld Key.resmtr 0 32 ≤ (if r.class = 0 then 20000 else s.rfld Key.fxthr 0 32) ∨
          (s.rfld Key.fxarea 0 12 - 1) * 1073741824 < s.supply.used + n →
        ∃ t, exec .fixerChunk s = .next t ∧ t.supply.ended = true ∧ t.supply.regions = [{ r with state := 1 }] ∧
          (r.class = 0 → t.supply.complete = false) ∧ (r.class ≠ 0 → t.supply.complete = s.supply.complete) ∧
          SameMemory s t)) ∧
    (s.supply.draining = true → s.supply.ended = false → s.supply.regions = [] →
      exec .fixerChunk s = .next { s with supply := { s.supply with ended := true } }) ∧
    (s.supply.ended = true → s.supply.hib = true → ∃ t, exec .contactSheetWrite s = .next t ∧
      t.halted = true ∧ t.supply.down = true ∧
      (s.rfld Key.fxarea 0 12 = 0 ∨ s.sheet.usable = true → t.sheet = s.sheet ∧ SameMemory s t) ∧
      (s.rfld Key.fxarea 0 12 ≠ 0 → s.sheet.usable = false →
        t.mem = memWrite s.mem s.fixerArea s.sheetBytes ∧ t.sheet.valid = true ∧ t.sheet.spent = false ∧
        t.sheet.complete = s.supply.complete ∧ t.sheet.hibseq = s.sheet.hibseq + 1 ∧ t.sheet.mccw = s.supply.mccw ∧
        t.sheet.inc = s.inc ∧ t.sheet.regions = s.supply.regions ∧ t.sheet.launches = s.launches ∧
        t.sheet.landMarks = s.landMarks)) ∧
    s.sheetHeader.take 4 = leBytes 4 0x48435348 ∧ s.sheetHeader.length = 192 ∧
    (s.sheetHeader.drop 4).take 2 = leBytes 2 1 ∧
    (s.sheetHeader.drop 8).take 8 = leBytes 8 (s.sheet.hibseq + 1) ∧
    (s.sheetHeader.drop 24).take 8 = leBytes 8 s.supply.mccw.toNat ∧
    (s.sheetHeader.drop 44).take 4 = leBytes 4 ((s.sheetTables.getD 0 []).length / 96) ∧
    s.sheetBytes.take 192 = s.sheetHeader

/-- R351, R365, R402 to R404, R422: a module reset starts cold at STAGE 1, with a new incarnation, and enters the firmware;
without firmware the management core stays in reset at STAGE 0. The stages follow: the channels trained, the sheet examined,
with its event, and the ready module. That the parts follow tick by tick, and that a channel out of service stops no boot, is
the model's choice (log entry 104). -/
def Sys2Proof.Claims.ModuleBoot : Prop :=
  ∀ (s : State) (p : ResetPins), s.pos < 64 →
    (p.firmware = 0 → ∃ t c, exec (.moduleReset ⟨p, .reset⟩) s = .next t ∧ t.mcc = 0 ∧ t.core = State.reset.core ∧
      t.launches = [] ∧ t.slots = [] ∧ t.held = [] ∧ t.inc ≠ s.inc ∧ t.pos = s.pos ∧ t.rfld Key.bootst 0 3 = 1 ∧
      t.boot = some p ∧ t.sheet = s.sheet ∧ t.others = [c] ∧ c.id = 640 ∧ c.st = .active ∧ c.pc = firmwareEntry ∧
      t.halted = false) ∧
    (p.firmware ≠ 0 → ∃ t, exec (.moduleReset ⟨p, .reset⟩) s = .next t ∧ t.others = [] ∧ t.rfld Key.bootst 0 3 = 0 ∧
      t.rfld Key.bootst 8 8 = p.firmware.toNat ∧ t.held = [] ∧ t.sheet = s.sheet ∧ t.boot = none) ∧
    (∀ x, x ≠ .reset → s.boot ≠ some p → exec (.moduleReset ⟨p, x⟩) s = .next s) ∧
    (s.boot = some p → s.rfld Key.bootst 0 3 = 1 → p.lanes = [] → ∃ t, exec (.moduleReset ⟨p, .trained⟩) s = .next t ∧
      t.rfld Key.bootst 0 3 = 2 ∧ t.rfld Key.bootst 40 8 = p.chout.toNat ∧
      t.rfld Key.bootst 8 8 = (if p.chout = 0 then s.rfld Key.bootst 8 8 else 3) ∧ t.core = s.core ∧ SameMemory s t) ∧
    (s.boot = some p → s.rfld Key.bootst 0 3 = 2 → s.sheet.usable = false → s.reg Key.evbase = 0 → ∃ t e,
      exec (.moduleReset ⟨p, .examine⟩) s = .next t ∧ t.rfld Key.bootst 0 3 = 3 ∧ t.held = s.held ++ [e] ∧ e.kind = 6 ∧
        e.status = 0 ∧ t.launches = s.launches ∧ t.core = s.core ∧ SameMemory s t) ∧
    (s.boot = some p → s.rfld Key.bootst 0 3 = 3 → ∃ t, exec (.moduleReset ⟨p, .ready⟩) s = .next t ∧
      t.rfld Key.bootst 0 3 = 4 ∧ t.boot = none ∧ t.core = s.core ∧ SameMemory s t)

/-- No register, launch, slot, core or byte of memory has changed, but for what the L1s hold. -/
def Sys2Proof.Claims.CachesAside (s t : State) : Prop :=
  t.core = { s.core with l1 := t.core.l1 } ∧ t.regs = s.regs ∧ t.launches = s.launches ∧ t.slots = s.slots ∧
  t.held = s.held ∧ t.outbox = s.outbox ∧ SameMemory s t

/-- R402 to R406: a sheet that fails a check is spent, and its outcome reported; one that passes is restored from, and stays
usable: what it holds stands again, MCC goes on, and of this module's HBM only bytes of its regions outlive the reset, the
firmware's image not among them (DEDUCED, log entry 105). A group's launch waits until the members have told their steps, or
for one second, and is dropped with an event where one has gone more than two steps on. The steps that are announced enter
the group's entry; that MINSTEP and MAXSTEP are written before every member has announced one is the model's reading (DEDUCED,
log entry 48). -/
def Sys2Proof.Claims.RestoreAndRejoin : Prop :=
  (∀ (s : State) (p : ResetPins), s.boot = some p → s.rfld Key.bootst 0 3 = 2 → s.sheet.valid = true →
    s.sheet.spent = false → s.reg Key.evbase = 0 →
    (p.signed = false ∨ (p.signed = true ∧ (s.sheet.version ≠ 1 ∨ s.sheet.pos ≠ s.pos)) → ∃ t e,
      exec (.moduleReset ⟨p, .examine⟩) s = .next t ∧ t.held = s.held ++ [e] ∧ e.kind = 6 ∧
        e.status = (if p.signed then 5 else 2) ∧ t.sheet.spent = true ∧ t.launches = s.launches ∧ t.slots = s.slots) ∧
    (p.signed = true → s.sheet.version = 1 → s.sheet.pos = s.pos → s.sheet.complete = true → p.damaged = [] →
      ∃ t, exec (.moduleReset ⟨p, .examine⟩) s = .next t ∧ t.rfld Key.bootst 0 3 = 3 ∧
        t.sheet = s.sheet ∧ t.launches = s.sheet.launches ∧ t.timelines = s.sheet.timelines ∧
        t.nextSerial = s.sheet.nextSerial ∧ t.inc = s.sheet.inc ∧ t.landMarks = s.sheet.landMarks ∧
        (s.sheet.ptpw = none → t.mcc = s.sheet.mccw + 2 ^ 40) ∧
        (∀ a b, s.sheet.ptpw = some a → p.ptp = some b → a ≤ b →
          t.mcc = s.sheet.mccw + BitVec.ofNat 64 ((b - a) * 33 / 10)) ∧
        (s.sheet.regs = [] → ∀ a, a < 0x8000000000 → (∀ r ∈ s.sheet.regions, a < r.addr ∨ r.addr + r.len ≤ a) →
          memGet t.mem a = memDefault))) ∧
  (∀ (s : State) (n m : Nat),
    ((∀ r ∈ s.rejoin, r.entry ≠ n) → ∀ x, exec (.collectiveRejoin n x) s = .next s) ∧
    ∀ (r : Rejoin) (v step : Nat), s.rejoin = [r] → r.entry = n → r.said = [] → s.otherMembers n = [m] →
      step = leNat (s.agentRead (s.groupAt n + 16) 4) →
      (v ≤ step + 2 → ∃ t, exec (.collectiveRejoin n (.step m v)) s = .next t ∧ t.rejoin = [] ∧ CachesAside s t) ∧
      (step + 2 < v → s.slots = [] → s.reg Key.evbase = 0 → s.launch (BitVec.ofNat 32 (s.groupOf n).1) = none →
        ∃ t e, exec (.collectiveRejoin n (.step m v)) s = .next t ∧ t.held = s.held ++ [e] ∧ e.kind = 6 ∧
          e.status = 0x20 ∧ e.serial = BitVec.ofNat 32 (s.groupOf n).1 ∧ t.rejoin = []) ∧
      exec (.collectiveRejoin n (.hibernating m)) s =
        .next { s with outbox := s.outbox ++ [.stepAsk m (BitVec.ofNat 32 (s.groupOf n).1)] } ∧
      (3300000000 ≤ r.age → ∃ t, exec (.collectiveRejoin n .timeUp) s = .next t ∧ t.rejoin = [] ∧ CachesAside s t) ∧
      (r.age < 3300000000 → exec (.collectiveRejoin n .timeUp) s = .next s)) ∧
  ∀ (s : State) (j n : Nat) (serial v : BitVec 32), s.announced = [] →
    (s.groups = [] → ∃ t, exec (.stepAnnouncement j serial v) s = .next t ∧ t.announced = [(serial, j, v.toNat)] ∧
      CachesAside s t) ∧
    (s.groups = [n] → (s.groupOf n).1 = serial.toNat → bits (s.groupOf n).2.2 j 1 = 1 →
      s.groupAt n + 28 ≤ 0x8000000000 → s.badLine (s.groupAt n + 20) 8 0 = none → s.canonical = true →
      ∃ t, exec (.stepAnnouncement j serial v) s = .next t ∧
        Stored s t (s.groupAt n + 20) (leBytes 4 v.toNat ++ leBytes 4 v.toNat) ∧ t.core.r = s.core.r)

/-- Module reset: boot, cold start, restore; collectives after it: R351, R365, R402, R403, R404, R405, R406, R422. -/
def Obligations.Restart : Prop :=
  ModuleBoot ∧ RestoreAndRejoin

/-! Launches (10). -/

/-- R289, R381, R279, R446: QTAIL takes a tail within the ring, and the read of a waiting record begins; the record read is
the 256 bytes at BASE + 256 × (HEAD mod ring) of the port's window; a record that passes its checks becomes a launch with the
next serial, a rejected one does not. That the sum is taken modulo 2^48 within the window is the model's reading (DEDUCED, log
entry 30). -/
def Sys2Proof.Claims.Submission : Prop :=
  ∀ (s : State) (q : BitVec 6),
    (∀ v : Word, (v.toNat % 2 ^ 32 + 2 ^ 32 - s.rfld (Key.qhead q.toNat) 0 32) % 2 ^ 32 ≤
        2 ^ s.rfld (Key.qring q.toNat) 0 5 →
      ∃ t, exec (.qtailWrite q v) s = .next t ∧ t.rfld (Key.qtail q.toNat) 0 32 = v.toNat % 2 ^ 32 ∧ t.core = s.core ∧
        SameMemory s t ∧
        (s.queueServed q.toNat = true → v.toNat % 2 ^ 32 ≠ s.rfld (Key.qhead q.toNat) 0 32 → s.readBusy = [] →
          (q.toNat, 24) ∈ t.readBusy)) ∧
    (∀ v : Word, 2 ^ s.rfld (Key.qring q.toNat) 0 5 <
        (v.toNat % 2 ^ 32 + 2 ^ 32 - s.rfld (Key.qhead q.toNat) 0 32) % 2 ^ 32 → exec (.qtailWrite q v) s = .next s) ∧
    (∃ t, exec (.launchRecordFetch q) s = .next t ∧
      t.readRec = Sparse.set s.readRec q.toNat
        (s.agentRead (s.queueRecord q.toNat (s.rfld (Key.qhead q.toNat) 0 32)) 256) ∧
      t.core.r = s.core.r ∧ SameMemory s t) ∧
    (∀ h, s.queueRecord q.toNat h = (if q.toNat < 32 then 0x8000000000000 else 0xC000000000000) +
      ((s.reg (Key.qring q.toNat)).toNat / 4096 * 4096 + 256 * (h % 2 ^ s.rfld (Key.qring q.toNat) 0 5)) % 2 ^ 48) ∧
    (Sparse.find s.readRec q.toNat = none → exec (.launchAcceptance (.queue q)) s = .next s) ∧
    ∀ bs l, Sparse.find s.readRec q.toNat = some bs →
      l = { serial := s.nextSerial, queue := q, record := bs, avail := s.available } →
      l.f 0x4C 4 = 0 → s.launch s.nextSerial = none →
      (l.rejects none true = [] → s.unplaceable l = false → ∃ t x, exec (.launchAcceptance (.queue q)) s = .next t ∧
        t.launches = s.launches ++ [x] ∧ x.serial = s.nextSerial ∧ x.record = bs ∧ x.phase = .accepted ∧
        t.nextSerial = s.nextSerial + 1 ∧ t.core = s.core ∧ SameMemory s t ∧
        t.rfld (Key.qhead q.toNat) 0 32 = (s.rfld (Key.qhead q.toNat) 0 32 + 1) % 2 ^ 32) ∧
      (l.rejects none true ≠ [] → l.f 0x60 8 = 0 → ∃ t, exec (.launchAcceptance (.queue q)) s = .next t ∧
        t.launches = s.launches ∧ t.nextSerial = s.nextSerial + 1 ∧ t.core = s.core ∧ SameMemory s t)

/-- The byte a failing check of a level word names, at level n (R271, R272, R274, R275, R278, R446). -/
def Sys2Proof.Claims.LevelFails (l : Launch) (n b : Nat) : Prop :=
  ∃ L d : Nat, L = l.f (0x80 + 8 * n) 8 ∧ d = L / 2 ^ 32 % 8 ∧
    ((b = 0x84 + 8 * n ∧ (L / 2 ^ 35 % 2 ≠ 0 ∨ L / 2 ^ 39 % 2 ≠ 0)) ∨
      (b = 0x85 + 8 * n ∧ (L / 2 ^ 40 % 2 ≠ 0 ∨ L / 2 ^ 42 % 2 ^ 6 ≠ 0)) ∨
      (b = 0x80 + 8 * n ∧
        (L % 2 ^ 32 = 0 ∨ 5 < d ∨ L / 2 ^ 36 % 8 = 7 ∨ L / 2 ^ 36 % 8 < d ∨ (∃ m, m < n ∧ l.f (0x80 + 8 * m) 8 / 2 ^ 32 % 8 < d) ∨
          (d = 5 ∧ n ≠ 0) ∨ (L / 2 ^ 41 % 2 = 1 ∧ l.f 0x7C 1 / 2 ^ n % 2 = 0) ∨
          (d = 5 ∧ (l.f 0x7C 1 / 2 ^ n % 2 = 1 ∨ L / 2 ^ 41 % 2 = 1 ∨ L / 2 ^ 48 ≠ 0)) ∨
          (d ≤ 4 ∧ [1, 2, 8, 80, 640].getD d 0 < L / 2 ^ 48))))

/-- The product of the extents of the levels up to n. -/
def Sys2Proof.Claims.extents (l : Launch) (n : Nat) : Nat :=
  ((List.range (n + 1)).map fun m => l.f (0x80 + 8 * m) 8 % 2 ^ 32).prod

/-- A check of R279 fails and names byte b of the record (R446). `clv`: the parent's CHILDLV; `ok`: the spill range is mapped
writable and PINNED. -/
def Sys2Proof.Claims.Fails (l : Launch) (clv : Option Nat) (ok : Bool) (b : Nat) : Prop :=
  (b = 0 ∧ l.f 0 1 % 32 ≠ 0) ∨ (b = 7 ∧ 2 ≤ l.f 7 1) ∨ (b = 8 ∧ l.f 8 1 ∉ [1, 2, 3]) ∨
  (b = 9 ∧ (4 ≤ l.f 9 1 ∨ l.f 9 1 = 2)) ∨ (b = 0x0A ∧ (l.f 0x0A 1 = 0 ∨ 8 < l.f 0x0A 1)) ∨ (b = 0x0B ∧ 8 ≤ l.f 0x0B 1) ∨
  (b = 0x0C ∧ 2 ≤ l.f 0x0C 1) ∨ (b = 0x0D ∧ l.f 0x0C 1 = 0 ∧ 4 ≤ l.f 0x0D 1) ∨ (b = 0x0E ∧ 8 ≤ l.f 0x0E 1) ∨
  (b = 0x0F ∧ (32 ≤ l.f 0x0F 1 ∨ l.f 0x0F 1 % 4 = 3)) ∨ (b = 0x14 ∧ (l.f 0x14 2 = 0 ∨ 12288 < l.f 0x14 2)) ∨
  (b = 0x16 ∧ (16 ≤ l.f 0x16 1 ∨ ∃ p, clv = some p ∧ p ≤ l.f 0x16 1)) ∨
  (b = 0x17 ∧ if l.f 0x0A 1 ≠ 0 ∧ l.f 0x80 8 / 2 ^ 32 % 8 = 5 then l.f 0x80 8 % 2 ^ 32 ≤ l.f 0x17 1 else l.f 0x17 1 ≠ 0) ∨
  (∃ n, n < 8 ∧ b = 0x18 + n / 2 ∧ l.f 0x1C 4 / 2 ^ (4 * n) % 16 < l.f 0x18 4 / 2 ^ (4 * n) % 16) ∨
  (b = 0x20 ∧ l.f 0x20 1 % 32 ≠ 0) ∨ (b = 0x27 ∧ 2 ≤ l.f 0x27 1) ∨ (∃ n, n < 4 ∧ b = 0x31 + 4 * n ∧ 128 ≤ l.f b 1) ∨
  ((b = 0x49 ∨ b = 0x4B) ∧ l.f b 1 / 16 % 8 ≠ 0) ∨ (b = 0x58 ∧ (l.f 0x58 1 ≠ 0 ∨ (l.f 0x4C 4 ≠ 0 ∧ ok = false))) ∨
  (b = 0x60 ∧ l.f 0x60 1 % 64 ≠ 0) ∨
  (b = 0x78 ∧ l.f 0x7A 2 ≠ 0 ∧ l.f 0x14 2 < l.f 0x78 2 + l.f 0x7A 2 ∧
    (l.f 0x78 2 < 12288 ∨ 12288 + l.f 0x14 2 < l.f 0x78 2 + l.f 0x7A 2)) ∨
  (b = 0x7C ∧ (2 ^ l.f 0x0A 1 ≤ l.f 0x7C 1 ∨
    ∃ m n, m < n ∧ n < l.f 0x0A 1 ∧ l.f 0x7C 1 / 2 ^ m % 2 = 1 ∧ l.f 0x7C 1 / 2 ^ n % 2 = 0)) ∨
  (0x7D ≤ b ∧ b ≤ 0x7F ∧ l.f b 1 ≠ 0) ∨ (∃ n, n < min (l.f 0x0A 1) 8 ∧ LevelFails l n b) ∨
  (∃ n, n < l.f 0x0A 1 ∧ b = 0x80 + 8 * n ∧ 2 ^ 32 < extents l n ∧ ∀ m, m < n → extents l m ≤ 2 ^ 32) ∨
  (∃ n, n < 8 ∧ l.f 0x0A 1 ≤ n ∧ b = 0x80 + 8 * n ∧ l.f b 8 ≠ 0) ∨
  (∃ n t, n < 16 ∧ t = l.f (0xC0 + 2 * n) 2 ∧
    ((b = 0xC0 + 2 * n ∧ (t / 2 ^ 14 = 3 ∨ (t / 2 ^ 14 ≠ 2 ∧ t % 256 ≠ 0))) ∨
      (b = 0xC1 + 2 * n ∧ (t / 2 ^ 12 % 4 ≠ 0 ∨ (t / 2 ^ 14 ≠ 2 ∧ t % 256 = 0 ∧ t % 4096 ≠ 0))))) ∨
  (0xE0 ≤ b ∧ b ≤ 0xFF ∧ l.f b 1 ≠ 0)

/-- R271, R272, R274, R275, R277 to R279, R446: the checks of a launch record, each with the byte that it names; where several
fail, the record of a rejected launch gives REJECTED with the lowest such byte as its DETAIL. -/
def Sys2Proof.Claims.RecordChecks : Prop :=
  (∀ (l : Launch) (clv : Option Nat) (ok : Bool) (b : Nat), l.record.length = 256 →
    (b ∈ l.rejects clv ok ↔ Fails l clv ok b)) ∧
  ∀ (l : Launch) (now code detail : Nat), code < 256 → detail < 256 →
    (l.record64 now (some (code, detail))).length = 64 ∧ ((l.record64 now (some (code, detail))).drop 8).take 1 = leBytes 1 code ∧
    ((l.record64 now (some (code, detail))).drop 10).take 1 = leBytes 1 detail ∧
    ∀ (s : State) (q : BitVec 6) (bs : List Byte) (a : Nat), Sparse.find s.readRec q.toNat = some bs → bs.length = 256 →
      l = { serial := s.nextSerial, queue := q, record := bs, phase := .accepted, avail := s.available } →
      s.launch s.nextSerial = none → l.f 0x4C 4 = 0 → Fails l none true a → (∀ b, Fails l none true b → a ≤ b) →
      ∃ u : State, exec (.launchAcceptance (.queue q)) s = .next (u.complete l (some (0x05, a))) ∧
        u.launches = s.launches ++ [l] ∧ u.nextSerial = s.nextSerial + 1 ∧ u.core = s.core ∧ SameMemory s u ∧
        (l.f 0x60 8 = 0 → (u.complete l (some (0x05, a))).launches = s.launches ∧
          SameMemory s (u.complete l (some (0x05, a)))) ∧
        ∀ pa leaf size, l.f 0x60 8 ≠ 0 →
          u.sysXlate l.context (BitVec.ofNat 64 (l.f 0x60 8)) 1 = .ok (pa, leaf, size) → u.physKind pa = .hbm →
          l.f 0x60 8 % 64 = 0 → u.canonical = true →
          Stored u (u.complete l (some (0x05, a))) (u.canon pa) (l.record64 u.ptp (some (0x05, a)))

/-- R146, R147, R297 to R299: SPAWN places a child in the pool, or with PLACE 1 at the tail of its launch's spill ring, and
answers its serial, or refuses; its record is read then,
or once the fences that hold the read have ended, and handed over; that a full pool refuses where the spill ring's tail still
holds a child is the model's reading (DEDUCED, log entry 80); a spilled child moves into a free entry, or into a reserved one while its parent waits for it; a child starved for
100 µs pre-empts a waiting task. -/
def Sys2Proof.Claims.Children : Prop :=
  (∀ (o : SR2Op) (s : State) (l : List Span) (k : Task) (p : Launch), s.rdP o.h.g = true → o.h.a = false →
    s.mgmt = false →
    (s.rdS o.ra).toNat % 256 = 0 → s.reach (s.rdS o.ra) 256 4 false = .ok l → s.core.task = some k →
    s.launch k.serial = some p →
    (s.poolUsed false < 3840 → s.launch s.nextSerial = none →
      (s.core.holders true ≠ [] → ∃ t c, exec (.spawn o) s = .next t ∧
        t.core.r = s.core.r.setS o.rd (s.nextSerial.setWidth 64) ∧ t.launches = s.launches ++ [c] ∧
        c.serial = s.nextSerial ∧ c.parent = some p.serial ∧ c.queue = p.queue ∧ c.place = .pool false ∧
        c.parentIndex = k.index ∧ c.unread = true ∧ t.nextSerial = s.nextSerial + 1 ∧ SameMemory s t) ∧
      ∀ bs, s.core.fences = [] → (∀ x ∈ s.core.lands, x.holds = []) → (∀ x ∈ s.core.stores, x.holds = []) →
        s.core.spawns = [] →
        (∀ y ∈ pieces p.keyid l, s.physKind y.pa = .hbm) →
        s.partsBytes (spawnInto s.nextSerial) (pieces p.keyid l) = (bs, none) → bs.length = 256 →
        ∃ t c, exec (.spawn o) s = .next t ∧
          t.core.r = s.core.r.setS o.rd (s.nextSerial.setWidth 64) ∧ t.launches = s.launches ++ [c] ∧
          c.serial = s.nextSerial ∧ c.parent = some p.serial ∧ c.queue = p.queue ∧ c.place = .pool false ∧
          c.parentIndex = k.index ∧ c.unread = false ∧ c.record = childRecord p bs ∧
          t.nextSerial = s.nextSerial + 1 ∧ SameMemory s t) ∧
    (3840 ≤ s.poolUsed false → p.f 0x4C 4 ≠ 0 → s.ringFree p p.spillTail = true → s.launch s.nextSerial = none →
      ∃ t c x, exec (.spawn o) s = .next t ∧
        t.core.r = s.core.r.setS o.rd (BitVec.ofNat 64 (2 ^ 32) + s.nextSerial.setWidth 64) ∧
        t.launch s.nextSerial = some c ∧ c.parent = some p.serial ∧ c.parentIndex = k.index ∧ c.queue = p.queue ∧
        c.place = .spilled ∧ c.ringPos = p.spillTail ∧ t.nextSerial = s.nextSerial + 1 ∧
        t.launch p.serial = some x ∧ x.spillTail = (p.spillTail + 1) % p.f 0x4C 4) ∧
    (3840 ≤ s.poolUsed false → (p.f 0x4C 4 = 0 ∨ s.ringFree p p.spillTail = false) →
      exec (.spawn o) s = .next (s.wrS o.rd (BitVec.ofNat 64 (2 ^ 63))))) ∧
  (∀ (o : SR2Op) (s : State), s.rdP o.h.g = true → s.mgmt = false → (s.rdS o.ra).toNat % 256 ≠ 0 →
    exec (.spawn o) s = .next (s.takeTrap (slotTrap s { cause := 0x08, aux := s.rdS o.ra }))) ∧
  (∀ (s : State) (x : SpawnRead) (l : List SpawnRead) (k : Task) (p ch : Launch) (bs : List Byte),
    s.core.spawnsDue = x :: l → (∀ y ∈ x.parts, s.physKind y.pa = .hbm) →
    s.partsBytes (spawnInto x.serial) x.parts = (bs, none) → bs.length = 256 → s.core.task = some k →
    s.launch k.serial = some p → s.launch x.serial = some ch →
    ∃ t c, exec .spawnRecordRead s = .next t ∧ t.launch x.serial = some c ∧
      c.record = bs.take 16 ++ (p.record.drop 16).take 4 ++ bs.drop 20 ∧ c.unread = false ∧
      (∀ y ∈ t.core.spawns, y.id ≠ x.id) ∧ t.core.r = s.core.r ∧ (ch.place ≠ .spilled → SameMemory s t) ∧
      ∀ pa leaf size, ch.place = .spilled → p.record.length = 256 →
        s.sysXlate p.context (BitVec.ofNat 64 (p.f 0x58 8 + 256 * ch.ringPos)) 1 = .ok (pa, leaf, size) →
        s.physKind pa = .hbm → s.badLine pa 256 (leafKey leaf p.keyid) = none → s.canonical = true →
        Stored s t (s.canon pa) c.record) ∧
  ∀ (s : State) (n : BitVec 32) (l : Launch), s.launch n = some l →
    (l.place = .spilled → l.unread = false → s.poolUsed false < 3840 → s.oldestSpilled l = true →
      ∃ t x, exec (.spillMove n) s = .next t ∧
      t.launch n = some x ∧ x.place = .pool false ∧ t.core.r = s.core.r ∧ SameMemory s t) ∧
    (l.place = .spilled → l.unread = false → s.poolUsed true < 256 → s.parentBlocked l = true → ∃ t x,
      exec (.reservedEntryGrant n) s = .next t ∧ t.launch n = some x ∧ x.place = .pool true ∧ t.core.r = s.core.r ∧
      SameMemory s t) ∧
    (l.place ≠ .spilled → exec (.spillMove n) s = .next s ∧ exec (.reservedEntryGrant n) s = .next s) ∧
    (l.blocked < 330000 → exec (.childPreemptTimeout n) s = .next s) ∧
    ∀ (k : Task) (m : Launch) (a : Nat) (as : List Nat), l.place = .pool true → 330000 ≤ l.blocked → s.others = [] →
      s.core.st = .waiting → s.core.capReq = none → s.core.staged = none → (∃ w ∈ s.core.waitOn, 64 ≤ w) →
      s.core.id ∈ s.permitted l (l.next.headD l.cursor) → s.core.task = some k → s.launch k.serial = some m →
        m.gangLevel = none →
      s.freeSlots = a :: as → ∃ t, exec (.childPreemptTimeout n) s = .next t ∧
        t.core.capReq = some (.preempt, a) ∧ t.core.r = s.core.r ∧ SameMemory s t

/-- Submission of launches, the checks of their records, SPAWN, and the children's pool: R146, R147, R271, R275, R278,
R279, R289, R297, R298, R299, R381, R446. -/
def Obligations.Launches : Prop :=
  Submission ∧ RecordChecks ∧ Children

/-- R287, R289, R294, R20, R25, R281, R402: a selection is handed over; a bound task's context stands as its record says, and
the first binding after a restore spends the sheet; the preload fills its rows; first issue makes it active, with CYC, FBASE
and FEPOCH set. That a pick that spans dies is handed over at its lowest die's turn, and that the other dies do nothing then,
is the model's reading (DEDUCED, log entry 68); what becomes of a hand-off whose core is gone is its choice (log entry 91). -/
def Obligations.Binding : Prop :=
  (∀ (s : State) (q die prio : Nat) (p : Pick), die < 8 → s.supply.hib = false → s.offers = [(q, p, prio)] →
    (∀ h ∈ s.handoffs, h.at_ ≠ s.mcc) →
    ((∃ x ∈ p.tasks, x.2 / 80 = die) → (∀ x ∈ p.tasks, die ≤ x.2 / 80) →
      ∃ t x, exec (.schedulerSelection die) s = .next t ∧
      t.handoffs = s.handoffs ++ [x] ∧ x.serial = p.serial ∧ x.tasks = p.tasks ∧ x.stage = p.stage ∧ t.core = s.core ∧
      SameMemory s t) ∧
    ((∀ x ∈ p.tasks, x.2 / 80 ≠ die) ∨ (∃ x ∈ p.tasks, x.2 / 80 < die) →
      ∃ t, exec (.schedulerSelection die) s = .next t ∧ (die ≠ 0 → t = s) ∧ t.handoffs = s.handoffs ∧
        t.launches = s.launches ∧ t.core = s.core ∧ SameMemory s t)) ∧
  (∀ (s : State) (x : HandOff) (l : Launch) (i : Nat), s.handoffs = [x] → s.launch x.serial = some l → x.slots = [] →
    x.stage = false → x.tasks = [(i, s.core.id)] → l.stopped = false → l.cancelled = false → s.reg Key.rqbase = 0 →
    (s.clusterUp (s.core.id / 8) = false → ∃ t y, exec (.taskBinding 0) s = .next t ∧ t.handoffs = [] ∧ t.core = s.core ∧
      t.launch x.serial = some y ∧ i ∈ y.back ∧ i ∉ y.live ∧ SameMemory s t) ∧
    (s.clusterUp (s.core.id / 8) = true → ∃ t k, exec (.taskBinding 0) s = .next t ∧ t.handoffs = [] ∧ t.core.st = .bound ∧
      t.core.task = some k ∧ k.serial = l.serial ∧ k.index = i ∧ k.context = l.context ∧ k.scratch = l.f 0x14 2 ∧
      t.core.pc = BitVec.ofNat 64 (l.f 0 8) ∧ (∀ j, t.core.r.getS j = 0) ∧ (∀ j, j ≠ 0 → t.core.r.getP j = false) ∧
      t.core.r.taskid = BitVec.ofNat 64 (l.context.toNat * 2 ^ 48 + s.core.id * 2 ^ 32 + i) ∧
      t.core.r.launchid = BitVec.ofNat 64 (l.queue.toNat * 2 ^ 32 + l.serial.toNat) ∧
      t.core.r.thnd = BitVec.ofNat 64 (l.f 0x20 8) ∧ (s.sheet.usable = false → SameMemory s t) ∧
      t.sheet.usable = false)) ∧
  (∀ (s : State) (k : Task) (l : Launch) (bs : List Byte), s.core.task = some k → s.core.st = .bound →
    k.preloaded = false → s.launch k.serial = some l → (∀ r ∈ s.core.remotes, r.into ≠ some 0) → k.landed = [] →
    (∀ p ∈ (s.vparts l.context l.keyid 6 (l.preload k.index).1 (l.preload k.index).2).1, s.physKind p.pa = .hbm) →
    s.vread l.context l.keyid 0 (l.preload k.index).1 (l.preload k.index).2 = (bs, none) →
    (k.toFill ≠ [] → exec .preloadComplete s = .next s) ∧
    (k.toFill = [] → ∃ t, exec .preloadComplete s = .next t ∧ t.core.task = some { k with preloaded := true } ∧
      (∀ n, n < l.f 0x7A 2 →
        t.core.row (l.f 0x78 2 + n) = BitVec.ofNat 512 (leNat ((bs.drop (64 * n)).take 64))) ∧
      t.core.r = s.core.r ∧ SameMemory s t)) ∧
  ∀ (s : State) (k : Task), s.core.task = some k → s.core.st = .bound → k.preloaded = true → k.left = 0 →
    ∃ t, exec .firstIssue s = .next t ∧ t.core.st = .active ∧ t.core.cyc = 0 ∧
      t.core.r.fbase = s.mcc &&& ~~~15#64 ∧ t.core.r.fepCount = 0 ∧ t.core.r.s = s.core.r.s ∧ t.core.pc = s.core.pc ∧
      SameMemory s t

/-- R46, R282, R288, R295, R296, R301, R318: a drained task retires, its core is free and its launch counts it, and ends
with its last task; a cancel ends a launch that has not been handed over, and otherwise reaches every die, where it kills
the launch's tasks. -/
def Obligations.RetirementAndCancel : Prop :=
  (∀ (s : State) (k : Task) (l : Launch), s.core.task = some k → s.core.drained = true → s.core.status = none →
    s.core.staged = none → s.launch k.serial = some l → s.launches = [l] → s.reg Key.rqbase = 0 →
    (∀ (n : Nat) (h : n < 16), (s.core.fifo[n]).peer = none) → (∀ n, l.sstep n = false) → l.phase = .accepted →
    (∀ j, j ≠ k.index → j ∈ l.live → ∃ t x, exec .taskRetire s = .next t ∧ t.core.st = .free ∧ t.core.task = none ∧
      t.launch k.serial = some x ∧ x.retired = l.retired + 1 ∧ x.cycles = l.cycles + s.core.cyc ∧ SameMemory s t) ∧
    (l.live = [k.index] → l.back = [] → l.past ≤ l.cursor → l.f 0x60 8 = 0 →
      ∃ t, exec .taskRetire s = .next t ∧ t.core.st = .free ∧ t.core.task = none ∧ t.launches = [] ∧ SameMemory s t)) ∧
  (∀ s : State, s.core.drained = false → exec .taskRetire s = .next s) ∧
  (∀ (s : State) (v : Word) (l : Launch), s.launch (v.setWidth 32) = some l → l.phase = .accepted →
    (l.live = [] → l.bound = 0 → l.rqKept = [] → l.f 0x60 8 = 0 → ∃ t, exec (.cancel .mgmt v) s = .next t ∧
      t.launch (v.setWidth 32) = none ∧ t.core = s.core ∧ SameMemory s t) ∧
    (l.live ≠ [] → ∃ x, exec (.cancel .mgmt v) s = .next { s with cancels := s.cancels ++ [x] } ∧
      x.serial = v.setWidth 32) ∧
    (l.parent ≠ none → exec (.cancel .hp0 v) s = .next s ∧ exec (.cancel .hp1 v) s = .next s) ∧
    (l.queue.toNat < 32 → exec (.cancel .hp1 v) s = .next s) ∧
    (32 ≤ l.queue.toNat → exec (.cancel .hp0 v) s = .next s)) ∧
  ∀ (s : State) (n : BitVec 32) (l : Launch) (k : Task), s.others = [] → s.slots = [] → s.core.task = some k →
    k.serial = n → s.core.st = .active → s.core.staged = none → s.handoffs = [] → s.launch n = some l → l.live ≠ [] → ∃ t,
      exec (.cancelAtDie (s.core.id / 80) n) s = .next t ∧ t.core.kill = some 0x01 ∧ t.core.r = s.core.r ∧ SameMemory s t

/-! Captures, page-fault responses, invalidation and events (11, 12). -/

/-- R312, R313, R315 to R319, R327: PREEMPT and SWITCH take a free slot for a running task, or are refused; at a boundary
the task is halted; its context is saved and its core freed; RESUME makes it bindable; a restore puts it back, and its
first resumed issue moves FBASE on. That a slot whose lines have been written since its save is refused as BADSLOT is the
model's choice (log entry 34). -/
def Obligations.Captures : Prop :=
  (∀ (s : State) (v : Word) (k : Task) (l : Launch) (a : Nat) (as : List Nat), s.others = [] → v.getLsbD 2 = false →
    s.reg Key.preqa = BitVec.ofNat 64 (k.serial.toNat * 2 ^ 32 + k.index) → k.index < 2 ^ 32 → s.core.task = some k →
    s.core.st = .active → s.core.capReq = none → s.core.staged = none → s.launch k.serial = some l →
    l.gangLevel = none → l.live = [k.index] → s.freeSlots = a :: as →
    (v.toNat % 4 = 1 → ∃ t, exec (.preempt v) s = .next t ∧ t.core.capReq = some (.preempt, a) ∧
      t.core.r = s.core.r ∧ SameMemory s t) ∧
    (v.toNat % 4 = 2 → ∃ t, exec (.switch v) s = .next t ∧ t.core.capReq = some (.switch, a) ∧
      t.core.r = s.core.r ∧ SameMemory s t)) ∧
  (∀ (s : State) (v : Word), s.reg Key.evbase = 0 → s.launches = [] → v.toNat % 4 = 1 →
    ∃ t e, exec (.preempt v) s = .next t ∧ t.held = s.held ++ [e] ∧ e.kind = 4 ∧ e.status = 1 ∧ t.core = s.core) ∧
  (∀ (s : State) (n : Nat),
    (s.core.capReq = some (.preempt, n) ∨ s.core.capReq = some (.switch, n)) → s.core.st = .active →
    s.core.staged = none → s.core.lands = [] → s.core.remotes = [] → s.core.mq = [] →
    ∃ t, exec .capture s = .next t ∧ t.core.st = .captured ∧ t.core.haltMcc = s.mcc ∧ t.core.pc = s.core.pc ∧
      t.core.r.s = s.core.r.s ∧ t.core.r.v = s.core.r.v ∧ SameMemory s t) ∧
  (∀ (s : State) (n : Nat) (k : Task), s.core.capReq = some (.switch, n) → s.core.task = some k →
    s.core.st = .captured → s.core.cq = [] → s.core.kill = none → s.core.lands = [] → s.core.spawns = [] →
    s.core.wordSigs = [] → (∀ p ∈ s.core.stores, p.holds = []) → s.reg Key.rqbase = 0 → s.reg Key.evbase = 0 →
    ∃ t x e, exec .captureComplete s = .next t ∧ t.core.st = .free ∧ t.core.task = none ∧
      Sparse.find t.slots n = some x ∧ x.kind = .switch ∧ x.ready = true ∧ x.core.r.s = s.core.r.s ∧
      x.core.pc = s.core.pc ∧ x.core.task = some k ∧ t.held = s.held ++ [e] ∧ e.kind = 3 ∧ e.slot = n ∧ SameMemory s t) ∧
  (∀ (s : State) (v : Word) (n : Nat), n = (v.extractLsb' 12 12).toNat → v.toNat % 4 = 3 →
    (∀ x, Sparse.find s.slots n = some x → x.kind = .switch → x.sheet = false → x.asked = false →
      (s.slotIntact n = true →
        exec (.resume v) s = .next { s with slots := Sparse.set s.slots n { x with asked := true } }) ∧
      (s.slotIntact n = false → s.reg Key.evbase = 0 → ∃ t e, exec (.resume v) s = .next t ∧ t.held = s.held ++ [e] ∧
        e.kind = 4 ∧ e.status = 5 ∧ t.slots = s.slots)) ∧
    (Sparse.find s.slots n = none → s.reg Key.evbase = 0 → ∃ t e, exec (.resume v) s = .next t ∧
      t.held = s.held ++ [e] ∧ e.kind = 4 ∧ e.status = 1 ∧ t.slots = s.slots)) ∧
  (∀ (s : State) (m0 : Word), s.core.resumeM0 = some m0 → ∃ d,
    16 * d < (s.mcc - m0).toNat + 16 ∧ (s.mcc - m0).toNat ≤ 16 * d ∧
    s.resumeFbase.core.r = { s.core.r with fbase := s.core.r.fbase + BitVec.ofNat 64 (16 * d) } ∧
    s.resumeFbase.core.resumeM0 = none) ∧
  ∀ (s : State) (n : Nat) (x : Saved), s.core.restoring = some n → Sparse.find s.slots n = some x → s.core.lands = [] →
    s.core.remotes = [] → s.core.reissue = [] → s.landMarks = [] → s.core.haltDrain = false → x.sheet = false →
    s.reg Key.rqbase = 0 → s.core.id < 640 → s.core.resumeM0 = none → ∃ t, exec (.contextRestore n) s = .next t ∧ t.core.st = .active ∧
      t.core.restoring = none ∧ t.core.resumeM0 = some x.mcc ∧ t.core.r.fbase = s.core.r.fbase ∧
      t.core.r.taskid.extractLsb' 32 16 = BitVec.ofNat 16 s.core.id ∧ t.core.r.fstat.getLsbD 3 = true ∧
      t.core.r.s = s.core.r.s ∧ t.core.pc = s.core.pc ∧ SameMemory s t

/-- R328, R329, R327: RETRY lets a held bundle or copy go on; after FAIL the next boundary ends the task with
ACCESS_VIOLATION, detail 7; an invalidation takes the cached leaves of its range away, and clears BUSY once no access that
they translated is outstanding; a new base or consumer index lets held events
into the ring. -/
def Obligations.Responses : Prop :=
  (∀ (s : State) (v : Word) (h : PageHold), (v.extractLsb' 0 10).toNat = s.core.id → v.getLsbD 10 = false →
    s.core.pf = some h →
    (v.toNat / 2048 % 4 = 1 → exec (.retry v) s = .next (s.onCore fun c => { c with pf := none })) ∧
    (v.toNat / 2048 % 4 = 2 →
      exec (.fail v) s = .next (s.onCore fun c => { c with pf := some { h with failed := true } }))) ∧
  (∀ (s : State) (h : PageHold), s.core.pf = some h → h.failed = true → s.core.kill = none → s.core.pend = [] →
    s.core.reissue = [] → s.mgmt = false → ∃ t, exec .trapDelivery s = .next t ∧ t.core.st = .draining ∧ t.core.r.trc[0] = 0x0704 ∧
      t.core.r.trc[3] = h.va ∧ t.core.r.trc[2] = s.core.pc ∧ t.core.pf = none ∧ SameMemory s t) ∧
  (∀ (s : State) (v : Word) (e : CopyEntry) (va : Word) (d : BitVec 8), (v.extractLsb' 0 10).toNat = s.core.id →
    v.getLsbD 10 = true → s.core.cq = [e] → e.phase = .paged va d →
    (v.toNat / 2048 % 4 = 1 → exec (.retry v) s =
      .next (s.onCore fun c => { c with cq := [{ e with phase := .flying 0 }] })) ∧
    (v.toNat / 2048 % 4 = 2 → s.core.st = .active → ∃ t x, exec (.fail v) s = .next t ∧
      t.core.cq = [{ e with phase := .faulted x }] ∧ x.cause = 0x0D ∧ x.addr = va ∧ t.core.r = s.core.r ∧
      SameMemory s t)) ∧
  (∀ (s : State) (v : Word),
    (s.inval = none → ∃ t n, exec (.tlbInvalidate v) s = .next t ∧ t.inval = some n ∧ t.rfld Key.tlbinvb 33 1 = 1 ∧
      (∀ e ∈ t.core.utlb ++ t.core.ctlb ++ t.dtlb.map (·.2), t.inRange e = false) ∧ t.core.r = s.core.r ∧
        SameMemory s t) ∧
    (s.inval ≠ none → exec (.tlbInvalidate v) s = .next s) ∧
    ((∃ c ∈ s.cores ++ s.slots.map (fun p => p.2.core), s.invalAwaits c = true) → exec .invalidationComplete s = .next s) ∧
    (s.inval ≠ none → (∀ c ∈ s.cores ++ s.slots.map (fun p => p.2.core), s.invalAwaits c = false) → s.reg Key.evbase = 0 →
      ∃ t e, exec .invalidationComplete s = .next t ∧ t.inval = none ∧
      t.core.utlb = s.core.utlb.filter (fun x => !s.inRange x) ∧
      (∀ p ∈ t.pins, s.invalHits p.2.context p.2.va 64 = false) ∧ t.rfld Key.tlbinvb 33 1 = 0 ∧
        t.held = s.held ++ [e] ∧ e.kind = 5 ∧
      t.core.r = s.core.r ∧ SameMemory s t)) ∧
  ∀ (s : State) (v : Word),
    (s.held = [] → exec (.evbaseWrite v) s = .next (s.setReg Key.evbase (v &&& 0x000FFFFFFFFFFFE0)) ∧
      exec (.evconsWrite v) s = .next (s.setReg Key.evcons (v &&& 0xFFFFFFFF))) ∧
    ∀ e a, s.held = [e] → s.reg Key.evprod = s.reg Key.evcons → v = BitVec.ofNat 64 a → a % 32 = 0 → 0 < a →
      s.rfld Key.evctl 0 5 = 0 → a + 32 ≤ 0x8000000000 → s.badLine a 32 0 = none → s.canonical = true →
      s.rfld Key.evprod 0 32 < 4294967295 → ∃ t, exec (.evbaseWrite v) s = .next t ∧ t.held = [] ∧
        Stored s t a e.bytes ∧ t.rfld Key.evprod 0 32 = s.rfld Key.evprod 0 32 + 1 ∧
        (t.reg Key.mipend).getLsbD 7 = true ∧ t.core.r = s.core.r

/-! The machine (00, 02, 09, 13). -/

/-- The boundary has nothing to do but the next bundle: no capture, hold, KILL, pending cause, exhausted budget or
interrupt, and the context may issue (R45, R306). -/
def Sys2Proof.Claims.Calm (s : State) : Prop :=
  s.core.capReq = none ∧ s.core.kill = none ∧ s.core.pend = [] ∧ s.core.pf = none ∧ s.mustHold s.core = false ∧
  s.canIssue = true ∧
  (s.mgmt = true ∨ s.core.r.tbudget ≠ 0) ∧ (s.mgmt = false ∨ s.core.accept = false ∨ s.irq = none)

/-- The row of the table that a due item stands for: what time does is a row with its operands, the part of a boot with the
reset's. -/
def Sys2Proof.Claims.IsRow (boot : Option ResetPins) (d : Due) (i : Instr) : Prop :=
  match d with
  | .dataArrival id => i = .dataArrival id false
  | .hibernatingTimeout core id => i = .hibernatingTimeout core id
  | .retransmitTimeout core id => i = .retransmitTimeout core id
  | .fenceComplete id => i = .fenceComplete id
  | .fenceTimeout id => i = .fenceTimeout id
  | .storeAck id => i = .storeAck id
  | .fifoWordTransfer core q => i = .fifoWordTransfer core q.toNat .out
  | .launchRecordFetch q => i = .launchRecordFetch q
  | .schedulerSelection die => i = .schedulerSelection die
  | .launchAcceptance src => i = .launchAcceptance src
  | .taskBinding h => i = .taskBinding h
  | .cancelAtDie die serial => i = .cancelAtDie die serial
  | .spillMove serial => i = .spillMove serial
  | .reservedEntryGrant serial => i = .reservedEntryGrant serial
  | .childPreemptTimeout serial => i = .childPreemptTimeout serial
  | .superstepRelease key => i = .superstepRelease key
  | .enlargerWordRead id => i = .enlargerWordRead id
  | .enlargerDelivery id => i = .enlargerDelivery id
  | .invalidationComplete => i = .invalidationComplete
  | .probeTimeout k => i = .probeTimeout k
  | .proofProbe k => i = .proofProbe k
  | .clockPauseEnd c => i = .clockPauseEnd c
  | .switchPoint c => i = .switchPoint c
  | .capture => i = .capture
  | .safelightHold => i = .safelightHold
  | .trapDelivery => i = .trapDelivery
  | .budgetOverrun => i = .budgetOverrun
  | .throttleApply c => i = .throttleApply c
  | .clusterRetire v => i = .clusterRetire v
  | .limiterFallCheck => i = .limiterFallCheck
  | .limiterRiseCheck => i = .limiterRiseCheck
  | .loupeWindowEnd => i = .loupeWindowEnd
  | .scrubRead line => i = .scrubRead line
  | .scrubWriteback => i = .scrubWriteback
  | .collectiveRejoin n => i = .collectiveRejoin n .timeUp
  | .moduleReset part => ∃ p, boot = some p ∧ i = .moduleReset ⟨p, part⟩
  | .tripOverheatWarning n => i = .tripOverheatWarning n
  | .contactSheetWrite => i = .contactSheetWrite
  | .fixerChunk => i = .fixerChunk
  | .fixerDrain => i = .fixerDrain
  | .arrayWindowSwitch j => i = .arrayWindowSwitch j
  | .contextRestore n => i = .contextRestore n
  | .barrierReleaseDelivery => i = .barrierReleaseDelivery
  | .sfuStart id => i = .sfuStart id
  | .sfuResult id => i = .sfuResult id
  | .landing id => i = .landing id
  | .pageWalk va kind => i = .pageWalk va kind
  | .ownerTagCheck gs store => i = .ownerTagCheck gs store
  | .freezeEnd => i = .freezeEnd
  | .waitSatisfied => i = .waitSatisfied
  | .firstIssue => i = .firstIssue
  | .preloadComplete => i = .preloadComplete
  | .wfiWake => i = .wfiWake
  | .taskRetire => i = .taskRetire
  | .captureComplete => i = .captureComplete
  | .spawnRecordRead => i = .spawnRecordRead

/-- R8, R45, R47, R54, R57, R137: where the fetched words hold the one instruction i, in slot k, a step of the issue phase
is exec of i, with the registers at issue as its sources, then the move of PC, and what the scratchpad's ports move for the
lower ranks; an input and what is due, for the module
or on a core, are exec of their rows; a word in slot k of a bundle is the one instruction of that bundle. That inputs act at
the start of a tick is the model's choice (log entry 10), and so are the mark of an input without IDE, which R376 turns away
(log entry 82), and the wait of a host's access, a window write's for the rows that find no port among them (log entry 107). -/
def Obligations.StepRunsInstruction : Prop :=
  (∀ (s t w u : State) (i : Instr) (k : Nat) (bs : List Byte), s.halted = false → s.due = [] → s.phase = .issue →
    t = s.tickCtr → Calm t → t.fetch = .ok bs → t.noteFetch.judgeWords (bundleWords bs) = none →
    slotsOf (bundleWords bs) = [(k, i)] → w = t.noteFetch.resumeFbase.issueState →
    exec i { w with slot := k } = .next u → w.crowded [(k, i, u)] = false →
    (u.core.note.stops = false →
      step s = .next { (u.commitBundle w.core.iss.lc).onCore Core.servePorts with phase := .copy }) ∧
    (u.core.note = .trap false →
      step s = .next { (t.noteFetch.keepM0 (w.untoken u)).onCore Core.servePorts with phase := .copy })) ∧
  (∀ (k w : Nat) (i : Instr), k < 8 → 0 < w → w < 2 ^ 32 → decodeWord (slotCls k) w = some i →
    slotsOf (bundleWords (bundleBytes k w)) = [(k, i)]) ∧
  (∀ (s v : State) (x : Input) (l : List Input), s.halted = false → s.due = [] → s.phase = .tick → s.inputs = x :: l →
    v = { s.tickCtr with inputs := l } →
    ((∀ p, x.bare = some p → s.tickCtr.ideNeeded p = false) →
      (hostRow x.row = true → s.landWait ≠ [] → step s = .next { v with landWait := s.landWait ++ [x] }) ∧
      (hostRow x.row = false ∨ s.landWait = [] → (∀ port w off data, x.row ≠ .landingWindowWrite port w off data) →
        (s.supply.hib = true → barZero x.row = true → step s = .next v) ∧
        (s.supply.hib = false ∨ barZero x.row = false → step s = exec x.row v)) ∧
      ∀ (port : BitVec 1) (w : BitVec 6) (off o : BitVec 16) (data d : List Byte), s.landWait = [] →
        x.row = .landingWindowWrite port w off data → o = off + BitVec.ofNat 16 x.done → d = data.drop x.done →
        (v.windowOk port w o d = false ∨ v.windowRows w o d.length = none →
          step s = exec (.landingWindowWrite port w o d) v) ∧
        ∀ a b c k, v.windowOk port w o d = true → v.windowRows w o d.length = some (a, b, c, k) →
          ((rowsTouched o.toNat d.length).length ≤ k → step s = exec (.landingWindowWrite port w o d) v) ∧
          (k = 0 → rowsTouched o.toNat d.length ≠ [] → step s = .next { v with landWait := [x] }) ∧
          ∀ n, 0 < k → k < (rowsTouched o.toNat d.length).length → n = 64 * (o.toNat / 64 + k) - o.toNat →
            step s = exec (.landingWindowWrite port w o (d.take n))
              { v with landWait := [{ x with done := x.done + n }] }) ∧
    ∀ p, x.bare = some p → s.tickCtr.ideNeeded p = true → step s = .next (v.turnAway p x.row)) ∧
  (∀ (s v : State) (d : Due) (l : List (Option Nat × Due)), s.halted = false →
    ((s.due = (none, d) :: l ∧ v = { s.tickCtr with due := l }) ∨
      ∃ n, s.due = (some n, d) :: l ∧ v = ({ s.tickCtr with due := l } : State).focus n) →
    (∀ i, IsRow v.boot d i → step s = exec i v) ∧ ((∀ i, ¬IsRow v.boot d i) → step s = .next v)) ∧
  (∀ s : State, s.halted = false → s.due = [] → s.phase = .copy →
    (s.tickCtr.copyStarts = true → s.tickCtr.copyEnds = false ∨ (s.tickCtr.core.firstCopy.any s.tickCtr.startsBefore) = true →
      step s = exec .copyEntryStart s.tickCtr) ∧
    (s.tickCtr.copyEnds = true → s.tickCtr.copyStarts = false ∨ (s.tickCtr.core.firstCopy.any s.tickCtr.startsBefore) = false →
      step s = exec .copyComplete s.tickCtr)) ∧
  ∀ s : State, s.halted = true →
    (∀ (x : ResetEvent) (b : Option (BitVec 1)) (l : List Input),
      s.inputs = { row := .moduleReset x, bare := b } :: l →
      step s = exec (.moduleReset x) { s with inputs := l }) ∧
    (s.inputs = [] → s.supply.down = true → s.supply.lost = false →
      step s = exec (.moduleReset ⟨s.restartPins, .reset⟩) s)

/-- R54, R58, R62, R63, R65, R67, R69, R71: words written from the encodings, and what they decode to; an unassigned OP
and a nonzero reserved field decode to nothing (R75). -/
def Obligations.DecodedWords : Prop :=
  decodeWord .s 0x00043105 = some (.add { h := { a := false, g := 0 }, rd := 3, ra := 4, rb := 5 }) ∧
  decodeWord .s 0x00A45123 = some (.movk { h := { a := false, g := 0 }, rd := 5, imm := 0x123 }) ∧
  decodeWord .s 0x01350C01 = some (.loopi { h := { a := false, g := 0 }, lc := 1, imm := 3, len := 1 }) ∧
  decodeWord .s 0x8723FFFF = some (.br { h := { a := true, g := 3 }, disp := 0x3FFFF }) ∧
  decodeWord .v 0x01909422 = some (.vadd { a := false, w := 2, t := 2, m := 1, vd := 5, va := 1, vb := 2 }) ∧
  decodeWord .x 0x01001443 = some (.mma
    { h := { a := false, g := 0 }, tile := 2, sd := 34, ss := 0, sa := false, sb := true, z := true }) ∧
  decodeWord .m 0x00107212 = some (.ld64 { h := { a := false, g := 0 }, rd := 7, ra := 8, l := 0x12 }) ∧
  decodeWord .m 0x00281F3F = some (.st32 { h := { a := false, g := 0 }, src := 1, ra := 60, imm := 63 }) ∧
  decodeWord .m 0x0081A000 = some (.fence { h := { a := false, g := 0 }, scope := 3, kind := 2 }) ∧
  decodeWord .s 0x00680000 = none ∧ decodeWord .s 0x00541041 = none ∧ decodeWord .x 0x00200001 = none ∧
  decodeWord .m 0x00300000 = none

/-- R54, R62 to R70, R75: what the encoder writes for a well-formed instruction, the decoder reads back, with every field
as it was; a word that a class decodes is the encoding of the instruction read, and that instruction is well formed. -/
def Obligations.DecodeOfEncode : Prop :=
  ∀ (i : Instr) (c : Cls), i.cls = some c →
    (i.wf = true → encode i < 2 ^ 32 ∧ decodeWord c (encode i) = some i) ∧
    ∀ w, w < 2 ^ 32 → decodeWord c w = some i → encode i = w ∧ i.wf = true

/-- R29 to R44, R285, R386, R408, R413, R417, R426: after reset memory is in its canonical form and reads 0 (the model's
choice, log entry 2), no task is bound, no launch stands, MCC is 0, and the registers hold what their maps give. -/
def Obligations.ResetState : Prop :=
  State.reset.canonical = true ∧ (∀ a, memGet State.reset.mem a = 0) ∧ State.reset.core.st = .free ∧
  State.reset.core.task = none ∧ State.reset.launches = [] ∧ State.reset.mcc = 0 ∧ State.reset.halted = false ∧
  State.reset.core.r.nbv = 3 ∧ State.reset.core.r.detm = 0 ∧ State.reset.core.r.rsig = 0 ∧
  State.reset.core.r.ftsel = 0 ∧ State.reset.core.r.vrm = 0 ∧ State.reset.core.r.tkceil = 0xFFFFFFFF ∧
  State.reset.core.r.abar = 0 ∧ State.reset.core.r.thnd = 0 ∧ State.reset.core.r.fstat = 0 ∧
  State.reset.core.r.tbudget = 0xFFFFFFFFFFFFFFFF ∧ State.reset.rfld Key.fxthr 0 32 = 60000 ∧
  State.reset.reg Key.mien = 0 ∧ State.reset.reg Key.mipend = 0 ∧ State.reset.reg Key.evbase = 0 ∧
  State.reset.rfld Key.evctl 0 5 = 5 ∧ State.reset.rfld Key.csctl 16 5 = 16 ∧ State.reset.rfld Key.shctl 0 1 = 0

/-- From every state whose memory is in its canonical form, every step of the machine leaves it in that form. -/
def Obligations.StepKeepsMemoryCanonical : Prop :=
  ∀ s t : State, s.canonical = true → step s = .next t → t.canonical = true

/-- R5, R8, R53, R387, R426: every row of the opcode table answers with a next state in every state; while a clock runs the
machine goes on; with no clock running only a module reset, a readout, and, after a hibernation, the restart and the return of
the supply are steps, and there is no other stop. -/
def Obligations.EveryInstructionAnswers : Prop :=
  (∀ (i : Instr) (s : State), ∃ t, exec i s = .next t) ∧
  (∀ s : State, s.clocked = true → ∃ t, step s = .next t) ∧
  (∀ s : State, s.halted = true → s.inputs = [] →
    (step s = .fault .clocksStopped ↔ s.supply.down = false ∨ s.supply.lost = true)) ∧
  ∀ (i : Input) (s : State), s.halted = true → s.inputs = [i] →
    (step s = .fault .clocksStopped ↔ (∀ x, i.row ≠ .moduleReset x) ∧ (∀ a, i.row ≠ .readout a) ∧
      (s.supply.down = false ∨ (s.supply.lost = true ∧ i.row ≠ .safelightExit)))

namespace Sys2Proof.Claims

/-- A word that writes at most s[rd] leaves every other register and everything else alone. -/
def keepsS {α : Type} (mk : α → Instr) (rd : α → BitVec 6) : Prop :=
  ∀ (o : α) (s t : State), exec (mk o) s = .next t → Quiet s t ∧ RegsAre t (s.core.r.setS (rd o) (t.core.r.getS (rd o)))

/-- A word that writes at most p[pd]. -/
def keepsP {α : Type} (mk : α → Instr) (pd : α → BitVec 6) : Prop :=
  ∀ (o : α) (s t : State), (pd o).toNat < 48 → exec (mk o) s = .next t →
    Quiet s t ∧ RegsAre t (s.core.r.setP (pd o) (t.core.r.getP (pd o)))

/-- A V-class word writes no register at its issue: it leaves one landing, and everything else alone. -/
def lands (mk : VOp → Instr) : Prop :=
  ∀ (o : VOp) (s t : State), exec (mk o) s = .next t →
    Quiet s t ∧ RegsAre t s.core.r ∧ ∃ l, t.core.lands = s.core.lands ++ [l]

/-- R19, R57, R129 to R136, R149: the scalar words change their destination alone. -/
def ScalarFrames : Prop :=
  (∀ mk ∈ [Instr.add, .sub, .mul, .mulh, .mulhu, .divs, .divu, .remu, .and, .or, .xor, .andn, .shl, .shr, .sar, .rol,
      .min, .max, .minn, .maxn, .sel, .bext, .bins], keepsS mk SROp.rd) ∧
  (∀ mk ∈ [Instr.clz, .popc], keepsS mk SR2Op.rd) ∧
  (∀ mk ∈ [Instr.addi, .shli, .shri, .sari, .andi, .ori, .xori, .roli], keepsS mk SIOp.rd) ∧
  (∀ mk ∈ [Instr.movi, .movk, .addk], keepsS mk SKOp.rd) ∧
  (∀ mk ∈ [Instr.pget, .rdcyc, .rdmcc, .rdptp], keepsS mk RdOp.rd) ∧
  (∀ mk ∈ [Instr.cmpeq, .cmpne, .cmplt, .cmple, .cmpltn, .cmplen], keepsP mk CmpOp.pd) ∧
  (∀ mk ∈ [Instr.cmpeqi, .cmpnei, .cmplti, .cmpgei, .cmpltni, .cmpgeni], keepsP mk CmpIOp.pd) ∧
  ∀ mk ∈ [Instr.pand, .por, .pxor, .pandn], keepsP mk PredOp.pd

/-- R155, R156: the vector words. -/
def VectorFrames : Prop :=
  ∀ mk ∈ [Instr.vadd, .vsub, .vadds, .vaddsn, .vsubs, .vsubsn, .vmul, .vmulh, .vmac, .vmin, .vmax, .vminn, .vmaxn, .vabsd,
      .vavgn, .vand, .vor, .vxor, .vandn, .vshl, .vshr, .vsar, .vshli, .vshri, .vsari, .vclz, .vpopc, .vfadd, .vfsub,
      .vfmul, .vfma, .vfnma, .vfmin, .vfmax, .vfabs, .vfneg, .vcmpeq, .vcmpne, .vcmplt, .vcmple, .vcmpltn, .vcmplen,
      .vfcmpeq, .vfcmplt, .vfcmple, .vfcmpun, .mand, .mor, .mxor, .mandn, .many, .mall, .vpermb, .vpermw, .vrmrg, .vrev,
      .vzip, .vunzip, .vbcs, .vxs, .vmovi, .vmov, .vsel, .vcvt, .vcvtsr, .vnarrow, .vwiden, .vrng, .vredadd, .vredmax,
      .vredmin, .vfredadd, .vfredmax], lands mk

/-- R36, R60, R233: an arrival changes no register but the barrier record, FSTAT.ABARDROP where ABAR is not enabled, and
what waits at the boundary; an enabled one arrives at the barrier ABAR names. -/
def Arrivals : Prop :=
  (∀ (s : State) (a : Bool), Quiet s (s.arriveNow a) ∧ RegsAre (s.arriveNow a) s.core.r ∧
    (s.arriveNow a).core.lands = s.core.lands) ∧
  (∀ s : State, s.arriveNow false = s) ∧
  (∀ s : State, s.core.iss.abar.getLsbD 7 = false → (s.arriveNow true).core.r.fstat = s.core.r.fstat ||| 2) ∧
  ∀ (s : State) (k : Task) (x : Barrier) (b : BitVec 5), s.core.iss.abar.getLsbD 7 = true → s.core.task = some k →
    b = s.core.iss.abar.setWidth 5 → s.barrier b = some x → x.broken = false →
    (s.arriveNow true).core.arr[b.toNat] = some x.p ∧
    ∃ y, (s.arriveNow true).barrier b = some y ∧
      (x.arrived + 1 ≠ x.e → y.arrived = x.arrived + 1 ∧ y.p = x.p) ∧
      (x.arrived + 1 = x.e → y.arrived = 0 ∧ y.p = x.p + 1)

end Sys2Proof.Claims

/-- What the scalar and vector words, and the arrivals of any word, leave unchanged. -/
def Obligations.Frames : Prop := ScalarFrames ∧ VectorFrames ∧ Arrivals

/-! Numbers (04): the formats and the functions over exact values that the vector statements name. -/

/-- An encoding of sign `neg` whose magnitude is v. -/
def Sys2Proof.Claims.Encodes (f : Fmt) (y : Nat) (neg : Bool) (v : ℚ) : Prop :=
  y < 2 ^ f.width ∧ ∃ (m : Nat) (e : Int), f.dec y = .fin neg m e ∧ (m : ℚ) * 2 ^ e = v

/-- One row of R97's table: width, exponent and fraction bits, bias, the largest finite value and its encoding, the
infinity's, which a format without one gives as its NaN's, and the canonical NaN's. -/
structure Sys2Proof.Claims.Row97 where
  f : Fmt
  width : Nat
  eb : Nat
  fb : Nat
  bias : Nat
  largest : ℚ
  maxE : Nat
  infE : Nat
  nanE : Nat

/-- The table of R97. -/
def Sys2Proof.Claims.table97 : List Row97 :=
  [⟨fp32, 32, 8, 23, 127, (2 - 2 ^ (-23 : Int)) * 2 ^ 127, 0x7F7FFFFF, 0x7F800000, 0x7FC00000⟩,
   ⟨bf16, 16, 8, 7, 127, (2 - 2 ^ (-7 : Int)) * 2 ^ 127, 0x7F7F, 0x7F80, 0x7FC0⟩,
   ⟨fp16, 16, 5, 10, 15, 65504, 0x7BFF, 0x7C00, 0x7E00⟩,
   ⟨fe4m3, 8, 4, 3, 7, 448, 0x7E, 0x7F, 0x7F⟩,
   ⟨fe5m2, 8, 5, 2, 15, 57344, 0x7B, 0x7C, 0x7E⟩]

/-- An encoding with a sign. -/
def Sys2Proof.Claims.Row97.signed (r : Row97) (neg : Bool) (x : Nat) : Nat := if neg then 2 ^ (r.width - 1) + x else x

/-- What an overflow gives (R104): the largest finite value under saturate and where the mode rounds toward it, else an
infinity, or the canonical NaN of a format without one. -/
def Sys2Proof.Claims.Row97.over (r : Row97) (mode : BitVec 2) (sat neg : Bool) : Nat :=
  if sat = true ∨ mode = 1 ∨ (mode = 2 ∧ neg = true) ∨ (mode = 3 ∧ neg = false) then r.signed neg r.maxE
  else if r.infE = r.nanE then r.nanE else r.signed neg r.infE

/-- The result for a magnitude that has been rounded to n × 2^q (R102 to R104). -/
def Sys2Proof.Claims.Row97.Gives (r : Row97) (mode : BitVec 2) (sat flush neg : Bool) (v : ℚ) (y : Nat) : Prop :=
  (r.largest < v → y = r.over mode sat neg) ∧
  (v ≤ r.largest → flush = true → v < 2 ^ (1 - (r.bias : Int)) → y = r.signed neg 0) ∧
  (v ≤ r.largest → (flush = false ∨ 2 ^ (1 - (r.bias : Int)) ≤ v) → Encodes r.f y neg v)

/-- The last place at a magnitude in [2^k, 2^(k+1)): where results are flushed, as if the exponent range were unbounded
(R103). -/
def Sys2Proof.Claims.Row97.place (r : Row97) (flush : Bool) (k : Int) : Int :=
  if flush then k - r.fb else max k (1 - (r.bias : Int)) - r.fb

/-- R97: what each encoding of each format is. -/
def Sys2Proof.Claims.FormatTable : Prop :=
  ∀ r ∈ table97, ∀ x, x < 2 ^ r.width → ∀ (neg : Bool) (a ex fr : Nat), x = r.signed neg a → a < 2 ^ (r.width - 1) →
    ex = a / 2 ^ r.fb → fr = a % 2 ^ r.fb →
    r.f.width = r.width ∧
    (ex = 0 → Encodes r.f x neg (fr * 2 ^ (1 - (r.bias : Int) - r.fb))) ∧
    (0 < ex → a ≤ r.maxE → Encodes r.f x neg ((1 + fr / 2 ^ r.fb) * 2 ^ ((ex : Int) - r.bias))) ∧
    (a = r.infE → r.infE ≠ r.nanE → r.f.dec x = .inf neg) ∧
    (r.maxE < a → (a ≠ r.infE ∨ r.infE = r.nanE) → r.f.dec x = .nan)

/-- R98, R102 to R104: an exact value is rounded once to its last place under the mode; the result overflows, is flushed, or
is that value; NaN, the infinities and zero have their own encodings. -/
def Sys2Proof.Claims.Rounding : Prop :=
  ∀ r ∈ table97, ∀ (mode : BitVec 2) (sat flush neg : Bool),
    r.f.round mode sat flush .nan = r.nanE ∧
    r.f.round mode sat flush (.inf neg) =
      (if r.infE ≠ r.nanE then r.signed neg r.infE else if sat then r.signed neg r.maxE else r.nanE) ∧
    ∀ (m : Nat) (e : Int),
      (m = 0 → r.f.round mode sat flush (.fin neg m e) = r.signed neg 0) ∧
      (m ≠ 0 → ∃ (k q : Int) (n : Nat), 2 ^ k ≤ (m : ℚ) * 2 ^ e ∧ (m : ℚ) * 2 ^ e < 2 ^ (k + 1) ∧ q = r.place flush k ∧
        Rounds mode neg n (m * 2 ^ (e - q)) ∧
        r.Gives mode sat flush neg (n * 2 ^ q) (r.f.round mode sat flush (.fin neg m e)))

/-- R102, R104, R105, R159: sums, products and the fused operation are exact before the one rounding; an exact zero sum of
opposite signs takes its sign from the mode; the products of an infinity and zero, and the sums of opposite infinities, are
NaNs. A subnormal operand is flushed where the format or NBV says so. -/
def Sys2Proof.Claims.SumsAndProducts : Prop :=
  (∀ (mode : BitVec 2) (s t u : Bool) (m n o : Nat) (e g h : Int),
    (∃ (r : Bool) (k : Nat) (i : Int), Machine.Num.add mode (.fin s m e) (.fin t n g) = .fin r k i ∧
      val r k i = val s m e + val t n g ∧
      (val s m e + val t n g = 0 → r = if s = t then s else decide (mode = 3))) ∧
    (∃ (r : Bool) (k : Nat) (i : Int), Machine.Num.mul (.fin s m e) (.fin t n g) = .fin r k i ∧
      val r k i = val s m e * val t n g ∧ r = (s != t)) ∧
    (∃ (r : Bool) (k : Nat) (i : Int), Machine.Num.fma mode (.fin s m e) (.fin t n g) (.fin u o h) = .fin r k i ∧
      val r k i = val s m e * val t n g + val u o h) ∧
    Machine.Num.add mode (.inf s) (.inf t) = (if s = t then .inf s else .nan) ∧
    Machine.Num.add mode (.inf s) (.fin t n g) = .inf s ∧ Machine.Num.add mode (.fin t n g) (.inf s) = .inf s ∧
    Machine.Num.mul (.inf s) (.inf t) = .inf (s != t) ∧
    Machine.Num.mul (.inf s) (.fin t n g) = (if n = 0 then .nan else .inf (s != t)) ∧
    Machine.Num.mul (.fin t n g) (.inf s) = (if n = 0 then .nan else .inf (t != s))) ∧
  (∀ (mode : BitVec 2) (x : Machine.Num), Machine.Num.add mode .nan x = .nan ∧ Machine.Num.add mode x .nan = .nan ∧
    Machine.Num.mul .nan x = .nan ∧ Machine.Num.mul x .nan = .nan) ∧
  ∀ r ∈ table97, ∀ (neg : Bool) (a : Nat), a < 2 ^ (r.width - 1) →
    (0 < a → a < 2 ^ r.fb → r.f.operand true (r.signed neg a) = .fin neg 0 0) ∧
    (a = 0 ∨ 2 ^ r.fb ≤ a → r.f.operand true (r.signed neg a) = r.f.dec (r.signed neg a)) ∧
    r.f.operand false (r.signed neg a) = r.f.dec (r.signed neg a)

/-- R159, R160: the order of exact values: NaN is neither below nor equal to anything, the zeros are equal, and the infinities
stand outside the finite values; the smaller and the greater of two values, with −0 below +0, and NaN where either is one. -/
def Sys2Proof.Claims.Comparisons : Prop :=
  (∀ (s t : Bool) (m n : Nat) (e g : Int),
    (Machine.Num.lt (.fin s m e) (.fin t n g) = true ↔ val s m e < val t n g) ∧
    (Machine.Num.eq (.fin s m e) (.fin t n g) = true ↔ val s m e = val t n g) ∧
    Machine.Num.lt (.inf s) (.fin t n g) = s ∧ Machine.Num.lt (.fin t n g) (.inf s) = !s ∧
    Machine.Num.eq (.inf s) (.fin t n g) = false ∧ Machine.Num.eq (.fin t n g) (.inf s) = false ∧
    Machine.Num.lt (.inf s) (.inf t) = (s && !t) ∧ Machine.Num.eq (.inf s) (.inf t) = (s == t) ∧
    minNum (.fin s 0 e) (.fin t 0 g) = .fin (s || t) 0 0 ∧ maxNum (.fin s 0 e) (.fin t 0 g) = .fin (s && t) 0 0) ∧
  (∀ x : Machine.Num, Machine.Num.lt .nan x = false ∧ Machine.Num.lt x .nan = false ∧ Machine.Num.eq .nan x = false ∧
    Machine.Num.eq x .nan = false ∧ minNum .nan x = .nan ∧ minNum x .nan = .nan ∧ maxNum .nan x = .nan ∧
    maxNum x .nan = .nan) ∧
  ∀ x y : Machine.Num,
    (x.lt y = true → minNum x y = x ∧ minNum y x = x ∧ maxNum x y = y ∧ maxNum y x = y) ∧
    (x.eq y = true → x.isZero = false →
      (minNum x y = x ∨ minNum x y = y) ∧ (maxNum x y = x ∨ maxNum x y = y))

/-- Floating vector words, compares and mask operations: R98, R102, R105, R153, R159, R160, R161. -/
def Obligations.VectorFloatsAndMasks : Prop :=
  VectorFloating ∧ Comparisons ∧ VectorComparesAndMasks

/-- The widening pairs of T codes (R107). -/
def Sys2Proof.Claims.widening : List (BitVec 3 × BitVec 3) := [(3, 5), (4, 5), (6, 3), (6, 4), (6, 5), (7, 3), (7, 4), (7, 5)]

/-- R106 to R109, R166: widening is exact; narrowing rounds the full value once under VRM and flushes; a floating value
becomes the integer it rounds to, clamped; an integer is rounded, or clamped to a narrower type. That a subnormal source of an
integer is taken at full value under every NBV is the model's reading (DEDUCED, log entry 74). -/
def Sys2Proof.Claims.Conversions : Prop :=
  ∀ (s : State) (src dst : BitVec 3) (x : Nat),
    cvtElt s src src x = x ∧
    ((src, dst) ∈ widening → x < 2 ^ (fmtT src).width →
      (∀ neg m e, (fmtT src).dec x = .fin neg m e → Encodes (fmtT dst) (cvtElt s src dst x) neg (m * 2 ^ e)) ∧
      (∀ neg, (fmtT src).dec x = .inf neg → (fmtT dst).dec (cvtElt s src dst x) = .inf neg) ∧
      ((fmtT src).dec x = .nan → cvtElt s src dst x = (fmtT dst).nanBits)) ∧
    (3 ≤ src.toNat → 3 ≤ dst.toNat → src ≠ dst → (src, dst) ∉ widening →
      cvtElt s src dst x =
        (fmtT dst).round (s.core.iss.vrm.extractLsb' 0 2) (s.core.iss.vrm.getLsbD 2) true ((fmtT src).dec x)) ∧
    (3 ≤ src.toNat → dst.toNat ≤ 2 → ∃ (w : Nat) (c : Int), w = 8 * 2 ^ dst.toNat ∧
      cvtElt s src dst x = (c % 2 ^ w).toNat ∧
      ((fmtT src).dec x = .nan → c = 0) ∧
      (∀ neg, (fmtT src).dec x = .inf neg → c = if neg then -2 ^ (w - 1) else 2 ^ (w - 1) - 1) ∧
      ∀ neg m e, (fmtT src).dec x = .fin neg m e → ∃ n : Nat,
        Rounds (s.core.iss.vrm.extractLsb' 0 2) neg n (m * 2 ^ e) ∧
        c = max (-2 ^ (w - 1)) (min (2 ^ (w - 1) - 1) (if neg then -(n : Int) else n))) ∧
    (∀ (w : Nat) (i : Int), src.toNat ≤ 2 → w = 8 * 2 ^ src.toNat → x = (i % 2 ^ w).toNat → -2 ^ (w - 1) ≤ i →
      i < 2 ^ (w - 1) →
      (3 ≤ dst.toNat → i = 0 → cvtElt s src dst x = 0) ∧
      (3 ≤ dst.toNat → i ≠ 0 → cvtElt s src dst x =
        (fmtT dst).round (s.core.iss.vrm.extractLsb' 0 2) (s.core.iss.vrm.getLsbD 2) false
          (.fin (decide (i < 0)) i.natAbs 0)) ∧
      ∀ v : Nat, dst.toNat ≤ 2 → src ≠ dst → v = 8 * 2 ^ dst.toNat →
        cvtElt s src dst x = (max (-2 ^ (v - 1)) (min (2 ^ (v - 1) - 1) i) % 2 ^ v).toNat)

/-- R111, R167: stochastic rounding adds the low bits of the random lane below the last place and truncates; overflow,
subnormal results and special inputs are as R111 lists them. -/
def Sys2Proof.Claims.StochasticRounding : Prop :=
  ∀ r ∈ table97, r.f ≠ fp32 → ∀ (nbv : BitVec 8) (sat : Bool) (x rnd : Nat),
    (op32 nbv x = .nan → stochastic r.f nbv sat x rnd = r.nanE) ∧
    (∀ neg, op32 nbv x = .inf neg → stochastic r.f nbv sat x rnd =
      if r.infE ≠ r.nanE then r.signed neg r.infE else if sat then r.signed neg r.maxE else r.nanE) ∧
    ∀ (neg : Bool) (m : Nat) (e : Int), op32 nbv x = .fin neg m e →
      (m = 0 → stochastic r.f nbv sat x rnd = r.signed neg 0) ∧
      (m ≠ 0 → ∃ (k q : Int) (n : Nat), 2 ^ k ≤ (m : ℚ) * 2 ^ e ∧ (m : ℚ) * 2 ^ e < 2 ^ (k + 1) ∧
        q = r.place false k ∧
        (n : ℚ) ≤ m * 2 ^ (e - q) + ((rnd % 2 ^ (23 - r.fb) : Nat) : ℚ) / 2 ^ (23 - r.fb) ∧
        m * 2 ^ (e - q) + ((rnd % 2 ^ (23 - r.fb) : Nat) : ℚ) / 2 ^ (23 - r.fb) < n + 1 ∧
        r.Gives 0 sat true neg (n * 2 ^ q) (stochastic r.f nbv sat x rnd))

/-- One round of R110. -/
def Sys2Proof.Claims.cchRound (p : BitVec 32 × BitVec 32) : BitVec 32 × BitVec 32 :=
  let x := (p.1 ^^^ p.2) * 0x85EBCA6B
  (x ^^^ (x >>> 13), p.2 * 0xC2B2AE35 + 0x27D4EB2F)

/-- R110, R124: CCH-4 is four rounds from the counter and the key; a fixed tree reduces neighbours level by level, an odd
last value passing on; its addition is FP32's by RNE, and its maximum gives +0 for zeros of both signs and a NaN for a NaN. -/
def Sys2Proof.Claims.HashAndTrees : Prop :=
  (∀ key ctr : BitVec 32, cch4 key ctr = (cchRound (cchRound (cchRound (cchRound (ctr, key))))).1) ∧
  (∀ (op : Nat → Nat → Nat) (d n a : Nat) (l : List Nat), tree op d n [a] = a ∧
    (2 ≤ l.length → tree op d (n + 1) l = tree op d n (treeLevel op l)) ∧
    (treeLevel op l).length = (l.length + 1) / 2 ∧
    (∀ i, 2 * i + 1 < l.length → (treeLevel op l)[i]? = some (op (l.getD (2 * i) 0) (l.getD (2 * i + 1) 0))) ∧
    (l.length % 2 = 1 → (treeLevel op l)[l.length / 2]? = l[l.length - 1]?)) ∧
  (∀ (nbv : BitVec 8) (a b : Nat), add32 nbv a b = fp32.round 0 false (nbv == 1)
    (Machine.Num.add 0 (fp32.operand (nbv == 1) a) (fp32.operand (nbv == 1) b))) ∧
  ∀ (a b : Machine.Num) (s t : Bool) (m n : Nat) (e g : Int),
    (a = .nan ∨ b = .nan → maxNum a b = .nan) ∧
    (a = .fin s m e → b = .fin t n g → (val s m e < val t n g → maxNum a b = b) ∧
      (val t n g < val s m e → maxNum a b = a) ∧
      (m = 0 → n = 0 → maxNum a b = .fin (s && t) 0 0)) ∧
    (a = .inf s → b = .fin t n g → maxNum a b = (if s then b else a) ∧ maxNum b a = if s then b else a)

/-- Formats, rounding, sums, products, conversions, stochastic rounding, CCH-4 and fixed trees against their formulas:
R97, R98, R102, R103, R104, R105, R107, R108, R109, R110, R111, R124. -/
def Obligations.ExactNumbers : Prop :=
  FormatTable ∧ Rounding ∧ SumsAndProducts ∧ Conversions ∧ StochasticRounding ∧ HashAndTrees

/-- y is, in a format, the magnitude rounded by RNE that `le` and `ge` cut off among the rational numbers: those that are at
most, and at least, it. -/
def Sys2Proof.Claims.Nearest (r : Row97) (flush neg : Bool) (le ge : ℚ → Prop) (y : Nat) : Prop :=
  ∃ (k q : Int) (n : Nat), le (2 ^ k) ∧ ¬le (2 ^ (k + 1)) ∧ q = r.place flush k ∧
    le (((n : ℚ) - 1 / 2) * 2 ^ q) ∧ ge (((n : ℚ) + 1 / 2) * 2 ^ q) ∧
    (n % 2 = 1 → ¬ge (((n : ℚ) - 1 / 2) * 2 ^ q) ∧ ¬le (((n : ℚ) + 1 / 2) * 2 ^ q)) ∧
    r.Gives 0 false flush neg (n * 2 ^ q) y

/-- The result of a special function at the operands that R173 lists: NaN, the infinities, the zeros, and the negative numbers
of which a root or a logarithm is asked. -/
def Sys2Proof.Claims.specialAt (r : Row97) (g : SpecialFn) (x : Machine.Num) : Nat → Prop := fun y =>
  match g, x with
  | _, .nan => y = r.nanE
  | .rcp, .inf s => y = r.signed s 0
  | .rsq, .inf s => y = if s then r.nanE else 0
  | .sqrt, .inf s => y = if s then r.nanE else r.infE
  | .exp2, .inf s => y = if s then 0 else r.infE
  | .log2, .inf s => y = if s then r.nanE else r.infE
  | .sint, .inf _ => y = r.nanE
  | .cost, .inf _ => y = r.nanE
  | .tanh, .inf s => Encodes r.f y s 1
  | .sigm, .inf s => if s then y = 0 else Encodes r.f y false 1
  | .gelu, .inf s => y = if s then r.signed true 0 else r.infE
  | g, .fin s m _ =>
    (m = 0 → match g with
      | .rcp => y = r.signed s r.infE
      | .rsq => y = r.signed s r.infE
      | .sqrt => y = r.signed s 0
      | .exp2 => Encodes r.f y false 1
      | .log2 => y = r.signed true r.infE
      | .sint => y = r.signed s 0
      | .cost => Encodes r.f y false 1
      | .tanh => y = r.signed s 0
      | .sigm => Encodes r.f y false (1 / 2)
      | .gelu => y = r.signed s 0) ∧
    (m ≠ 0 → s = true → (g = .rsq ∨ g = .sqrt ∨ g = .log2) → y = r.nanE)

/-- R98, R102, R172, R173: the listed special values of the ten functions; reciprocals and roots of every finite value, correctly
rounded; and the points where the others are exact: powers of two, their logarithms, and quarters of a turn. -/
def Obligations.SpecialFunctionValues : Prop :=
  ∀ r ∈ table97, r.f = fp32 ∨ r.f = bf16 ∨ r.f = fp16 → ∀ (flush : Bool) (o x : Nat), x < 2 ^ r.width →
    (∀ g, specialAt r g (r.f.operand flush x) (SpecialFn.elt g r.f flush o x)) ∧
    ∀ (s : Bool) (m : Nat) (e : Int), r.f.operand flush x = .fin s m e → m ≠ 0 →
      Nearest r flush s (fun a => a * (m * 2 ^ e) ≤ 1) (fun a => 1 ≤ a * (m * 2 ^ e)) (SpecialFn.rcp.elt r.f flush o x) ∧
      (s = false →
        Nearest r flush false (fun a => a ≤ 0 ∨ a * a * (m * 2 ^ e) ≤ 1) (fun a => 0 ≤ a ∧ 1 ≤ a * a * (m * 2 ^ e))
          (SpecialFn.rsq.elt r.f flush o x) ∧
        Nearest r flush false (fun a => a ≤ 0 ∨ a * a ≤ m * 2 ^ e) (fun a => 0 ≤ a ∧ (m : ℚ) * 2 ^ e ≤ a * a)
          (SpecialFn.sqrt.elt r.f flush o x)) ∧
      (∀ i : Int, val s m e = i →
        (1 - (r.bias : Int) ≤ i → i ≤ r.bias → Encodes r.f (SpecialFn.exp2.elt r.f flush o x) false (2 ^ i)) ∧
        SpecialFn.sint.elt r.f flush o x = r.signed s 0 ∧ Encodes r.f (SpecialFn.cost.elt r.f flush o x) false 1) ∧
      (∀ i : Int, val s m e = 2 ^ i → Encodes r.f (SpecialFn.log2.elt r.f flush o x) (decide (i < 0)) |(i : ℚ)|) ∧
      (∀ i : Int, val s m e = i + 1 / 2 →
        SpecialFn.sint.elt r.f flush o x = r.signed s 0 ∧ Encodes r.f (SpecialFn.cost.elt r.f flush o x) true 1) ∧
      ∀ i : Int, val s m e = i / 2 + 1 / 4 → SpecialFn.cost.elt r.f flush o x = 0 ∧
        Encodes r.f (SpecialFn.sint.elt r.f flush o x) (i % 2 != 0) 1
end

