-- ==== Sys2Proof/Laws/State.lean ====
section
/-! SUPPORT. What each named update of the state leaves in each field, so that no proof unfolds a record update. -/

namespace Sys2Proof.Machine

/-! State.onCore and State.onRegs change the core in focus alone. -/

@[simp] theorem State.onCore_core (s : State) (f : Core → Core) : (s.onCore f).core = f s.core := rfl
@[simp] theorem State.onCore_others (s : State) (g : Core → Core) : (s.onCore g).others = s.others := rfl
@[simp] theorem State.onCore_phase (s : State) (g : Core → Core) : (s.onCore g).phase = s.phase := rfl
@[simp] theorem State.onCore_turn (s : State) (g : Core → Core) : (s.onCore g).turn = s.turn := rfl
@[simp] theorem State.onCore_due (s : State) (g : Core → Core) : (s.onCore g).due = s.due := rfl
@[simp] theorem State.onCore_slot (s : State) (g : Core → Core) : (s.onCore g).slot = s.slot := rfl
@[simp] theorem State.onCore_ctr (s : State) (g : Core → Core) : (s.onCore g).ctr = s.ctr := rfl
@[simp] theorem State.onCore_inputs (s : State) (g : Core → Core) : (s.onCore g).inputs = s.inputs := rfl
@[simp] theorem State.onCore_mcc (s : State) (g : Core → Core) : (s.onCore g).mcc = s.mcc := rfl
@[simp] theorem State.onCore_ptp (s : State) (g : Core → Core) : (s.onCore g).ptp = s.ptp := rfl
@[simp] theorem State.onCore_ptpFrac (s : State) (g : Core → Core) : (s.onCore g).ptpFrac = s.ptpFrac := rfl
@[simp] theorem State.onCore_ptpSlew (s : State) (g : Core → Core) : (s.onCore g).ptpSlew = s.ptpSlew := rfl
@[simp] theorem State.onCore_mem (s : State) (g : Core → Core) : (s.onCore g).mem = s.mem := rfl
@[simp] theorem State.onCore_lines (s : State) (g : Core → Core) : (s.onCore g).lines = s.lines := rfl
@[simp] theorem State.onCore_sealed (s : State) (g : Core → Core) : (s.onCore g).sealed = s.sealed := rfl
@[simp] theorem State.onCore_keyGen (s : State) (g : Core → Core) : (s.onCore g).keyGen = s.keyGen := rfl
@[simp] theorem State.onCore_regs (s : State) (g : Core → Core) : (s.onCore g).regs = s.regs := rfl
@[simp] theorem State.onCore_timelines (s : State) (g : Core → Core) : (s.onCore g).timelines = s.timelines := rfl
@[simp] theorem State.onCore_arrays (s : State) (g : Core → Core) : (s.onCore g).arrays = s.arrays := rfl
@[simp] theorem State.onCore_clusters (s : State) (g : Core → Core) : (s.onCore g).clusters = s.clusters := rfl
@[simp] theorem State.onCore_barriers (s : State) (g : Core → Core) : (s.onCore g).barriers = s.barriers := rfl
@[simp] theorem State.onCore_steps (s : State) (g : Core → Core) : (s.onCore g).steps = s.steps := rfl
@[simp] theorem State.onCore_launches (s : State) (g : Core → Core) : (s.onCore g).launches = s.launches := rfl
@[simp] theorem State.onCore_nextSerial (s : State) (g : Core → Core) : (s.onCore g).nextSerial = s.nextSerial := rfl
@[simp] theorem State.onCore_readBusy (s : State) (g : Core → Core) : (s.onCore g).readBusy = s.readBusy := rfl
@[simp] theorem State.onCore_readRec (s : State) (g : Core → Core) : (s.onCore g).readRec = s.readRec := rfl
@[simp] theorem State.onCore_handoffs (s : State) (g : Core → Core) : (s.onCore g).handoffs = s.handoffs := rfl
@[simp] theorem State.onCore_boundAt (s : State) (g : Core → Core) : (s.onCore g).boundAt = s.boundAt := rfl
@[simp] theorem State.onCore_cancels (s : State) (g : Core → Core) : (s.onCore g).cancels = s.cancels := rfl
@[simp] theorem State.onCore_vt (s : State) (g : Core → Core) : (s.onCore g).vt = s.vt := rfl
@[simp] theorem State.onCore_eligible (s : State) (g : Core → Core) : (s.onCore g).eligible = s.eligible := rfl
@[simp] theorem State.onCore_slots (s : State) (g : Core → Core) : (s.onCore g).slots = s.slots := rfl
@[simp] theorem State.onCore_held (s : State) (g : Core → Core) : (s.onCore g).held = s.held := rfl
@[simp] theorem State.onCore_evTold (s : State) (g : Core → Core) : (s.onCore g).evTold = s.evTold := rfl
@[simp] theorem State.onCore_dtlb (s : State) (g : Core → Core) : (s.onCore g).dtlb = s.dtlb := rfl
@[simp] theorem State.onCore_inval (s : State) (g : Core → Core) : (s.onCore g).inval = s.inval := rfl
@[simp] theorem State.onCore_tags (s : State) (g : Core → Core) : (s.onCore g).tags = s.tags := rfl
@[simp] theorem State.onCore_llc (s : State) (g : Core → Core) : (s.onCore g).llc = s.llc := rfl
@[simp] theorem State.onCore_readCounts (s : State) (g : Core → Core) : (s.onCore g).readCounts = s.readCounts := rfl
@[simp] theorem State.onCore_pins (s : State) (g : Core → Core) : (s.onCore g).pins = s.pins := rfl
@[simp] theorem State.onCore_localHome (s : State) (g : Core → Core) : (s.onCore g).localHome = s.localHome := rfl
@[simp] theorem State.onCore_segs (s : State) (g : Core → Core) : (s.onCore g).segs = s.segs := rfl
@[simp] theorem State.onCore_segNext (s : State) (g : Core → Core) : (s.onCore g).segNext = s.segNext := rfl
@[simp] theorem State.onCore_nextReq (s : State) (g : Core → Core) : (s.onCore g).nextReq = s.nextReq := rfl
@[simp] theorem State.onCore_scrub (s : State) (g : Core → Core) : (s.onCore g).scrub = s.scrub := rfl
@[simp] theorem State.onCore_patrol (s : State) (g : Core → Core) : (s.onCore g).patrol = s.patrol := rfl
@[simp] theorem State.onCore_errLog (s : State) (g : Core → Core) : (s.onCore g).errLog = s.errLog := rfl
@[simp] theorem State.onCore_misses (s : State) (g : Core → Core) : (s.onCore g).misses = s.misses := rfl
@[simp] theorem State.onCore_peers (s : State) (g : Core → Core) : (s.onCore g).peers = s.peers := rfl
@[simp] theorem State.onCore_proofs (s : State) (g : Core → Core) : (s.onCore g).proofs = s.proofs := rfl
@[simp] theorem State.onCore_ackts (s : State) (g : Core → Core) : (s.onCore g).ackts = s.ackts := rfl
@[simp] theorem State.onCore_links (s : State) (g : Core → Core) : (s.onCore g).links = s.links := rfl
@[simp] theorem State.onCore_trees (s : State) (g : Core → Core) : (s.onCore g).trees = s.trees := rfl
@[simp] theorem State.onCore_outbox (s : State) (g : Core → Core) : (s.onCore g).outbox = s.outbox := rfl
@[simp] theorem State.onCore_landMarks (s : State) (g : Core → Core) : (s.onCore g).landMarks = s.landMarks := rfl
@[simp] theorem State.onCore_rqTable (s : State) (g : Core → Core) : (s.onCore g).rqTable = s.rqTable := rfl
@[simp] theorem State.onCore_hostDown (s : State) (g : Core → Core) : (s.onCore g).hostDown = s.hostDown := rfl
@[simp] theorem State.onCore_eyes (s : State) (g : Core → Core) : (s.onCore g).eyes = s.eyes := rfl
@[simp] theorem State.onCore_laneMap (s : State) (g : Core → Core) : (s.onCore g).laneMap = s.laneMap := rfl
@[simp] theorem State.onCore_spares (s : State) (g : Core → Core) : (s.onCore g).spares = s.spares := rfl
@[simp] theorem State.onCore_tripped (s : State) (g : Core → Core) : (s.onCore g).tripped = s.tripped := rfl
@[simp] theorem State.onCore_hot (s : State) (g : Core → Core) : (s.onCore g).hot = s.hot := rfl
@[simp] theorem State.onCore_samples (s : State) (g : Core → Core) : (s.onCore g).samples = s.samples := rfl
@[simp] theorem State.onCore_heldCyc (s : State) (g : Core → Core) : (s.onCore g).heldCyc = s.heldCyc := rfl
@[simp] theorem State.onCore_session (s : State) (g : Core → Core) : (s.onCore g).session = s.session := rfl
@[simp] theorem State.onCore_ideKeys (s : State) (g : Core → Core) : (s.onCore g).ideKeys = s.ideKeys := rfl
@[simp] theorem State.onCore_kwJob (s : State) (g : Core → Core) : (s.onCore g).kwJob = s.kwJob := rfl
@[simp] theorem State.onCore_hbmAct (s : State) (g : Core → Core) : (s.onCore g).hbmAct = s.hbmAct := rfl
@[simp] theorem State.onCore_hbmSel (s : State) (g : Core → Core) : (s.onCore g).hbmSel = s.hbmSel := rfl
@[simp] theorem State.onCore_rejoin (s : State) (g : Core → Core) : (s.onCore g).rejoin = s.rejoin := rfl
@[simp] theorem State.onCore_announced (s : State) (g : Core → Core) : (s.onCore g).announced = s.announced := rfl
@[simp] theorem State.onCore_supply (s : State) (g : Core → Core) : (s.onCore g).supply = s.supply := rfl
@[simp] theorem State.onCore_sheet (s : State) (g : Core → Core) : (s.onCore g).sheet = s.sheet := rfl
@[simp] theorem State.onCore_boot (s : State) (g : Core → Core) : (s.onCore g).boot = s.boot := rfl
@[simp] theorem State.onCore_landWait (s : State) (g : Core → Core) : (s.onCore g).landWait = s.landWait := rfl
@[simp] theorem State.onCore_irqSet (s : State) (g : Core → Core) : (s.onCore g).irqSet = s.irqSet := rfl
@[simp] theorem State.onCore_halted (s : State) (g : Core → Core) : (s.onCore g).halted = s.halted := rfl

@[simp] theorem State.onRegs_core_r (s : State) (g : Regs → Regs) : (s.onRegs g).core.r = g s.core.r := rfl
@[simp] theorem State.onRegs_core_id (s : State) (g : Regs → Regs) : (s.onRegs g).core.id = s.core.id := rfl
@[simp] theorem State.onRegs_core_st (s : State) (g : Regs → Regs) : (s.onRegs g).core.st = s.core.st := rfl
@[simp] theorem State.onRegs_core_iss (s : State) (g : Regs → Regs) : (s.onRegs g).core.iss = s.core.iss := rfl
@[simp] theorem State.onRegs_core_busy (s : State) (g : Regs → Regs) : (s.onRegs g).core.busy = s.core.busy := rfl
@[simp] theorem State.onRegs_core_pc (s : State) (g : Regs → Regs) : (s.onRegs g).core.pc = s.core.pc := rfl
@[simp] theorem State.onRegs_core_note (s : State) (g : Regs → Regs) : (s.onRegs g).core.note = s.core.note := rfl
@[simp] theorem State.onRegs_core_inh (s : State) (g : Regs → Regs) : (s.onRegs g).core.inh = s.core.inh := rfl
@[simp] theorem State.onRegs_core_fstatSet (s : State) (g : Regs → Regs) : (s.onRegs g).core.fstatSet = s.core.fstatSet := rfl
@[simp] theorem State.onRegs_core_cyc (s : State) (g : Regs → Regs) : (s.onRegs g).core.cyc = s.core.cyc := rfl
@[simp] theorem State.onRegs_core_delay (s : State) (g : Regs → Regs) : (s.onRegs g).core.delay = s.core.delay := rfl
@[simp] theorem State.onRegs_core_lateFrozen (s : State) (g : Regs → Regs) : (s.onRegs g).core.lateFrozen = s.core.lateFrozen := rfl
@[simp] theorem State.onRegs_core_left (s : State) (g : Regs → Regs) : (s.onRegs g).core.left = s.core.left := rfl
@[simp] theorem State.onRegs_core_gain (s : State) (g : Regs → Regs) : (s.onRegs g).core.gain = s.core.gain := rfl
@[simp] theorem State.onRegs_core_pend (s : State) (g : Regs → Regs) : (s.onRegs g).core.pend = s.core.pend := rfl
@[simp] theorem State.onRegs_core_kill (s : State) (g : Regs → Regs) : (s.onRegs g).core.kill = s.core.kill := rfl
@[simp] theorem State.onRegs_core_capReq (s : State) (g : Regs → Regs) : (s.onRegs g).core.capReq = s.core.capReq := rfl
@[simp] theorem State.onRegs_core_haltMcc (s : State) (g : Regs → Regs) : (s.onRegs g).core.haltMcc = s.core.haltMcc := rfl
@[simp] theorem State.onRegs_core_haltDrain (s : State) (g : Regs → Regs) : (s.onRegs g).core.haltDrain = s.core.haltDrain := rfl
@[simp] theorem State.onRegs_core_reissue (s : State) (g : Regs → Regs) : (s.onRegs g).core.reissue = s.core.reissue := rfl
@[simp] theorem State.onRegs_core_pf (s : State) (g : Regs → Regs) : (s.onRegs g).core.pf = s.core.pf := rfl
@[simp] theorem State.onRegs_core_lands (s : State) (g : Regs → Regs) : (s.onRegs g).core.lands = s.core.lands := rfl
@[simp] theorem State.onRegs_core_nextId (s : State) (g : Regs → Regs) : (s.onRegs g).core.nextId = s.core.nextId := rfl
@[simp] theorem State.onRegs_core_rsigM (s : State) (g : Regs → Regs) : (s.onRegs g).core.rsigM = s.core.rsigM := rfl
@[simp] theorem State.onRegs_core_rsigD (s : State) (g : Regs → Regs) : (s.onRegs g).core.rsigD = s.core.rsigD := rfl
@[simp] theorem State.onRegs_core_rsigV (s : State) (g : Regs → Regs) : (s.onRegs g).core.rsigV = s.core.rsigV := rfl
@[simp] theorem State.onRegs_core_sfuLast (s : State) (g : Regs → Regs) : (s.onRegs g).core.sfuLast = s.core.sfuLast := rfl
@[simp] theorem State.onRegs_core_mq (s : State) (g : Regs → Regs) : (s.onRegs g).core.mq = s.core.mq := rfl
@[simp] theorem State.onRegs_core_mqNext (s : State) (g : Regs → Regs) : (s.onRegs g).core.mqNext = s.core.mqNext := rfl
@[simp] theorem State.onRegs_core_mqDid (s : State) (g : Regs → Regs) : (s.onRegs g).core.mqDid = s.core.mqDid := rfl
@[simp] theorem State.onRegs_core_mqRnd (s : State) (g : Regs → Regs) : (s.onRegs g).core.mqRnd = s.core.mqRnd := rfl
@[simp] theorem State.onRegs_core_mqSat (s : State) (g : Regs → Regs) : (s.onRegs g).core.mqSat = s.core.mqSat := rfl
@[simp] theorem State.onRegs_core_comp (s : State) (g : Regs → Regs) : (s.onRegs g).core.comp = s.core.comp := rfl
@[simp] theorem State.onRegs_core_tilePort (s : State) (g : Regs → Regs) : (s.onRegs g).core.tilePort = s.core.tilePort := rfl
@[simp] theorem State.onRegs_core_tileRows (s : State) (g : Regs → Regs) : (s.onRegs g).core.tileRows = s.core.tileRows := rfl
@[simp] theorem State.onRegs_core_cq (s : State) (g : Regs → Regs) : (s.onRegs g).core.cq = s.core.cq := rfl
@[simp] theorem State.onRegs_core_cqNext (s : State) (g : Regs → Regs) : (s.onRegs g).core.cqNext = s.core.cqNext := rfl
@[simp] theorem State.onRegs_core_cqNum (s : State) (g : Regs → Regs) : (s.onRegs g).core.cqNum = s.core.cqNum := rfl
@[simp] theorem State.onRegs_core_cqPast (s : State) (g : Regs → Regs) : (s.onRegs g).core.cqPast = s.core.cqPast := rfl
@[simp] theorem State.onRegs_core_cqDone (s : State) (g : Regs → Regs) : (s.onRegs g).core.cqDone = s.core.cqDone := rfl
@[simp] theorem State.onRegs_core_ctl (s : State) (g : Regs → Regs) : (s.onRegs g).core.ctl = s.core.ctl := rfl
@[simp] theorem State.onRegs_core_rows (s : State) (g : Regs → Regs) : (s.onRegs g).core.rows = s.core.rows := rfl
@[simp] theorem State.onRegs_core_seed0 (s : State) (g : Regs → Regs) : (s.onRegs g).core.seed0 = s.core.seed0 := rfl
@[simp] theorem State.onRegs_core_seed1 (s : State) (g : Regs → Regs) : (s.onRegs g).core.seed1 = s.core.seed1 := rfl
@[simp] theorem State.onRegs_core_badWords (s : State) (g : Regs → Regs) : (s.onRegs g).core.badWords = s.core.badWords := rfl
@[simp] theorem State.onRegs_core_badReg (s : State) (g : Regs → Regs) : (s.onRegs g).core.badReg = s.core.badReg := rfl
@[simp] theorem State.onRegs_core_rowsWas (s : State) (g : Regs → Regs) : (s.onRegs g).core.rowsWas = s.core.rowsWas := rfl
@[simp] theorem State.onRegs_core_port (s : State) (g : Regs → Regs) : (s.onRegs g).core.port = s.core.port := rfl
@[simp] theorem State.onRegs_core_tl (s : State) (g : Regs → Regs) : (s.onRegs g).core.tl = s.core.tl := rfl
@[simp] theorem State.onRegs_core_fifo (s : State) (g : Regs → Regs) : (s.onRegs g).core.fifo = s.core.fifo := rfl
@[simp] theorem State.onRegs_core_arr (s : State) (g : Regs → Regs) : (s.onRegs g).core.arr = s.core.arr := rfl
@[simp] theorem State.onRegs_core_firstReady (s : State) (g : Regs → Regs) : (s.onRegs g).core.firstReady = s.core.firstReady := rfl
@[simp] theorem State.onRegs_core_waitOn (s : State) (g : Regs → Regs) : (s.onRegs g).core.waitOn = s.core.waitOn := rfl
@[simp] theorem State.onRegs_core_stamps (s : State) (g : Regs → Regs) : (s.onRegs g).core.stamps = s.core.stamps := rfl
@[simp] theorem State.onRegs_core_orphan (s : State) (g : Regs → Regs) : (s.onRegs g).core.orphan = s.core.orphan := rfl
@[simp] theorem State.onRegs_core_relWait (s : State) (g : Regs → Regs) : (s.onRegs g).core.relWait = s.core.relWait := rfl
@[simp] theorem State.onRegs_core_ssArr (s : State) (g : Regs → Regs) : (s.onRegs g).core.ssArr = s.core.ssArr := rfl
@[simp] theorem State.onRegs_core_stores (s : State) (g : Regs → Regs) : (s.onRegs g).core.stores = s.core.stores := rfl
@[simp] theorem State.onRegs_core_fences (s : State) (g : Regs → Regs) : (s.onRegs g).core.fences = s.core.fences := rfl
@[simp] theorem State.onRegs_core_remotes (s : State) (g : Regs → Regs) : (s.onRegs g).core.remotes = s.core.remotes := rfl
@[simp] theorem State.onRegs_core_spawns (s : State) (g : Regs → Regs) : (s.onRegs g).core.spawns = s.core.spawns := rfl
@[simp] theorem State.onRegs_core_fetched (s : State) (g : Regs → Regs) : (s.onRegs g).core.fetched = s.core.fetched := rfl
@[simp] theorem State.onRegs_core_wordSigs (s : State) (g : Regs → Regs) : (s.onRegs g).core.wordSigs = s.core.wordSigs := rfl
@[simp] theorem State.onRegs_core_rqCore (s : State) (g : Regs → Regs) : (s.onRegs g).core.rqCore = s.core.rqCore := rfl
@[simp] theorem State.onRegs_core_rqSlot (s : State) (g : Regs → Regs) : (s.onRegs g).core.rqSlot = s.core.rqSlot := rfl
@[simp] theorem State.onRegs_core_rqNext (s : State) (g : Regs → Regs) : (s.onRegs g).core.rqNext = s.core.rqNext := rfl
@[simp] theorem State.onRegs_core_rqAckt (s : State) (g : Regs → Regs) : (s.onRegs g).core.rqAckt = s.core.rqAckt := rfl
@[simp] theorem State.onRegs_core_rqDone (s : State) (g : Regs → Regs) : (s.onRegs g).core.rqDone = s.core.rqDone := rfl
@[simp] theorem State.onRegs_core_task (s : State) (g : Regs → Regs) : (s.onRegs g).core.task = s.core.task := rfl
@[simp] theorem State.onRegs_core_staged (s : State) (g : Regs → Regs) : (s.onRegs g).core.staged = s.core.staged := rfl
@[simp] theorem State.onRegs_core_prevCtx (s : State) (g : Regs → Regs) : (s.onRegs g).core.prevCtx = s.core.prevCtx := rfl
@[simp] theorem State.onRegs_core_restoring (s : State) (g : Regs → Regs) : (s.onRegs g).core.restoring = s.core.restoring := rfl
@[simp] theorem State.onRegs_core_status (s : State) (g : Regs → Regs) : (s.onRegs g).core.status = s.core.status := rfl
@[simp] theorem State.onRegs_core_trapEnded (s : State) (g : Regs → Regs) : (s.onRegs g).core.trapEnded = s.core.trapEnded := rfl
@[simp] theorem State.onRegs_core_resumeM0 (s : State) (g : Regs → Regs) : (s.onRegs g).core.resumeM0 = s.core.resumeM0 := rfl
@[simp] theorem State.onRegs_core_l1 (s : State) (g : Regs → Regs) : (s.onRegs g).core.l1 = s.core.l1 := rfl
@[simp] theorem State.onRegs_core_fbuf (s : State) (g : Regs → Regs) : (s.onRegs g).core.fbuf = s.core.fbuf := rfl
@[simp] theorem State.onRegs_core_utlb (s : State) (g : Regs → Regs) : (s.onRegs g).core.utlb = s.core.utlb := rfl
@[simp] theorem State.onRegs_core_ctlb (s : State) (g : Regs → Regs) : (s.onRegs g).core.ctlb = s.core.ctlb := rfl
@[simp] theorem State.onRegs_core_grants (s : State) (g : Regs → Regs) : (s.onRegs g).core.grants = s.core.grants := rfl
@[simp] theorem State.onRegs_core_want (s : State) (g : Regs → Regs) : (s.onRegs g).core.want = s.core.want := rfl
@[simp] theorem State.onRegs_core_wantLeft (s : State) (g : Regs → Regs) : (s.onRegs g).core.wantLeft = s.core.wantLeft := rfl
@[simp] theorem State.onRegs_core_codeMem (s : State) (g : Regs → Regs) : (s.onRegs g).core.codeMem = s.core.codeMem := rfl
@[simp] theorem State.onRegs_core_accept (s : State) (g : Regs → Regs) : (s.onRegs g).core.accept = s.core.accept := rfl
@[simp] theorem State.onRegs_core_wfi (s : State) (g : Regs → Regs) : (s.onRegs g).core.wfi = s.core.wfi := rfl
@[simp] theorem State.onRegs_others (s : State) (g : Regs → Regs) : (s.onRegs g).others = s.others := rfl
@[simp] theorem State.onRegs_phase (s : State) (g : Regs → Regs) : (s.onRegs g).phase = s.phase := rfl
@[simp] theorem State.onRegs_turn (s : State) (g : Regs → Regs) : (s.onRegs g).turn = s.turn := rfl
@[simp] theorem State.onRegs_due (s : State) (g : Regs → Regs) : (s.onRegs g).due = s.due := rfl
@[simp] theorem State.onRegs_slot (s : State) (g : Regs → Regs) : (s.onRegs g).slot = s.slot := rfl
@[simp] theorem State.onRegs_ctr (s : State) (g : Regs → Regs) : (s.onRegs g).ctr = s.ctr := rfl
@[simp] theorem State.onRegs_inputs (s : State) (g : Regs → Regs) : (s.onRegs g).inputs = s.inputs := rfl
@[simp] theorem State.onRegs_mcc (s : State) (g : Regs → Regs) : (s.onRegs g).mcc = s.mcc := rfl
@[simp] theorem State.onRegs_ptp (s : State) (g : Regs → Regs) : (s.onRegs g).ptp = s.ptp := rfl
@[simp] theorem State.onRegs_ptpFrac (s : State) (g : Regs → Regs) : (s.onRegs g).ptpFrac = s.ptpFrac := rfl
@[simp] theorem State.onRegs_ptpSlew (s : State) (g : Regs → Regs) : (s.onRegs g).ptpSlew = s.ptpSlew := rfl
@[simp] theorem State.onRegs_mem (s : State) (g : Regs → Regs) : (s.onRegs g).mem = s.mem := rfl
@[simp] theorem State.onRegs_lines (s : State) (g : Regs → Regs) : (s.onRegs g).lines = s.lines := rfl
@[simp] theorem State.onRegs_sealed (s : State) (g : Regs → Regs) : (s.onRegs g).sealed = s.sealed := rfl
@[simp] theorem State.onRegs_keyGen (s : State) (g : Regs → Regs) : (s.onRegs g).keyGen = s.keyGen := rfl
@[simp] theorem State.onRegs_regs (s : State) (g : Regs → Regs) : (s.onRegs g).regs = s.regs := rfl
@[simp] theorem State.onRegs_timelines (s : State) (g : Regs → Regs) : (s.onRegs g).timelines = s.timelines := rfl
@[simp] theorem State.onRegs_arrays (s : State) (g : Regs → Regs) : (s.onRegs g).arrays = s.arrays := rfl
@[simp] theorem State.onRegs_clusters (s : State) (g : Regs → Regs) : (s.onRegs g).clusters = s.clusters := rfl
@[simp] theorem State.onRegs_barriers (s : State) (g : Regs → Regs) : (s.onRegs g).barriers = s.barriers := rfl
@[simp] theorem State.onRegs_steps (s : State) (g : Regs → Regs) : (s.onRegs g).steps = s.steps := rfl
@[simp] theorem State.onRegs_launches (s : State) (g : Regs → Regs) : (s.onRegs g).launches = s.launches := rfl
@[simp] theorem State.onRegs_nextSerial (s : State) (g : Regs → Regs) : (s.onRegs g).nextSerial = s.nextSerial := rfl
@[simp] theorem State.onRegs_readBusy (s : State) (g : Regs → Regs) : (s.onRegs g).readBusy = s.readBusy := rfl
@[simp] theorem State.onRegs_readRec (s : State) (g : Regs → Regs) : (s.onRegs g).readRec = s.readRec := rfl
@[simp] theorem State.onRegs_handoffs (s : State) (g : Regs → Regs) : (s.onRegs g).handoffs = s.handoffs := rfl
@[simp] theorem State.onRegs_boundAt (s : State) (g : Regs → Regs) : (s.onRegs g).boundAt = s.boundAt := rfl
@[simp] theorem State.onRegs_cancels (s : State) (g : Regs → Regs) : (s.onRegs g).cancels = s.cancels := rfl
@[simp] theorem State.onRegs_vt (s : State) (g : Regs → Regs) : (s.onRegs g).vt = s.vt := rfl
@[simp] theorem State.onRegs_eligible (s : State) (g : Regs → Regs) : (s.onRegs g).eligible = s.eligible := rfl
@[simp] theorem State.onRegs_slots (s : State) (g : Regs → Regs) : (s.onRegs g).slots = s.slots := rfl
@[simp] theorem State.onRegs_held (s : State) (g : Regs → Regs) : (s.onRegs g).held = s.held := rfl
@[simp] theorem State.onRegs_evTold (s : State) (g : Regs → Regs) : (s.onRegs g).evTold = s.evTold := rfl
@[simp] theorem State.onRegs_dtlb (s : State) (g : Regs → Regs) : (s.onRegs g).dtlb = s.dtlb := rfl
@[simp] theorem State.onRegs_inval (s : State) (g : Regs → Regs) : (s.onRegs g).inval = s.inval := rfl
@[simp] theorem State.onRegs_tags (s : State) (g : Regs → Regs) : (s.onRegs g).tags = s.tags := rfl
@[simp] theorem State.onRegs_llc (s : State) (g : Regs → Regs) : (s.onRegs g).llc = s.llc := rfl
@[simp] theorem State.onRegs_readCounts (s : State) (g : Regs → Regs) : (s.onRegs g).readCounts = s.readCounts := rfl
@[simp] theorem State.onRegs_pins (s : State) (g : Regs → Regs) : (s.onRegs g).pins = s.pins := rfl
@[simp] theorem State.onRegs_localHome (s : State) (g : Regs → Regs) : (s.onRegs g).localHome = s.localHome := rfl
@[simp] theorem State.onRegs_segs (s : State) (g : Regs → Regs) : (s.onRegs g).segs = s.segs := rfl
@[simp] theorem State.onRegs_segNext (s : State) (g : Regs → Regs) : (s.onRegs g).segNext = s.segNext := rfl
@[simp] theorem State.onRegs_nextReq (s : State) (g : Regs → Regs) : (s.onRegs g).nextReq = s.nextReq := rfl
@[simp] theorem State.onRegs_scrub (s : State) (g : Regs → Regs) : (s.onRegs g).scrub = s.scrub := rfl
@[simp] theorem State.onRegs_patrol (s : State) (g : Regs → Regs) : (s.onRegs g).patrol = s.patrol := rfl
@[simp] theorem State.onRegs_errLog (s : State) (g : Regs → Regs) : (s.onRegs g).errLog = s.errLog := rfl
@[simp] theorem State.onRegs_misses (s : State) (g : Regs → Regs) : (s.onRegs g).misses = s.misses := rfl
@[simp] theorem State.onRegs_peers (s : State) (g : Regs → Regs) : (s.onRegs g).peers = s.peers := rfl
@[simp] theorem State.onRegs_proofs (s : State) (g : Regs → Regs) : (s.onRegs g).proofs = s.proofs := rfl
@[simp] theorem State.onRegs_ackts (s : State) (g : Regs → Regs) : (s.onRegs g).ackts = s.ackts := rfl
@[simp] theorem State.onRegs_links (s : State) (g : Regs → Regs) : (s.onRegs g).links = s.links := rfl
@[simp] theorem State.onRegs_trees (s : State) (g : Regs → Regs) : (s.onRegs g).trees = s.trees := rfl
@[simp] theorem State.onRegs_outbox (s : State) (g : Regs → Regs) : (s.onRegs g).outbox = s.outbox := rfl
@[simp] theorem State.onRegs_landMarks (s : State) (g : Regs → Regs) : (s.onRegs g).landMarks = s.landMarks := rfl
@[simp] theorem State.onRegs_rqTable (s : State) (g : Regs → Regs) : (s.onRegs g).rqTable = s.rqTable := rfl
@[simp] theorem State.onRegs_hostDown (s : State) (g : Regs → Regs) : (s.onRegs g).hostDown = s.hostDown := rfl
@[simp] theorem State.onRegs_eyes (s : State) (g : Regs → Regs) : (s.onRegs g).eyes = s.eyes := rfl
@[simp] theorem State.onRegs_laneMap (s : State) (g : Regs → Regs) : (s.onRegs g).laneMap = s.laneMap := rfl
@[simp] theorem State.onRegs_spares (s : State) (g : Regs → Regs) : (s.onRegs g).spares = s.spares := rfl
@[simp] theorem State.onRegs_tripped (s : State) (g : Regs → Regs) : (s.onRegs g).tripped = s.tripped := rfl
@[simp] theorem State.onRegs_hot (s : State) (g : Regs → Regs) : (s.onRegs g).hot = s.hot := rfl
@[simp] theorem State.onRegs_samples (s : State) (g : Regs → Regs) : (s.onRegs g).samples = s.samples := rfl
@[simp] theorem State.onRegs_heldCyc (s : State) (g : Regs → Regs) : (s.onRegs g).heldCyc = s.heldCyc := rfl
@[simp] theorem State.onRegs_session (s : State) (g : Regs → Regs) : (s.onRegs g).session = s.session := rfl
@[simp] theorem State.onRegs_ideKeys (s : State) (g : Regs → Regs) : (s.onRegs g).ideKeys = s.ideKeys := rfl
@[simp] theorem State.onRegs_kwJob (s : State) (g : Regs → Regs) : (s.onRegs g).kwJob = s.kwJob := rfl
@[simp] theorem State.onRegs_hbmAct (s : State) (g : Regs → Regs) : (s.onRegs g).hbmAct = s.hbmAct := rfl
@[simp] theorem State.onRegs_hbmSel (s : State) (g : Regs → Regs) : (s.onRegs g).hbmSel = s.hbmSel := rfl
@[simp] theorem State.onRegs_rejoin (s : State) (g : Regs → Regs) : (s.onRegs g).rejoin = s.rejoin := rfl
@[simp] theorem State.onRegs_announced (s : State) (g : Regs → Regs) : (s.onRegs g).announced = s.announced := rfl
@[simp] theorem State.onRegs_supply (s : State) (g : Regs → Regs) : (s.onRegs g).supply = s.supply := rfl
@[simp] theorem State.onRegs_sheet (s : State) (g : Regs → Regs) : (s.onRegs g).sheet = s.sheet := rfl
@[simp] theorem State.onRegs_boot (s : State) (g : Regs → Regs) : (s.onRegs g).boot = s.boot := rfl
@[simp] theorem State.onRegs_landWait (s : State) (g : Regs → Regs) : (s.onRegs g).landWait = s.landWait := rfl
@[simp] theorem State.onRegs_irqSet (s : State) (g : Regs → Regs) : (s.onRegs g).irqSet = s.irqSet := rfl
@[simp] theorem State.onRegs_halted (s : State) (g : Regs → Regs) : (s.onRegs g).halted = s.halted := rfl

/-! The model's counter, and a register of the module. -/

@[simp] theorem State.tickCtr_core (s : State) : s.tickCtr.core = s.core := rfl
@[simp] theorem State.tickCtr_others (s : State) : s.tickCtr.others = s.others := rfl
@[simp] theorem State.tickCtr_phase (s : State) : s.tickCtr.phase = s.phase := rfl
@[simp] theorem State.tickCtr_turn (s : State) : s.tickCtr.turn = s.turn := rfl
@[simp] theorem State.tickCtr_due (s : State) : s.tickCtr.due = s.due := rfl
@[simp] theorem State.tickCtr_slot (s : State) : s.tickCtr.slot = s.slot := rfl
@[simp] theorem State.tickCtr_inputs (s : State) : s.tickCtr.inputs = s.inputs := rfl
@[simp] theorem State.tickCtr_mcc (s : State) : s.tickCtr.mcc = s.mcc := rfl
@[simp] theorem State.tickCtr_ptp (s : State) : s.tickCtr.ptp = s.ptp := rfl
@[simp] theorem State.tickCtr_ptpFrac (s : State) : s.tickCtr.ptpFrac = s.ptpFrac := rfl
@[simp] theorem State.tickCtr_ptpSlew (s : State) : s.tickCtr.ptpSlew = s.ptpSlew := rfl
@[simp] theorem State.tickCtr_mem (s : State) : s.tickCtr.mem = s.mem := rfl
@[simp] theorem State.tickCtr_lines (s : State) : s.tickCtr.lines = s.lines := rfl
@[simp] theorem State.tickCtr_sealed (s : State) : s.tickCtr.sealed = s.sealed := rfl
@[simp] theorem State.tickCtr_keyGen (s : State) : s.tickCtr.keyGen = s.keyGen := rfl
@[simp] theorem State.tickCtr_regs (s : State) : s.tickCtr.regs = s.regs := rfl
@[simp] theorem State.tickCtr_timelines (s : State) : s.tickCtr.timelines = s.timelines := rfl
@[simp] theorem State.tickCtr_arrays (s : State) : s.tickCtr.arrays = s.arrays := rfl
@[simp] theorem State.tickCtr_clusters (s : State) : s.tickCtr.clusters = s.clusters := rfl
@[simp] theorem State.tickCtr_barriers (s : State) : s.tickCtr.barriers = s.barriers := rfl
@[simp] theorem State.tickCtr_steps (s : State) : s.tickCtr.steps = s.steps := rfl
@[simp] theorem State.tickCtr_launches (s : State) : s.tickCtr.launches = s.launches := rfl
@[simp] theorem State.tickCtr_nextSerial (s : State) : s.tickCtr.nextSerial = s.nextSerial := rfl
@[simp] theorem State.tickCtr_readBusy (s : State) : s.tickCtr.readBusy = s.readBusy := rfl
@[simp] theorem State.tickCtr_readRec (s : State) : s.tickCtr.readRec = s.readRec := rfl
@[simp] theorem State.tickCtr_handoffs (s : State) : s.tickCtr.handoffs = s.handoffs := rfl
@[simp] theorem State.tickCtr_boundAt (s : State) : s.tickCtr.boundAt = s.boundAt := rfl
@[simp] theorem State.tickCtr_cancels (s : State) : s.tickCtr.cancels = s.cancels := rfl
@[simp] theorem State.tickCtr_vt (s : State) : s.tickCtr.vt = s.vt := rfl
@[simp] theorem State.tickCtr_eligible (s : State) : s.tickCtr.eligible = s.eligible := rfl
@[simp] theorem State.tickCtr_slots (s : State) : s.tickCtr.slots = s.slots := rfl
@[simp] theorem State.tickCtr_held (s : State) : s.tickCtr.held = s.held := rfl
@[simp] theorem State.tickCtr_evTold (s : State) : s.tickCtr.evTold = s.evTold := rfl
@[simp] theorem State.tickCtr_dtlb (s : State) : s.tickCtr.dtlb = s.dtlb := rfl
@[simp] theorem State.tickCtr_inval (s : State) : s.tickCtr.inval = s.inval := rfl
@[simp] theorem State.tickCtr_tags (s : State) : s.tickCtr.tags = s.tags := rfl
@[simp] theorem State.tickCtr_llc (s : State) : s.tickCtr.llc = s.llc := rfl
@[simp] theorem State.tickCtr_readCounts (s : State) : s.tickCtr.readCounts = s.readCounts := rfl
@[simp] theorem State.tickCtr_pins (s : State) : s.tickCtr.pins = s.pins := rfl
@[simp] theorem State.tickCtr_localHome (s : State) : s.tickCtr.localHome = s.localHome := rfl
@[simp] theorem State.tickCtr_segs (s : State) : s.tickCtr.segs = s.segs := rfl
@[simp] theorem State.tickCtr_segNext (s : State) : s.tickCtr.segNext = s.segNext := rfl
@[simp] theorem State.tickCtr_nextReq (s : State) : s.tickCtr.nextReq = s.nextReq := rfl
@[simp] theorem State.tickCtr_scrub (s : State) : s.tickCtr.scrub = s.scrub := rfl
@[simp] theorem State.tickCtr_patrol (s : State) : s.tickCtr.patrol = s.patrol := rfl
@[simp] theorem State.tickCtr_errLog (s : State) : s.tickCtr.errLog = s.errLog := rfl
@[simp] theorem State.tickCtr_misses (s : State) : s.tickCtr.misses = s.misses := rfl
@[simp] theorem State.tickCtr_peers (s : State) : s.tickCtr.peers = s.peers := rfl
@[simp] theorem State.tickCtr_proofs (s : State) : s.tickCtr.proofs = s.proofs := rfl
@[simp] theorem State.tickCtr_ackts (s : State) : s.tickCtr.ackts = s.ackts := rfl
@[simp] theorem State.tickCtr_links (s : State) : s.tickCtr.links = s.links := rfl
@[simp] theorem State.tickCtr_trees (s : State) : s.tickCtr.trees = s.trees := rfl
@[simp] theorem State.tickCtr_outbox (s : State) : s.tickCtr.outbox = s.outbox := rfl
@[simp] theorem State.tickCtr_landMarks (s : State) : s.tickCtr.landMarks = s.landMarks := rfl
@[simp] theorem State.tickCtr_rqTable (s : State) : s.tickCtr.rqTable = s.rqTable := rfl
@[simp] theorem State.tickCtr_hostDown (s : State) : s.tickCtr.hostDown = s.hostDown := rfl
@[simp] theorem State.tickCtr_eyes (s : State) : s.tickCtr.eyes = s.eyes := rfl
@[simp] theorem State.tickCtr_laneMap (s : State) : s.tickCtr.laneMap = s.laneMap := rfl
@[simp] theorem State.tickCtr_spares (s : State) : s.tickCtr.spares = s.spares := rfl
@[simp] theorem State.tickCtr_tripped (s : State) : s.tickCtr.tripped = s.tripped := rfl
@[simp] theorem State.tickCtr_hot (s : State) : s.tickCtr.hot = s.hot := rfl
@[simp] theorem State.tickCtr_samples (s : State) : s.tickCtr.samples = s.samples := rfl
@[simp] theorem State.tickCtr_heldCyc (s : State) : s.tickCtr.heldCyc = s.heldCyc := rfl
@[simp] theorem State.tickCtr_session (s : State) : s.tickCtr.session = s.session := rfl
@[simp] theorem State.tickCtr_ideKeys (s : State) : s.tickCtr.ideKeys = s.ideKeys := rfl
@[simp] theorem State.tickCtr_kwJob (s : State) : s.tickCtr.kwJob = s.kwJob := rfl
@[simp] theorem State.tickCtr_hbmAct (s : State) : s.tickCtr.hbmAct = s.hbmAct := rfl
@[simp] theorem State.tickCtr_hbmSel (s : State) : s.tickCtr.hbmSel = s.hbmSel := rfl
@[simp] theorem State.tickCtr_rejoin (s : State) : s.tickCtr.rejoin = s.rejoin := rfl
@[simp] theorem State.tickCtr_announced (s : State) : s.tickCtr.announced = s.announced := rfl
@[simp] theorem State.tickCtr_supply (s : State) : s.tickCtr.supply = s.supply := rfl
@[simp] theorem State.tickCtr_sheet (s : State) : s.tickCtr.sheet = s.sheet := rfl
@[simp] theorem State.tickCtr_boot (s : State) : s.tickCtr.boot = s.boot := rfl
@[simp] theorem State.tickCtr_landWait (s : State) : s.tickCtr.landWait = s.landWait := rfl
@[simp] theorem State.tickCtr_irqSet (s : State) : s.tickCtr.irqSet = s.irqSet := rfl
@[simp] theorem State.tickCtr_halted (s : State) : s.tickCtr.halted = s.halted := rfl
@[simp] theorem State.tickCtr_ctr (s : State) : s.tickCtr.ctr = s.ctr + 1 := rfl

@[simp] theorem State.setReg_core (s : State) (k : Nat) (v : Word) : (s.setReg k v).core = s.core := rfl
@[simp] theorem State.setReg_others (s : State) (k : Nat) (v : Word) : (s.setReg k v).others = s.others := rfl
@[simp] theorem State.setReg_phase (s : State) (k : Nat) (v : Word) : (s.setReg k v).phase = s.phase := rfl
@[simp] theorem State.setReg_turn (s : State) (k : Nat) (v : Word) : (s.setReg k v).turn = s.turn := rfl
@[simp] theorem State.setReg_due (s : State) (k : Nat) (v : Word) : (s.setReg k v).due = s.due := rfl
@[simp] theorem State.setReg_slot (s : State) (k : Nat) (v : Word) : (s.setReg k v).slot = s.slot := rfl
@[simp] theorem State.setReg_ctr (s : State) (k : Nat) (v : Word) : (s.setReg k v).ctr = s.ctr := rfl
@[simp] theorem State.setReg_inputs (s : State) (k : Nat) (v : Word) : (s.setReg k v).inputs = s.inputs := rfl
@[simp] theorem State.setReg_mcc (s : State) (k : Nat) (v : Word) : (s.setReg k v).mcc = s.mcc := rfl
@[simp] theorem State.setReg_ptp (s : State) (k : Nat) (v : Word) : (s.setReg k v).ptp = s.ptp := rfl
@[simp] theorem State.setReg_ptpFrac (s : State) (k : Nat) (v : Word) : (s.setReg k v).ptpFrac = s.ptpFrac := rfl
@[simp] theorem State.setReg_ptpSlew (s : State) (k : Nat) (v : Word) : (s.setReg k v).ptpSlew = s.ptpSlew := rfl
@[simp] theorem State.setReg_mem (s : State) (k : Nat) (v : Word) : (s.setReg k v).mem = s.mem := rfl
@[simp] theorem State.setReg_lines (s : State) (k : Nat) (v : Word) : (s.setReg k v).lines = s.lines := rfl
@[simp] theorem State.setReg_sealed (s : State) (k : Nat) (v : Word) : (s.setReg k v).sealed = s.sealed := rfl
@[simp] theorem State.setReg_keyGen (s : State) (k : Nat) (v : Word) : (s.setReg k v).keyGen = s.keyGen := rfl
@[simp] theorem State.setReg_timelines (s : State) (k : Nat) (v : Word) : (s.setReg k v).timelines = s.timelines := rfl
@[simp] theorem State.setReg_arrays (s : State) (k : Nat) (v : Word) : (s.setReg k v).arrays = s.arrays := rfl
@[simp] theorem State.setReg_clusters (s : State) (k : Nat) (v : Word) : (s.setReg k v).clusters = s.clusters := rfl
@[simp] theorem State.setReg_barriers (s : State) (k : Nat) (v : Word) : (s.setReg k v).barriers = s.barriers := rfl
@[simp] theorem State.setReg_steps (s : State) (k : Nat) (v : Word) : (s.setReg k v).steps = s.steps := rfl
@[simp] theorem State.setReg_launches (s : State) (k : Nat) (v : Word) : (s.setReg k v).launches = s.launches := rfl
@[simp] theorem State.setReg_nextSerial (s : State) (k : Nat) (v : Word) : (s.setReg k v).nextSerial = s.nextSerial := rfl
@[simp] theorem State.setReg_readBusy (s : State) (k : Nat) (v : Word) : (s.setReg k v).readBusy = s.readBusy := rfl
@[simp] theorem State.setReg_readRec (s : State) (k : Nat) (v : Word) : (s.setReg k v).readRec = s.readRec := rfl
@[simp] theorem State.setReg_handoffs (s : State) (k : Nat) (v : Word) : (s.setReg k v).handoffs = s.handoffs := rfl
@[simp] theorem State.setReg_boundAt (s : State) (k : Nat) (v : Word) : (s.setReg k v).boundAt = s.boundAt := rfl
@[simp] theorem State.setReg_cancels (s : State) (k : Nat) (v : Word) : (s.setReg k v).cancels = s.cancels := rfl
@[simp] theorem State.setReg_vt (s : State) (k : Nat) (v : Word) : (s.setReg k v).vt = s.vt := rfl
@[simp] theorem State.setReg_eligible (s : State) (k : Nat) (v : Word) : (s.setReg k v).eligible = s.eligible := rfl
@[simp] theorem State.setReg_slots (s : State) (k : Nat) (v : Word) : (s.setReg k v).slots = s.slots := rfl
@[simp] theorem State.setReg_held (s : State) (k : Nat) (v : Word) : (s.setReg k v).held = s.held := rfl
@[simp] theorem State.setReg_evTold (s : State) (k : Nat) (v : Word) : (s.setReg k v).evTold = s.evTold := rfl
@[simp] theorem State.setReg_dtlb (s : State) (k : Nat) (v : Word) : (s.setReg k v).dtlb = s.dtlb := rfl
@[simp] theorem State.setReg_inval (s : State) (k : Nat) (v : Word) : (s.setReg k v).inval = s.inval := rfl
@[simp] theorem State.setReg_tags (s : State) (k : Nat) (v : Word) : (s.setReg k v).tags = s.tags := rfl
@[simp] theorem State.setReg_llc (s : State) (k : Nat) (v : Word) : (s.setReg k v).llc = s.llc := rfl
@[simp] theorem State.setReg_readCounts (s : State) (k : Nat) (v : Word) : (s.setReg k v).readCounts = s.readCounts := rfl
@[simp] theorem State.setReg_pins (s : State) (k : Nat) (v : Word) : (s.setReg k v).pins = s.pins := rfl
@[simp] theorem State.setReg_localHome (s : State) (k : Nat) (v : Word) : (s.setReg k v).localHome = s.localHome := rfl
@[simp] theorem State.setReg_segs (s : State) (k : Nat) (v : Word) : (s.setReg k v).segs = s.segs := rfl
@[simp] theorem State.setReg_segNext (s : State) (k : Nat) (v : Word) : (s.setReg k v).segNext = s.segNext := rfl
@[simp] theorem State.setReg_nextReq (s : State) (k : Nat) (v : Word) : (s.setReg k v).nextReq = s.nextReq := rfl
@[simp] theorem State.setReg_scrub (s : State) (k : Nat) (v : Word) : (s.setReg k v).scrub = s.scrub := rfl
@[simp] theorem State.setReg_patrol (s : State) (k : Nat) (v : Word) : (s.setReg k v).patrol = s.patrol := rfl
@[simp] theorem State.setReg_errLog (s : State) (k : Nat) (v : Word) : (s.setReg k v).errLog = s.errLog := rfl
@[simp] theorem State.setReg_misses (s : State) (k : Nat) (v : Word) : (s.setReg k v).misses = s.misses := rfl
@[simp] theorem State.setReg_peers (s : State) (k : Nat) (v : Word) : (s.setReg k v).peers = s.peers := rfl
@[simp] theorem State.setReg_proofs (s : State) (k : Nat) (v : Word) : (s.setReg k v).proofs = s.proofs := rfl
@[simp] theorem State.setReg_ackts (s : State) (k : Nat) (v : Word) : (s.setReg k v).ackts = s.ackts := rfl
@[simp] theorem State.setReg_links (s : State) (k : Nat) (v : Word) : (s.setReg k v).links = s.links := rfl
@[simp] theorem State.setReg_trees (s : State) (k : Nat) (v : Word) : (s.setReg k v).trees = s.trees := rfl
@[simp] theorem State.setReg_outbox (s : State) (k : Nat) (v : Word) : (s.setReg k v).outbox = s.outbox := rfl
@[simp] theorem State.setReg_landMarks (s : State) (k : Nat) (v : Word) : (s.setReg k v).landMarks = s.landMarks := rfl
@[simp] theorem State.setReg_rqTable (s : State) (k : Nat) (v : Word) : (s.setReg k v).rqTable = s.rqTable := rfl
@[simp] theorem State.setReg_hostDown (s : State) (k : Nat) (v : Word) : (s.setReg k v).hostDown = s.hostDown := rfl
@[simp] theorem State.setReg_eyes (s : State) (k : Nat) (v : Word) : (s.setReg k v).eyes = s.eyes := rfl
@[simp] theorem State.setReg_laneMap (s : State) (k : Nat) (v : Word) : (s.setReg k v).laneMap = s.laneMap := rfl
@[simp] theorem State.setReg_spares (s : State) (k : Nat) (v : Word) : (s.setReg k v).spares = s.spares := rfl
@[simp] theorem State.setReg_tripped (s : State) (k : Nat) (v : Word) : (s.setReg k v).tripped = s.tripped := rfl
@[simp] theorem State.setReg_hot (s : State) (k : Nat) (v : Word) : (s.setReg k v).hot = s.hot := rfl
@[simp] theorem State.setReg_samples (s : State) (k : Nat) (v : Word) : (s.setReg k v).samples = s.samples := rfl
@[simp] theorem State.setReg_heldCyc (s : State) (k : Nat) (v : Word) : (s.setReg k v).heldCyc = s.heldCyc := rfl
@[simp] theorem State.setReg_session (s : State) (k : Nat) (v : Word) : (s.setReg k v).session = s.session := rfl
@[simp] theorem State.setReg_ideKeys (s : State) (k : Nat) (v : Word) : (s.setReg k v).ideKeys = s.ideKeys := rfl
@[simp] theorem State.setReg_kwJob (s : State) (k : Nat) (v : Word) : (s.setReg k v).kwJob = s.kwJob := rfl
@[simp] theorem State.setReg_hbmAct (s : State) (k : Nat) (v : Word) : (s.setReg k v).hbmAct = s.hbmAct := rfl
@[simp] theorem State.setReg_hbmSel (s : State) (k : Nat) (v : Word) : (s.setReg k v).hbmSel = s.hbmSel := rfl
@[simp] theorem State.setReg_rejoin (s : State) (k : Nat) (v : Word) : (s.setReg k v).rejoin = s.rejoin := rfl
@[simp] theorem State.setReg_announced (s : State) (k : Nat) (v : Word) : (s.setReg k v).announced = s.announced := rfl
@[simp] theorem State.setReg_supply (s : State) (k : Nat) (v : Word) : (s.setReg k v).supply = s.supply := rfl
@[simp] theorem State.setReg_sheet (s : State) (k : Nat) (v : Word) : (s.setReg k v).sheet = s.sheet := rfl
@[simp] theorem State.setReg_boot (s : State) (k : Nat) (v : Word) : (s.setReg k v).boot = s.boot := rfl
@[simp] theorem State.setReg_landWait (s : State) (k : Nat) (v : Word) : (s.setReg k v).landWait = s.landWait := rfl
@[simp] theorem State.setReg_irqSet (s : State) (k : Nat) (v : Word) : (s.setReg k v).irqSet = s.irqSet := rfl
@[simp] theorem State.setReg_halted (s : State) (k : Nat) (v : Word) : (s.setReg k v).halted = s.halted := rfl

/-! The register file: a write of one class leaves the other classes. -/

@[simp] theorem Regs.setS_v (r : Regs) (i : BitVec 6) (x : Word) : (r.setS i x).v = r.v := by
  unfold Regs.setS; split <;> rfl
@[simp] theorem Regs.setS_m (r : Regs) (i : BitVec 6) (x : Word) : (r.setS i x).m = r.m := by
  unfold Regs.setS; split <;> rfl
@[simp] theorem Regs.setS_p (r : Regs) (i : BitVec 6) (x : Word) : (r.setS i x).p = r.p := by
  unfold Regs.setS; split <;> rfl
@[simp] theorem Regs.setS_lc (r : Regs) (i : BitVec 6) (x : Word) : (r.setS i x).lc = r.lc := by
  unfold Regs.setS; split <;> rfl
@[simp] theorem Regs.setS_taskid (r : Regs) (i : BitVec 6) (x : Word) : (r.setS i x).taskid = r.taskid := by
  unfold Regs.setS; split <;> rfl
@[simp] theorem Regs.setS_launchid (r : Regs) (i : BitVec 6) (x : Word) : (r.setS i x).launchid = r.launchid := by
  unfold Regs.setS; split <;> rfl
@[simp] theorem Regs.setS_levels (r : Regs) (i : BitVec 6) (x : Word) : (r.setS i x).levels = r.levels := by
  unfold Regs.setS; split <;> rfl
@[simp] theorem Regs.setS_coord (r : Regs) (i : BitVec 6) (x : Word) : (r.setS i x).coord = r.coord := by
  unfold Regs.setS; split <;> rfl
@[simp] theorem Regs.setS_nbv (r : Regs) (i : BitVec 6) (x : Word) : (r.setS i x).nbv = r.nbv := by
  unfold Regs.setS; split <;> rfl
@[simp] theorem Regs.setS_detm (r : Regs) (i : BitVec 6) (x : Word) : (r.setS i x).detm = r.detm := by
  unfold Regs.setS; split <;> rfl
@[simp] theorem Regs.setS_rsig (r : Regs) (i : BitVec 6) (x : Word) : (r.setS i x).rsig = r.rsig := by
  unfold Regs.setS; split <;> rfl
@[simp] theorem Regs.setS_ftsel (r : Regs) (i : BitVec 6) (x : Word) : (r.setS i x).ftsel = r.ftsel := by
  unfold Regs.setS; split <;> rfl
@[simp] theorem Regs.setS_vrm (r : Regs) (i : BitVec 6) (x : Word) : (r.setS i x).vrm = r.vrm := by
  unfold Regs.setS; split <;> rfl
@[simp] theorem Regs.setS_tkceil (r : Regs) (i : BitVec 6) (x : Word) : (r.setS i x).tkceil = r.tkceil := by
  unfold Regs.setS; split <;> rfl
@[simp] theorem Regs.setS_tkval (r : Regs) (i : BitVec 6) (x : Word) : (r.setS i x).tkval = r.tkval := by
  unfold Regs.setS; split <;> rfl
@[simp] theorem Regs.setS_abar (r : Regs) (i : BitVec 6) (x : Word) : (r.setS i x).abar = r.abar := by
  unfold Regs.setS; split <;> rfl
@[simp] theorem Regs.setS_fbase (r : Regs) (i : BitVec 6) (x : Word) : (r.setS i x).fbase = r.fbase := by
  unfold Regs.setS; split <;> rfl
@[simp] theorem Regs.setS_ssn (r : Regs) (i : BitVec 6) (x : Word) : (r.setS i x).ssn = r.ssn := by
  unfold Regs.setS; split <;> rfl
@[simp] theorem Regs.setS_discf (r : Regs) (i : BitVec 6) (x : Word) : (r.setS i x).discf = r.discf := by
  unfold Regs.setS; split <;> rfl
@[simp] theorem Regs.setS_disc (r : Regs) (i : BitVec 6) (x : Word) : (r.setS i x).disc = r.disc := by
  unfold Regs.setS; split <;> rfl
@[simp] theorem Regs.setS_ft (r : Regs) (i : BitVec 6) (x : Word) : (r.setS i x).ft = r.ft := by
  unfold Regs.setS; split <;> rfl
@[simp] theorem Regs.setS_trc (r : Regs) (i : BitVec 6) (x : Word) : (r.setS i x).trc = r.trc := by
  unfold Regs.setS; split <;> rfl
@[simp] theorem Regs.setS_thnd (r : Regs) (i : BitVec 6) (x : Word) : (r.setS i x).thnd = r.thnd := by
  unfold Regs.setS; split <;> rfl
@[simp] theorem Regs.setS_fstat (r : Regs) (i : BitVec 6) (x : Word) : (r.setS i x).fstat = r.fstat := by
  unfold Regs.setS; split <;> rfl
@[simp] theorem Regs.setS_tdisc (r : Regs) (i : BitVec 6) (x : Word) : (r.setS i x).tdisc = r.tdisc := by
  unfold Regs.setS; split <;> rfl
@[simp] theorem Regs.setS_fepStep (r : Regs) (i : BitVec 6) (x : Word) : (r.setS i x).fepStep = r.fepStep := by
  unfold Regs.setS; split <;> rfl
@[simp] theorem Regs.setS_fepCount (r : Regs) (i : BitVec 6) (x : Word) : (r.setS i x).fepCount = r.fepCount := by
  unfold Regs.setS; split <;> rfl
@[simp] theorem Regs.setS_tbudget (r : Regs) (i : BitVec 6) (x : Word) : (r.setS i x).tbudget = r.tbudget := by
  unfold Regs.setS; split <;> rfl
@[simp] theorem Regs.setM_s (r : Regs) (i : BitVec 4) (x : Mask) : (r.setM i x).s = r.s := by
  unfold Regs.setM; split <;> rfl
@[simp] theorem Regs.setM_v (r : Regs) (i : BitVec 4) (x : Mask) : (r.setM i x).v = r.v := by
  unfold Regs.setM; split <;> rfl
@[simp] theorem Regs.setM_p (r : Regs) (i : BitVec 4) (x : Mask) : (r.setM i x).p = r.p := by
  unfold Regs.setM; split <;> rfl
@[simp] theorem Regs.setM_lc (r : Regs) (i : BitVec 4) (x : Mask) : (r.setM i x).lc = r.lc := by
  unfold Regs.setM; split <;> rfl
@[simp] theorem Regs.setM_taskid (r : Regs) (i : BitVec 4) (x : Mask) : (r.setM i x).taskid = r.taskid := by
  unfold Regs.setM; split <;> rfl
@[simp] theorem Regs.setM_launchid (r : Regs) (i : BitVec 4) (x : Mask) : (r.setM i x).launchid = r.launchid := by
  unfold Regs.setM; split <;> rfl
@[simp] theorem Regs.setM_levels (r : Regs) (i : BitVec 4) (x : Mask) : (r.setM i x).levels = r.levels := by
  unfold Regs.setM; split <;> rfl
@[simp] theorem Regs.setM_coord (r : Regs) (i : BitVec 4) (x : Mask) : (r.setM i x).coord = r.coord := by
  unfold Regs.setM; split <;> rfl
@[simp] theorem Regs.setM_nbv (r : Regs) (i : BitVec 4) (x : Mask) : (r.setM i x).nbv = r.nbv := by
  unfold Regs.setM; split <;> rfl
@[simp] theorem Regs.setM_detm (r : Regs) (i : BitVec 4) (x : Mask) : (r.setM i x).detm = r.detm := by
  unfold Regs.setM; split <;> rfl
@[simp] theorem Regs.setM_rsig (r : Regs) (i : BitVec 4) (x : Mask) : (r.setM i x).rsig = r.rsig := by
  unfold Regs.setM; split <;> rfl
@[simp] theorem Regs.setM_ftsel (r : Regs) (i : BitVec 4) (x : Mask) : (r.setM i x).ftsel = r.ftsel := by
  unfold Regs.setM; split <;> rfl
@[simp] theorem Regs.setM_vrm (r : Regs) (i : BitVec 4) (x : Mask) : (r.setM i x).vrm = r.vrm := by
  unfold Regs.setM; split <;> rfl
@[simp] theorem Regs.setM_tkceil (r : Regs) (i : BitVec 4) (x : Mask) : (r.setM i x).tkceil = r.tkceil := by
  unfold Regs.setM; split <;> rfl
@[simp] theorem Regs.setM_tkval (r : Regs) (i : BitVec 4) (x : Mask) : (r.setM i x).tkval = r.tkval := by
  unfold Regs.setM; split <;> rfl
@[simp] theorem Regs.setM_abar (r : Regs) (i : BitVec 4) (x : Mask) : (r.setM i x).abar = r.abar := by
  unfold Regs.setM; split <;> rfl
@[simp] theorem Regs.setM_fbase (r : Regs) (i : BitVec 4) (x : Mask) : (r.setM i x).fbase = r.fbase := by
  unfold Regs.setM; split <;> rfl
@[simp] theorem Regs.setM_ssn (r : Regs) (i : BitVec 4) (x : Mask) : (r.setM i x).ssn = r.ssn := by
  unfold Regs.setM; split <;> rfl
@[simp] theorem Regs.setM_discf (r : Regs) (i : BitVec 4) (x : Mask) : (r.setM i x).discf = r.discf := by
  unfold Regs.setM; split <;> rfl
@[simp] theorem Regs.setM_disc (r : Regs) (i : BitVec 4) (x : Mask) : (r.setM i x).disc = r.disc := by
  unfold Regs.setM; split <;> rfl
@[simp] theorem Regs.setM_ft (r : Regs) (i : BitVec 4) (x : Mask) : (r.setM i x).ft = r.ft := by
  unfold Regs.setM; split <;> rfl
@[simp] theorem Regs.setM_trc (r : Regs) (i : BitVec 4) (x : Mask) : (r.setM i x).trc = r.trc := by
  unfold Regs.setM; split <;> rfl
@[simp] theorem Regs.setM_thnd (r : Regs) (i : BitVec 4) (x : Mask) : (r.setM i x).thnd = r.thnd := by
  unfold Regs.setM; split <;> rfl
@[simp] theorem Regs.setM_fstat (r : Regs) (i : BitVec 4) (x : Mask) : (r.setM i x).fstat = r.fstat := by
  unfold Regs.setM; split <;> rfl
@[simp] theorem Regs.setM_tdisc (r : Regs) (i : BitVec 4) (x : Mask) : (r.setM i x).tdisc = r.tdisc := by
  unfold Regs.setM; split <;> rfl
@[simp] theorem Regs.setM_fepStep (r : Regs) (i : BitVec 4) (x : Mask) : (r.setM i x).fepStep = r.fepStep := by
  unfold Regs.setM; split <;> rfl
@[simp] theorem Regs.setM_fepCount (r : Regs) (i : BitVec 4) (x : Mask) : (r.setM i x).fepCount = r.fepCount := by
  unfold Regs.setM; split <;> rfl
@[simp] theorem Regs.setM_tbudget (r : Regs) (i : BitVec 4) (x : Mask) : (r.setM i x).tbudget = r.tbudget := by
  unfold Regs.setM; split <;> rfl
@[simp] theorem Regs.setP_s (r : Regs) (i : BitVec 6) (x : Bool) : (r.setP i x).s = r.s := by
  unfold Regs.setP; split <;> rfl
@[simp] theorem Regs.setP_v (r : Regs) (i : BitVec 6) (x : Bool) : (r.setP i x).v = r.v := by
  unfold Regs.setP; split <;> rfl
@[simp] theorem Regs.setP_m (r : Regs) (i : BitVec 6) (x : Bool) : (r.setP i x).m = r.m := by
  unfold Regs.setP; split <;> rfl
@[simp] theorem Regs.setP_lc (r : Regs) (i : BitVec 6) (x : Bool) : (r.setP i x).lc = r.lc := by
  unfold Regs.setP; split <;> rfl
@[simp] theorem Regs.setP_taskid (r : Regs) (i : BitVec 6) (x : Bool) : (r.setP i x).taskid = r.taskid := by
  unfold Regs.setP; split <;> rfl
@[simp] theorem Regs.setP_launchid (r : Regs) (i : BitVec 6) (x : Bool) : (r.setP i x).launchid = r.launchid := by
  unfold Regs.setP; split <;> rfl
@[simp] theorem Regs.setP_levels (r : Regs) (i : BitVec 6) (x : Bool) : (r.setP i x).levels = r.levels := by
  unfold Regs.setP; split <;> rfl
@[simp] theorem Regs.setP_coord (r : Regs) (i : BitVec 6) (x : Bool) : (r.setP i x).coord = r.coord := by
  unfold Regs.setP; split <;> rfl
@[simp] theorem Regs.setP_nbv (r : Regs) (i : BitVec 6) (x : Bool) : (r.setP i x).nbv = r.nbv := by
  unfold Regs.setP; split <;> rfl
@[simp] theorem Regs.setP_detm (r : Regs) (i : BitVec 6) (x : Bool) : (r.setP i x).detm = r.detm := by
  unfold Regs.setP; split <;> rfl
@[simp] theorem Regs.setP_rsig (r : Regs) (i : BitVec 6) (x : Bool) : (r.setP i x).rsig = r.rsig := by
  unfold Regs.setP; split <;> rfl
@[simp] theorem Regs.setP_ftsel (r : Regs) (i : BitVec 6) (x : Bool) : (r.setP i x).ftsel = r.ftsel := by
  unfold Regs.setP; split <;> rfl
@[simp] theorem Regs.setP_vrm (r : Regs) (i : BitVec 6) (x : Bool) : (r.setP i x).vrm = r.vrm := by
  unfold Regs.setP; split <;> rfl
@[simp] theorem Regs.setP_tkceil (r : Regs) (i : BitVec 6) (x : Bool) : (r.setP i x).tkceil = r.tkceil := by
  unfold Regs.setP; split <;> rfl
@[simp] theorem Regs.setP_tkval (r : Regs) (i : BitVec 6) (x : Bool) : (r.setP i x).tkval = r.tkval := by
  unfold Regs.setP; split <;> rfl
@[simp] theorem Regs.setP_abar (r : Regs) (i : BitVec 6) (x : Bool) : (r.setP i x).abar = r.abar := by
  unfold Regs.setP; split <;> rfl
@[simp] theorem Regs.setP_fbase (r : Regs) (i : BitVec 6) (x : Bool) : (r.setP i x).fbase = r.fbase := by
  unfold Regs.setP; split <;> rfl
@[simp] theorem Regs.setP_ssn (r : Regs) (i : BitVec 6) (x : Bool) : (r.setP i x).ssn = r.ssn := by
  unfold Regs.setP; split <;> rfl
@[simp] theorem Regs.setP_discf (r : Regs) (i : BitVec 6) (x : Bool) : (r.setP i x).discf = r.discf := by
  unfold Regs.setP; split <;> rfl
@[simp] theorem Regs.setP_disc (r : Regs) (i : BitVec 6) (x : Bool) : (r.setP i x).disc = r.disc := by
  unfold Regs.setP; split <;> rfl
@[simp] theorem Regs.setP_ft (r : Regs) (i : BitVec 6) (x : Bool) : (r.setP i x).ft = r.ft := by
  unfold Regs.setP; split <;> rfl
@[simp] theorem Regs.setP_trc (r : Regs) (i : BitVec 6) (x : Bool) : (r.setP i x).trc = r.trc := by
  unfold Regs.setP; split <;> rfl
@[simp] theorem Regs.setP_thnd (r : Regs) (i : BitVec 6) (x : Bool) : (r.setP i x).thnd = r.thnd := by
  unfold Regs.setP; split <;> rfl
@[simp] theorem Regs.setP_fstat (r : Regs) (i : BitVec 6) (x : Bool) : (r.setP i x).fstat = r.fstat := by
  unfold Regs.setP; split <;> rfl
@[simp] theorem Regs.setP_tdisc (r : Regs) (i : BitVec 6) (x : Bool) : (r.setP i x).tdisc = r.tdisc := by
  unfold Regs.setP; split <;> rfl
@[simp] theorem Regs.setP_fepStep (r : Regs) (i : BitVec 6) (x : Bool) : (r.setP i x).fepStep = r.fepStep := by
  unfold Regs.setP; split <;> rfl
@[simp] theorem Regs.setP_fepCount (r : Regs) (i : BitVec 6) (x : Bool) : (r.setP i x).fepCount = r.fepCount := by
  unfold Regs.setP; split <;> rfl
@[simp] theorem Regs.setP_tbudget (r : Regs) (i : BitVec 6) (x : Bool) : (r.setP i x).tbudget = r.tbudget := by
  unfold Regs.setP; split <;> rfl
@[simp] theorem Regs.setV_s (r : Regs) (i : BitVec 5) (x : Vec) : (r.setV i x).s = r.s := rfl
@[simp] theorem Regs.setV_m (r : Regs) (i : BitVec 5) (x : Vec) : (r.setV i x).m = r.m := rfl
@[simp] theorem Regs.setV_p (r : Regs) (i : BitVec 5) (x : Vec) : (r.setV i x).p = r.p := rfl
@[simp] theorem Regs.setV_lc (r : Regs) (i : BitVec 5) (x : Vec) : (r.setV i x).lc = r.lc := rfl
@[simp] theorem Regs.setV_taskid (r : Regs) (i : BitVec 5) (x : Vec) : (r.setV i x).taskid = r.taskid := rfl
@[simp] theorem Regs.setV_launchid (r : Regs) (i : BitVec 5) (x : Vec) : (r.setV i x).launchid = r.launchid := rfl
@[simp] theorem Regs.setV_levels (r : Regs) (i : BitVec 5) (x : Vec) : (r.setV i x).levels = r.levels := rfl
@[simp] theorem Regs.setV_coord (r : Regs) (i : BitVec 5) (x : Vec) : (r.setV i x).coord = r.coord := rfl
@[simp] theorem Regs.setV_nbv (r : Regs) (i : BitVec 5) (x : Vec) : (r.setV i x).nbv = r.nbv := rfl
@[simp] theorem Regs.setV_detm (r : Regs) (i : BitVec 5) (x : Vec) : (r.setV i x).detm = r.detm := rfl
@[simp] theorem Regs.setV_rsig (r : Regs) (i : BitVec 5) (x : Vec) : (r.setV i x).rsig = r.rsig := rfl
@[simp] theorem Regs.setV_ftsel (r : Regs) (i : BitVec 5) (x : Vec) : (r.setV i x).ftsel = r.ftsel := rfl
@[simp] theorem Regs.setV_vrm (r : Regs) (i : BitVec 5) (x : Vec) : (r.setV i x).vrm = r.vrm := rfl
@[simp] theorem Regs.setV_tkceil (r : Regs) (i : BitVec 5) (x : Vec) : (r.setV i x).tkceil = r.tkceil := rfl
@[simp] theorem Regs.setV_tkval (r : Regs) (i : BitVec 5) (x : Vec) : (r.setV i x).tkval = r.tkval := rfl
@[simp] theorem Regs.setV_abar (r : Regs) (i : BitVec 5) (x : Vec) : (r.setV i x).abar = r.abar := rfl
@[simp] theorem Regs.setV_fbase (r : Regs) (i : BitVec 5) (x : Vec) : (r.setV i x).fbase = r.fbase := rfl
@[simp] theorem Regs.setV_ssn (r : Regs) (i : BitVec 5) (x : Vec) : (r.setV i x).ssn = r.ssn := rfl
@[simp] theorem Regs.setV_discf (r : Regs) (i : BitVec 5) (x : Vec) : (r.setV i x).discf = r.discf := rfl
@[simp] theorem Regs.setV_disc (r : Regs) (i : BitVec 5) (x : Vec) : (r.setV i x).disc = r.disc := rfl
@[simp] theorem Regs.setV_ft (r : Regs) (i : BitVec 5) (x : Vec) : (r.setV i x).ft = r.ft := rfl
@[simp] theorem Regs.setV_trc (r : Regs) (i : BitVec 5) (x : Vec) : (r.setV i x).trc = r.trc := rfl
@[simp] theorem Regs.setV_thnd (r : Regs) (i : BitVec 5) (x : Vec) : (r.setV i x).thnd = r.thnd := rfl
@[simp] theorem Regs.setV_fstat (r : Regs) (i : BitVec 5) (x : Vec) : (r.setV i x).fstat = r.fstat := rfl
@[simp] theorem Regs.setV_tdisc (r : Regs) (i : BitVec 5) (x : Vec) : (r.setV i x).tdisc = r.tdisc := rfl
@[simp] theorem Regs.setV_fepStep (r : Regs) (i : BitVec 5) (x : Vec) : (r.setV i x).fepStep = r.fepStep := rfl
@[simp] theorem Regs.setV_fepCount (r : Regs) (i : BitVec 5) (x : Vec) : (r.setV i x).fepCount = r.fepCount := rfl
@[simp] theorem Regs.setV_tbudget (r : Regs) (i : BitVec 5) (x : Vec) : (r.setV i x).tbudget = r.tbudget := rfl

/-! Writes at commit. -/

@[simp] theorem State.wrS_core_r (s : State) (i : BitVec 6) (x : Word) : (s.wrS i x).core.r = s.core.r.setS i x := rfl
@[simp] theorem State.wrP_core_r (s : State) (i : BitVec 6) (x : Bool) : (s.wrP i x).core.r = s.core.r.setP i x := rfl
@[simp] theorem State.wrS_core_id (s : State) (i : BitVec 6) (x : Word) : (s.wrS i x).core.id = s.core.id := rfl
@[simp] theorem State.wrS_core_st (s : State) (i : BitVec 6) (x : Word) : (s.wrS i x).core.st = s.core.st := rfl
@[simp] theorem State.wrS_core_iss (s : State) (i : BitVec 6) (x : Word) : (s.wrS i x).core.iss = s.core.iss := rfl
@[simp] theorem State.wrS_core_busy (s : State) (i : BitVec 6) (x : Word) : (s.wrS i x).core.busy = s.core.busy := rfl
@[simp] theorem State.wrS_core_pc (s : State) (i : BitVec 6) (x : Word) : (s.wrS i x).core.pc = s.core.pc := rfl
@[simp] theorem State.wrS_core_note (s : State) (i : BitVec 6) (x : Word) : (s.wrS i x).core.note = s.core.note := rfl
@[simp] theorem State.wrS_core_inh (s : State) (i : BitVec 6) (x : Word) : (s.wrS i x).core.inh = s.core.inh := rfl
@[simp] theorem State.wrS_core_fstatSet (s : State) (i : BitVec 6) (x : Word) : (s.wrS i x).core.fstatSet = s.core.fstatSet := rfl
@[simp] theorem State.wrS_core_cyc (s : State) (i : BitVec 6) (x : Word) : (s.wrS i x).core.cyc = s.core.cyc := rfl
@[simp] theorem State.wrS_core_delay (s : State) (i : BitVec 6) (x : Word) : (s.wrS i x).core.delay = s.core.delay := rfl
@[simp] theorem State.wrS_core_lateFrozen (s : State) (i : BitVec 6) (x : Word) : (s.wrS i x).core.lateFrozen = s.core.lateFrozen := rfl
@[simp] theorem State.wrS_core_left (s : State) (i : BitVec 6) (x : Word) : (s.wrS i x).core.left = s.core.left := rfl
@[simp] theorem State.wrS_core_gain (s : State) (i : BitVec 6) (x : Word) : (s.wrS i x).core.gain = s.core.gain := rfl
@[simp] theorem State.wrS_core_pend (s : State) (i : BitVec 6) (x : Word) : (s.wrS i x).core.pend = s.core.pend := rfl
@[simp] theorem State.wrS_core_kill (s : State) (i : BitVec 6) (x : Word) : (s.wrS i x).core.kill = s.core.kill := rfl
@[simp] theorem State.wrS_core_capReq (s : State) (i : BitVec 6) (x : Word) : (s.wrS i x).core.capReq = s.core.capReq := rfl
@[simp] theorem State.wrS_core_haltMcc (s : State) (i : BitVec 6) (x : Word) : (s.wrS i x).core.haltMcc = s.core.haltMcc := rfl
@[simp] theorem State.wrS_core_haltDrain (s : State) (i : BitVec 6) (x : Word) : (s.wrS i x).core.haltDrain = s.core.haltDrain := rfl
@[simp] theorem State.wrS_core_reissue (s : State) (i : BitVec 6) (x : Word) : (s.wrS i x).core.reissue = s.core.reissue := rfl
@[simp] theorem State.wrS_core_pf (s : State) (i : BitVec 6) (x : Word) : (s.wrS i x).core.pf = s.core.pf := rfl
@[simp] theorem State.wrS_core_lands (s : State) (i : BitVec 6) (x : Word) : (s.wrS i x).core.lands = s.core.lands := rfl
@[simp] theorem State.wrS_core_nextId (s : State) (i : BitVec 6) (x : Word) : (s.wrS i x).core.nextId = s.core.nextId := rfl
@[simp] theorem State.wrS_core_rsigM (s : State) (i : BitVec 6) (x : Word) : (s.wrS i x).core.rsigM = s.core.rsigM := rfl
@[simp] theorem State.wrS_core_rsigD (s : State) (i : BitVec 6) (x : Word) : (s.wrS i x).core.rsigD = s.core.rsigD := rfl
@[simp] theorem State.wrS_core_rsigV (s : State) (i : BitVec 6) (x : Word) : (s.wrS i x).core.rsigV = s.core.rsigV := rfl
@[simp] theorem State.wrS_core_sfuLast (s : State) (i : BitVec 6) (x : Word) : (s.wrS i x).core.sfuLast = s.core.sfuLast := rfl
@[simp] theorem State.wrS_core_mq (s : State) (i : BitVec 6) (x : Word) : (s.wrS i x).core.mq = s.core.mq := rfl
@[simp] theorem State.wrS_core_mqNext (s : State) (i : BitVec 6) (x : Word) : (s.wrS i x).core.mqNext = s.core.mqNext := rfl
@[simp] theorem State.wrS_core_mqDid (s : State) (i : BitVec 6) (x : Word) : (s.wrS i x).core.mqDid = s.core.mqDid := rfl
@[simp] theorem State.wrS_core_mqRnd (s : State) (i : BitVec 6) (x : Word) : (s.wrS i x).core.mqRnd = s.core.mqRnd := rfl
@[simp] theorem State.wrS_core_mqSat (s : State) (i : BitVec 6) (x : Word) : (s.wrS i x).core.mqSat = s.core.mqSat := rfl
@[simp] theorem State.wrS_core_comp (s : State) (i : BitVec 6) (x : Word) : (s.wrS i x).core.comp = s.core.comp := rfl
@[simp] theorem State.wrS_core_tilePort (s : State) (i : BitVec 6) (x : Word) : (s.wrS i x).core.tilePort = s.core.tilePort := rfl
@[simp] theorem State.wrS_core_tileRows (s : State) (i : BitVec 6) (x : Word) : (s.wrS i x).core.tileRows = s.core.tileRows := rfl
@[simp] theorem State.wrS_core_cq (s : State) (i : BitVec 6) (x : Word) : (s.wrS i x).core.cq = s.core.cq := rfl
@[simp] theorem State.wrS_core_cqNext (s : State) (i : BitVec 6) (x : Word) : (s.wrS i x).core.cqNext = s.core.cqNext := rfl
@[simp] theorem State.wrS_core_cqNum (s : State) (i : BitVec 6) (x : Word) : (s.wrS i x).core.cqNum = s.core.cqNum := rfl
@[simp] theorem State.wrS_core_cqPast (s : State) (i : BitVec 6) (x : Word) : (s.wrS i x).core.cqPast = s.core.cqPast := rfl
@[simp] theorem State.wrS_core_cqDone (s : State) (i : BitVec 6) (x : Word) : (s.wrS i x).core.cqDone = s.core.cqDone := rfl
@[simp] theorem State.wrS_core_ctl (s : State) (i : BitVec 6) (x : Word) : (s.wrS i x).core.ctl = s.core.ctl := rfl
@[simp] theorem State.wrS_core_rows (s : State) (i : BitVec 6) (x : Word) : (s.wrS i x).core.rows = s.core.rows := rfl
@[simp] theorem State.wrS_core_seed0 (s : State) (i : BitVec 6) (x : Word) : (s.wrS i x).core.seed0 = s.core.seed0 := rfl
@[simp] theorem State.wrS_core_seed1 (s : State) (i : BitVec 6) (x : Word) : (s.wrS i x).core.seed1 = s.core.seed1 := rfl
@[simp] theorem State.wrS_core_badWords (s : State) (i : BitVec 6) (x : Word) : (s.wrS i x).core.badWords = s.core.badWords := rfl
@[simp] theorem State.wrS_core_badReg (s : State) (i : BitVec 6) (x : Word) : (s.wrS i x).core.badReg = s.core.badReg := rfl
@[simp] theorem State.wrS_core_rowsWas (s : State) (i : BitVec 6) (x : Word) : (s.wrS i x).core.rowsWas = s.core.rowsWas := rfl
@[simp] theorem State.wrS_core_port (s : State) (i : BitVec 6) (x : Word) : (s.wrS i x).core.port = s.core.port := rfl
@[simp] theorem State.wrS_core_tl (s : State) (i : BitVec 6) (x : Word) : (s.wrS i x).core.tl = s.core.tl := rfl
@[simp] theorem State.wrS_core_fifo (s : State) (i : BitVec 6) (x : Word) : (s.wrS i x).core.fifo = s.core.fifo := rfl
@[simp] theorem State.wrS_core_arr (s : State) (i : BitVec 6) (x : Word) : (s.wrS i x).core.arr = s.core.arr := rfl
@[simp] theorem State.wrS_core_firstReady (s : State) (i : BitVec 6) (x : Word) : (s.wrS i x).core.firstReady = s.core.firstReady := rfl
@[simp] theorem State.wrS_core_waitOn (s : State) (i : BitVec 6) (x : Word) : (s.wrS i x).core.waitOn = s.core.waitOn := rfl
@[simp] theorem State.wrS_core_stamps (s : State) (i : BitVec 6) (x : Word) : (s.wrS i x).core.stamps = s.core.stamps := rfl
@[simp] theorem State.wrS_core_orphan (s : State) (i : BitVec 6) (x : Word) : (s.wrS i x).core.orphan = s.core.orphan := rfl
@[simp] theorem State.wrS_core_relWait (s : State) (i : BitVec 6) (x : Word) : (s.wrS i x).core.relWait = s.core.relWait := rfl
@[simp] theorem State.wrS_core_ssArr (s : State) (i : BitVec 6) (x : Word) : (s.wrS i x).core.ssArr = s.core.ssArr := rfl
@[simp] theorem State.wrS_core_stores (s : State) (i : BitVec 6) (x : Word) : (s.wrS i x).core.stores = s.core.stores := rfl
@[simp] theorem State.wrS_core_fences (s : State) (i : BitVec 6) (x : Word) : (s.wrS i x).core.fences = s.core.fences := rfl
@[simp] theorem State.wrS_core_remotes (s : State) (i : BitVec 6) (x : Word) : (s.wrS i x).core.remotes = s.core.remotes := rfl
@[simp] theorem State.wrS_core_spawns (s : State) (i : BitVec 6) (x : Word) : (s.wrS i x).core.spawns = s.core.spawns := rfl
@[simp] theorem State.wrS_core_fetched (s : State) (i : BitVec 6) (x : Word) : (s.wrS i x).core.fetched = s.core.fetched := rfl
@[simp] theorem State.wrS_core_wordSigs (s : State) (i : BitVec 6) (x : Word) : (s.wrS i x).core.wordSigs = s.core.wordSigs := rfl
@[simp] theorem State.wrS_core_rqCore (s : State) (i : BitVec 6) (x : Word) : (s.wrS i x).core.rqCore = s.core.rqCore := rfl
@[simp] theorem State.wrS_core_rqSlot (s : State) (i : BitVec 6) (x : Word) : (s.wrS i x).core.rqSlot = s.core.rqSlot := rfl
@[simp] theorem State.wrS_core_rqNext (s : State) (i : BitVec 6) (x : Word) : (s.wrS i x).core.rqNext = s.core.rqNext := rfl
@[simp] theorem State.wrS_core_rqAckt (s : State) (i : BitVec 6) (x : Word) : (s.wrS i x).core.rqAckt = s.core.rqAckt := rfl
@[simp] theorem State.wrS_core_rqDone (s : State) (i : BitVec 6) (x : Word) : (s.wrS i x).core.rqDone = s.core.rqDone := rfl
@[simp] theorem State.wrS_core_task (s : State) (i : BitVec 6) (x : Word) : (s.wrS i x).core.task = s.core.task := rfl
@[simp] theorem State.wrS_core_staged (s : State) (i : BitVec 6) (x : Word) : (s.wrS i x).core.staged = s.core.staged := rfl
@[simp] theorem State.wrS_core_prevCtx (s : State) (i : BitVec 6) (x : Word) : (s.wrS i x).core.prevCtx = s.core.prevCtx := rfl
@[simp] theorem State.wrS_core_restoring (s : State) (i : BitVec 6) (x : Word) : (s.wrS i x).core.restoring = s.core.restoring := rfl
@[simp] theorem State.wrS_core_status (s : State) (i : BitVec 6) (x : Word) : (s.wrS i x).core.status = s.core.status := rfl
@[simp] theorem State.wrS_core_trapEnded (s : State) (i : BitVec 6) (x : Word) : (s.wrS i x).core.trapEnded = s.core.trapEnded := rfl
@[simp] theorem State.wrS_core_resumeM0 (s : State) (i : BitVec 6) (x : Word) : (s.wrS i x).core.resumeM0 = s.core.resumeM0 := rfl
@[simp] theorem State.wrS_core_l1 (s : State) (i : BitVec 6) (x : Word) : (s.wrS i x).core.l1 = s.core.l1 := rfl
@[simp] theorem State.wrS_core_fbuf (s : State) (i : BitVec 6) (x : Word) : (s.wrS i x).core.fbuf = s.core.fbuf := rfl
@[simp] theorem State.wrS_core_utlb (s : State) (i : BitVec 6) (x : Word) : (s.wrS i x).core.utlb = s.core.utlb := rfl
@[simp] theorem State.wrS_core_ctlb (s : State) (i : BitVec 6) (x : Word) : (s.wrS i x).core.ctlb = s.core.ctlb := rfl
@[simp] theorem State.wrS_core_grants (s : State) (i : BitVec 6) (x : Word) : (s.wrS i x).core.grants = s.core.grants := rfl
@[simp] theorem State.wrS_core_want (s : State) (i : BitVec 6) (x : Word) : (s.wrS i x).core.want = s.core.want := rfl
@[simp] theorem State.wrS_core_wantLeft (s : State) (i : BitVec 6) (x : Word) : (s.wrS i x).core.wantLeft = s.core.wantLeft := rfl
@[simp] theorem State.wrS_core_codeMem (s : State) (i : BitVec 6) (x : Word) : (s.wrS i x).core.codeMem = s.core.codeMem := rfl
@[simp] theorem State.wrS_core_accept (s : State) (i : BitVec 6) (x : Word) : (s.wrS i x).core.accept = s.core.accept := rfl
@[simp] theorem State.wrS_core_wfi (s : State) (i : BitVec 6) (x : Word) : (s.wrS i x).core.wfi = s.core.wfi := rfl
@[simp] theorem State.wrS_others (s : State) (i : BitVec 6) (x : Word) : (s.wrS i x).others = s.others := rfl
@[simp] theorem State.wrS_phase (s : State) (i : BitVec 6) (x : Word) : (s.wrS i x).phase = s.phase := rfl
@[simp] theorem State.wrS_turn (s : State) (i : BitVec 6) (x : Word) : (s.wrS i x).turn = s.turn := rfl
@[simp] theorem State.wrS_due (s : State) (i : BitVec 6) (x : Word) : (s.wrS i x).due = s.due := rfl
@[simp] theorem State.wrS_slot (s : State) (i : BitVec 6) (x : Word) : (s.wrS i x).slot = s.slot := rfl
@[simp] theorem State.wrS_ctr (s : State) (i : BitVec 6) (x : Word) : (s.wrS i x).ctr = s.ctr := rfl
@[simp] theorem State.wrS_inputs (s : State) (i : BitVec 6) (x : Word) : (s.wrS i x).inputs = s.inputs := rfl
@[simp] theorem State.wrS_mcc (s : State) (i : BitVec 6) (x : Word) : (s.wrS i x).mcc = s.mcc := rfl
@[simp] theorem State.wrS_ptp (s : State) (i : BitVec 6) (x : Word) : (s.wrS i x).ptp = s.ptp := rfl
@[simp] theorem State.wrS_ptpFrac (s : State) (i : BitVec 6) (x : Word) : (s.wrS i x).ptpFrac = s.ptpFrac := rfl
@[simp] theorem State.wrS_ptpSlew (s : State) (i : BitVec 6) (x : Word) : (s.wrS i x).ptpSlew = s.ptpSlew := rfl
@[simp] theorem State.wrS_mem (s : State) (i : BitVec 6) (x : Word) : (s.wrS i x).mem = s.mem := rfl
@[simp] theorem State.wrS_lines (s : State) (i : BitVec 6) (x : Word) : (s.wrS i x).lines = s.lines := rfl
@[simp] theorem State.wrS_sealed (s : State) (i : BitVec 6) (x : Word) : (s.wrS i x).sealed = s.sealed := rfl
@[simp] theorem State.wrS_keyGen (s : State) (i : BitVec 6) (x : Word) : (s.wrS i x).keyGen = s.keyGen := rfl
@[simp] theorem State.wrS_regs (s : State) (i : BitVec 6) (x : Word) : (s.wrS i x).regs = s.regs := rfl
@[simp] theorem State.wrS_timelines (s : State) (i : BitVec 6) (x : Word) : (s.wrS i x).timelines = s.timelines := rfl
@[simp] theorem State.wrS_arrays (s : State) (i : BitVec 6) (x : Word) : (s.wrS i x).arrays = s.arrays := rfl
@[simp] theorem State.wrS_clusters (s : State) (i : BitVec 6) (x : Word) : (s.wrS i x).clusters = s.clusters := rfl
@[simp] theorem State.wrS_barriers (s : State) (i : BitVec 6) (x : Word) : (s.wrS i x).barriers = s.barriers := rfl
@[simp] theorem State.wrS_steps (s : State) (i : BitVec 6) (x : Word) : (s.wrS i x).steps = s.steps := rfl
@[simp] theorem State.wrS_launches (s : State) (i : BitVec 6) (x : Word) : (s.wrS i x).launches = s.launches := rfl
@[simp] theorem State.wrS_nextSerial (s : State) (i : BitVec 6) (x : Word) : (s.wrS i x).nextSerial = s.nextSerial := rfl
@[simp] theorem State.wrS_readBusy (s : State) (i : BitVec 6) (x : Word) : (s.wrS i x).readBusy = s.readBusy := rfl
@[simp] theorem State.wrS_readRec (s : State) (i : BitVec 6) (x : Word) : (s.wrS i x).readRec = s.readRec := rfl
@[simp] theorem State.wrS_handoffs (s : State) (i : BitVec 6) (x : Word) : (s.wrS i x).handoffs = s.handoffs := rfl
@[simp] theorem State.wrS_boundAt (s : State) (i : BitVec 6) (x : Word) : (s.wrS i x).boundAt = s.boundAt := rfl
@[simp] theorem State.wrS_cancels (s : State) (i : BitVec 6) (x : Word) : (s.wrS i x).cancels = s.cancels := rfl
@[simp] theorem State.wrS_vt (s : State) (i : BitVec 6) (x : Word) : (s.wrS i x).vt = s.vt := rfl
@[simp] theorem State.wrS_eligible (s : State) (i : BitVec 6) (x : Word) : (s.wrS i x).eligible = s.eligible := rfl
@[simp] theorem State.wrS_slots (s : State) (i : BitVec 6) (x : Word) : (s.wrS i x).slots = s.slots := rfl
@[simp] theorem State.wrS_held (s : State) (i : BitVec 6) (x : Word) : (s.wrS i x).held = s.held := rfl
@[simp] theorem State.wrS_evTold (s : State) (i : BitVec 6) (x : Word) : (s.wrS i x).evTold = s.evTold := rfl
@[simp] theorem State.wrS_dtlb (s : State) (i : BitVec 6) (x : Word) : (s.wrS i x).dtlb = s.dtlb := rfl
@[simp] theorem State.wrS_inval (s : State) (i : BitVec 6) (x : Word) : (s.wrS i x).inval = s.inval := rfl
@[simp] theorem State.wrS_tags (s : State) (i : BitVec 6) (x : Word) : (s.wrS i x).tags = s.tags := rfl
@[simp] theorem State.wrS_llc (s : State) (i : BitVec 6) (x : Word) : (s.wrS i x).llc = s.llc := rfl
@[simp] theorem State.wrS_readCounts (s : State) (i : BitVec 6) (x : Word) : (s.wrS i x).readCounts = s.readCounts := rfl
@[simp] theorem State.wrS_pins (s : State) (i : BitVec 6) (x : Word) : (s.wrS i x).pins = s.pins := rfl
@[simp] theorem State.wrS_localHome (s : State) (i : BitVec 6) (x : Word) : (s.wrS i x).localHome = s.localHome := rfl
@[simp] theorem State.wrS_segs (s : State) (i : BitVec 6) (x : Word) : (s.wrS i x).segs = s.segs := rfl
@[simp] theorem State.wrS_segNext (s : State) (i : BitVec 6) (x : Word) : (s.wrS i x).segNext = s.segNext := rfl
@[simp] theorem State.wrS_nextReq (s : State) (i : BitVec 6) (x : Word) : (s.wrS i x).nextReq = s.nextReq := rfl
@[simp] theorem State.wrS_scrub (s : State) (i : BitVec 6) (x : Word) : (s.wrS i x).scrub = s.scrub := rfl
@[simp] theorem State.wrS_patrol (s : State) (i : BitVec 6) (x : Word) : (s.wrS i x).patrol = s.patrol := rfl
@[simp] theorem State.wrS_errLog (s : State) (i : BitVec 6) (x : Word) : (s.wrS i x).errLog = s.errLog := rfl
@[simp] theorem State.wrS_misses (s : State) (i : BitVec 6) (x : Word) : (s.wrS i x).misses = s.misses := rfl
@[simp] theorem State.wrS_peers (s : State) (i : BitVec 6) (x : Word) : (s.wrS i x).peers = s.peers := rfl
@[simp] theorem State.wrS_proofs (s : State) (i : BitVec 6) (x : Word) : (s.wrS i x).proofs = s.proofs := rfl
@[simp] theorem State.wrS_ackts (s : State) (i : BitVec 6) (x : Word) : (s.wrS i x).ackts = s.ackts := rfl
@[simp] theorem State.wrS_links (s : State) (i : BitVec 6) (x : Word) : (s.wrS i x).links = s.links := rfl
@[simp] theorem State.wrS_trees (s : State) (i : BitVec 6) (x : Word) : (s.wrS i x).trees = s.trees := rfl
@[simp] theorem State.wrS_outbox (s : State) (i : BitVec 6) (x : Word) : (s.wrS i x).outbox = s.outbox := rfl
@[simp] theorem State.wrS_landMarks (s : State) (i : BitVec 6) (x : Word) : (s.wrS i x).landMarks = s.landMarks := rfl
@[simp] theorem State.wrS_rqTable (s : State) (i : BitVec 6) (x : Word) : (s.wrS i x).rqTable = s.rqTable := rfl
@[simp] theorem State.wrS_hostDown (s : State) (i : BitVec 6) (x : Word) : (s.wrS i x).hostDown = s.hostDown := rfl
@[simp] theorem State.wrS_eyes (s : State) (i : BitVec 6) (x : Word) : (s.wrS i x).eyes = s.eyes := rfl
@[simp] theorem State.wrS_laneMap (s : State) (i : BitVec 6) (x : Word) : (s.wrS i x).laneMap = s.laneMap := rfl
@[simp] theorem State.wrS_spares (s : State) (i : BitVec 6) (x : Word) : (s.wrS i x).spares = s.spares := rfl
@[simp] theorem State.wrS_tripped (s : State) (i : BitVec 6) (x : Word) : (s.wrS i x).tripped = s.tripped := rfl
@[simp] theorem State.wrS_hot (s : State) (i : BitVec 6) (x : Word) : (s.wrS i x).hot = s.hot := rfl
@[simp] theorem State.wrS_samples (s : State) (i : BitVec 6) (x : Word) : (s.wrS i x).samples = s.samples := rfl
@[simp] theorem State.wrS_heldCyc (s : State) (i : BitVec 6) (x : Word) : (s.wrS i x).heldCyc = s.heldCyc := rfl
@[simp] theorem State.wrS_session (s : State) (i : BitVec 6) (x : Word) : (s.wrS i x).session = s.session := rfl
@[simp] theorem State.wrS_ideKeys (s : State) (i : BitVec 6) (x : Word) : (s.wrS i x).ideKeys = s.ideKeys := rfl
@[simp] theorem State.wrS_kwJob (s : State) (i : BitVec 6) (x : Word) : (s.wrS i x).kwJob = s.kwJob := rfl
@[simp] theorem State.wrS_hbmAct (s : State) (i : BitVec 6) (x : Word) : (s.wrS i x).hbmAct = s.hbmAct := rfl
@[simp] theorem State.wrS_hbmSel (s : State) (i : BitVec 6) (x : Word) : (s.wrS i x).hbmSel = s.hbmSel := rfl
@[simp] theorem State.wrS_rejoin (s : State) (i : BitVec 6) (x : Word) : (s.wrS i x).rejoin = s.rejoin := rfl
@[simp] theorem State.wrS_announced (s : State) (i : BitVec 6) (x : Word) : (s.wrS i x).announced = s.announced := rfl
@[simp] theorem State.wrS_supply (s : State) (i : BitVec 6) (x : Word) : (s.wrS i x).supply = s.supply := rfl
@[simp] theorem State.wrS_sheet (s : State) (i : BitVec 6) (x : Word) : (s.wrS i x).sheet = s.sheet := rfl
@[simp] theorem State.wrS_boot (s : State) (i : BitVec 6) (x : Word) : (s.wrS i x).boot = s.boot := rfl
@[simp] theorem State.wrS_landWait (s : State) (i : BitVec 6) (x : Word) : (s.wrS i x).landWait = s.landWait := rfl
@[simp] theorem State.wrS_irqSet (s : State) (i : BitVec 6) (x : Word) : (s.wrS i x).irqSet = s.irqSet := rfl
@[simp] theorem State.wrS_halted (s : State) (i : BitVec 6) (x : Word) : (s.wrS i x).halted = s.halted := rfl
@[simp] theorem State.wrP_core_id (s : State) (i : BitVec 6) (x : Bool) : (s.wrP i x).core.id = s.core.id := rfl
@[simp] theorem State.wrP_core_st (s : State) (i : BitVec 6) (x : Bool) : (s.wrP i x).core.st = s.core.st := rfl
@[simp] theorem State.wrP_core_iss (s : State) (i : BitVec 6) (x : Bool) : (s.wrP i x).core.iss = s.core.iss := rfl
@[simp] theorem State.wrP_core_busy (s : State) (i : BitVec 6) (x : Bool) : (s.wrP i x).core.busy = s.core.busy := rfl
@[simp] theorem State.wrP_core_pc (s : State) (i : BitVec 6) (x : Bool) : (s.wrP i x).core.pc = s.core.pc := rfl
@[simp] theorem State.wrP_core_note (s : State) (i : BitVec 6) (x : Bool) : (s.wrP i x).core.note = s.core.note := rfl
@[simp] theorem State.wrP_core_inh (s : State) (i : BitVec 6) (x : Bool) : (s.wrP i x).core.inh = s.core.inh := rfl
@[simp] theorem State.wrP_core_fstatSet (s : State) (i : BitVec 6) (x : Bool) : (s.wrP i x).core.fstatSet = s.core.fstatSet := rfl
@[simp] theorem State.wrP_core_cyc (s : State) (i : BitVec 6) (x : Bool) : (s.wrP i x).core.cyc = s.core.cyc := rfl
@[simp] theorem State.wrP_core_delay (s : State) (i : BitVec 6) (x : Bool) : (s.wrP i x).core.delay = s.core.delay := rfl
@[simp] theorem State.wrP_core_lateFrozen (s : State) (i : BitVec 6) (x : Bool) : (s.wrP i x).core.lateFrozen = s.core.lateFrozen := rfl
@[simp] theorem State.wrP_core_left (s : State) (i : BitVec 6) (x : Bool) : (s.wrP i x).core.left = s.core.left := rfl
@[simp] theorem State.wrP_core_gain (s : State) (i : BitVec 6) (x : Bool) : (s.wrP i x).core.gain = s.core.gain := rfl
@[simp] theorem State.wrP_core_pend (s : State) (i : BitVec 6) (x : Bool) : (s.wrP i x).core.pend = s.core.pend := rfl
@[simp] theorem State.wrP_core_kill (s : State) (i : BitVec 6) (x : Bool) : (s.wrP i x).core.kill = s.core.kill := rfl
@[simp] theorem State.wrP_core_capReq (s : State) (i : BitVec 6) (x : Bool) : (s.wrP i x).core.capReq = s.core.capReq := rfl
@[simp] theorem State.wrP_core_haltMcc (s : State) (i : BitVec 6) (x : Bool) : (s.wrP i x).core.haltMcc = s.core.haltMcc := rfl
@[simp] theorem State.wrP_core_haltDrain (s : State) (i : BitVec 6) (x : Bool) : (s.wrP i x).core.haltDrain = s.core.haltDrain := rfl
@[simp] theorem State.wrP_core_reissue (s : State) (i : BitVec 6) (x : Bool) : (s.wrP i x).core.reissue = s.core.reissue := rfl
@[simp] theorem State.wrP_core_pf (s : State) (i : BitVec 6) (x : Bool) : (s.wrP i x).core.pf = s.core.pf := rfl
@[simp] theorem State.wrP_core_lands (s : State) (i : BitVec 6) (x : Bool) : (s.wrP i x).core.lands = s.core.lands := rfl
@[simp] theorem State.wrP_core_nextId (s : State) (i : BitVec 6) (x : Bool) : (s.wrP i x).core.nextId = s.core.nextId := rfl
@[simp] theorem State.wrP_core_rsigM (s : State) (i : BitVec 6) (x : Bool) : (s.wrP i x).core.rsigM = s.core.rsigM := rfl
@[simp] theorem State.wrP_core_rsigD (s : State) (i : BitVec 6) (x : Bool) : (s.wrP i x).core.rsigD = s.core.rsigD := rfl
@[simp] theorem State.wrP_core_rsigV (s : State) (i : BitVec 6) (x : Bool) : (s.wrP i x).core.rsigV = s.core.rsigV := rfl
@[simp] theorem State.wrP_core_sfuLast (s : State) (i : BitVec 6) (x : Bool) : (s.wrP i x).core.sfuLast = s.core.sfuLast := rfl
@[simp] theorem State.wrP_core_mq (s : State) (i : BitVec 6) (x : Bool) : (s.wrP i x).core.mq = s.core.mq := rfl
@[simp] theorem State.wrP_core_mqNext (s : State) (i : BitVec 6) (x : Bool) : (s.wrP i x).core.mqNext = s.core.mqNext := rfl
@[simp] theorem State.wrP_core_mqDid (s : State) (i : BitVec 6) (x : Bool) : (s.wrP i x).core.mqDid = s.core.mqDid := rfl
@[simp] theorem State.wrP_core_mqRnd (s : State) (i : BitVec 6) (x : Bool) : (s.wrP i x).core.mqRnd = s.core.mqRnd := rfl
@[simp] theorem State.wrP_core_mqSat (s : State) (i : BitVec 6) (x : Bool) : (s.wrP i x).core.mqSat = s.core.mqSat := rfl
@[simp] theorem State.wrP_core_comp (s : State) (i : BitVec 6) (x : Bool) : (s.wrP i x).core.comp = s.core.comp := rfl
@[simp] theorem State.wrP_core_tilePort (s : State) (i : BitVec 6) (x : Bool) : (s.wrP i x).core.tilePort = s.core.tilePort := rfl
@[simp] theorem State.wrP_core_tileRows (s : State) (i : BitVec 6) (x : Bool) : (s.wrP i x).core.tileRows = s.core.tileRows := rfl
@[simp] theorem State.wrP_core_cq (s : State) (i : BitVec 6) (x : Bool) : (s.wrP i x).core.cq = s.core.cq := rfl
@[simp] theorem State.wrP_core_cqNext (s : State) (i : BitVec 6) (x : Bool) : (s.wrP i x).core.cqNext = s.core.cqNext := rfl
@[simp] theorem State.wrP_core_cqNum (s : State) (i : BitVec 6) (x : Bool) : (s.wrP i x).core.cqNum = s.core.cqNum := rfl
@[simp] theorem State.wrP_core_cqPast (s : State) (i : BitVec 6) (x : Bool) : (s.wrP i x).core.cqPast = s.core.cqPast := rfl
@[simp] theorem State.wrP_core_cqDone (s : State) (i : BitVec 6) (x : Bool) : (s.wrP i x).core.cqDone = s.core.cqDone := rfl
@[simp] theorem State.wrP_core_ctl (s : State) (i : BitVec 6) (x : Bool) : (s.wrP i x).core.ctl = s.core.ctl := rfl
@[simp] theorem State.wrP_core_rows (s : State) (i : BitVec 6) (x : Bool) : (s.wrP i x).core.rows = s.core.rows := rfl
@[simp] theorem State.wrP_core_seed0 (s : State) (i : BitVec 6) (x : Bool) : (s.wrP i x).core.seed0 = s.core.seed0 := rfl
@[simp] theorem State.wrP_core_seed1 (s : State) (i : BitVec 6) (x : Bool) : (s.wrP i x).core.seed1 = s.core.seed1 := rfl
@[simp] theorem State.wrP_core_badWords (s : State) (i : BitVec 6) (x : Bool) : (s.wrP i x).core.badWords = s.core.badWords := rfl
@[simp] theorem State.wrP_core_badReg (s : State) (i : BitVec 6) (x : Bool) : (s.wrP i x).core.badReg = s.core.badReg := rfl
@[simp] theorem State.wrP_core_rowsWas (s : State) (i : BitVec 6) (x : Bool) : (s.wrP i x).core.rowsWas = s.core.rowsWas := rfl
@[simp] theorem State.wrP_core_port (s : State) (i : BitVec 6) (x : Bool) : (s.wrP i x).core.port = s.core.port := rfl
@[simp] theorem State.wrP_core_tl (s : State) (i : BitVec 6) (x : Bool) : (s.wrP i x).core.tl = s.core.tl := rfl
@[simp] theorem State.wrP_core_fifo (s : State) (i : BitVec 6) (x : Bool) : (s.wrP i x).core.fifo = s.core.fifo := rfl
@[simp] theorem State.wrP_core_arr (s : State) (i : BitVec 6) (x : Bool) : (s.wrP i x).core.arr = s.core.arr := rfl
@[simp] theorem State.wrP_core_firstReady (s : State) (i : BitVec 6) (x : Bool) : (s.wrP i x).core.firstReady = s.core.firstReady := rfl
@[simp] theorem State.wrP_core_waitOn (s : State) (i : BitVec 6) (x : Bool) : (s.wrP i x).core.waitOn = s.core.waitOn := rfl
@[simp] theorem State.wrP_core_stamps (s : State) (i : BitVec 6) (x : Bool) : (s.wrP i x).core.stamps = s.core.stamps := rfl
@[simp] theorem State.wrP_core_orphan (s : State) (i : BitVec 6) (x : Bool) : (s.wrP i x).core.orphan = s.core.orphan := rfl
@[simp] theorem State.wrP_core_relWait (s : State) (i : BitVec 6) (x : Bool) : (s.wrP i x).core.relWait = s.core.relWait := rfl
@[simp] theorem State.wrP_core_ssArr (s : State) (i : BitVec 6) (x : Bool) : (s.wrP i x).core.ssArr = s.core.ssArr := rfl
@[simp] theorem State.wrP_core_stores (s : State) (i : BitVec 6) (x : Bool) : (s.wrP i x).core.stores = s.core.stores := rfl
@[simp] theorem State.wrP_core_fences (s : State) (i : BitVec 6) (x : Bool) : (s.wrP i x).core.fences = s.core.fences := rfl
@[simp] theorem State.wrP_core_remotes (s : State) (i : BitVec 6) (x : Bool) : (s.wrP i x).core.remotes = s.core.remotes := rfl
@[simp] theorem State.wrP_core_spawns (s : State) (i : BitVec 6) (x : Bool) : (s.wrP i x).core.spawns = s.core.spawns := rfl
@[simp] theorem State.wrP_core_fetched (s : State) (i : BitVec 6) (x : Bool) : (s.wrP i x).core.fetched = s.core.fetched := rfl
@[simp] theorem State.wrP_core_wordSigs (s : State) (i : BitVec 6) (x : Bool) : (s.wrP i x).core.wordSigs = s.core.wordSigs := rfl
@[simp] theorem State.wrP_core_rqCore (s : State) (i : BitVec 6) (x : Bool) : (s.wrP i x).core.rqCore = s.core.rqCore := rfl
@[simp] theorem State.wrP_core_rqSlot (s : State) (i : BitVec 6) (x : Bool) : (s.wrP i x).core.rqSlot = s.core.rqSlot := rfl
@[simp] theorem State.wrP_core_rqNext (s : State) (i : BitVec 6) (x : Bool) : (s.wrP i x).core.rqNext = s.core.rqNext := rfl
@[simp] theorem State.wrP_core_rqAckt (s : State) (i : BitVec 6) (x : Bool) : (s.wrP i x).core.rqAckt = s.core.rqAckt := rfl
@[simp] theorem State.wrP_core_rqDone (s : State) (i : BitVec 6) (x : Bool) : (s.wrP i x).core.rqDone = s.core.rqDone := rfl
@[simp] theorem State.wrP_core_task (s : State) (i : BitVec 6) (x : Bool) : (s.wrP i x).core.task = s.core.task := rfl
@[simp] theorem State.wrP_core_staged (s : State) (i : BitVec 6) (x : Bool) : (s.wrP i x).core.staged = s.core.staged := rfl
@[simp] theorem State.wrP_core_prevCtx (s : State) (i : BitVec 6) (x : Bool) : (s.wrP i x).core.prevCtx = s.core.prevCtx := rfl
@[simp] theorem State.wrP_core_restoring (s : State) (i : BitVec 6) (x : Bool) : (s.wrP i x).core.restoring = s.core.restoring := rfl
@[simp] theorem State.wrP_core_status (s : State) (i : BitVec 6) (x : Bool) : (s.wrP i x).core.status = s.core.status := rfl
@[simp] theorem State.wrP_core_trapEnded (s : State) (i : BitVec 6) (x : Bool) : (s.wrP i x).core.trapEnded = s.core.trapEnded := rfl
@[simp] theorem State.wrP_core_resumeM0 (s : State) (i : BitVec 6) (x : Bool) : (s.wrP i x).core.resumeM0 = s.core.resumeM0 := rfl
@[simp] theorem State.wrP_core_l1 (s : State) (i : BitVec 6) (x : Bool) : (s.wrP i x).core.l1 = s.core.l1 := rfl
@[simp] theorem State.wrP_core_fbuf (s : State) (i : BitVec 6) (x : Bool) : (s.wrP i x).core.fbuf = s.core.fbuf := rfl
@[simp] theorem State.wrP_core_utlb (s : State) (i : BitVec 6) (x : Bool) : (s.wrP i x).core.utlb = s.core.utlb := rfl
@[simp] theorem State.wrP_core_ctlb (s : State) (i : BitVec 6) (x : Bool) : (s.wrP i x).core.ctlb = s.core.ctlb := rfl
@[simp] theorem State.wrP_core_grants (s : State) (i : BitVec 6) (x : Bool) : (s.wrP i x).core.grants = s.core.grants := rfl
@[simp] theorem State.wrP_core_want (s : State) (i : BitVec 6) (x : Bool) : (s.wrP i x).core.want = s.core.want := rfl
@[simp] theorem State.wrP_core_wantLeft (s : State) (i : BitVec 6) (x : Bool) : (s.wrP i x).core.wantLeft = s.core.wantLeft := rfl
@[simp] theorem State.wrP_core_codeMem (s : State) (i : BitVec 6) (x : Bool) : (s.wrP i x).core.codeMem = s.core.codeMem := rfl
@[simp] theorem State.wrP_core_accept (s : State) (i : BitVec 6) (x : Bool) : (s.wrP i x).core.accept = s.core.accept := rfl
@[simp] theorem State.wrP_core_wfi (s : State) (i : BitVec 6) (x : Bool) : (s.wrP i x).core.wfi = s.core.wfi := rfl
@[simp] theorem State.wrP_others (s : State) (i : BitVec 6) (x : Bool) : (s.wrP i x).others = s.others := rfl
@[simp] theorem State.wrP_phase (s : State) (i : BitVec 6) (x : Bool) : (s.wrP i x).phase = s.phase := rfl
@[simp] theorem State.wrP_turn (s : State) (i : BitVec 6) (x : Bool) : (s.wrP i x).turn = s.turn := rfl
@[simp] theorem State.wrP_due (s : State) (i : BitVec 6) (x : Bool) : (s.wrP i x).due = s.due := rfl
@[simp] theorem State.wrP_slot (s : State) (i : BitVec 6) (x : Bool) : (s.wrP i x).slot = s.slot := rfl
@[simp] theorem State.wrP_ctr (s : State) (i : BitVec 6) (x : Bool) : (s.wrP i x).ctr = s.ctr := rfl
@[simp] theorem State.wrP_inputs (s : State) (i : BitVec 6) (x : Bool) : (s.wrP i x).inputs = s.inputs := rfl
@[simp] theorem State.wrP_mcc (s : State) (i : BitVec 6) (x : Bool) : (s.wrP i x).mcc = s.mcc := rfl
@[simp] theorem State.wrP_ptp (s : State) (i : BitVec 6) (x : Bool) : (s.wrP i x).ptp = s.ptp := rfl
@[simp] theorem State.wrP_ptpFrac (s : State) (i : BitVec 6) (x : Bool) : (s.wrP i x).ptpFrac = s.ptpFrac := rfl
@[simp] theorem State.wrP_ptpSlew (s : State) (i : BitVec 6) (x : Bool) : (s.wrP i x).ptpSlew = s.ptpSlew := rfl
@[simp] theorem State.wrP_mem (s : State) (i : BitVec 6) (x : Bool) : (s.wrP i x).mem = s.mem := rfl
@[simp] theorem State.wrP_lines (s : State) (i : BitVec 6) (x : Bool) : (s.wrP i x).lines = s.lines := rfl
@[simp] theorem State.wrP_sealed (s : State) (i : BitVec 6) (x : Bool) : (s.wrP i x).sealed = s.sealed := rfl
@[simp] theorem State.wrP_keyGen (s : State) (i : BitVec 6) (x : Bool) : (s.wrP i x).keyGen = s.keyGen := rfl
@[simp] theorem State.wrP_regs (s : State) (i : BitVec 6) (x : Bool) : (s.wrP i x).regs = s.regs := rfl
@[simp] theorem State.wrP_timelines (s : State) (i : BitVec 6) (x : Bool) : (s.wrP i x).timelines = s.timelines := rfl
@[simp] theorem State.wrP_arrays (s : State) (i : BitVec 6) (x : Bool) : (s.wrP i x).arrays = s.arrays := rfl
@[simp] theorem State.wrP_clusters (s : State) (i : BitVec 6) (x : Bool) : (s.wrP i x).clusters = s.clusters := rfl
@[simp] theorem State.wrP_barriers (s : State) (i : BitVec 6) (x : Bool) : (s.wrP i x).barriers = s.barriers := rfl
@[simp] theorem State.wrP_steps (s : State) (i : BitVec 6) (x : Bool) : (s.wrP i x).steps = s.steps := rfl
@[simp] theorem State.wrP_launches (s : State) (i : BitVec 6) (x : Bool) : (s.wrP i x).launches = s.launches := rfl
@[simp] theorem State.wrP_nextSerial (s : State) (i : BitVec 6) (x : Bool) : (s.wrP i x).nextSerial = s.nextSerial := rfl
@[simp] theorem State.wrP_readBusy (s : State) (i : BitVec 6) (x : Bool) : (s.wrP i x).readBusy = s.readBusy := rfl
@[simp] theorem State.wrP_readRec (s : State) (i : BitVec 6) (x : Bool) : (s.wrP i x).readRec = s.readRec := rfl
@[simp] theorem State.wrP_handoffs (s : State) (i : BitVec 6) (x : Bool) : (s.wrP i x).handoffs = s.handoffs := rfl
@[simp] theorem State.wrP_boundAt (s : State) (i : BitVec 6) (x : Bool) : (s.wrP i x).boundAt = s.boundAt := rfl
@[simp] theorem State.wrP_cancels (s : State) (i : BitVec 6) (x : Bool) : (s.wrP i x).cancels = s.cancels := rfl
@[simp] theorem State.wrP_vt (s : State) (i : BitVec 6) (x : Bool) : (s.wrP i x).vt = s.vt := rfl
@[simp] theorem State.wrP_eligible (s : State) (i : BitVec 6) (x : Bool) : (s.wrP i x).eligible = s.eligible := rfl
@[simp] theorem State.wrP_slots (s : State) (i : BitVec 6) (x : Bool) : (s.wrP i x).slots = s.slots := rfl
@[simp] theorem State.wrP_held (s : State) (i : BitVec 6) (x : Bool) : (s.wrP i x).held = s.held := rfl
@[simp] theorem State.wrP_evTold (s : State) (i : BitVec 6) (x : Bool) : (s.wrP i x).evTold = s.evTold := rfl
@[simp] theorem State.wrP_dtlb (s : State) (i : BitVec 6) (x : Bool) : (s.wrP i x).dtlb = s.dtlb := rfl
@[simp] theorem State.wrP_inval (s : State) (i : BitVec 6) (x : Bool) : (s.wrP i x).inval = s.inval := rfl
@[simp] theorem State.wrP_tags (s : State) (i : BitVec 6) (x : Bool) : (s.wrP i x).tags = s.tags := rfl
@[simp] theorem State.wrP_llc (s : State) (i : BitVec 6) (x : Bool) : (s.wrP i x).llc = s.llc := rfl
@[simp] theorem State.wrP_readCounts (s : State) (i : BitVec 6) (x : Bool) : (s.wrP i x).readCounts = s.readCounts := rfl
@[simp] theorem State.wrP_pins (s : State) (i : BitVec 6) (x : Bool) : (s.wrP i x).pins = s.pins := rfl
@[simp] theorem State.wrP_localHome (s : State) (i : BitVec 6) (x : Bool) : (s.wrP i x).localHome = s.localHome := rfl
@[simp] theorem State.wrP_segs (s : State) (i : BitVec 6) (x : Bool) : (s.wrP i x).segs = s.segs := rfl
@[simp] theorem State.wrP_segNext (s : State) (i : BitVec 6) (x : Bool) : (s.wrP i x).segNext = s.segNext := rfl
@[simp] theorem State.wrP_nextReq (s : State) (i : BitVec 6) (x : Bool) : (s.wrP i x).nextReq = s.nextReq := rfl
@[simp] theorem State.wrP_scrub (s : State) (i : BitVec 6) (x : Bool) : (s.wrP i x).scrub = s.scrub := rfl
@[simp] theorem State.wrP_patrol (s : State) (i : BitVec 6) (x : Bool) : (s.wrP i x).patrol = s.patrol := rfl
@[simp] theorem State.wrP_errLog (s : State) (i : BitVec 6) (x : Bool) : (s.wrP i x).errLog = s.errLog := rfl
@[simp] theorem State.wrP_misses (s : State) (i : BitVec 6) (x : Bool) : (s.wrP i x).misses = s.misses := rfl
@[simp] theorem State.wrP_peers (s : State) (i : BitVec 6) (x : Bool) : (s.wrP i x).peers = s.peers := rfl
@[simp] theorem State.wrP_proofs (s : State) (i : BitVec 6) (x : Bool) : (s.wrP i x).proofs = s.proofs := rfl
@[simp] theorem State.wrP_ackts (s : State) (i : BitVec 6) (x : Bool) : (s.wrP i x).ackts = s.ackts := rfl
@[simp] theorem State.wrP_links (s : State) (i : BitVec 6) (x : Bool) : (s.wrP i x).links = s.links := rfl
@[simp] theorem State.wrP_trees (s : State) (i : BitVec 6) (x : Bool) : (s.wrP i x).trees = s.trees := rfl
@[simp] theorem State.wrP_outbox (s : State) (i : BitVec 6) (x : Bool) : (s.wrP i x).outbox = s.outbox := rfl
@[simp] theorem State.wrP_landMarks (s : State) (i : BitVec 6) (x : Bool) : (s.wrP i x).landMarks = s.landMarks := rfl
@[simp] theorem State.wrP_rqTable (s : State) (i : BitVec 6) (x : Bool) : (s.wrP i x).rqTable = s.rqTable := rfl
@[simp] theorem State.wrP_hostDown (s : State) (i : BitVec 6) (x : Bool) : (s.wrP i x).hostDown = s.hostDown := rfl
@[simp] theorem State.wrP_eyes (s : State) (i : BitVec 6) (x : Bool) : (s.wrP i x).eyes = s.eyes := rfl
@[simp] theorem State.wrP_laneMap (s : State) (i : BitVec 6) (x : Bool) : (s.wrP i x).laneMap = s.laneMap := rfl
@[simp] theorem State.wrP_spares (s : State) (i : BitVec 6) (x : Bool) : (s.wrP i x).spares = s.spares := rfl
@[simp] theorem State.wrP_tripped (s : State) (i : BitVec 6) (x : Bool) : (s.wrP i x).tripped = s.tripped := rfl
@[simp] theorem State.wrP_hot (s : State) (i : BitVec 6) (x : Bool) : (s.wrP i x).hot = s.hot := rfl
@[simp] theorem State.wrP_samples (s : State) (i : BitVec 6) (x : Bool) : (s.wrP i x).samples = s.samples := rfl
@[simp] theorem State.wrP_heldCyc (s : State) (i : BitVec 6) (x : Bool) : (s.wrP i x).heldCyc = s.heldCyc := rfl
@[simp] theorem State.wrP_session (s : State) (i : BitVec 6) (x : Bool) : (s.wrP i x).session = s.session := rfl
@[simp] theorem State.wrP_ideKeys (s : State) (i : BitVec 6) (x : Bool) : (s.wrP i x).ideKeys = s.ideKeys := rfl
@[simp] theorem State.wrP_kwJob (s : State) (i : BitVec 6) (x : Bool) : (s.wrP i x).kwJob = s.kwJob := rfl
@[simp] theorem State.wrP_hbmAct (s : State) (i : BitVec 6) (x : Bool) : (s.wrP i x).hbmAct = s.hbmAct := rfl
@[simp] theorem State.wrP_hbmSel (s : State) (i : BitVec 6) (x : Bool) : (s.wrP i x).hbmSel = s.hbmSel := rfl
@[simp] theorem State.wrP_rejoin (s : State) (i : BitVec 6) (x : Bool) : (s.wrP i x).rejoin = s.rejoin := rfl
@[simp] theorem State.wrP_announced (s : State) (i : BitVec 6) (x : Bool) : (s.wrP i x).announced = s.announced := rfl
@[simp] theorem State.wrP_supply (s : State) (i : BitVec 6) (x : Bool) : (s.wrP i x).supply = s.supply := rfl
@[simp] theorem State.wrP_sheet (s : State) (i : BitVec 6) (x : Bool) : (s.wrP i x).sheet = s.sheet := rfl
@[simp] theorem State.wrP_boot (s : State) (i : BitVec 6) (x : Bool) : (s.wrP i x).boot = s.boot := rfl
@[simp] theorem State.wrP_landWait (s : State) (i : BitVec 6) (x : Bool) : (s.wrP i x).landWait = s.landWait := rfl
@[simp] theorem State.wrP_irqSet (s : State) (i : BitVec 6) (x : Bool) : (s.wrP i x).irqSet = s.irqSet := rfl
@[simp] theorem State.wrP_halted (s : State) (i : BitVec 6) (x : Bool) : (s.wrP i x).halted = s.halted := rfl

/-! The next PC a slot notes, and the FSTAT bits hardware sets. -/

@[simp] theorem State.noteNext_core_id (s : State) (n : Note) : (s.noteNext n).core.id = s.core.id := rfl
@[simp] theorem State.noteNext_core_st (s : State) (n : Note) : (s.noteNext n).core.st = s.core.st := rfl
@[simp] theorem State.noteNext_core_r (s : State) (n : Note) : (s.noteNext n).core.r = s.core.r := rfl
@[simp] theorem State.noteNext_core_iss (s : State) (n : Note) : (s.noteNext n).core.iss = s.core.iss := rfl
@[simp] theorem State.noteNext_core_busy (s : State) (n : Note) : (s.noteNext n).core.busy = s.core.busy := rfl
@[simp] theorem State.noteNext_core_pc (s : State) (n : Note) : (s.noteNext n).core.pc = s.core.pc := rfl
@[simp] theorem State.noteNext_core_inh (s : State) (n : Note) : (s.noteNext n).core.inh = s.core.inh := rfl
@[simp] theorem State.noteNext_core_fstatSet (s : State) (n : Note) : (s.noteNext n).core.fstatSet = s.core.fstatSet := rfl
@[simp] theorem State.noteNext_core_cyc (s : State) (n : Note) : (s.noteNext n).core.cyc = s.core.cyc := rfl
@[simp] theorem State.noteNext_core_delay (s : State) (n : Note) : (s.noteNext n).core.delay = s.core.delay := rfl
@[simp] theorem State.noteNext_core_lateFrozen (s : State) (n : Note) : (s.noteNext n).core.lateFrozen = s.core.lateFrozen := rfl
@[simp] theorem State.noteNext_core_left (s : State) (n : Note) : (s.noteNext n).core.left = s.core.left := rfl
@[simp] theorem State.noteNext_core_gain (s : State) (n : Note) : (s.noteNext n).core.gain = s.core.gain := rfl
@[simp] theorem State.noteNext_core_pend (s : State) (n : Note) : (s.noteNext n).core.pend = s.core.pend := rfl
@[simp] theorem State.noteNext_core_kill (s : State) (n : Note) : (s.noteNext n).core.kill = s.core.kill := rfl
@[simp] theorem State.noteNext_core_capReq (s : State) (n : Note) : (s.noteNext n).core.capReq = s.core.capReq := rfl
@[simp] theorem State.noteNext_core_haltMcc (s : State) (n : Note) : (s.noteNext n).core.haltMcc = s.core.haltMcc := rfl
@[simp] theorem State.noteNext_core_haltDrain (s : State) (n : Note) : (s.noteNext n).core.haltDrain = s.core.haltDrain := rfl
@[simp] theorem State.noteNext_core_reissue (s : State) (n : Note) : (s.noteNext n).core.reissue = s.core.reissue := rfl
@[simp] theorem State.noteNext_core_pf (s : State) (n : Note) : (s.noteNext n).core.pf = s.core.pf := rfl
@[simp] theorem State.noteNext_core_lands (s : State) (n : Note) : (s.noteNext n).core.lands = s.core.lands := rfl
@[simp] theorem State.noteNext_core_nextId (s : State) (n : Note) : (s.noteNext n).core.nextId = s.core.nextId := rfl
@[simp] theorem State.noteNext_core_rsigM (s : State) (n : Note) : (s.noteNext n).core.rsigM = s.core.rsigM := rfl
@[simp] theorem State.noteNext_core_rsigD (s : State) (n : Note) : (s.noteNext n).core.rsigD = s.core.rsigD := rfl
@[simp] theorem State.noteNext_core_rsigV (s : State) (n : Note) : (s.noteNext n).core.rsigV = s.core.rsigV := rfl
@[simp] theorem State.noteNext_core_sfuLast (s : State) (n : Note) : (s.noteNext n).core.sfuLast = s.core.sfuLast := rfl
@[simp] theorem State.noteNext_core_mq (s : State) (n : Note) : (s.noteNext n).core.mq = s.core.mq := rfl
@[simp] theorem State.noteNext_core_mqNext (s : State) (n : Note) : (s.noteNext n).core.mqNext = s.core.mqNext := rfl
@[simp] theorem State.noteNext_core_mqDid (s : State) (n : Note) : (s.noteNext n).core.mqDid = s.core.mqDid := rfl
@[simp] theorem State.noteNext_core_mqRnd (s : State) (n : Note) : (s.noteNext n).core.mqRnd = s.core.mqRnd := rfl
@[simp] theorem State.noteNext_core_mqSat (s : State) (n : Note) : (s.noteNext n).core.mqSat = s.core.mqSat := rfl
@[simp] theorem State.noteNext_core_comp (s : State) (n : Note) : (s.noteNext n).core.comp = s.core.comp := rfl
@[simp] theorem State.noteNext_core_tilePort (s : State) (n : Note) : (s.noteNext n).core.tilePort = s.core.tilePort := rfl
@[simp] theorem State.noteNext_core_tileRows (s : State) (n : Note) : (s.noteNext n).core.tileRows = s.core.tileRows := rfl
@[simp] theorem State.noteNext_core_cq (s : State) (n : Note) : (s.noteNext n).core.cq = s.core.cq := rfl
@[simp] theorem State.noteNext_core_cqNext (s : State) (n : Note) : (s.noteNext n).core.cqNext = s.core.cqNext := rfl
@[simp] theorem State.noteNext_core_cqNum (s : State) (n : Note) : (s.noteNext n).core.cqNum = s.core.cqNum := rfl
@[simp] theorem State.noteNext_core_cqPast (s : State) (n : Note) : (s.noteNext n).core.cqPast = s.core.cqPast := rfl
@[simp] theorem State.noteNext_core_cqDone (s : State) (n : Note) : (s.noteNext n).core.cqDone = s.core.cqDone := rfl
@[simp] theorem State.noteNext_core_ctl (s : State) (n : Note) : (s.noteNext n).core.ctl = s.core.ctl := rfl
@[simp] theorem State.noteNext_core_rows (s : State) (n : Note) : (s.noteNext n).core.rows = s.core.rows := rfl
@[simp] theorem State.noteNext_core_seed0 (s : State) (n : Note) : (s.noteNext n).core.seed0 = s.core.seed0 := rfl
@[simp] theorem State.noteNext_core_seed1 (s : State) (n : Note) : (s.noteNext n).core.seed1 = s.core.seed1 := rfl
@[simp] theorem State.noteNext_core_badWords (s : State) (n : Note) : (s.noteNext n).core.badWords = s.core.badWords := rfl
@[simp] theorem State.noteNext_core_badReg (s : State) (n : Note) : (s.noteNext n).core.badReg = s.core.badReg := rfl
@[simp] theorem State.noteNext_core_rowsWas (s : State) (n : Note) : (s.noteNext n).core.rowsWas = s.core.rowsWas := rfl
@[simp] theorem State.noteNext_core_port (s : State) (n : Note) : (s.noteNext n).core.port = s.core.port := rfl
@[simp] theorem State.noteNext_core_tl (s : State) (n : Note) : (s.noteNext n).core.tl = s.core.tl := rfl
@[simp] theorem State.noteNext_core_fifo (s : State) (n : Note) : (s.noteNext n).core.fifo = s.core.fifo := rfl
@[simp] theorem State.noteNext_core_arr (s : State) (n : Note) : (s.noteNext n).core.arr = s.core.arr := rfl
@[simp] theorem State.noteNext_core_firstReady (s : State) (n : Note) : (s.noteNext n).core.firstReady = s.core.firstReady := rfl
@[simp] theorem State.noteNext_core_waitOn (s : State) (n : Note) : (s.noteNext n).core.waitOn = s.core.waitOn := rfl
@[simp] theorem State.noteNext_core_stamps (s : State) (n : Note) : (s.noteNext n).core.stamps = s.core.stamps := rfl
@[simp] theorem State.noteNext_core_orphan (s : State) (n : Note) : (s.noteNext n).core.orphan = s.core.orphan := rfl
@[simp] theorem State.noteNext_core_relWait (s : State) (n : Note) : (s.noteNext n).core.relWait = s.core.relWait := rfl
@[simp] theorem State.noteNext_core_ssArr (s : State) (n : Note) : (s.noteNext n).core.ssArr = s.core.ssArr := rfl
@[simp] theorem State.noteNext_core_stores (s : State) (n : Note) : (s.noteNext n).core.stores = s.core.stores := rfl
@[simp] theorem State.noteNext_core_fences (s : State) (n : Note) : (s.noteNext n).core.fences = s.core.fences := rfl
@[simp] theorem State.noteNext_core_remotes (s : State) (n : Note) : (s.noteNext n).core.remotes = s.core.remotes := rfl
@[simp] theorem State.noteNext_core_spawns (s : State) (n : Note) : (s.noteNext n).core.spawns = s.core.spawns := rfl
@[simp] theorem State.noteNext_core_fetched (s : State) (n : Note) : (s.noteNext n).core.fetched = s.core.fetched := rfl
@[simp] theorem State.noteNext_core_wordSigs (s : State) (n : Note) : (s.noteNext n).core.wordSigs = s.core.wordSigs := rfl
@[simp] theorem State.noteNext_core_rqCore (s : State) (n : Note) : (s.noteNext n).core.rqCore = s.core.rqCore := rfl
@[simp] theorem State.noteNext_core_rqSlot (s : State) (n : Note) : (s.noteNext n).core.rqSlot = s.core.rqSlot := rfl
@[simp] theorem State.noteNext_core_rqNext (s : State) (n : Note) : (s.noteNext n).core.rqNext = s.core.rqNext := rfl
@[simp] theorem State.noteNext_core_rqAckt (s : State) (n : Note) : (s.noteNext n).core.rqAckt = s.core.rqAckt := rfl
@[simp] theorem State.noteNext_core_rqDone (s : State) (n : Note) : (s.noteNext n).core.rqDone = s.core.rqDone := rfl
@[simp] theorem State.noteNext_core_task (s : State) (n : Note) : (s.noteNext n).core.task = s.core.task := rfl
@[simp] theorem State.noteNext_core_staged (s : State) (n : Note) : (s.noteNext n).core.staged = s.core.staged := rfl
@[simp] theorem State.noteNext_core_prevCtx (s : State) (n : Note) : (s.noteNext n).core.prevCtx = s.core.prevCtx := rfl
@[simp] theorem State.noteNext_core_restoring (s : State) (n : Note) : (s.noteNext n).core.restoring = s.core.restoring := rfl
@[simp] theorem State.noteNext_core_status (s : State) (n : Note) : (s.noteNext n).core.status = s.core.status := rfl
@[simp] theorem State.noteNext_core_trapEnded (s : State) (n : Note) : (s.noteNext n).core.trapEnded = s.core.trapEnded := rfl
@[simp] theorem State.noteNext_core_resumeM0 (s : State) (n : Note) : (s.noteNext n).core.resumeM0 = s.core.resumeM0 := rfl
@[simp] theorem State.noteNext_core_l1 (s : State) (n : Note) : (s.noteNext n).core.l1 = s.core.l1 := rfl
@[simp] theorem State.noteNext_core_fbuf (s : State) (n : Note) : (s.noteNext n).core.fbuf = s.core.fbuf := rfl
@[simp] theorem State.noteNext_core_utlb (s : State) (n : Note) : (s.noteNext n).core.utlb = s.core.utlb := rfl
@[simp] theorem State.noteNext_core_ctlb (s : State) (n : Note) : (s.noteNext n).core.ctlb = s.core.ctlb := rfl
@[simp] theorem State.noteNext_core_grants (s : State) (n : Note) : (s.noteNext n).core.grants = s.core.grants := rfl
@[simp] theorem State.noteNext_core_want (s : State) (n : Note) : (s.noteNext n).core.want = s.core.want := rfl
@[simp] theorem State.noteNext_core_wantLeft (s : State) (n : Note) : (s.noteNext n).core.wantLeft = s.core.wantLeft := rfl
@[simp] theorem State.noteNext_core_codeMem (s : State) (n : Note) : (s.noteNext n).core.codeMem = s.core.codeMem := rfl
@[simp] theorem State.noteNext_core_accept (s : State) (n : Note) : (s.noteNext n).core.accept = s.core.accept := rfl
@[simp] theorem State.noteNext_core_wfi (s : State) (n : Note) : (s.noteNext n).core.wfi = s.core.wfi := rfl
@[simp] theorem State.noteNext_others (s : State) (n : Note) : (s.noteNext n).others = s.others := rfl
@[simp] theorem State.noteNext_phase (s : State) (n : Note) : (s.noteNext n).phase = s.phase := rfl
@[simp] theorem State.noteNext_turn (s : State) (n : Note) : (s.noteNext n).turn = s.turn := rfl
@[simp] theorem State.noteNext_due (s : State) (n : Note) : (s.noteNext n).due = s.due := rfl
@[simp] theorem State.noteNext_slot (s : State) (n : Note) : (s.noteNext n).slot = s.slot := rfl
@[simp] theorem State.noteNext_ctr (s : State) (n : Note) : (s.noteNext n).ctr = s.ctr := rfl
@[simp] theorem State.noteNext_inputs (s : State) (n : Note) : (s.noteNext n).inputs = s.inputs := rfl
@[simp] theorem State.noteNext_mcc (s : State) (n : Note) : (s.noteNext n).mcc = s.mcc := rfl
@[simp] theorem State.noteNext_ptp (s : State) (n : Note) : (s.noteNext n).ptp = s.ptp := rfl
@[simp] theorem State.noteNext_ptpFrac (s : State) (n : Note) : (s.noteNext n).ptpFrac = s.ptpFrac := rfl
@[simp] theorem State.noteNext_ptpSlew (s : State) (n : Note) : (s.noteNext n).ptpSlew = s.ptpSlew := rfl
@[simp] theorem State.noteNext_mem (s : State) (n : Note) : (s.noteNext n).mem = s.mem := rfl
@[simp] theorem State.noteNext_lines (s : State) (n : Note) : (s.noteNext n).lines = s.lines := rfl
@[simp] theorem State.noteNext_sealed (s : State) (n : Note) : (s.noteNext n).sealed = s.sealed := rfl
@[simp] theorem State.noteNext_keyGen (s : State) (n : Note) : (s.noteNext n).keyGen = s.keyGen := rfl
@[simp] theorem State.noteNext_regs (s : State) (n : Note) : (s.noteNext n).regs = s.regs := rfl
@[simp] theorem State.noteNext_timelines (s : State) (n : Note) : (s.noteNext n).timelines = s.timelines := rfl
@[simp] theorem State.noteNext_arrays (s : State) (n : Note) : (s.noteNext n).arrays = s.arrays := rfl
@[simp] theorem State.noteNext_clusters (s : State) (n : Note) : (s.noteNext n).clusters = s.clusters := rfl
@[simp] theorem State.noteNext_barriers (s : State) (n : Note) : (s.noteNext n).barriers = s.barriers := rfl
@[simp] theorem State.noteNext_steps (s : State) (n : Note) : (s.noteNext n).steps = s.steps := rfl
@[simp] theorem State.noteNext_launches (s : State) (n : Note) : (s.noteNext n).launches = s.launches := rfl
@[simp] theorem State.noteNext_nextSerial (s : State) (n : Note) : (s.noteNext n).nextSerial = s.nextSerial := rfl
@[simp] theorem State.noteNext_readBusy (s : State) (n : Note) : (s.noteNext n).readBusy = s.readBusy := rfl
@[simp] theorem State.noteNext_readRec (s : State) (n : Note) : (s.noteNext n).readRec = s.readRec := rfl
@[simp] theorem State.noteNext_handoffs (s : State) (n : Note) : (s.noteNext n).handoffs = s.handoffs := rfl
@[simp] theorem State.noteNext_boundAt (s : State) (n : Note) : (s.noteNext n).boundAt = s.boundAt := rfl
@[simp] theorem State.noteNext_cancels (s : State) (n : Note) : (s.noteNext n).cancels = s.cancels := rfl
@[simp] theorem State.noteNext_vt (s : State) (n : Note) : (s.noteNext n).vt = s.vt := rfl
@[simp] theorem State.noteNext_eligible (s : State) (n : Note) : (s.noteNext n).eligible = s.eligible := rfl
@[simp] theorem State.noteNext_slots (s : State) (n : Note) : (s.noteNext n).slots = s.slots := rfl
@[simp] theorem State.noteNext_held (s : State) (n : Note) : (s.noteNext n).held = s.held := rfl
@[simp] theorem State.noteNext_evTold (s : State) (n : Note) : (s.noteNext n).evTold = s.evTold := rfl
@[simp] theorem State.noteNext_dtlb (s : State) (n : Note) : (s.noteNext n).dtlb = s.dtlb := rfl
@[simp] theorem State.noteNext_inval (s : State) (n : Note) : (s.noteNext n).inval = s.inval := rfl
@[simp] theorem State.noteNext_tags (s : State) (n : Note) : (s.noteNext n).tags = s.tags := rfl
@[simp] theorem State.noteNext_llc (s : State) (n : Note) : (s.noteNext n).llc = s.llc := rfl
@[simp] theorem State.noteNext_readCounts (s : State) (n : Note) : (s.noteNext n).readCounts = s.readCounts := rfl
@[simp] theorem State.noteNext_pins (s : State) (n : Note) : (s.noteNext n).pins = s.pins := rfl
@[simp] theorem State.noteNext_localHome (s : State) (n : Note) : (s.noteNext n).localHome = s.localHome := rfl
@[simp] theorem State.noteNext_segs (s : State) (n : Note) : (s.noteNext n).segs = s.segs := rfl
@[simp] theorem State.noteNext_segNext (s : State) (n : Note) : (s.noteNext n).segNext = s.segNext := rfl
@[simp] theorem State.noteNext_nextReq (s : State) (n : Note) : (s.noteNext n).nextReq = s.nextReq := rfl
@[simp] theorem State.noteNext_scrub (s : State) (n : Note) : (s.noteNext n).scrub = s.scrub := rfl
@[simp] theorem State.noteNext_patrol (s : State) (n : Note) : (s.noteNext n).patrol = s.patrol := rfl
@[simp] theorem State.noteNext_errLog (s : State) (n : Note) : (s.noteNext n).errLog = s.errLog := rfl
@[simp] theorem State.noteNext_misses (s : State) (n : Note) : (s.noteNext n).misses = s.misses := rfl
@[simp] theorem State.noteNext_peers (s : State) (n : Note) : (s.noteNext n).peers = s.peers := rfl
@[simp] theorem State.noteNext_proofs (s : State) (n : Note) : (s.noteNext n).proofs = s.proofs := rfl
@[simp] theorem State.noteNext_ackts (s : State) (n : Note) : (s.noteNext n).ackts = s.ackts := rfl
@[simp] theorem State.noteNext_links (s : State) (n : Note) : (s.noteNext n).links = s.links := rfl
@[simp] theorem State.noteNext_trees (s : State) (n : Note) : (s.noteNext n).trees = s.trees := rfl
@[simp] theorem State.noteNext_outbox (s : State) (n : Note) : (s.noteNext n).outbox = s.outbox := rfl
@[simp] theorem State.noteNext_landMarks (s : State) (n : Note) : (s.noteNext n).landMarks = s.landMarks := rfl
@[simp] theorem State.noteNext_rqTable (s : State) (n : Note) : (s.noteNext n).rqTable = s.rqTable := rfl
@[simp] theorem State.noteNext_hostDown (s : State) (n : Note) : (s.noteNext n).hostDown = s.hostDown := rfl
@[simp] theorem State.noteNext_eyes (s : State) (n : Note) : (s.noteNext n).eyes = s.eyes := rfl
@[simp] theorem State.noteNext_laneMap (s : State) (n : Note) : (s.noteNext n).laneMap = s.laneMap := rfl
@[simp] theorem State.noteNext_spares (s : State) (n : Note) : (s.noteNext n).spares = s.spares := rfl
@[simp] theorem State.noteNext_tripped (s : State) (n : Note) : (s.noteNext n).tripped = s.tripped := rfl
@[simp] theorem State.noteNext_hot (s : State) (n : Note) : (s.noteNext n).hot = s.hot := rfl
@[simp] theorem State.noteNext_samples (s : State) (n : Note) : (s.noteNext n).samples = s.samples := rfl
@[simp] theorem State.noteNext_heldCyc (s : State) (n : Note) : (s.noteNext n).heldCyc = s.heldCyc := rfl
@[simp] theorem State.noteNext_session (s : State) (n : Note) : (s.noteNext n).session = s.session := rfl
@[simp] theorem State.noteNext_ideKeys (s : State) (n : Note) : (s.noteNext n).ideKeys = s.ideKeys := rfl
@[simp] theorem State.noteNext_kwJob (s : State) (n : Note) : (s.noteNext n).kwJob = s.kwJob := rfl
@[simp] theorem State.noteNext_hbmAct (s : State) (n : Note) : (s.noteNext n).hbmAct = s.hbmAct := rfl
@[simp] theorem State.noteNext_hbmSel (s : State) (n : Note) : (s.noteNext n).hbmSel = s.hbmSel := rfl
@[simp] theorem State.noteNext_rejoin (s : State) (n : Note) : (s.noteNext n).rejoin = s.rejoin := rfl
@[simp] theorem State.noteNext_announced (s : State) (n : Note) : (s.noteNext n).announced = s.announced := rfl
@[simp] theorem State.noteNext_supply (s : State) (n : Note) : (s.noteNext n).supply = s.supply := rfl
@[simp] theorem State.noteNext_sheet (s : State) (n : Note) : (s.noteNext n).sheet = s.sheet := rfl
@[simp] theorem State.noteNext_boot (s : State) (n : Note) : (s.noteNext n).boot = s.boot := rfl
@[simp] theorem State.noteNext_landWait (s : State) (n : Note) : (s.noteNext n).landWait = s.landWait := rfl
@[simp] theorem State.noteNext_irqSet (s : State) (n : Note) : (s.noteNext n).irqSet = s.irqSet := rfl
@[simp] theorem State.noteNext_halted (s : State) (n : Note) : (s.noteNext n).halted = s.halted := rfl
@[simp] theorem State.noteNext_core_note (s : State) (n : Note) : (s.noteNext n).core.note = s.core.note.join n := rfl
@[simp] theorem State.setFstat_core_id (s : State) (x : BitVec 128) : (s.setFstat x).core.id = s.core.id := rfl
@[simp] theorem State.setFstat_core_st (s : State) (x : BitVec 128) : (s.setFstat x).core.st = s.core.st := rfl
@[simp] theorem State.setFstat_core_iss (s : State) (x : BitVec 128) : (s.setFstat x).core.iss = s.core.iss := rfl
@[simp] theorem State.setFstat_core_busy (s : State) (x : BitVec 128) : (s.setFstat x).core.busy = s.core.busy := rfl
@[simp] theorem State.setFstat_core_pc (s : State) (x : BitVec 128) : (s.setFstat x).core.pc = s.core.pc := rfl
@[simp] theorem State.setFstat_core_note (s : State) (x : BitVec 128) : (s.setFstat x).core.note = s.core.note := rfl
@[simp] theorem State.setFstat_core_inh (s : State) (x : BitVec 128) : (s.setFstat x).core.inh = s.core.inh := rfl
@[simp] theorem State.setFstat_core_cyc (s : State) (x : BitVec 128) : (s.setFstat x).core.cyc = s.core.cyc := rfl
@[simp] theorem State.setFstat_core_delay (s : State) (x : BitVec 128) : (s.setFstat x).core.delay = s.core.delay := rfl
@[simp] theorem State.setFstat_core_lateFrozen (s : State) (x : BitVec 128) : (s.setFstat x).core.lateFrozen = s.core.lateFrozen := rfl
@[simp] theorem State.setFstat_core_left (s : State) (x : BitVec 128) : (s.setFstat x).core.left = s.core.left := rfl
@[simp] theorem State.setFstat_core_gain (s : State) (x : BitVec 128) : (s.setFstat x).core.gain = s.core.gain := rfl
@[simp] theorem State.setFstat_core_pend (s : State) (x : BitVec 128) : (s.setFstat x).core.pend = s.core.pend := rfl
@[simp] theorem State.setFstat_core_kill (s : State) (x : BitVec 128) : (s.setFstat x).core.kill = s.core.kill := rfl
@[simp] theorem State.setFstat_core_capReq (s : State) (x : BitVec 128) : (s.setFstat x).core.capReq = s.core.capReq := rfl
@[simp] theorem State.setFstat_core_haltMcc (s : State) (x : BitVec 128) : (s.setFstat x).core.haltMcc = s.core.haltMcc := rfl
@[simp] theorem State.setFstat_core_haltDrain (s : State) (x : BitVec 128) : (s.setFstat x).core.haltDrain = s.core.haltDrain := rfl
@[simp] theorem State.setFstat_core_reissue (s : State) (x : BitVec 128) : (s.setFstat x).core.reissue = s.core.reissue := rfl
@[simp] theorem State.setFstat_core_pf (s : State) (x : BitVec 128) : (s.setFstat x).core.pf = s.core.pf := rfl
@[simp] theorem State.setFstat_core_lands (s : State) (x : BitVec 128) : (s.setFstat x).core.lands = s.core.lands := rfl
@[simp] theorem State.setFstat_core_nextId (s : State) (x : BitVec 128) : (s.setFstat x).core.nextId = s.core.nextId := rfl
@[simp] theorem State.setFstat_core_rsigM (s : State) (x : BitVec 128) : (s.setFstat x).core.rsigM = s.core.rsigM := rfl
@[simp] theorem State.setFstat_core_rsigD (s : State) (x : BitVec 128) : (s.setFstat x).core.rsigD = s.core.rsigD := rfl
@[simp] theorem State.setFstat_core_rsigV (s : State) (x : BitVec 128) : (s.setFstat x).core.rsigV = s.core.rsigV := rfl
@[simp] theorem State.setFstat_core_sfuLast (s : State) (x : BitVec 128) : (s.setFstat x).core.sfuLast = s.core.sfuLast := rfl
@[simp] theorem State.setFstat_core_mq (s : State) (x : BitVec 128) : (s.setFstat x).core.mq = s.core.mq := rfl
@[simp] theorem State.setFstat_core_mqNext (s : State) (x : BitVec 128) : (s.setFstat x).core.mqNext = s.core.mqNext := rfl
@[simp] theorem State.setFstat_core_mqDid (s : State) (x : BitVec 128) : (s.setFstat x).core.mqDid = s.core.mqDid := rfl
@[simp] theorem State.setFstat_core_mqRnd (s : State) (x : BitVec 128) : (s.setFstat x).core.mqRnd = s.core.mqRnd := rfl
@[simp] theorem State.setFstat_core_mqSat (s : State) (x : BitVec 128) : (s.setFstat x).core.mqSat = s.core.mqSat := rfl
@[simp] theorem State.setFstat_core_comp (s : State) (x : BitVec 128) : (s.setFstat x).core.comp = s.core.comp := rfl
@[simp] theorem State.setFstat_core_tilePort (s : State) (x : BitVec 128) : (s.setFstat x).core.tilePort = s.core.tilePort := rfl
@[simp] theorem State.setFstat_core_tileRows (s : State) (x : BitVec 128) : (s.setFstat x).core.tileRows = s.core.tileRows := rfl
@[simp] theorem State.setFstat_core_cq (s : State) (x : BitVec 128) : (s.setFstat x).core.cq = s.core.cq := rfl
@[simp] theorem State.setFstat_core_cqNext (s : State) (x : BitVec 128) : (s.setFstat x).core.cqNext = s.core.cqNext := rfl
@[simp] theorem State.setFstat_core_cqNum (s : State) (x : BitVec 128) : (s.setFstat x).core.cqNum = s.core.cqNum := rfl
@[simp] theorem State.setFstat_core_cqPast (s : State) (x : BitVec 128) : (s.setFstat x).core.cqPast = s.core.cqPast := rfl
@[simp] theorem State.setFstat_core_cqDone (s : State) (x : BitVec 128) : (s.setFstat x).core.cqDone = s.core.cqDone := rfl
@[simp] theorem State.setFstat_core_ctl (s : State) (x : BitVec 128) : (s.setFstat x).core.ctl = s.core.ctl := rfl
@[simp] theorem State.setFstat_core_rows (s : State) (x : BitVec 128) : (s.setFstat x).core.rows = s.core.rows := rfl
@[simp] theorem State.setFstat_core_seed0 (s : State) (x : BitVec 128) : (s.setFstat x).core.seed0 = s.core.seed0 := rfl
@[simp] theorem State.setFstat_core_seed1 (s : State) (x : BitVec 128) : (s.setFstat x).core.seed1 = s.core.seed1 := rfl
@[simp] theorem State.setFstat_core_badWords (s : State) (x : BitVec 128) : (s.setFstat x).core.badWords = s.core.badWords := rfl
@[simp] theorem State.setFstat_core_badReg (s : State) (x : BitVec 128) : (s.setFstat x).core.badReg = s.core.badReg := rfl
@[simp] theorem State.setFstat_core_rowsWas (s : State) (x : BitVec 128) : (s.setFstat x).core.rowsWas = s.core.rowsWas := rfl
@[simp] theorem State.setFstat_core_port (s : State) (x : BitVec 128) : (s.setFstat x).core.port = s.core.port := rfl
@[simp] theorem State.setFstat_core_tl (s : State) (x : BitVec 128) : (s.setFstat x).core.tl = s.core.tl := rfl
@[simp] theorem State.setFstat_core_fifo (s : State) (x : BitVec 128) : (s.setFstat x).core.fifo = s.core.fifo := rfl
@[simp] theorem State.setFstat_core_arr (s : State) (x : BitVec 128) : (s.setFstat x).core.arr = s.core.arr := rfl
@[simp] theorem State.setFstat_core_firstReady (s : State) (x : BitVec 128) : (s.setFstat x).core.firstReady = s.core.firstReady := rfl
@[simp] theorem State.setFstat_core_waitOn (s : State) (x : BitVec 128) : (s.setFstat x).core.waitOn = s.core.waitOn := rfl
@[simp] theorem State.setFstat_core_stamps (s : State) (x : BitVec 128) : (s.setFstat x).core.stamps = s.core.stamps := rfl
@[simp] theorem State.setFstat_core_orphan (s : State) (x : BitVec 128) : (s.setFstat x).core.orphan = s.core.orphan := rfl
@[simp] theorem State.setFstat_core_relWait (s : State) (x : BitVec 128) : (s.setFstat x).core.relWait = s.core.relWait := rfl
@[simp] theorem State.setFstat_core_ssArr (s : State) (x : BitVec 128) : (s.setFstat x).core.ssArr = s.core.ssArr := rfl
@[simp] theorem State.setFstat_core_stores (s : State) (x : BitVec 128) : (s.setFstat x).core.stores = s.core.stores := rfl
@[simp] theorem State.setFstat_core_fences (s : State) (x : BitVec 128) : (s.setFstat x).core.fences = s.core.fences := rfl
@[simp] theorem State.setFstat_core_remotes (s : State) (x : BitVec 128) : (s.setFstat x).core.remotes = s.core.remotes := rfl
@[simp] theorem State.setFstat_core_spawns (s : State) (x : BitVec 128) : (s.setFstat x).core.spawns = s.core.spawns := rfl
@[simp] theorem State.setFstat_core_fetched (s : State) (x : BitVec 128) : (s.setFstat x).core.fetched = s.core.fetched := rfl
@[simp] theorem State.setFstat_core_wordSigs (s : State) (x : BitVec 128) : (s.setFstat x).core.wordSigs = s.core.wordSigs := rfl
@[simp] theorem State.setFstat_core_rqCore (s : State) (x : BitVec 128) : (s.setFstat x).core.rqCore = s.core.rqCore := rfl
@[simp] theorem State.setFstat_core_rqSlot (s : State) (x : BitVec 128) : (s.setFstat x).core.rqSlot = s.core.rqSlot := rfl
@[simp] theorem State.setFstat_core_rqNext (s : State) (x : BitVec 128) : (s.setFstat x).core.rqNext = s.core.rqNext := rfl
@[simp] theorem State.setFstat_core_rqAckt (s : State) (x : BitVec 128) : (s.setFstat x).core.rqAckt = s.core.rqAckt := rfl
@[simp] theorem State.setFstat_core_rqDone (s : State) (x : BitVec 128) : (s.setFstat x).core.rqDone = s.core.rqDone := rfl
@[simp] theorem State.setFstat_core_task (s : State) (x : BitVec 128) : (s.setFstat x).core.task = s.core.task := rfl
@[simp] theorem State.setFstat_core_staged (s : State) (x : BitVec 128) : (s.setFstat x).core.staged = s.core.staged := rfl
@[simp] theorem State.setFstat_core_prevCtx (s : State) (x : BitVec 128) : (s.setFstat x).core.prevCtx = s.core.prevCtx := rfl
@[simp] theorem State.setFstat_core_restoring (s : State) (x : BitVec 128) : (s.setFstat x).core.restoring = s.core.restoring := rfl
@[simp] theorem State.setFstat_core_status (s : State) (x : BitVec 128) : (s.setFstat x).core.status = s.core.status := rfl
@[simp] theorem State.setFstat_core_trapEnded (s : State) (x : BitVec 128) : (s.setFstat x).core.trapEnded = s.core.trapEnded := rfl
@[simp] theorem State.setFstat_core_resumeM0 (s : State) (x : BitVec 128) : (s.setFstat x).core.resumeM0 = s.core.resumeM0 := rfl
@[simp] theorem State.setFstat_core_l1 (s : State) (x : BitVec 128) : (s.setFstat x).core.l1 = s.core.l1 := rfl
@[simp] theorem State.setFstat_core_fbuf (s : State) (x : BitVec 128) : (s.setFstat x).core.fbuf = s.core.fbuf := rfl
@[simp] theorem State.setFstat_core_utlb (s : State) (x : BitVec 128) : (s.setFstat x).core.utlb = s.core.utlb := rfl
@[simp] theorem State.setFstat_core_ctlb (s : State) (x : BitVec 128) : (s.setFstat x).core.ctlb = s.core.ctlb := rfl
@[simp] theorem State.setFstat_core_grants (s : State) (x : BitVec 128) : (s.setFstat x).core.grants = s.core.grants := rfl
@[simp] theorem State.setFstat_core_want (s : State) (x : BitVec 128) : (s.setFstat x).core.want = s.core.want := rfl
@[simp] theorem State.setFstat_core_wantLeft (s : State) (x : BitVec 128) : (s.setFstat x).core.wantLeft = s.core.wantLeft := rfl
@[simp] theorem State.setFstat_core_codeMem (s : State) (x : BitVec 128) : (s.setFstat x).core.codeMem = s.core.codeMem := rfl
@[simp] theorem State.setFstat_core_accept (s : State) (x : BitVec 128) : (s.setFstat x).core.accept = s.core.accept := rfl
@[simp] theorem State.setFstat_core_wfi (s : State) (x : BitVec 128) : (s.setFstat x).core.wfi = s.core.wfi := rfl
@[simp] theorem State.setFstat_others (s : State) (x : BitVec 128) : (s.setFstat x).others = s.others := rfl
@[simp] theorem State.setFstat_phase (s : State) (x : BitVec 128) : (s.setFstat x).phase = s.phase := rfl
@[simp] theorem State.setFstat_turn (s : State) (x : BitVec 128) : (s.setFstat x).turn = s.turn := rfl
@[simp] theorem State.setFstat_due (s : State) (x : BitVec 128) : (s.setFstat x).due = s.due := rfl
@[simp] theorem State.setFstat_slot (s : State) (x : BitVec 128) : (s.setFstat x).slot = s.slot := rfl
@[simp] theorem State.setFstat_ctr (s : State) (x : BitVec 128) : (s.setFstat x).ctr = s.ctr := rfl
@[simp] theorem State.setFstat_inputs (s : State) (x : BitVec 128) : (s.setFstat x).inputs = s.inputs := rfl
@[simp] theorem State.setFstat_mcc (s : State) (x : BitVec 128) : (s.setFstat x).mcc = s.mcc := rfl
@[simp] theorem State.setFstat_ptp (s : State) (x : BitVec 128) : (s.setFstat x).ptp = s.ptp := rfl
@[simp] theorem State.setFstat_ptpFrac (s : State) (x : BitVec 128) : (s.setFstat x).ptpFrac = s.ptpFrac := rfl
@[simp] theorem State.setFstat_ptpSlew (s : State) (x : BitVec 128) : (s.setFstat x).ptpSlew = s.ptpSlew := rfl
@[simp] theorem State.setFstat_mem (s : State) (x : BitVec 128) : (s.setFstat x).mem = s.mem := rfl
@[simp] theorem State.setFstat_lines (s : State) (x : BitVec 128) : (s.setFstat x).lines = s.lines := rfl
@[simp] theorem State.setFstat_sealed (s : State) (x : BitVec 128) : (s.setFstat x).sealed = s.sealed := rfl
@[simp] theorem State.setFstat_keyGen (s : State) (x : BitVec 128) : (s.setFstat x).keyGen = s.keyGen := rfl
@[simp] theorem State.setFstat_regs (s : State) (x : BitVec 128) : (s.setFstat x).regs = s.regs := rfl
@[simp] theorem State.setFstat_timelines (s : State) (x : BitVec 128) : (s.setFstat x).timelines = s.timelines := rfl
@[simp] theorem State.setFstat_arrays (s : State) (x : BitVec 128) : (s.setFstat x).arrays = s.arrays := rfl
@[simp] theorem State.setFstat_clusters (s : State) (x : BitVec 128) : (s.setFstat x).clusters = s.clusters := rfl
@[simp] theorem State.setFstat_barriers (s : State) (x : BitVec 128) : (s.setFstat x).barriers = s.barriers := rfl
@[simp] theorem State.setFstat_steps (s : State) (x : BitVec 128) : (s.setFstat x).steps = s.steps := rfl
@[simp] theorem State.setFstat_launches (s : State) (x : BitVec 128) : (s.setFstat x).launches = s.launches := rfl
@[simp] theorem State.setFstat_nextSerial (s : State) (x : BitVec 128) : (s.setFstat x).nextSerial = s.nextSerial := rfl
@[simp] theorem State.setFstat_readBusy (s : State) (x : BitVec 128) : (s.setFstat x).readBusy = s.readBusy := rfl
@[simp] theorem State.setFstat_readRec (s : State) (x : BitVec 128) : (s.setFstat x).readRec = s.readRec := rfl
@[simp] theorem State.setFstat_handoffs (s : State) (x : BitVec 128) : (s.setFstat x).handoffs = s.handoffs := rfl
@[simp] theorem State.setFstat_boundAt (s : State) (x : BitVec 128) : (s.setFstat x).boundAt = s.boundAt := rfl
@[simp] theorem State.setFstat_cancels (s : State) (x : BitVec 128) : (s.setFstat x).cancels = s.cancels := rfl
@[simp] theorem State.setFstat_vt (s : State) (x : BitVec 128) : (s.setFstat x).vt = s.vt := rfl
@[simp] theorem State.setFstat_eligible (s : State) (x : BitVec 128) : (s.setFstat x).eligible = s.eligible := rfl
@[simp] theorem State.setFstat_slots (s : State) (x : BitVec 128) : (s.setFstat x).slots = s.slots := rfl
@[simp] theorem State.setFstat_held (s : State) (x : BitVec 128) : (s.setFstat x).held = s.held := rfl
@[simp] theorem State.setFstat_evTold (s : State) (x : BitVec 128) : (s.setFstat x).evTold = s.evTold := rfl
@[simp] theorem State.setFstat_dtlb (s : State) (x : BitVec 128) : (s.setFstat x).dtlb = s.dtlb := rfl
@[simp] theorem State.setFstat_inval (s : State) (x : BitVec 128) : (s.setFstat x).inval = s.inval := rfl
@[simp] theorem State.setFstat_tags (s : State) (x : BitVec 128) : (s.setFstat x).tags = s.tags := rfl
@[simp] theorem State.setFstat_llc (s : State) (x : BitVec 128) : (s.setFstat x).llc = s.llc := rfl
@[simp] theorem State.setFstat_readCounts (s : State) (x : BitVec 128) : (s.setFstat x).readCounts = s.readCounts := rfl
@[simp] theorem State.setFstat_pins (s : State) (x : BitVec 128) : (s.setFstat x).pins = s.pins := rfl
@[simp] theorem State.setFstat_localHome (s : State) (x : BitVec 128) : (s.setFstat x).localHome = s.localHome := rfl
@[simp] theorem State.setFstat_segs (s : State) (x : BitVec 128) : (s.setFstat x).segs = s.segs := rfl
@[simp] theorem State.setFstat_segNext (s : State) (x : BitVec 128) : (s.setFstat x).segNext = s.segNext := rfl
@[simp] theorem State.setFstat_nextReq (s : State) (x : BitVec 128) : (s.setFstat x).nextReq = s.nextReq := rfl
@[simp] theorem State.setFstat_scrub (s : State) (x : BitVec 128) : (s.setFstat x).scrub = s.scrub := rfl
@[simp] theorem State.setFstat_patrol (s : State) (x : BitVec 128) : (s.setFstat x).patrol = s.patrol := rfl
@[simp] theorem State.setFstat_errLog (s : State) (x : BitVec 128) : (s.setFstat x).errLog = s.errLog := rfl
@[simp] theorem State.setFstat_misses (s : State) (x : BitVec 128) : (s.setFstat x).misses = s.misses := rfl
@[simp] theorem State.setFstat_peers (s : State) (x : BitVec 128) : (s.setFstat x).peers = s.peers := rfl
@[simp] theorem State.setFstat_proofs (s : State) (x : BitVec 128) : (s.setFstat x).proofs = s.proofs := rfl
@[simp] theorem State.setFstat_ackts (s : State) (x : BitVec 128) : (s.setFstat x).ackts = s.ackts := rfl
@[simp] theorem State.setFstat_links (s : State) (x : BitVec 128) : (s.setFstat x).links = s.links := rfl
@[simp] theorem State.setFstat_trees (s : State) (x : BitVec 128) : (s.setFstat x).trees = s.trees := rfl
@[simp] theorem State.setFstat_outbox (s : State) (x : BitVec 128) : (s.setFstat x).outbox = s.outbox := rfl
@[simp] theorem State.setFstat_landMarks (s : State) (x : BitVec 128) : (s.setFstat x).landMarks = s.landMarks := rfl
@[simp] theorem State.setFstat_rqTable (s : State) (x : BitVec 128) : (s.setFstat x).rqTable = s.rqTable := rfl
@[simp] theorem State.setFstat_hostDown (s : State) (x : BitVec 128) : (s.setFstat x).hostDown = s.hostDown := rfl
@[simp] theorem State.setFstat_eyes (s : State) (x : BitVec 128) : (s.setFstat x).eyes = s.eyes := rfl
@[simp] theorem State.setFstat_laneMap (s : State) (x : BitVec 128) : (s.setFstat x).laneMap = s.laneMap := rfl
@[simp] theorem State.setFstat_spares (s : State) (x : BitVec 128) : (s.setFstat x).spares = s.spares := rfl
@[simp] theorem State.setFstat_tripped (s : State) (x : BitVec 128) : (s.setFstat x).tripped = s.tripped := rfl
@[simp] theorem State.setFstat_hot (s : State) (x : BitVec 128) : (s.setFstat x).hot = s.hot := rfl
@[simp] theorem State.setFstat_samples (s : State) (x : BitVec 128) : (s.setFstat x).samples = s.samples := rfl
@[simp] theorem State.setFstat_heldCyc (s : State) (x : BitVec 128) : (s.setFstat x).heldCyc = s.heldCyc := rfl
@[simp] theorem State.setFstat_session (s : State) (x : BitVec 128) : (s.setFstat x).session = s.session := rfl
@[simp] theorem State.setFstat_ideKeys (s : State) (x : BitVec 128) : (s.setFstat x).ideKeys = s.ideKeys := rfl
@[simp] theorem State.setFstat_kwJob (s : State) (x : BitVec 128) : (s.setFstat x).kwJob = s.kwJob := rfl
@[simp] theorem State.setFstat_hbmAct (s : State) (x : BitVec 128) : (s.setFstat x).hbmAct = s.hbmAct := rfl
@[simp] theorem State.setFstat_hbmSel (s : State) (x : BitVec 128) : (s.setFstat x).hbmSel = s.hbmSel := rfl
@[simp] theorem State.setFstat_rejoin (s : State) (x : BitVec 128) : (s.setFstat x).rejoin = s.rejoin := rfl
@[simp] theorem State.setFstat_announced (s : State) (x : BitVec 128) : (s.setFstat x).announced = s.announced := rfl
@[simp] theorem State.setFstat_supply (s : State) (x : BitVec 128) : (s.setFstat x).supply = s.supply := rfl
@[simp] theorem State.setFstat_sheet (s : State) (x : BitVec 128) : (s.setFstat x).sheet = s.sheet := rfl
@[simp] theorem State.setFstat_boot (s : State) (x : BitVec 128) : (s.setFstat x).boot = s.boot := rfl
@[simp] theorem State.setFstat_landWait (s : State) (x : BitVec 128) : (s.setFstat x).landWait = s.landWait := rfl
@[simp] theorem State.setFstat_irqSet (s : State) (x : BitVec 128) : (s.setFstat x).irqSet = s.irqSet := rfl
@[simp] theorem State.setFstat_halted (s : State) (x : BitVec 128) : (s.setFstat x).halted = s.halted := rfl

end Sys2Proof.Machine
end

