-- ==== Sys2Proof/Laws/Memory.lean ====
section
/-! SUPPORT. Sparse maps and memory: what a read gives after a write, and that every memory operation keeps the
canonical form (R355 for the bytes not listed). -/

namespace Sys2Proof.Machine

/-! Sparse maps. -/

/-- A read of the key just written. -/
@[simp] theorem Sparse.get_set_same {α : Type} (d : α) (l : List (Nat × α)) (a : Nat) (x : α) :
    Sparse.get d (Sparse.set l a x) a = x := by
  induction l with
  | nil => simp [Sparse.set, Sparse.get]
  | cons p l ih =>
    obtain ⟨k, v⟩ := p
    simp only [Sparse.set]
    split_ifs with h h' <;> simp_all [Sparse.get]

/-- A read of another key. -/
theorem Sparse.get_set_other {α : Type} (d : α) (l : List (Nat × α)) (a b : Nat) (x : α) (h : b ≠ a) :
    Sparse.get d (Sparse.set l a x) b = Sparse.get d l b := by
  induction l with
  | nil => simp [Sparse.set, Sparse.get, h]
  | cons p l ih =>
    obtain ⟨k, v⟩ := p
    simp only [Sparse.set]
    split_ifs with h1 h2
    · subst h1; simp [Sparse.get, h]
    · simp only [Sparse.get, h, if_false]
      split_ifs <;> first | rfl | omega
    · simp only [Sparse.get, ih]

/-- The keys of a list that rises from above `lo` are above `lo`. -/
theorem Sparse.rising_lt {α : Type} (l : List (Nat × α)) (lo : Nat) (h : Sparse.rising (some lo) l = true) :
    ∀ p ∈ l, lo < p.1 := by
  induction l generalizing lo with
  | nil => simp
  | cons p l ih =>
    obtain ⟨k, v⟩ := p
    simp only [Sparse.rising, Bool.and_eq_true, decide_eq_true_eq] at h
    intro q hq
    rcases List.mem_cons.1 hq with rfl | hq
    · exact h.1
    · exact Nat.lt_trans h.1 (ih k h.2 q hq)

/-- A list that rises from above `hi` rises from above any lower bound. -/
theorem Sparse.rising_mono {α : Type} (l : List (Nat × α)) (lo hi : Nat) (hle : lo ≤ hi)
    (h : Sparse.rising (some hi) l = true) : Sparse.rising (some lo) l = true := by
  cases l with
  | nil => rfl
  | cons p l =>
    simp only [Sparse.rising, Bool.and_eq_true, decide_eq_true_eq] at h ⊢
    exact ⟨by omega, h.2⟩

/-- What is not listed reads as the default: every key stands above. -/
theorem Sparse.get_of_rising {α : Type} (d : α) (l : List (Nat × α)) (a : Nat) (h : Sparse.rising (some a) l = true) :
    Sparse.get d l a = d := by
  cases l with
  | nil => rfl
  | cons p l =>
    simp only [Sparse.rising, Bool.and_eq_true, decide_eq_true_eq] at h
    simp only [Sparse.get]
    split_ifs <;> first | rfl | omega

/-- Writing a key above the bound keeps the rising order. -/
theorem Sparse.set_rising_some {α : Type} (l : List (Nat × α)) (lo a : Nat) (x : α) (ha : lo < a)
    (h : Sparse.rising (some lo) l = true) : Sparse.rising (some lo) (Sparse.set l a x) = true := by
  induction l generalizing lo with
  | nil => simp [Sparse.set, Sparse.rising, ha]
  | cons p l ih =>
    obtain ⟨k, v⟩ := p
    simp only [Sparse.rising, Bool.and_eq_true, decide_eq_true_eq] at h
    simp only [Sparse.set]
    split_ifs with h1 h2
    · simp [Sparse.rising, h]
    · simp [Sparse.rising, h, ha, h2]
    · simp [Sparse.rising, h.1, ih k (by omega) h.2]

/-- Writing a key keeps the rising order. -/
theorem Sparse.set_rising {α : Type} (l : List (Nat × α)) (a : Nat) (x : α) (h : Sparse.rising none l = true) :
    Sparse.rising none (Sparse.set l a x) = true := by
  cases l with
  | nil => rfl
  | cons p l =>
    obtain ⟨k, v⟩ := p
    simp only [Sparse.rising] at h
    simp only [Sparse.set]
    split_ifs with h1 h2
    · exact h
    · simp [Sparse.rising, h2, h]
    · exact Sparse.set_rising_some l k a x (by omega) h

/-- Removing a key keeps the rising order. -/
theorem Sparse.del_rising_some {α : Type} (l : List (Nat × α)) (lo a : Nat) (h : Sparse.rising (some lo) l = true) :
    Sparse.rising (some lo) (Sparse.del l a) = true := by
  induction l generalizing lo with
  | nil => rfl
  | cons p l ih =>
    obtain ⟨k, v⟩ := p
    simp only [Sparse.rising, Bool.and_eq_true, decide_eq_true_eq] at h
    simp only [Sparse.del]
    split_ifs with h1 h2
    · exact Sparse.rising_mono l lo k (by omega) h.2
    · simp [Sparse.rising, h]
    · simp [Sparse.rising, h.1, ih k h.2]

/-- Removing a key keeps the rising order. -/
theorem Sparse.del_rising {α : Type} (l : List (Nat × α)) (a : Nat) (h : Sparse.rising none l = true) :
    Sparse.rising none (Sparse.del l a) = true := by
  cases l with
  | nil => rfl
  | cons p l =>
    obtain ⟨k, v⟩ := p
    simp only [Sparse.rising] at h
    simp only [Sparse.del]
    split_ifs with h1 h2
    · cases l with
      | nil => rfl
      | cons q l =>
        simp only [Sparse.rising, Bool.and_eq_true, decide_eq_true_eq] at h
        exact h.2
    · simpa [Sparse.rising] using h
    · simpa [Sparse.rising] using Sparse.del_rising_some l k a h

/-- A removed key reads as the default. -/
theorem Sparse.get_del_same {α : Type} (d : α) (l : List (Nat × α)) (a : Nat) (h : Sparse.rising none l = true) :
    Sparse.get d (Sparse.del l a) a = d := by
  induction l with
  | nil => rfl
  | cons p l ih =>
    obtain ⟨k, v⟩ := p
    simp only [Sparse.rising] at h
    have hn : Sparse.rising none l = true := by
      cases l with
      | nil => rfl
      | cons q l =>
        simp only [Sparse.rising, Bool.and_eq_true, decide_eq_true_eq] at h
        exact h.2
    simp only [Sparse.del]
    split_ifs with h1 h2
    · subst h1; exact Sparse.get_of_rising d l a h
    · simp [Sparse.get, h1, h2]
    · simp [Sparse.get, h1, h2, ih hn]

/-- Removing a key leaves the others. -/
theorem Sparse.get_del_other {α : Type} (d : α) (l : List (Nat × α)) (a b : Nat) (hb : b ≠ a)
    (h : Sparse.rising none l = true) : Sparse.get d (Sparse.del l a) b = Sparse.get d l b := by
  induction l with
  | nil => rfl
  | cons p l ih =>
    obtain ⟨k, v⟩ := p
    simp only [Sparse.rising] at h
    have hn : Sparse.rising none l = true := by
      cases l with
      | nil => rfl
      | cons q l =>
        simp only [Sparse.rising, Bool.and_eq_true, decide_eq_true_eq] at h
        exact h.2
    simp only [Sparse.del]
    split_ifs with h1 h2
    · subst h1
      simp only [Sparse.get, hb, if_false]
      split_ifs with h3
      · exact Sparse.get_of_rising d l b (Sparse.rising_mono l b a (by omega) h)
      · rfl
    · rfl
    · simp only [Sparse.get, ih hn]

/-! Bytes of memory. -/

/-- The keys of a canonical memory rise. -/
theorem Memory.wf_rising {m : List Host.Cell} (h : Memory.wf m = true) : Sparse.rising none m = true := by
  simp only [Memory.wf, Bool.and_eq_true] at h
  exact h.1

/-- A read of the byte just written. -/
theorem memGet_memSet_same (m : List Host.Cell) (a : Nat) (b : Byte) (h : Memory.wf m = true) :
    memGet (memSet m a b) a = b := by
  unfold memGet memSet
  split_ifs with hb
  · rw [Sparse.get_del_same _ _ _ (Memory.wf_rising h), hb]
  · exact Sparse.get_set_same _ _ _ _

/-- A read of another byte. -/
theorem memGet_memSet_other (m : List Host.Cell) (a x : Nat) (b : Byte) (hx : x ≠ a) (h : Memory.wf m = true) :
    memGet (memSet m a b) x = memGet m x := by
  unfold memGet memSet
  split_ifs with hb
  · exact Sparse.get_del_other _ _ _ _ hx (Memory.wf_rising h)
  · exact Sparse.get_set_other _ _ _ _ _ hx

theorem Sparse.mem_del {α : Type} (l : List (Nat × α)) (a : Nat) (p : Nat × α) (h : p ∈ Sparse.del l a) : p ∈ l := by
  induction l with
  | nil => exact h
  | cons q l ih =>
    obtain ⟨k, v⟩ := q
    simp only [Sparse.del] at h
    split_ifs at h with h1 h2
    · exact List.mem_cons_of_mem _ h
    · exact h
    · rcases List.mem_cons.1 h with h | h
      · exact h ▸ List.mem_cons_self
      · exact List.mem_cons_of_mem _ (ih h)

theorem Sparse.mem_set {α : Type} (l : List (Nat × α)) (a : Nat) (x : α) (p : Nat × α) (h : p ∈ Sparse.set l a x) :
    p.2 = x ∨ p ∈ l := by
  induction l with
  | nil => simp only [Sparse.set, List.mem_singleton] at h; exact .inl (by rw [h])
  | cons q l ih =>
    obtain ⟨k, v⟩ := q
    simp only [Sparse.set] at h
    split_ifs at h with h1 h2
    · rcases List.mem_cons.1 h with h | h
      · exact .inl (by rw [h])
      · exact .inr (List.mem_cons_of_mem _ h)
    · rcases List.mem_cons.1 h with h | h
      · exact .inl (by rw [h])
      · exact .inr h
    · rcases List.mem_cons.1 h with h | h
      · exact .inr (h ▸ List.mem_cons_self)
      · exact (ih h).imp id (List.mem_cons_of_mem _)

/-- Writing a byte keeps the canonical form. -/
theorem memSet_wf (m : List Host.Cell) (a : Nat) (b : Byte) (h : Memory.wf m = true) :
    Memory.wf (memSet m a b) = true := by
  have hr := Memory.wf_rising h
  simp only [Memory.wf, Bool.and_eq_true, List.all_eq_true] at h ⊢
  unfold memSet
  split_ifs with hb
  · exact ⟨Sparse.del_rising _ _ hr, fun p hp => h.2 p (Sparse.mem_del _ _ _ hp)⟩
  · refine ⟨Sparse.set_rising _ _ _ hr, fun p hp => ?_⟩
    rcases Sparse.mem_set _ _ _ _ hp with e | e
    · simpa [e] using hb
    · exact h.2 p e

/-- Writing bytes keeps the canonical form. -/
theorem memWrite_wf (m : List Host.Cell) (a : Nat) (bs : List Byte) (h : Memory.wf m = true) :
    Memory.wf (memWrite m a bs) = true := by
  induction bs generalizing m a with
  | nil => exact h
  | cons b bs ih => exact ih _ _ (memSet_wf m a b h)

/-- A byte outside those written is as before. -/
theorem memGet_memWrite_other (m : List Host.Cell) (a : Nat) (bs : List Byte) (x : Nat)
    (hx : x < a ∨ a + bs.length ≤ x) (h : Memory.wf m = true) : memGet (memWrite m a bs) x = memGet m x := by
  induction bs generalizing m a with
  | nil => rfl
  | cons b bs ih =>
    simp only [List.length_cons] at hx
    rw [memWrite, ih _ _ (by omega) (memSet_wf m a b h), memGet_memSet_other m a x b (by omega) h]

/-- A byte of those written. -/
theorem memGet_memWrite_same (m : List Host.Cell) (a : Nat) (bs : List Byte) (i : Nat) (hi : i < bs.length)
    (h : Memory.wf m = true) : memGet (memWrite m a bs) (a + i) = bs[i] := by
  induction bs generalizing m a i with
  | nil => simp at hi
  | cons b bs ih =>
    cases i with
    | zero => rw [memWrite, memGet_memWrite_other _ _ _ _ (by omega) (memSet_wf m a b h)]; exact memGet_memSet_same m a b h
    | succ i =>
      rw [memWrite, show a + (i + 1) = a + 1 + i by omega,
        ih _ _ i (by simpa using hi) (memSet_wf m a b h)]
      rfl

/-- Reset memory is canonical. -/
theorem reset_mem_wf : Memory.wf State.reset.mem = true := rfl

/-! Physical memory: the lines' notes do not change the bytes, and every write keeps the canonical form. -/

@[simp] theorem State.touchLine_mem (s : State) (l : Nat) (k : BitVec 16) : (s.touchLine l k).mem = s.mem := rfl

/-- Merging a line keeps the canonical form. -/
theorem State.mergeLine_wf (s : State) (l : Nat) (w : Bool) (k : BitVec 16) (h : Memory.wf s.mem = true) :
    Memory.wf (s.mergeLine l w k).mem = true := by
  unfold State.mergeLine
  split_ifs
  · exact memWrite_wf _ _ _ h
  · exact h

/-- What every step of a fold keeps, the fold keeps. -/
theorem foldl_keeps {α β : Type} (P : β → Prop) (f : β → α → β) (hf : ∀ b a, P b → P (f b a)) (l : List α) (b : β)
    (h : P b) : P (l.foldl f b) := by
  induction l generalizing b with
  | nil => exact h
  | cons a l ih => exact ih _ (hf b a h)

/-- Writing bytes at a physical address keeps the canonical form. -/
theorem State.physWrite_wf (s : State) (pa : Nat) (bs : List Byte) (k : BitVec 16) (h : Memory.wf s.mem = true) :
    Memory.wf (s.physWrite pa bs k).mem = true := by
  unfold State.physWrite
  refine foldl_keeps (fun t : State => Memory.wf t.mem = true) (fun t l => t.touchLine l k) (fun b _ hb => hb) _ _ ?_
  refine memWrite_wf _ _ _ ?_
  exact foldl_keeps (fun t : State => Memory.wf t.mem = true) _ (fun b a hb => State.mergeLine_wf b a _ k hb) _ _ h

end Sys2Proof.Machine
end

