-- ==== Sys2Proof/Laws/Ops.lean ====
section
/-! SUPPORT. What the shared operations can do: each lemma says once, for one operation, what it leaves or answers, so
that no later proof unfolds it. -/

namespace Sys2Proof.Machine

/-! Cores by number. -/

/-- The core in focus is the core of its own number. -/
@[simp] theorem State.coreAt_self (s : State) : s.coreAt s.core.id = s.core := by
  simp [State.coreAt, State.cores]

/-- A change of the core in focus by its number. -/
@[simp] theorem State.onCoreAt_self (s : State) (f : Core → Core) : s.onCoreAt s.core.id f = s.onCore f := by
  simp [State.onCoreAt, State.onCore]

/-- A change of one core leaves everything that is no core. -/
theorem State.onCoreAt_cases (s : State) (n : Nat) (f : Core → Core) :
    ∃ l, s.onCoreAt n f = { s with core := (if s.core.id = n then f s.core else s.core), others := l } := by
  unfold State.onCoreAt
  split_ifs
  · exact ⟨s.others, rfl⟩
  · exact ⟨_, rfl⟩
  · exact ⟨_, rfl⟩

@[simp] theorem State.onCoreAt_mem (s : State) (n : Nat) (f : Core → Core) : (s.onCoreAt n f).mem = s.mem := by
  obtain ⟨l, h⟩ := s.onCoreAt_cases n f
  rw [h]

@[simp] theorem State.mapCores_mem (s : State) (f : Core → Core) : (s.mapCores f).mem = s.mem := rfl
@[simp] theorem State.onLaunch_mem (s : State) (n : BitVec 32) (f : Launch → Launch) : (s.onLaunch n f).mem = s.mem := rfl

/-- Bringing a core into focus leaves everything that is no core. -/
@[simp] theorem State.focus_mem (s : State) (n : Nat) : (s.focus n).mem = s.mem := by
  unfold State.focus; split <;> rfl

/-- The core brought into focus is the core of that number. -/
theorem State.focus_core (s : State) (n : Nat) : (s.focus n).core = s.coreAt n := by
  unfold State.focus
  split_ifs with h
  · rw [← h, State.coreAt_self]
  · rfl

/-! Faults, stops and arrivals do not write memory. -/

@[simp] theorem State.takeStaged_mem (s : State) (n : Nat) : (s.takeStaged n).mem = s.mem := State.onCoreAt_mem _ _ _

@[simp] theorem State.dropStaged_mem (s : State) (n : Nat) : (s.dropStaged n).mem = s.mem := by
  unfold State.dropStaged; split <;> simp

@[simp] theorem State.unstage_mem (s : State) (n : Nat) : (s.unstage n).mem = s.mem := by
  unfold State.unstage; split <;> simp

@[simp] theorem State.stopLaunch_mem (s : State) (n : BitVec 32) : (s.stopLaunch n).mem = s.mem := by
  unfold State.stopLaunch
  refine foldl_keeps (fun t : State => t.mem = s.mem) _ (fun b c h => ?_) _ _ rfl
  split
  · split_ifs
    · rw [State.unstage_mem]; exact h
    · exact h
  · exact h

@[simp] theorem State.failLaunch_mem (s : State) (n : BitVec 32) : (s.failLaunch n).mem = s.mem := rfl

@[simp] theorem State.stopFor_mem (s : State) (n : BitVec 32) : (s.stopFor n).mem = s.mem := by
  unfold State.stopFor
  split
  · split <;> simp
  · rfl

@[simp] theorem State.faultArises_mem (s : State) (n : Nat) (t : Trap) : (s.faultArises n t).mem = s.mem := by
  unfold State.faultArises
  split
  · rfl
  · split
    · rfl
    · dsimp only
      split <;> simp

@[simp] theorem State.refault_mem (s : State) (n : Nat) (u t : Trap) : (s.refault n u t).mem = s.mem := by
  unfold State.refault
  split
  · rfl
  · dsimp only
    split_ifs <;> simp

@[simp] theorem State.drainCause_mem (s : State) (n : Nat) (t : Trap) : (s.drainCause n t).mem = s.mem := by
  unfold State.drainCause
  split_ifs
  · rfl
  · split <;> simp

@[simp] theorem State.raiseB_mem (s : State) (n : Nat) (t : Trap) : (s.raiseB n t).mem = s.mem := by
  unfold State.raiseB
  dsimp only
  split_ifs <;> simp

theorem State.arriveOn_mem (s u : State) (n : Nat) (b : BitVec 5) (h : s.arriveOn n b = some u) : u.mem = s.mem := by
  unfold State.arriveOn at h
  dsimp only at h
  split at h
  · cases h
  · split at h
    · cases h
    · split_ifs at h
      · cases h
        simp [State.release, State.setBarrier]
      · cases h
        simp [State.setBarrier]

@[simp] theorem State.arriveA_mem (s : State) (n : Nat) (b : BitVec 5) (e : Option (Bool × BitVec 6)) :
    (s.arriveA n b e).mem = s.mem := by
  unfold State.arriveA
  split
  · exact State.arriveOn_mem _ _ _ _ ‹_›
  · simp

@[simp] theorem State.abar_mem (s : State) (a : Bool) : (s.abar a).2.mem = s.mem := by
  unfold State.abar
  split_ifs <;> rfl

@[simp] theorem State.arriveNow_mem (s : State) (a : Bool) : (s.arriveNow a).mem = s.mem := by
  have h := s.abar_mem a
  unfold State.arriveNow
  split
  · rename_i e; rw [State.arriveA_mem]; simpa [e] using h
  · rename_i e; simpa [e] using h

/-! Results on their way. -/

/-- A landing under way is appended; nothing else of the core changes but the next name. -/
theorem State.addLanding_core (s : State) (l : Landing) : (s.addLanding l).core =
    { s.core with
      lands := s.core.lands ++ [{ l with id := s.core.nextId, slot := s.slot, pc := s.core.pc }]
      nextId := s.core.nextId + 1 } := rfl

@[simp] theorem State.addLanding_mem (s : State) (l : Landing) : (s.addLanding l).mem = s.mem := rfl

@[simp] theorem State.landV_mem (s : State) (a : Bool) (c : Nat) (d : DstReg) (x w : Vec) (r : Option (BitVec 32)) :
    (s.landV a c d x w r).mem = s.mem := by
  simp [State.landV]

/-! Guards (R59). -/

/-- A slot whose guard holds has its effect, then its arrival. -/
theorem runSlot_true (h : Hdr) (s : State) (f : State → State) (g : s.rdP h.g = true) :
    runSlot h s f = .next ((f s).arriveNow h.a) := by
  simp [runSlot, State.guard, g]

/-- A slot whose guard is 0 makes its arrival alone. -/
theorem runSlot_false (h : Hdr) (s : State) (f : State → State) (g : s.rdP h.g = false) :
    runSlot h s f = .next (s.arriveNow h.a) := by
  simp [runSlot, State.guard, g]

/-- A checked slot whose check answers nothing has its effect, then its arrival. -/
theorem runChecked_none (h : Hdr) (s : State) (c : State → Option State) (f : State → State) (g : s.rdP h.g = true)
    (hc : c s = none) : runChecked h s c f = .next ((f s).arriveNow h.a) := by
  simp [runChecked, State.guard, g, hc]

/-- A checked slot whose check answers a state goes there. -/
theorem runChecked_some (h : Hdr) (s t : State) (c : State → Option State) (f : State → State) (g : s.rdP h.g = true)
    (hc : c s = some t) : runChecked h s c f = .next t := by
  simp [runChecked, State.guard, g, hc]

/-- A checked slot whose guard is 0 makes its arrival alone. -/
theorem runChecked_false (h : Hdr) (s : State) (c : State → Option State) (f : State → State) (g : s.rdP h.g = false) :
    runChecked h s c f = .next (s.arriveNow h.a) := by
  simp [runChecked, State.guard, g]

/-! Events and messages. -/

@[simp] theorem State.sendFlit_mem (s : State) : s.sendFlit.mem = s.mem := by
  unfold State.sendFlit; dsimp only; split <;> rfl

@[simp] theorem State.send_mem (s : State) (m : OutMsg) : (s.send m).mem = s.mem := by
  unfold State.send; dsimp only; split_ifs <;> simp

@[simp] theorem State.tellEvent_mem (s : State) : s.tellEvent.mem = s.mem := by
  unfold State.tellEvent; split_ifs <;> simp

@[simp] theorem State.pendIrq_mem (s : State) (n : Nat) : (s.pendIrq n).mem = s.mem := rfl

/-- A write by an agent of the module that cannot reach SCM keeps memory canonical (R1). -/
theorem State.agentWrite_wf (s : State) (pa : Nat) (bs : List Byte) (h : Memory.wf s.mem = true) :
    Memory.wf (s.agentWrite pa bs).mem = true := by
  unfold State.agentWrite
  split
  · exact h
  · exact State.physWrite_wf _ _ _ _ h

/-- Writing an event keeps memory canonical. -/
theorem State.writeEvent_wf (s : State) (e : Event) (h : Memory.wf s.mem = true) :
    Memory.wf (s.writeEvent e).mem = true := by
  simp only [State.writeEvent, State.tellEvent_mem, State.pendIrq_mem, State.setReg_mem]
  exact State.agentWrite_wf _ _ _ h

/-- Posting an event keeps memory canonical. -/
theorem State.postEvent_wf (s : State) (e : Event) (h : Memory.wf s.mem = true) :
    Memory.wf (s.postEvent e).mem = true := by
  unfold State.postEvent
  dsimp only
  split_ifs
  · exact State.writeEvent_wf _ _ h
  · exact h

/-- Writing the events held keeps memory canonical. -/
theorem State.flushEvents_wf (s : State) (h : Memory.wf s.mem = true) : Memory.wf s.flushEvents.mem = true := by
  unfold State.flushEvents
  refine foldl_keeps (fun t : State => Memory.wf t.mem = true) _ (fun b _ hb => ?_) _ _ h
  split
  · split_ifs
    · exact State.writeEvent_wf _ _ hb
    · exact hb
  · exact hb

/-! Taking a trap (R304 to R311). -/

@[simp] theorem State.endTask_mem (s : State) (t : Trap) : (s.endTask t).mem = s.mem := by simp [State.endTask]
@[simp] theorem State.enterHandler_mem (s : State) (t : Trap) : (s.enterHandler t).mem = s.mem := rfl
@[simp] theorem State.recover_mem (s : State) : s.recover.mem = s.mem := rfl

/-- Entering a handler: the record, the PC at THND, and four cycles to wait (R307). -/
theorem State.enterHandler_core (s : State) (t : Trap) : (s.enterHandler t).core.pc = s.core.r.thnd ∧
    (s.enterHandler t).core.r = { s.core.r with trc := trcOf t s.core.pc s.mcc } ∧
    (s.enterHandler t).core.delay = 4 := ⟨rfl, rfl, rfl⟩

/-- Taking a trap keeps memory canonical: it writes memory only where it posts an event. -/
theorem State.takeTrap_wf (s : State) (t : Trap) (h : Memory.wf s.mem = true) : Memory.wf (s.takeTrap t).mem = true := by
  have key : ∀ u : State, u.mem = s.mem → Memory.wf
      (if u.mgmt then
        (if u.core.accept then (u.enterHandler t).onCore fun c => { c with accept := false } else u.recover)
      else
        match trapClass t.cause with
        | .handler =>
          if u.core.r.thnd ≠ 0 ∧ u.core.inh = false then (u.enterHandler t).onCore fun c => { c with inh := true }
          else (u.onRegs fun r => { r with trc := trcOf t u.core.pc u.mcc }).endTask t
        | .software =>
          let s1 := u.onCore fun c =>
            { c with r := { c.r with trc := trcOf t c.pc u.mcc }, st := .frozen, note := .trap false,
                     waitOn := [], stamps := [], want := [],
                     pf := some { detail := t.detail, va := t.addr, kind := t.aux.setWidth 3 } }
          (match u.core.task with
           | some k => s1.postEvent { taskEvent 1 t.detail u.core k with va := t.addr }
           | none => s1)
        | .capture => u
        | .ends => (u.onRegs fun r => { r with trc := trcOf t u.core.pc u.mcc }).endTask t : State).mem = true := by
    intro u hu
    have hw : Memory.wf u.mem = true := by rw [hu]; exact h
    split
    · split
      · exact hw
      · exact hw
    · split
      · split
        · exact hw
        · simpa using hw
      · dsimp only
        split
        · exact State.postEvent_wf _ _ hw
        · exact hw
      · exact hw
      · simpa using hw
  unfold State.takeTrap
  split
  · exact key _ rfl
  · exact key _ rfl

/-- A slot's cause keeps memory canonical. -/
theorem State.trapSlot_wf (s : State) (t : Trap) (h : Memory.wf s.mem = true) : Memory.wf (s.trapSlot t).mem = true :=
  State.takeTrap_wf _ _ h

end Sys2Proof.Machine
end

