-- ==== Sys2Proof/Laws/PerInstr.lean ====
section
/-! SUPPORT. The per-instruction family Fits: the word the encoder writes is a 32-bit word (R54), for every
constructor of Instr. -/

namespace Sys2Proof.Laws

theorem bit_le (b : Bool) : bit b ≤ 1 := by cases b <;> decide

/-- The header leaves the 18 operand bits free and stays below 2 ^ 32 (R58). -/
theorem Hdr_enc_le (h : Hdr) (op : Nat) (hop : op < 128) : h.enc op ≤ 4294705152 := by
  have h1 := bit_le h.a
  have h2 := h.g.isLt
  simp only [Hdr.enc]
  omega

theorem VOp_enc_lt (o : VOp) (op : Nat) (hop : op < 128) : o.enc op < 2 ^ 32 := by
  have b_a := bit_le o.a
  have v_w := o.w.isLt
  have v_t := o.t.isLt
  have v_m := o.m.isLt
  have v_vd := o.vd.isLt
  have v_va := o.va.isLt
  have v_vb := o.vb.isLt
  simp only [VOp.enc]
  omega

theorem SROp_enc_lt (o : SROp) (op : Nat) (hop : op < 128) : o.enc op < 2 ^ 32 := by
  have hh := Hdr_enc_le o.h op hop
  have v_rd := o.rd.isLt
  have v_ra := o.ra.isLt
  have v_rb := o.rb.isLt
  simp only [SROp.enc]
  omega

theorem SR2Op_enc_lt (o : SR2Op) (op : Nat) (hop : op < 128) : o.enc op < 2 ^ 32 := by
  have hh := Hdr_enc_le o.h op hop
  have v_rd := o.rd.isLt
  have v_ra := o.ra.isLt
  simp only [SR2Op.enc]
  omega

theorem SIOp_enc_lt (o : SIOp) (op : Nat) (hop : op < 128) : o.enc op < 2 ^ 32 := by
  have hh := Hdr_enc_le o.h op hop
  have v_rd := o.rd.isLt
  have v_ra := o.ra.isLt
  have v_imm := o.imm.isLt
  simp only [SIOp.enc]
  omega

theorem SKOp_enc_lt (o : SKOp) (op : Nat) (hop : op < 128) : o.enc op < 2 ^ 32 := by
  have hh := Hdr_enc_le o.h op hop
  have v_rd := o.rd.isLt
  have v_imm := o.imm.isLt
  simp only [SKOp.enc]
  omega

theorem ImmOp_enc_lt (o : ImmOp) (op : Nat) (hop : op < 128) : o.enc op < 2 ^ 32 := by
  have hh := Hdr_enc_le o.h op hop
  have v_imm := o.imm.isLt
  simp only [ImmOp.enc]
  omega

theorem CmpOp_enc_lt (o : CmpOp) (op : Nat) (hop : op < 128) : o.enc op < 2 ^ 32 := by
  have hh := Hdr_enc_le o.h op hop
  have v_pd := o.pd.isLt
  have v_ra := o.ra.isLt
  have v_rb := o.rb.isLt
  simp only [CmpOp.enc]
  omega

theorem CmpIOp_enc_lt (o : CmpIOp) (op : Nat) (hop : op < 128) : o.enc op < 2 ^ 32 := by
  have hh := Hdr_enc_le o.h op hop
  have v_pd := o.pd.isLt
  have v_ra := o.ra.isLt
  have v_imm := o.imm.isLt
  simp only [CmpIOp.enc]
  omega

theorem PredOp_enc_lt (o : PredOp) (op : Nat) (hop : op < 128) : o.enc op < 2 ^ 32 := by
  have hh := Hdr_enc_le o.h op hop
  have v_pd := o.pd.isLt
  have v_pa := o.pa.isLt
  have v_pb := o.pb.isLt
  simp only [PredOp.enc]
  omega

theorem RdOp_enc_lt (o : RdOp) (op : Nat) (hop : op < 128) : o.enc op < 2 ^ 32 := by
  have hh := Hdr_enc_le o.h op hop
  have v_rd := o.rd.isLt
  simp only [RdOp.enc]
  omega

theorem RaOp_enc_lt (o : RaOp) (op : Nat) (hop : op < 128) : o.enc op < 2 ^ 32 := by
  have hh := Hdr_enc_le o.h op hop
  have v_ra := o.ra.isLt
  simp only [RaOp.enc]
  omega

theorem BrOp_enc_lt (o : BrOp) (op : Nat) (hop : op < 128) : o.enc op < 2 ^ 32 := by
  have hh := Hdr_enc_le o.h op hop
  have v_disp := o.disp.isLt
  simp only [BrOp.enc]
  omega

theorem LoopOp_enc_lt (o : LoopOp) (op : Nat) (hop : op < 128) : o.enc op < 2 ^ 32 := by
  have hh := Hdr_enc_le o.h op hop
  have v_lc := o.lc.isLt
  have v_ra := o.ra.isLt
  have v_len := o.len.isLt
  simp only [LoopOp.enc]
  omega

theorem LoopIOp_enc_lt (o : LoopIOp) (op : Nat) (hop : op < 128) : o.enc op < 2 ^ 32 := by
  have hh := Hdr_enc_le o.h op hop
  have v_lc := o.lc.isLt
  have v_imm := o.imm.isLt
  have v_len := o.len.isLt
  simp only [LoopIOp.enc]
  omega

theorem LcOp_enc_lt (o : LcOp) (op : Nat) (hop : op < 128) : o.enc op < 2 ^ 32 := by
  have hh := Hdr_enc_le o.h op hop
  have v_lc := o.lc.isLt
  simp only [LcOp.enc]
  omega

theorem TokOp_enc_lt (o : TokOp) (op : Nat) (hop : op < 128) : o.enc op < 2 ^ 32 := by
  have hh := Hdr_enc_le o.h op hop
  have v_mask := o.mask.isLt
  simp only [TokOp.enc]
  omega

theorem TlOp_enc_lt (o : TlOp) (op : Nat) (hop : op < 128) : o.enc op < 2 ^ 32 := by
  have hh := Hdr_enc_le o.h op hop
  have v_tl := o.tl.isLt
  have v_ra := o.ra.isLt
  simp only [TlOp.enc]
  omega

theorem BinitOp_enc_lt (o : BinitOp) (op : Nat) (hop : op < 128) : o.enc op < 2 ^ 32 := by
  have hh := Hdr_enc_le o.h op hop
  have v_b := o.b.isLt
  have v_ra := o.ra.isLt
  simp only [BinitOp.enc]
  omega

theorem BarOp_enc_lt (o : BarOp) (op : Nat) (hop : op < 128) : o.enc op < 2 ^ 32 := by
  have hh := Hdr_enc_le o.h op hop
  have v_b := o.b.isLt
  simp only [BarOp.enc]
  omega

theorem LvOp_enc_lt (o : LvOp) (op : Nat) (hop : op < 128) : o.enc op < 2 ^ 32 := by
  have hh := Hdr_enc_le o.h op hop
  have v_n := o.n.isLt
  simp only [LvOp.enc]
  omega

theorem XFOp_enc_lt (o : XFOp) (op : Nat) (hop : op < 128) : o.enc op < 2 ^ 32 := by
  have hh := Hdr_enc_le o.h op hop
  have v_vd := o.vd.isLt
  have v_va := o.va.isLt
  have v_t := o.t.isLt
  have v_m := o.m.isLt
  simp only [XFOp.enc]
  omega

theorem MmaOp_enc_lt (o : MmaOp) (op : Nat) (hop : op < 128) : o.enc op < 2 ^ 32 := by
  have hh := Hdr_enc_le o.h op hop
  have b_sa := bit_le o.sa
  have b_sb := bit_le o.sb
  have b_z := bit_le o.z
  have v_tile := o.tile.isLt
  have v_sd := o.sd.isLt
  have v_ss := o.ss.isLt
  simp only [MmaOp.enc]
  omega

theorem MzeroOp_enc_lt (o : MzeroOp) (op : Nat) (hop : op < 128) : o.enc op < 2 ^ 32 := by
  have hh := Hdr_enc_le o.h op hop
  have v_tile := o.tile.isLt
  have v_acc := o.acc.isLt
  simp only [MzeroOp.enc]
  omega

theorem MldtOp_enc_lt (o : MldtOp) (op : Nat) (hop : op < 128) : o.enc op < 2 ^ 32 := by
  have hh := Hdr_enc_le o.h op hop
  have v_tile := o.tile.isLt
  have v_sd := o.sd.isLt
  have v_acc := o.acc.isLt
  simp only [MldtOp.enc]
  omega

theorem MsttOp_enc_lt (o : MsttOp) (op : Nat) (hop : op < 128) : o.enc op < 2 ^ 32 := by
  have hh := Hdr_enc_le o.h op hop
  have v_tile := o.tile.isLt
  have v_sd := o.sd.isLt
  simp only [MsttOp.enc]
  omega

theorem MdrainOp_enc_lt (o : MdrainOp) (op : Nat) (hop : op < 128) : o.enc op < 2 ^ 32 := by
  have hh := Hdr_enc_le o.h op hop
  have b_uns := bit_le o.uns
  have b_req := bit_le o.req
  have v_tile := o.tile.isLt
  have v_sd := o.sd.isLt
  simp only [MdrainOp.enc]
  omega

theorem MrsumOp_enc_lt (o : MrsumOp) (op : Nat) (hop : op < 128) : o.enc op < 2 ^ 32 := by
  have hh := Hdr_enc_le o.h op hop
  have b_neg := bit_le o.neg
  have b_row := bit_le o.row
  have v_tile := o.tile.isLt
  have v_sh := o.sh.isLt
  simp only [MrsumOp.enc]
  omega

theorem MmodeOp_enc_lt (o : MmodeOp) (op : Nat) (hop : op < 128) : o.enc op < 2 ^ 32 := by
  have hh := Hdr_enc_le o.h op hop
  have b_sat := bit_le o.sat
  have v_rnd := o.rnd.isLt
  simp only [MmodeOp.enc]
  omega

theorem MstatOp_enc_lt (o : MstatOp) (op : Nat) (hop : op < 128) : o.enc op < 2 ^ 32 := by
  have hh := Hdr_enc_le o.h op hop
  have v_tile := o.tile.isLt
  have v_rd := o.rd.isLt
  simp only [MstatOp.enc]
  omega

theorem LdOp_enc_lt (o : LdOp) (op : Nat) (hop : op < 128) : o.enc op < 2 ^ 32 := by
  have hh := Hdr_enc_le o.h op hop
  have v_rd := o.rd.isLt
  have v_ra := o.ra.isLt
  have v_l := o.l.isLt
  simp only [LdOp.enc]
  omega

theorem StOp_enc_lt (o : StOp) (op : Nat) (hop : op < 128) : o.enc op < 2 ^ 32 := by
  have hh := Hdr_enc_le o.h op hop
  have v_src := o.src.isLt
  have v_ra := o.ra.isLt
  have v_imm := o.imm.isLt
  simp only [StOp.enc]
  omega

theorem VLdOp_enc_lt (o : VLdOp) (op : Nat) (hop : op < 128) : o.enc op < 2 ^ 32 := by
  have hh := Hdr_enc_le o.h op hop
  have v_v := o.v.isLt
  have v_ra := o.ra.isLt
  have v_l := o.l.isLt
  simp only [VLdOp.enc]
  omega

theorem VStOp_enc_lt (o : VStOp) (op : Nat) (hop : op < 128) : o.enc op < 2 ^ 32 := by
  have hh := Hdr_enc_le o.h op hop
  have v_v := o.v.isLt
  have v_ra := o.ra.isLt
  have v_imm := o.imm.isLt
  simp only [VStOp.enc]
  omega

theorem FenceOp_enc_lt (o : FenceOp) (op : Nat) (hop : op < 128) : o.enc op < 2 ^ 32 := by
  have hh := Hdr_enc_le o.h op hop
  have v_scope := o.scope.isLt
  have v_kind := o.kind.isLt
  simp only [FenceOp.enc]
  omega

theorem PfcOp_enc_lt (o : PfcOp) (op : Nat) (hop : op < 128) : o.enc op < 2 ^ 32 := by
  have hh := Hdr_enc_le o.h op hop
  have v_n := o.n.isLt
  have v_ra := o.ra.isLt
  simp only [PfcOp.enc]
  omega

theorem CpyOp_enc_lt (o : CpyOp) (op : Nat) (hop : op < 128) : o.enc op < 2 ^ 32 := by
  have hh := Hdr_enc_le o.h op hop
  have b_sen := bit_le o.sen
  have v_ra := o.ra.isLt
  have v_k := o.k.isLt
  have v_wait := o.wait.isLt
  simp only [CpyOp.enc]
  omega

theorem QpopOp_enc_lt (o : QpopOp) (op : Nat) (hop : op < 128) : o.enc op < 2 ^ 32 := by
  have hh := Hdr_enc_le o.h op hop
  have v_rd := o.rd.isLt
  have v_q := o.q.isLt
  simp only [QpopOp.enc]
  omega

theorem QpushOp_enc_lt (o : QpushOp) (op : Nat) (hop : op < 128) : o.enc op < 2 ^ 32 := by
  have hh := Hdr_enc_le o.h op hop
  have v_ra := o.ra.isLt
  have v_q := o.q.isLt
  simp only [QpushOp.enc]
  omega

/-- The word written for an instruction has at most 32 bits (R54). -/
def Fits.Statement (i : Instr) : Prop := encode i < 2 ^ 32

theorem Fits.nop (o : NopOp) : Fits.Statement (.nop o) := Nat.lt_of_le_of_lt (Hdr_enc_le o.h 0 (by decide)) (by decide)
theorem Fits.nopV (o : NopVOp) : Fits.Statement (.nopV o) := by
  have h := bit_le o.a
  simp only [Fits.Statement, encode]
  omega
theorem Fits.add (o : SROp) : Fits.Statement (.add o) := SROp_enc_lt o _ (by decide)
theorem Fits.sub (o : SROp) : Fits.Statement (.sub o) := SROp_enc_lt o _ (by decide)
theorem Fits.mul (o : SROp) : Fits.Statement (.mul o) := SROp_enc_lt o _ (by decide)
theorem Fits.mulh (o : SROp) : Fits.Statement (.mulh o) := SROp_enc_lt o _ (by decide)
theorem Fits.mulhu (o : SROp) : Fits.Statement (.mulhu o) := SROp_enc_lt o _ (by decide)
theorem Fits.divs (o : SROp) : Fits.Statement (.divs o) := SROp_enc_lt o _ (by decide)
theorem Fits.divu (o : SROp) : Fits.Statement (.divu o) := SROp_enc_lt o _ (by decide)
theorem Fits.remu (o : SROp) : Fits.Statement (.remu o) := SROp_enc_lt o _ (by decide)
theorem Fits.and (o : SROp) : Fits.Statement (.and o) := SROp_enc_lt o _ (by decide)
theorem Fits.or (o : SROp) : Fits.Statement (.or o) := SROp_enc_lt o _ (by decide)
theorem Fits.xor (o : SROp) : Fits.Statement (.xor o) := SROp_enc_lt o _ (by decide)
theorem Fits.andn (o : SROp) : Fits.Statement (.andn o) := SROp_enc_lt o _ (by decide)
theorem Fits.shl (o : SROp) : Fits.Statement (.shl o) := SROp_enc_lt o _ (by decide)
theorem Fits.shr (o : SROp) : Fits.Statement (.shr o) := SROp_enc_lt o _ (by decide)
theorem Fits.sar (o : SROp) : Fits.Statement (.sar o) := SROp_enc_lt o _ (by decide)
theorem Fits.rol (o : SROp) : Fits.Statement (.rol o) := SROp_enc_lt o _ (by decide)
theorem Fits.min (o : SROp) : Fits.Statement (.min o) := SROp_enc_lt o _ (by decide)
theorem Fits.max (o : SROp) : Fits.Statement (.max o) := SROp_enc_lt o _ (by decide)
theorem Fits.minn (o : SROp) : Fits.Statement (.minn o) := SROp_enc_lt o _ (by decide)
theorem Fits.maxn (o : SROp) : Fits.Statement (.maxn o) := SROp_enc_lt o _ (by decide)
theorem Fits.clz (o : SR2Op) : Fits.Statement (.clz o) := SR2Op_enc_lt o _ (by decide)
theorem Fits.popc (o : SR2Op) : Fits.Statement (.popc o) := SR2Op_enc_lt o _ (by decide)
theorem Fits.sel (o : SROp) : Fits.Statement (.sel o) := SROp_enc_lt o _ (by decide)
theorem Fits.bext (o : SROp) : Fits.Statement (.bext o) := SROp_enc_lt o _ (by decide)
theorem Fits.bins (o : SROp) : Fits.Statement (.bins o) := SROp_enc_lt o _ (by decide)
theorem Fits.addi (o : SIOp) : Fits.Statement (.addi o) := SIOp_enc_lt o _ (by decide)
theorem Fits.shli (o : SIOp) : Fits.Statement (.shli o) := SIOp_enc_lt o _ (by decide)
theorem Fits.shri (o : SIOp) : Fits.Statement (.shri o) := SIOp_enc_lt o _ (by decide)
theorem Fits.sari (o : SIOp) : Fits.Statement (.sari o) := SIOp_enc_lt o _ (by decide)
theorem Fits.andi (o : SIOp) : Fits.Statement (.andi o) := SIOp_enc_lt o _ (by decide)
theorem Fits.ori (o : SIOp) : Fits.Statement (.ori o) := SIOp_enc_lt o _ (by decide)
theorem Fits.xori (o : SIOp) : Fits.Statement (.xori o) := SIOp_enc_lt o _ (by decide)
theorem Fits.roli (o : SIOp) : Fits.Statement (.roli o) := SIOp_enc_lt o _ (by decide)
theorem Fits.movi (o : SKOp) : Fits.Statement (.movi o) := SKOp_enc_lt o _ (by decide)
theorem Fits.movk (o : SKOp) : Fits.Statement (.movk o) := SKOp_enc_lt o _ (by decide)
theorem Fits.addk (o : SKOp) : Fits.Statement (.addk o) := SKOp_enc_lt o _ (by decide)
theorem Fits.cmpeq (o : CmpOp) : Fits.Statement (.cmpeq o) := CmpOp_enc_lt o _ (by decide)
theorem Fits.cmpne (o : CmpOp) : Fits.Statement (.cmpne o) := CmpOp_enc_lt o _ (by decide)
theorem Fits.cmplt (o : CmpOp) : Fits.Statement (.cmplt o) := CmpOp_enc_lt o _ (by decide)
theorem Fits.cmple (o : CmpOp) : Fits.Statement (.cmple o) := CmpOp_enc_lt o _ (by decide)
theorem Fits.cmpltn (o : CmpOp) : Fits.Statement (.cmpltn o) := CmpOp_enc_lt o _ (by decide)
theorem Fits.cmplen (o : CmpOp) : Fits.Statement (.cmplen o) := CmpOp_enc_lt o _ (by decide)
theorem Fits.cmpeqi (o : CmpIOp) : Fits.Statement (.cmpeqi o) := CmpIOp_enc_lt o _ (by decide)
theorem Fits.cmpnei (o : CmpIOp) : Fits.Statement (.cmpnei o) := CmpIOp_enc_lt o _ (by decide)
theorem Fits.cmplti (o : CmpIOp) : Fits.Statement (.cmplti o) := CmpIOp_enc_lt o _ (by decide)
theorem Fits.cmpgei (o : CmpIOp) : Fits.Statement (.cmpgei o) := CmpIOp_enc_lt o _ (by decide)
theorem Fits.cmpltni (o : CmpIOp) : Fits.Statement (.cmpltni o) := CmpIOp_enc_lt o _ (by decide)
theorem Fits.cmpgeni (o : CmpIOp) : Fits.Statement (.cmpgeni o) := CmpIOp_enc_lt o _ (by decide)
theorem Fits.pand (o : PredOp) : Fits.Statement (.pand o) := PredOp_enc_lt o _ (by decide)
theorem Fits.por (o : PredOp) : Fits.Statement (.por o) := PredOp_enc_lt o _ (by decide)
theorem Fits.pxor (o : PredOp) : Fits.Statement (.pxor o) := PredOp_enc_lt o _ (by decide)
theorem Fits.pandn (o : PredOp) : Fits.Statement (.pandn o) := PredOp_enc_lt o _ (by decide)
theorem Fits.pget (o : RdOp) : Fits.Statement (.pget o) := RdOp_enc_lt o _ (by decide)
theorem Fits.pset (o : RaOp) : Fits.Statement (.pset o) := RaOp_enc_lt o _ (by decide)
theorem Fits.br (o : BrOp) : Fits.Statement (.br o) := BrOp_enc_lt o _ (by decide)
theorem Fits.call (o : BrOp) : Fits.Statement (.call o) := BrOp_enc_lt o _ (by decide)
theorem Fits.jr (o : RaOp) : Fits.Statement (.jr o) := RaOp_enc_lt o _ (by decide)
theorem Fits.callr (o : RaOp) : Fits.Statement (.callr o) := RaOp_enc_lt o _ (by decide)
theorem Fits.loop (o : LoopOp) : Fits.Statement (.loop o) := LoopOp_enc_lt o _ (by decide)
theorem Fits.loopi (o : LoopIOp) : Fits.Statement (.loopi o) := LoopIOp_enc_lt o _ (by decide)
theorem Fits.lbrk (o : LcOp) : Fits.Statement (.lbrk o) := LcOp_enc_lt o _ (by decide)
theorem Fits.exit (o : Hdr) : Fits.Statement (.exit o) := Nat.lt_of_le_of_lt (Hdr_enc_le o _ (by decide)) (by decide)
theorem Fits.trap (o : ImmOp) : Fits.Statement (.trap o) := ImmOp_enc_lt o _ (by decide)
theorem Fits.rett (o : Hdr) : Fits.Statement (.rett o) := Nat.lt_of_le_of_lt (Hdr_enc_le o _ (by decide)) (by decide)
theorem Fits.spawn (o : SR2Op) : Fits.Statement (.spawn o) := SR2Op_enc_lt o _ (by decide)
theorem Fits.srd (o : SKOp) : Fits.Statement (.srd o) := SKOp_enc_lt o _ (by decide)
theorem Fits.swr (o : SKOp) : Fits.Statement (.swr o) := SKOp_enc_lt o _ (by decide)
theorem Fits.stamp (o : ImmOp) : Fits.Statement (.stamp o) := ImmOp_enc_lt o _ (by decide)
theorem Fits.hint (o : ImmOp) : Fits.Statement (.hint o) := ImmOp_enc_lt o _ (by decide)
theorem Fits.rdcyc (o : RdOp) : Fits.Statement (.rdcyc o) := RdOp_enc_lt o _ (by decide)
theorem Fits.rdmcc (o : RdOp) : Fits.Statement (.rdmcc o) := RdOp_enc_lt o _ (by decide)
theorem Fits.rdptp (o : RdOp) : Fits.Statement (.rdptp o) := RdOp_enc_lt o _ (by decide)
theorem Fits.wfi (o : Hdr) : Fits.Statement (.wfi o) := Nat.lt_of_le_of_lt (Hdr_enc_le o _ (by decide)) (by decide)
theorem Fits.twait (o : TokOp) : Fits.Statement (.twait o) := TokOp_enc_lt o _ (by decide)
theorem Fits.tsig (o : TokOp) : Fits.Statement (.tsig o) := TokOp_enc_lt o _ (by decide)
theorem Fits.tlwait (o : TlOp) : Fits.Statement (.tlwait o) := TlOp_enc_lt o _ (by decide)
theorem Fits.binit (o : BinitOp) : Fits.Statement (.binit o) := BinitOp_enc_lt o _ (by decide)
theorem Fits.barr (o : BarOp) : Fits.Statement (.barr o) := BarOp_enc_lt o _ (by decide)
theorem Fits.bwait (o : BarOp) : Fits.Statement (.bwait o) := BarOp_enc_lt o _ (by decide)
theorem Fits.bsync (o : BarOp) : Fits.Statement (.bsync o) := BarOp_enc_lt o _ (by decide)
theorem Fits.sstep (o : LvOp) : Fits.Statement (.sstep o) := LvOp_enc_lt o _ (by decide)
theorem Fits.vadd (o : VOp) : Fits.Statement (.vadd o) := VOp_enc_lt o _ (by decide)
theorem Fits.vsub (o : VOp) : Fits.Statement (.vsub o) := VOp_enc_lt o _ (by decide)
theorem Fits.vadds (o : VOp) : Fits.Statement (.vadds o) := VOp_enc_lt o _ (by decide)
theorem Fits.vaddsn (o : VOp) : Fits.Statement (.vaddsn o) := VOp_enc_lt o _ (by decide)
theorem Fits.vsubs (o : VOp) : Fits.Statement (.vsubs o) := VOp_enc_lt o _ (by decide)
theorem Fits.vsubsn (o : VOp) : Fits.Statement (.vsubsn o) := VOp_enc_lt o _ (by decide)
theorem Fits.vmul (o : VOp) : Fits.Statement (.vmul o) := VOp_enc_lt o _ (by decide)
theorem Fits.vmulh (o : VOp) : Fits.Statement (.vmulh o) := VOp_enc_lt o _ (by decide)
theorem Fits.vmac (o : VOp) : Fits.Statement (.vmac o) := VOp_enc_lt o _ (by decide)
theorem Fits.vmin (o : VOp) : Fits.Statement (.vmin o) := VOp_enc_lt o _ (by decide)
theorem Fits.vmax (o : VOp) : Fits.Statement (.vmax o) := VOp_enc_lt o _ (by decide)
theorem Fits.vminn (o : VOp) : Fits.Statement (.vminn o) := VOp_enc_lt o _ (by decide)
theorem Fits.vmaxn (o : VOp) : Fits.Statement (.vmaxn o) := VOp_enc_lt o _ (by decide)
theorem Fits.vabsd (o : VOp) : Fits.Statement (.vabsd o) := VOp_enc_lt o _ (by decide)
theorem Fits.vavgn (o : VOp) : Fits.Statement (.vavgn o) := VOp_enc_lt o _ (by decide)
theorem Fits.vand (o : VOp) : Fits.Statement (.vand o) := VOp_enc_lt o _ (by decide)
theorem Fits.vor (o : VOp) : Fits.Statement (.vor o) := VOp_enc_lt o _ (by decide)
theorem Fits.vxor (o : VOp) : Fits.Statement (.vxor o) := VOp_enc_lt o _ (by decide)
theorem Fits.vandn (o : VOp) : Fits.Statement (.vandn o) := VOp_enc_lt o _ (by decide)
theorem Fits.vshl (o : VOp) : Fits.Statement (.vshl o) := VOp_enc_lt o _ (by decide)
theorem Fits.vshr (o : VOp) : Fits.Statement (.vshr o) := VOp_enc_lt o _ (by decide)
theorem Fits.vsar (o : VOp) : Fits.Statement (.vsar o) := VOp_enc_lt o _ (by decide)
theorem Fits.vshli (o : VOp) : Fits.Statement (.vshli o) := VOp_enc_lt o _ (by decide)
theorem Fits.vshri (o : VOp) : Fits.Statement (.vshri o) := VOp_enc_lt o _ (by decide)
theorem Fits.vsari (o : VOp) : Fits.Statement (.vsari o) := VOp_enc_lt o _ (by decide)
theorem Fits.vclz (o : VOp) : Fits.Statement (.vclz o) := VOp_enc_lt o _ (by decide)
theorem Fits.vpopc (o : VOp) : Fits.Statement (.vpopc o) := VOp_enc_lt o _ (by decide)
theorem Fits.vfadd (o : VOp) : Fits.Statement (.vfadd o) := VOp_enc_lt o _ (by decide)
theorem Fits.vfsub (o : VOp) : Fits.Statement (.vfsub o) := VOp_enc_lt o _ (by decide)
theorem Fits.vfmul (o : VOp) : Fits.Statement (.vfmul o) := VOp_enc_lt o _ (by decide)
theorem Fits.vfma (o : VOp) : Fits.Statement (.vfma o) := VOp_enc_lt o _ (by decide)
theorem Fits.vfnma (o : VOp) : Fits.Statement (.vfnma o) := VOp_enc_lt o _ (by decide)
theorem Fits.vfmin (o : VOp) : Fits.Statement (.vfmin o) := VOp_enc_lt o _ (by decide)
theorem Fits.vfmax (o : VOp) : Fits.Statement (.vfmax o) := VOp_enc_lt o _ (by decide)
theorem Fits.vfabs (o : VOp) : Fits.Statement (.vfabs o) := VOp_enc_lt o _ (by decide)
theorem Fits.vfneg (o : VOp) : Fits.Statement (.vfneg o) := VOp_enc_lt o _ (by decide)
theorem Fits.vcmpeq (o : VOp) : Fits.Statement (.vcmpeq o) := VOp_enc_lt o _ (by decide)
theorem Fits.vcmpne (o : VOp) : Fits.Statement (.vcmpne o) := VOp_enc_lt o _ (by decide)
theorem Fits.vcmplt (o : VOp) : Fits.Statement (.vcmplt o) := VOp_enc_lt o _ (by decide)
theorem Fits.vcmple (o : VOp) : Fits.Statement (.vcmple o) := VOp_enc_lt o _ (by decide)
theorem Fits.vcmpltn (o : VOp) : Fits.Statement (.vcmpltn o) := VOp_enc_lt o _ (by decide)
theorem Fits.vcmplen (o : VOp) : Fits.Statement (.vcmplen o) := VOp_enc_lt o _ (by decide)
theorem Fits.vfcmpeq (o : VOp) : Fits.Statement (.vfcmpeq o) := VOp_enc_lt o _ (by decide)
theorem Fits.vfcmplt (o : VOp) : Fits.Statement (.vfcmplt o) := VOp_enc_lt o _ (by decide)
theorem Fits.vfcmple (o : VOp) : Fits.Statement (.vfcmple o) := VOp_enc_lt o _ (by decide)
theorem Fits.vfcmpun (o : VOp) : Fits.Statement (.vfcmpun o) := VOp_enc_lt o _ (by decide)
theorem Fits.mand (o : VOp) : Fits.Statement (.mand o) := VOp_enc_lt o _ (by decide)
theorem Fits.mor (o : VOp) : Fits.Statement (.mor o) := VOp_enc_lt o _ (by decide)
theorem Fits.mxor (o : VOp) : Fits.Statement (.mxor o) := VOp_enc_lt o _ (by decide)
theorem Fits.mandn (o : VOp) : Fits.Statement (.mandn o) := VOp_enc_lt o _ (by decide)
theorem Fits.many (o : VOp) : Fits.Statement (.many o) := VOp_enc_lt o _ (by decide)
theorem Fits.mall (o : VOp) : Fits.Statement (.mall o) := VOp_enc_lt o _ (by decide)
theorem Fits.vpermb (o : VOp) : Fits.Statement (.vpermb o) := VOp_enc_lt o _ (by decide)
theorem Fits.vpermw (o : VOp) : Fits.Statement (.vpermw o) := VOp_enc_lt o _ (by decide)
theorem Fits.vrmrg (o : VOp) : Fits.Statement (.vrmrg o) := VOp_enc_lt o _ (by decide)
theorem Fits.vrev (o : VOp) : Fits.Statement (.vrev o) := VOp_enc_lt o _ (by decide)
theorem Fits.vzip (o : VOp) : Fits.Statement (.vzip o) := VOp_enc_lt o _ (by decide)
theorem Fits.vunzip (o : VOp) : Fits.Statement (.vunzip o) := VOp_enc_lt o _ (by decide)
theorem Fits.vbcs (o : VOp) : Fits.Statement (.vbcs o) := VOp_enc_lt o _ (by decide)
theorem Fits.vxs (o : VOp) : Fits.Statement (.vxs o) := VOp_enc_lt o _ (by decide)
theorem Fits.vmovi (o : VOp) : Fits.Statement (.vmovi o) := VOp_enc_lt o _ (by decide)
theorem Fits.vmov (o : VOp) : Fits.Statement (.vmov o) := VOp_enc_lt o _ (by decide)
theorem Fits.vsel (o : VOp) : Fits.Statement (.vsel o) := VOp_enc_lt o _ (by decide)
theorem Fits.vcvt (o : VOp) : Fits.Statement (.vcvt o) := VOp_enc_lt o _ (by decide)
theorem Fits.vcvtsr (o : VOp) : Fits.Statement (.vcvtsr o) := VOp_enc_lt o _ (by decide)
theorem Fits.vnarrow (o : VOp) : Fits.Statement (.vnarrow o) := VOp_enc_lt o _ (by decide)
theorem Fits.vwiden (o : VOp) : Fits.Statement (.vwiden o) := VOp_enc_lt o _ (by decide)
theorem Fits.vrng (o : VOp) : Fits.Statement (.vrng o) := VOp_enc_lt o _ (by decide)
theorem Fits.vredadd (o : VOp) : Fits.Statement (.vredadd o) := VOp_enc_lt o _ (by decide)
theorem Fits.vredmax (o : VOp) : Fits.Statement (.vredmax o) := VOp_enc_lt o _ (by decide)
theorem Fits.vredmin (o : VOp) : Fits.Statement (.vredmin o) := VOp_enc_lt o _ (by decide)
theorem Fits.vfredadd (o : VOp) : Fits.Statement (.vfredadd o) := VOp_enc_lt o _ (by decide)
theorem Fits.vfredmax (o : VOp) : Fits.Statement (.vfredmax o) := VOp_enc_lt o _ (by decide)
theorem Fits.xrcp (o : XFOp) : Fits.Statement (.xrcp o) := XFOp_enc_lt o _ (by decide)
theorem Fits.xrsq (o : XFOp) : Fits.Statement (.xrsq o) := XFOp_enc_lt o _ (by decide)
theorem Fits.xsqrt (o : XFOp) : Fits.Statement (.xsqrt o) := XFOp_enc_lt o _ (by decide)
theorem Fits.xexp2 (o : XFOp) : Fits.Statement (.xexp2 o) := XFOp_enc_lt o _ (by decide)
theorem Fits.xlog2 (o : XFOp) : Fits.Statement (.xlog2 o) := XFOp_enc_lt o _ (by decide)
theorem Fits.xsint (o : XFOp) : Fits.Statement (.xsint o) := XFOp_enc_lt o _ (by decide)
theorem Fits.xcost (o : XFOp) : Fits.Statement (.xcost o) := XFOp_enc_lt o _ (by decide)
theorem Fits.xtanh (o : XFOp) : Fits.Statement (.xtanh o) := XFOp_enc_lt o _ (by decide)
theorem Fits.xsigm (o : XFOp) : Fits.Statement (.xsigm o) := XFOp_enc_lt o _ (by decide)
theorem Fits.xgelu (o : XFOp) : Fits.Statement (.xgelu o) := XFOp_enc_lt o _ (by decide)
theorem Fits.mma (o : MmaOp) : Fits.Statement (.mma o) := MmaOp_enc_lt o _ (by decide)
theorem Fits.mzero (o : MzeroOp) : Fits.Statement (.mzero o) := MzeroOp_enc_lt o _ (by decide)
theorem Fits.mldt (o : MldtOp) : Fits.Statement (.mldt o) := MldtOp_enc_lt o _ (by decide)
theorem Fits.mstt (o : MsttOp) : Fits.Statement (.mstt o) := MsttOp_enc_lt o _ (by decide)
theorem Fits.mdrain (o : MdrainOp) : Fits.Statement (.mdrain o) := MdrainOp_enc_lt o _ (by decide)
theorem Fits.mrsum (o : MrsumOp) : Fits.Statement (.mrsum o) := MrsumOp_enc_lt o _ (by decide)
theorem Fits.mmode (o : MmodeOp) : Fits.Statement (.mmode o) := MmodeOp_enc_lt o _ (by decide)
theorem Fits.mstat (o : MstatOp) : Fits.Statement (.mstat o) := MstatOp_enc_lt o _ (by decide)
theorem Fits.ld8 (o : LdOp) : Fits.Statement (.ld8 o) := LdOp_enc_lt o _ (by decide)
theorem Fits.ld16 (o : LdOp) : Fits.Statement (.ld16 o) := LdOp_enc_lt o _ (by decide)
theorem Fits.ld32 (o : LdOp) : Fits.Statement (.ld32 o) := LdOp_enc_lt o _ (by decide)
theorem Fits.ld64 (o : LdOp) : Fits.Statement (.ld64 o) := LdOp_enc_lt o _ (by decide)
theorem Fits.lds8 (o : LdOp) : Fits.Statement (.lds8 o) := LdOp_enc_lt o _ (by decide)
theorem Fits.lds16 (o : LdOp) : Fits.Statement (.lds16 o) := LdOp_enc_lt o _ (by decide)
theorem Fits.lds32 (o : LdOp) : Fits.Statement (.lds32 o) := LdOp_enc_lt o _ (by decide)
theorem Fits.st8 (o : StOp) : Fits.Statement (.st8 o) := StOp_enc_lt o _ (by decide)
theorem Fits.st16 (o : StOp) : Fits.Statement (.st16 o) := StOp_enc_lt o _ (by decide)
theorem Fits.st32 (o : StOp) : Fits.Statement (.st32 o) := StOp_enc_lt o _ (by decide)
theorem Fits.st64 (o : StOp) : Fits.Statement (.st64 o) := StOp_enc_lt o _ (by decide)
theorem Fits.vld1 (o : VLdOp) : Fits.Statement (.vld1 o) := VLdOp_enc_lt o _ (by decide)
theorem Fits.vld2 (o : VLdOp) : Fits.Statement (.vld2 o) := VLdOp_enc_lt o _ (by decide)
theorem Fits.vld4 (o : VLdOp) : Fits.Statement (.vld4 o) := VLdOp_enc_lt o _ (by decide)
theorem Fits.vst1 (o : VStOp) : Fits.Statement (.vst1 o) := VStOp_enc_lt o _ (by decide)
theorem Fits.vst2 (o : VStOp) : Fits.Statement (.vst2 o) := VStOp_enc_lt o _ (by decide)
theorem Fits.vst4 (o : VStOp) : Fits.Statement (.vst4 o) := VStOp_enc_lt o _ (by decide)
theorem Fits.spld (o : VLdOp) : Fits.Statement (.spld o) := VLdOp_enc_lt o _ (by decide)
theorem Fits.spldh (o : VLdOp) : Fits.Statement (.spldh o) := VLdOp_enc_lt o _ (by decide)
theorem Fits.spst (o : VStOp) : Fits.Statement (.spst o) := VStOp_enc_lt o _ (by decide)
theorem Fits.spsth (o : VStOp) : Fits.Statement (.spsth o) := VStOp_enc_lt o _ (by decide)
theorem Fits.vgath (o : VLdOp) : Fits.Statement (.vgath o) := VLdOp_enc_lt o _ (by decide)
theorem Fits.vscat (o : VStOp) : Fits.Statement (.vscat o) := VStOp_enc_lt o _ (by decide)
theorem Fits.fence (o : FenceOp) : Fits.Statement (.fence o) := FenceOp_enc_lt o _ (by decide)
theorem Fits.aadd (o : SROp) : Fits.Statement (.aadd o) := SROp_enc_lt o _ (by decide)
theorem Fits.amin (o : SROp) : Fits.Statement (.amin o) := SROp_enc_lt o _ (by decide)
theorem Fits.amax (o : SROp) : Fits.Statement (.amax o) := SROp_enc_lt o _ (by decide)
theorem Fits.aminn (o : SROp) : Fits.Statement (.aminn o) := SROp_enc_lt o _ (by decide)
theorem Fits.amaxn (o : SROp) : Fits.Statement (.amaxn o) := SROp_enc_lt o _ (by decide)
theorem Fits.aand (o : SROp) : Fits.Statement (.aand o) := SROp_enc_lt o _ (by decide)
theorem Fits.aor (o : SROp) : Fits.Statement (.aor o) := SROp_enc_lt o _ (by decide)
theorem Fits.axor (o : SROp) : Fits.Statement (.axor o) := SROp_enc_lt o _ (by decide)
theorem Fits.axchg (o : SROp) : Fits.Statement (.axchg o) := SROp_enc_lt o _ (by decide)
theorem Fits.acas (o : SROp) : Fits.Statement (.acas o) := SROp_enc_lt o _ (by decide)
theorem Fits.afadd (o : SROp) : Fits.Statement (.afadd o) := SROp_enc_lt o _ (by decide)
theorem Fits.pf (o : RaOp) : Fits.Statement (.pf o) := RaOp_enc_lt o _ (by decide)
theorem Fits.pfc (o : PfcOp) : Fits.Statement (.pfc o) := PfcOp_enc_lt o _ (by decide)
theorem Fits.clwb (o : RaOp) : Fits.Statement (.clwb o) := RaOp_enc_lt o _ (by decide)
theorem Fits.clinv (o : RaOp) : Fits.Statement (.clinv o) := RaOp_enc_lt o _ (by decide)
theorem Fits.cpy (o : CpyOp) : Fits.Statement (.cpy o) := CpyOp_enc_lt o _ (by decide)
theorem Fits.cpyf (o : CpyOp) : Fits.Statement (.cpyf o) := CpyOp_enc_lt o _ (by decide)
theorem Fits.cpyt (o : CpyOp) : Fits.Statement (.cpyt o) := CpyOp_enc_lt o _ (by decide)
theorem Fits.seqrun (o : CpyOp) : Fits.Statement (.seqrun o) := CpyOp_enc_lt o _ (by decide)
theorem Fits.qpop (o : QpopOp) : Fits.Statement (.qpop o) := QpopOp_enc_lt o _ (by decide)
theorem Fits.qpush (o : QpushOp) : Fits.Statement (.qpush o) := QpushOp_enc_lt o _ (by decide)
theorem Fits.illegalBundle : Fits.Statement (.illegalBundle) := (by decide : 0 < 2 ^ 32)
theorem Fits.dataArrival (id : Nat) (err : Bool) : Fits.Statement (.dataArrival id err) := (by decide : 0 < 2 ^ 32)
theorem Fits.landing (id : Nat) : Fits.Statement (.landing id) := (by decide : 0 < 2 ^ 32)
theorem Fits.freezeEnd : Fits.Statement (.freezeEnd) := (by decide : 0 < 2 ^ 32)
theorem Fits.waitSatisfied : Fits.Statement (.waitSatisfied) := (by decide : 0 < 2 ^ 32)
theorem Fits.frameOverrun : Fits.Statement (.frameOverrun) := (by decide : 0 < 2 ^ 32)
theorem Fits.budgetOverrun : Fits.Statement (.budgetOverrun) := (by decide : 0 < 2 ^ 32)
theorem Fits.trapDelivery : Fits.Statement (.trapDelivery) := (by decide : 0 < 2 ^ 32)
theorem Fits.sfuStart (id : Nat) : Fits.Statement (.sfuStart id) := (by decide : 0 < 2 ^ 32)
theorem Fits.sfuResult (id : Nat) : Fits.Statement (.sfuResult id) := (by decide : 0 < 2 ^ 32)
theorem Fits.arrayWindowSwitch (j : Nat) : Fits.Statement (.arrayWindowSwitch j) := (by decide : 0 < 2 ^ 32)
theorem Fits.matrixEntryStart : Fits.Statement (.matrixEntryStart) := (by decide : 0 < 2 ^ 32)
theorem Fits.matrixBlock : Fits.Statement (.matrixBlock) := (by decide : 0 < 2 ^ 32)
theorem Fits.matrixEntryComplete : Fits.Statement (.matrixEntryComplete) := (by decide : 0 < 2 ^ 32)
theorem Fits.copyEntryStart : Fits.Statement (.copyEntryStart) := (by decide : 0 < 2 ^ 32)
theorem Fits.copyComplete : Fits.Statement (.copyComplete) := (by decide : 0 < 2 ^ 32)
theorem Fits.copyFault (addr : Word) (aux : Word) : Fits.Statement (.copyFault addr aux) := (by decide : 0 < 2 ^ 32)
theorem Fits.seqrunComplete (num : Nat) : Fits.Statement (.seqrunComplete num) := (by decide : 0 < 2 ^ 32)
theorem Fits.barrierReleaseDelivery : Fits.Statement (.barrierReleaseDelivery) := (by decide : 0 < 2 ^ 32)
theorem Fits.superstepRelease (key : StepKey) : Fits.Statement (.superstepRelease key) := (by decide : 0 < 2 ^ 32)
theorem Fits.storeAck (id : Nat) : Fits.Statement (.storeAck id) := (by decide : 0 < 2 ^ 32)
theorem Fits.fenceComplete (id : Nat) : Fits.Statement (.fenceComplete id) := (by decide : 0 < 2 ^ 32)
theorem Fits.fenceTimeout (id : Nat) : Fits.Statement (.fenceTimeout id) := (by decide : 0 < 2 ^ 32)
theorem Fits.pageWalk (va : Word) (kind : BitVec 3) : Fits.Statement (.pageWalk va kind) := (by decide : 0 < 2 ^ 32)
theorem Fits.ownerTagCheck (pa : List Nat) (store : Bool) : Fits.Statement (.ownerTagCheck pa store) := (by decide : 0 < 2 ^ 32)
theorem Fits.spawnRecordRead : Fits.Statement (.spawnRecordRead) := (by decide : 0 < 2 ^ 32)
theorem Fits.qtailWrite (q : BitVec 6) (v : Word) : Fits.Statement (.qtailWrite q v) := (by decide : 0 < 2 ^ 32)
theorem Fits.launchRecordFetch (q : BitVec 6) : Fits.Statement (.launchRecordFetch q) := (by decide : 0 < 2 ^ 32)
theorem Fits.launchAcceptance (src : RecordSource) : Fits.Statement (.launchAcceptance src) := (by decide : 0 < 2 ^ 32)
theorem Fits.schedulerSelection (die : Nat) : Fits.Statement (.schedulerSelection die) := (by decide : 0 < 2 ^ 32)
theorem Fits.taskBinding (h : Nat) : Fits.Statement (.taskBinding h) := (by decide : 0 < 2 ^ 32)
theorem Fits.preloadComplete : Fits.Statement (.preloadComplete) := (by decide : 0 < 2 ^ 32)
theorem Fits.firstIssue : Fits.Statement (.firstIssue) := (by decide : 0 < 2 ^ 32)
theorem Fits.taskRetire : Fits.Statement (.taskRetire) := (by decide : 0 < 2 ^ 32)
theorem Fits.cancel (wr : Writer) (v : Word) : Fits.Statement (.cancel wr v) := (by decide : 0 < 2 ^ 32)
theorem Fits.cancelAtDie (die : Nat) (serial : BitVec 32) : Fits.Statement (.cancelAtDie die serial) := (by decide : 0 < 2 ^ 32)
theorem Fits.spillMove (serial : BitVec 32) : Fits.Statement (.spillMove serial) := (by decide : 0 < 2 ^ 32)
theorem Fits.reservedEntryGrant (serial : BitVec 32) : Fits.Statement (.reservedEntryGrant serial) := (by decide : 0 < 2 ^ 32)
theorem Fits.childPreemptTimeout (serial : BitVec 32) : Fits.Statement (.childPreemptTimeout serial) := (by decide : 0 < 2 ^ 32)
theorem Fits.preempt (v : Word) : Fits.Statement (.preempt v) := (by decide : 0 < 2 ^ 32)
theorem Fits.switch (v : Word) : Fits.Statement (.switch v) := (by decide : 0 < 2 ^ 32)
theorem Fits.resume (v : Word) : Fits.Statement (.resume v) := (by decide : 0 < 2 ^ 32)
theorem Fits.capture : Fits.Statement (.capture) := (by decide : 0 < 2 ^ 32)
theorem Fits.captureComplete : Fits.Statement (.captureComplete) := (by decide : 0 < 2 ^ 32)
theorem Fits.contextRestore (n : Nat) : Fits.Statement (.contextRestore n) := (by decide : 0 < 2 ^ 32)
theorem Fits.retry (v : Word) : Fits.Statement (.retry v) := (by decide : 0 < 2 ^ 32)
theorem Fits.fail (v : Word) : Fits.Statement (.fail v) := (by decide : 0 < 2 ^ 32)
theorem Fits.tlbInvalidate (v : Word) : Fits.Statement (.tlbInvalidate v) := (by decide : 0 < 2 ^ 32)
theorem Fits.invalidationComplete : Fits.Statement (.invalidationComplete) := (by decide : 0 < 2 ^ 32)
theorem Fits.evbaseWrite (v : Word) : Fits.Statement (.evbaseWrite v) := (by decide : 0 < 2 ^ 32)
theorem Fits.evconsWrite (v : Word) : Fits.Statement (.evconsWrite v) := (by decide : 0 < 2 ^ 32)
theorem Fits.switchPoint (c : Nat) : Fits.Statement (.switchPoint c) := (by decide : 0 < 2 ^ 32)
theorem Fits.clockPauseEnd (c : Nat) : Fits.Statement (.clockPauseEnd c) := (by decide : 0 < 2 ^ 32)
theorem Fits.clctlStep (c : Nat) (v : Word) : Fits.Statement (.clctlStep c v) := (by decide : 0 < 2 ^ 32)
theorem Fits.clctlThr (c : Nat) (v : Word) : Fits.Statement (.clctlThr c v) := (by decide : 0 < 2 ^ 32)
theorem Fits.clctlForcewa (c : Nat) (v : Word) : Fits.Statement (.clctlForcewa c v) := (by decide : 0 < 2 ^ 32)
theorem Fits.throttleApply (c : Nat) : Fits.Statement (.throttleApply c) := (by decide : 0 < 2 ^ 32)
theorem Fits.sensorSample (n : Nat) (deg : BitVec 16) : Fits.Statement (.sensorSample n deg) := (by decide : 0 < 2 ^ 32)
theorem Fits.tripOverheatWarning (n : Nat) : Fits.Statement (.tripOverheatWarning n) := (by decide : 0 < 2 ^ 32)
theorem Fits.powerSample (mw uw : Nat) : Fits.Statement (.powerSample mw uw) := (by decide : 0 < 2 ^ 32)
theorem Fits.limiterFallCheck : Fits.Statement (.limiterFallCheck) := (by decide : 0 < 2 ^ 32)
theorem Fits.limiterRiseCheck : Fits.Statement (.limiterRiseCheck) := (by decide : 0 < 2 ^ 32)
theorem Fits.accountingUpdate (uj : List Nat) : Fits.Statement (.accountingUpdate uj) := (by decide : 0 < 2 ^ 32)
theorem Fits.correctedError (c : Nat) : Fits.Statement (.correctedError c) := (by decide : 0 < 2 ^ 32)
theorem Fits.clusterRetire (v : Word) : Fits.Statement (.clusterRetire v) := (by decide : 0 < 2 ^ 32)
theorem Fits.interrupt : Fits.Statement (.interrupt) := (by decide : 0 < 2 ^ 32)
theorem Fits.wfiWake : Fits.Statement (.wfiWake) := (by decide : 0 < 2 ^ 32)
theorem Fits.keyWrapLoad (v : Word) : Fits.Statement (.keyWrapLoad v) := (by decide : 0 < 2 ^ 32)
theorem Fits.keyWrapDone : Fits.Statement (.keyWrapDone) := (by decide : 0 < 2 ^ 32)
theorem Fits.shutterFire (v : Word) : Fits.Statement (.shutterFire v) := (by decide : 0 < 2 ^ 32)
theorem Fits.shutterN : Fits.Statement (.shutterN) := (by decide : 0 < 2 ^ 32)
theorem Fits.readout (addr : Word) : Fits.Statement (.readout addr) := (by decide : 0 < 2 ^ 32)
theorem Fits.moduleReset (x : ResetEvent) : Fits.Statement (.moduleReset x) := (by decide : 0 < 2 ^ 32)
theorem Fits.eyeMeasurement (sel : BitVec 16) (vmarg : BitVec 16) (tmarg : BitVec 16) : Fits.Statement (.eyeMeasurement sel vmarg tmarg) := (by decide : 0 < 2 ^ 32)
theorem Fits.laneRepair (v : Word) : Fits.Statement (.laneRepair v) := (by decide : 0 < 2 ^ 32)
theorem Fits.channelRetrain (v : Word) : Fits.Statement (.channelRetrain v) := (by decide : 0 < 2 ^ 32)
theorem Fits.hbmrepDone (ok : Bool) : Fits.Statement (.hbmrepDone ok) := (by decide : 0 < 2 ^ 32)
theorem Fits.scrubRead (line : Nat) : Fits.Statement (.scrubRead line) := (by decide : 0 < 2 ^ 32)
theorem Fits.scrubWriteback : Fits.Statement (.scrubWriteback) := (by decide : 0 < 2 ^ 32)
theorem Fits.loupeWindowEnd : Fits.Statement (.loupeWindowEnd) := (by decide : 0 < 2 ^ 32)
theorem Fits.enlargerWordRead (seg : Nat) : Fits.Statement (.enlargerWordRead seg) := (by decide : 0 < 2 ^ 32)
theorem Fits.enlargerDelivery (seg : Nat) : Fits.Statement (.enlargerDelivery seg) := (by decide : 0 < 2 ^ 32)
theorem Fits.enlargerFailover : Fits.Statement (.enlargerFailover) := (by decide : 0 < 2 ^ 32)
theorem Fits.flitReceive (f : Flit) : Fits.Statement (.flitReceive f) := (by decide : 0 < 2 ^ 32)
theorem Fits.replayRequest (link : Nat) (seq : Nat) : Fits.Statement (.replayRequest link seq) := (by decide : 0 < 2 ^ 32)
theorem Fits.flitAck (link : Nat) (seq : Nat) : Fits.Statement (.flitAck link seq) := (by decide : 0 < 2 ^ 32)
theorem Fits.retireMarker (link : Nat) (epoch : BitVec 8) : Fits.Statement (.retireMarker link epoch) := (by decide : 0 < 2 ^ 32)
theorem Fits.incarnationAnnouncement (pos : Nat) (inc : BitVec 16) : Fits.Statement (.incarnationAnnouncement pos inc) := (by decide : 0 < 2 ^ 32)
theorem Fits.hibernatedAnnouncement (pos : Nat) (inc : BitVec 16) : Fits.Statement (.hibernatedAnnouncement pos inc) := (by decide : 0 < 2 ^ 32)
theorem Fits.remoteRequest (q : RemoteReq) : Fits.Statement (.remoteRequest q) := (by decide : 0 < 2 ^ 32)
theorem Fits.remoteAnswer (x : RemoteAns) : Fits.Statement (.remoteAnswer x) := (by decide : 0 < 2 ^ 32)
theorem Fits.retransmitTimeout (core : Nat) (id : Nat) : Fits.Statement (.retransmitTimeout core id) := (by decide : 0 < 2 ^ 32)
theorem Fits.hibernatingTimeout (core : Nat) (id : Nat) : Fits.Statement (.hibernatingTimeout core id) := (by decide : 0 < 2 ^ 32)
theorem Fits.proofProbe (i : Nat) : Fits.Statement (.proofProbe i) := (by decide : 0 < 2 ^ 32)
theorem Fits.probeRequest (who : Requester) (from_ : Nat) : Fits.Statement (.probeRequest who from_) := (by decide : 0 < 2 ^ 32)
theorem Fits.probeAnswer (i : Nat) (x : ProbeAns) : Fits.Statement (.probeAnswer i x) := (by decide : 0 < 2 ^ 32)
theorem Fits.probeTimeout (i : Nat) : Fits.Statement (.probeTimeout i) := (by decide : 0 < 2 ^ 32)
theorem Fits.prfrel (v : Word) : Fits.Statement (.prfrel v) := (by decide : 0 < 2 ^ 32)
theorem Fits.treeStreamReceive (x : TreeStream) : Fits.Statement (.treeStreamReceive x) := (by decide : 0 < 2 ^ 32)
theorem Fits.treeAck (id : Nat) (from_ : Nat) (ok : Nat) : Fits.Statement (.treeAck id from_ ok) := (by decide : 0 < 2 ^ 32)
theorem Fits.fifoBind (v : Word) : Fits.Statement (.fifoBind v) := (by decide : 0 < 2 ^ 32)
theorem Fits.fifoUnbind (v : Word) : Fits.Statement (.fifoUnbind v) := (by decide : 0 < 2 ^ 32)
theorem Fits.fifoWordTransfer (who which : Nat) (x : FifoMove) : Fits.Statement (.fifoWordTransfer who which x) := (by decide : 0 < 2 ^ 32)
theorem Fits.timelineWrite (t : BitVec 12) (v : Word) : Fits.Statement (.timelineWrite t v) := (by decide : 0 < 2 ^ 32)
theorem Fits.landingWindowWrite (port : BitVec 1) (w : BitVec 6) (off : BitVec 16) (data : List Byte) : Fits.Statement (.landingWindowWrite port w off data) := (by decide : 0 < 2 ^ 32)
theorem Fits.bar4Access (port : BitVec 1) (off : BitVec 36) (x : Bar4) : Fits.Statement (.bar4Access port off x) := (by decide : 0 < 2 ^ 32)
theorem Fits.spdmRequest (port : BitVec 1) (keyExchange : Bool) : Fits.Statement (.spdmRequest port keyExchange) := (by decide : 0 < 2 ^ 32)
theorem Fits.ptpset (v : Word) : Fits.Statement (.ptpset v) := (by decide : 0 < 2 ^ 32)
theorem Fits.ppsPulse : Fits.Statement (.ppsPulse) := (by decide : 0 < 2 ^ 32)
theorem Fits.powerFailWarning : Fits.Statement (.powerFailWarning) := (by decide : 0 < 2 ^ 32)
theorem Fits.fire (v : Word) : Fits.Statement (.fire v) := (by decide : 0 < 2 ^ 32)
theorem Fits.fixerDrain : Fits.Statement (.fixerDrain) := (by decide : 0 < 2 ^ 32)
theorem Fits.fixerChunk : Fits.Statement (.fixerChunk) := (by decide : 0 < 2 ^ 32)
theorem Fits.contactSheetWrite : Fits.Statement (.contactSheetWrite) := (by decide : 0 < 2 ^ 32)
theorem Fits.fixerListValidate : Fits.Statement (.fixerListValidate) := (by decide : 0 < 2 ^ 32)
theorem Fits.resmtrUpdate (mj : BitVec 32) : Fits.Statement (.resmtrUpdate mj) := (by decide : 0 < 2 ^ 32)
theorem Fits.brownOut : Fits.Statement (.brownOut) := (by decide : 0 < 2 ^ 32)
theorem Fits.safelightHold : Fits.Statement (.safelightHold) := (by decide : 0 < 2 ^ 32)
theorem Fits.safelightExit : Fits.Statement (.safelightExit) := (by decide : 0 < 2 ^ 32)
theorem Fits.safelightDisable : Fits.Statement (.safelightDisable) := (by decide : 0 < 2 ^ 32)
theorem Fits.collectiveRejoin (n : Nat) (x : RejoinEvent) : Fits.Statement (.collectiveRejoin n x) := (by decide : 0 < 2 ^ 32)
theorem Fits.stepAnnouncement (pos : Nat) (serial : BitVec 32) (stepv : BitVec 32) : Fits.Statement (.stepAnnouncement pos serial stepv) := (by decide : 0 < 2 ^ 32)
theorem Fits.registerWrite (wr : Writer) (off : Nat) (v : Word) : Fits.Statement (.registerWrite wr off v) := (by decide : 0 < 2 ^ 32)
theorem Fits.linkUp (link : Nat) : Fits.Statement (.linkUp link) := (by decide : 0 < 2 ^ 32)
theorem Fits.keyRotation (link : Nat) : Fits.Statement (.keyRotation link) := (by decide : 0 < 2 ^ 32)
theorem Fits.hostLinkDown (port : BitVec 1) : Fits.Statement (.hostLinkDown port) := (by decide : 0 < 2 ^ 32)
theorem Fits.hostLinkUp (port : BitVec 1) : Fits.Statement (.hostLinkUp port) := (by decide : 0 < 2 ^ 32)
theorem Fits.ptmResponse (port : BitVec 1) (ns : Word) : Fits.Statement (.ptmResponse port ns) := (by decide : 0 < 2 ^ 32)
theorem Fits.channelError (peer chan : Nat) : Fits.Statement (.channelError peer chan) := (by decide : 0 < 2 ^ 32)

end Sys2Proof.Laws
end

