-- ==== Sys2Proof/Tests/Slice0.lean ====
section
/-! SUPPORT. Tests: what the spec's own examples and tables give, word by word and step by step; ill-formed terms that the
well-formedness check refuses; and, for the statements, concrete states and operands that meet their hypotheses. -/

namespace Sys2Proof.Tests

open Sys2Proof Sys2Proof.Machine Sys2Proof.Claims

-- One theorem at a time: each evaluation has a stack of its own.
set_option Elab.async false

/-- The state an outcome goes on with; the reset state where it stops. -/
def after : Out → State
  | .next t => t
  | _ => State.reset

/-- The outcome is a next state. -/
def went : Out → Bool
  | .next _ => true
  | _ => false

/-- The reset state with the registers `r` at issue and at commit, and an active context on core 0. -/
def regsAt (r : Regs) : State := { State.reset with core := { State.reset.core with st := .active, r := r, iss := r } }

/-- Registers with s[i] = x for the pairs listed. -/
def sregs (l : List (BitVec 6 × Word)) : Regs := l.foldl (fun r p => r.setS p.1 p.2) Regs.reset

/-- A header without A bit and with guard p0. -/
def hd : Hdr := { a := false, g := 0 }

/-! Ill-formed terms, one for each check. -/

/-- A guard of 48 or above (R59). -/
theorem test_wf_guard : (Instr.add { h := { a := false, g := 48 }, rd := 1, ra := 2, rb := 3 }).wf = false := by decide

/-- Predicate operands of 48 or above (R63). -/
theorem test_wf_predicates : ([.cmpeq { h := hd, pd := 48, ra := 1, rb := 1 }, .cmpne { h := hd, pd := 63, ra := 1, rb := 1 },
    .cmplt { h := hd, pd := 50, ra := 1, rb := 1 }, .cmple { h := hd, pd := 48, ra := 1, rb := 1 },
    .cmpltn { h := hd, pd := 48, ra := 1, rb := 1 }, .cmplen { h := hd, pd := 48, ra := 1, rb := 1 },
    .cmpeqi { h := hd, pd := 48, ra := 1, imm := 1 }, .cmpnei { h := hd, pd := 48, ra := 1, imm := 1 },
    .cmplti { h := hd, pd := 48, ra := 1, imm := 1 }, .cmpgei { h := hd, pd := 48, ra := 1, imm := 1 },
    .cmpltni { h := hd, pd := 48, ra := 1, imm := 1 }, .cmpgeni { h := hd, pd := 48, ra := 1, imm := 1 },
    .pand { h := hd, pd := 48, pa := 1, pb := 1 }, .por { h := hd, pd := 1, pa := 48, pb := 1 },
    .pxor { h := hd, pd := 1, pa := 1, pb := 48 }, .pandn { h := hd, pd := 48, pa := 1, pb := 1 }] : List Instr).all
      (fun i => !i.wf) = true := by decide

/-- A V-class NOP of the S-class row, and special registers no number names (R25, R61). -/
theorem test_wf_scalar : ([.nop { cls := .v, h := hd }, .srd { h := hd, rd := 1, imm := 0x003 },
    .srd { h := hd, rd := 1, imm := 0x039 }, .swr { h := hd, rd := 1, imm := 0x042 },
    .swr { h := hd, rd := 1, imm := 0x007 }] : List Instr).all (fun i => !i.wf) = true := by decide

/-- A vector word with every field as given. -/
def vop (w : BitVec 2) (t : BitVec 3) (m : BitVec 4) (vd va vb : BitVec 5) : VOp :=
  { a := false, w := w, t := t, m := m, vd := vd, va := va, vb := vb }

/-- W of 3 and types outside a row's range (R65, R66). -/
theorem test_wf_vector_types : ((([Instr.vadd, .vsub, .vadds, .vaddsn, .vsubs, .vsubsn, .vmul, .vmulh, .vmac, .vmin, .vmax,
    .vminn, .vmaxn, .vabsd, .vavgn, .vand, .vor, .vxor, .vandn, .vshl, .vshr, .vsar, .vshli, .vshri, .vsari, .vclz, .vpopc,
    .vcmpeq, .vcmpne, .vcmplt, .vcmple, .vcmpltn, .vcmplen, .vrev, .vzip, .vunzip, .vxs, .vredadd, .vredmax, .vredmin].all
      fun mk => !(mk (vop 3 0 0 1 1 0)).wf && !(mk (vop 0 3 0 1 1 0)).wf) &&
    ([Instr.vfadd, .vfsub, .vfmul, .vfma, .vfnma, .vfmin, .vfmax, .vfabs, .vfneg, .vfcmpeq, .vfcmplt, .vfcmple, .vfcmpun,
      .vfredadd, .vfredmax].all
        fun mk => !(mk (vop 3 3 0 1 1 0)).wf && !(mk (vop 0 2 0 1 1 0)).wf && !(mk (vop 0 6 0 1 1 0)).wf)) &&
    [Instr.vpermb (vop 0 1 0 1 1 1), .vpermw (vop 0 0 0 1 1 1), .vpermw (vop 0 3 0 1 1 1), .vbcs (vop 0 6 0 1 1 0),
     .vmovi (vop 0 6 0 1 1 1), .vmov (vop 3 0 0 1 1 0), .vsel (vop 3 0 0 1 1 1), .vcvt (vop 3 0 0 1 1 1),
     .vcvtsr (vop 0 5 0 1 1 1), .vcvtsr (vop 0 2 0 1 1 1), .vnarrow (vop 0 2 0 1 1 1), .vwiden (vop 0 0 0 1 1 1),
     .vrng (vop 0 1 0 1 1 1)].all fun i => !i.wf) = true := by decide

/-- Shift counts, mask and predicate fields, unused sources, lanes and byte counts out of range (R66). -/
theorem test_wf_vector_fields : ([.vshli (vop 0 0 0 1 1 8), .vshri (vop 0 1 0 1 1 16), .vsari (vop 0 0 0 1 1 31),
    .vclz (vop 0 0 0 1 1 1), .vpopc (vop 0 0 0 1 1 1), .vfabs (vop 0 3 0 1 1 1), .vfneg (vop 0 3 0 1 1 1),
    .vcmpeq (vop 0 0 0 16 1 1), .vcmpne (vop 0 0 0 16 1 1), .vcmplt (vop 0 0 0 16 1 1), .vcmple (vop 0 0 0 16 1 1),
    .vcmpltn (vop 0 0 0 16 1 1), .vcmplen (vop 0 0 0 16 1 1), .vfcmpeq (vop 0 3 0 16 1 1), .vfcmplt (vop 0 3 0 16 1 1),
    .vfcmple (vop 0 3 0 16 1 1), .vfcmpun (vop 0 3 0 16 1 1), .mand (vop 1 0 0 1 1 1), .mor (vop 0 0 0 1 16 1),
    .mxor (vop 0 1 0 1 1 1), .mandn (vop 0 0 1 1 1 1), .many (vop 0 0 0 1 16 0), .mall (vop 0 0 0 1 1 1),
    .vrmrg (vop 0 2 0 1 1 1), .vrmrg (vop 3 0 0 1 1 1), .vrev (vop 0 0 0 1 1 1), .vbcs (vop 0 0 0 1 1 1),
    .vxs (vop 0 2 0 1 1 8), .vxs (vop 0 0 1 1 1 0), .vmov (vop 0 0 0 1 1 1), .vcvt (vop 0 0 0 1 1 8)] : List Instr).all
      (fun i => !i.wf) = true := by decide

/-- Types of the special functions, the SS code of MMA, a FENCE scope of 7, and k without SEN (R67 to R70). -/
theorem test_wf_matrix_and_memory : (([Instr.xrcp, .xrsq, .xsqrt, .xexp2, .xlog2, .xsint, .xcost, .xtanh, .xsigm, .xgelu].all
      fun mk => !(mk { h := hd, vd := 1, va := 1, t := 2, m := 0 }).wf && !(mk { h := hd, vd := 1, va := 1, t := 6, m := 0 }).wf) &&
    ([Instr.cpy, .cpyf, .cpyt, .seqrun].all fun mk => !(mk { h := hd, ra := 1, k := 1, sen := false, wait := 0 }).wf) &&
    !(Instr.mma { h := hd, tile := 0, sd := 1, ss := 3, sa := false, sb := false, z := false }).wf &&
    !(Instr.fence { h := hd, scope := 7, kind := 0 }).wf) = true := by decide

/-- Events that name a cluster, die, array, link or sensor the module does not have (R2, R360, R414). -/
theorem test_wf_events : ([.arrayWindowSwitch 320, .schedulerSelection 8, .cancelAtDie 8 0, .switchPoint 80,
    .clockPauseEnd 80, .clctlStep 80 0, .clctlThr 80 0, .clctlForcewa 80 0, .throttleApply 80, .sensorSample 96 0,
    .tripOverheatWarning 96, .correctedError 80, .flitReceive { link := 16, seq := 0, epoch := 0, ok := true },
    .replayRequest 16 0, .flitAck 16 0, .retireMarker 16 0, .landingWindowWrite 0 0 0 [], .linkUp 16,
    .keyRotation 16] : List Instr).all (fun i => !i.wf) = true := by decide

/-! Words written from the opcode table's encodings, and what they decode to: every row that has a word. -/

theorem test_decode_NopOp_s : ([
      (0xA6000000, .nop { cls := .s, h := { a := true, g := 19 } })] : List (Nat × Instr)).all (fun p => decide (decodeWord .s p.1 = some p.2)) = true := by
  decide +kernel

theorem test_decode_NopVOp_v : ([
      (0x80000000, .nopV { a := true })] : List (Nat × Instr)).all (fun p => decide (decodeWord .v p.1 = some p.2)) = true := by
  decide +kernel

theorem test_decode_SROp_s : ([
      (0x1204CB87, .add { h := { a := false, g := 9 }, rd := 12, ra := 46, rb := 7 }),
      (0x0808BDF5, .sub { h := { a := false, g := 4 }, rd := 11, ra := 55, rb := 53 }),
      (0x3C0CBD87, .mul { h := { a := false, g := 30 }, rd := 11, ra := 54, rb := 7 }),
      (0x38107C86, .mulh { h := { a := false, g := 28 }, rd := 7, ra := 50, rb := 6 }),
      (0x0A151975, .mulhu { h := { a := false, g := 5 }, rd := 17, ra := 37, rb := 53 }),
      (0x1E1A75CD, .divs { h := { a := false, g := 15 }, rd := 39, ra := 23, rb := 13 }),
      (0x5E1CC207, .divu { h := { a := false, g := 47 }, rd := 12, ra := 8, rb := 7 }),
      (0x1E236A3B, .remu { h := { a := false, g := 15 }, rd := 54, ra := 40, rb := 59 }),
      (0xDC2667D7, .and { h := { a := true, g := 46 }, rd := 38, ra := 31, rb := 23 }),
      (0x142A6FEB, .or { h := { a := false, g := 10 }, rd := 38, ra := 63, rb := 43 }),
      (0xC82C93F5, .xor { h := { a := true, g := 36 }, rd := 9, ra := 15, rb := 53 }),
      (0x56313FB5, .andn { h := { a := false, g := 43 }, rd := 19, ra := 62, rb := 53 }),
      (0x12368AEC, .shl { h := { a := false, g := 9 }, rd := 40, ra := 43, rb := 44 }),
      (0x943882E2, .shr { h := { a := true, g := 10 }, rd := 8, ra := 11, rb := 34 }),
      (0x903C79F9, .sar { h := { a := true, g := 8 }, rd := 7, ra := 39, rb := 57 }),
      (0x8242C0BB, .rol { h := { a := true, g := 1 }, rd := 44, ra := 2, rb := 59 }),
      (0xAA44EFC7, .min { h := { a := true, g := 21 }, rd := 14, ra := 63, rb := 7 }),
      (0x484907F2, .max { h := { a := false, g := 36 }, rd := 16, ra := 31, rb := 50 }),
      (0x9E4CA579, .minn { h := { a := true, g := 15 }, rd := 10, ra := 21, rb := 57 }),
      (0xC6511DE3, .maxn { h := { a := true, g := 35 }, rd := 17, ra := 55, rb := 35 }),
      (0x3A5C1F97, .sel { h := { a := false, g := 29 }, rd := 1, ra := 62, rb := 23 }),
      (0xC86004B5, .bext { h := { a := true, g := 36 }, rd := 0, ra := 18, rb := 53 }),
      (0xD06501BA, .bins { h := { a := true, g := 40 }, rd := 16, ra := 6, rb := 58 })] : List (Nat × Instr)).all (fun p => decide (decodeWord .s p.1 = some p.2)) = true := by
  decide +kernel

theorem test_decode_SR2Op_s : ([
      (0xDA570740, .clz { h := { a := true, g := 45 }, rd := 48, ra := 29 }),
      (0x145964C0, .popc { h := { a := false, g := 10 }, rd := 22, ra := 19 }),
      (0x934DED80, .spawn { h := { a := true, g := 9 }, rd := 30, ra := 54 })] : List (Nat × Instr)).all (fun p => decide (decodeWord .s p.1 = some p.2)) = true := by
  decide +kernel

theorem test_decode_SIOp_s : ([
      (0x84833C8D, .addi { h := { a := true, g := 2 }, rd := 51, ra := 50, imm := 13 }),
      (0x86847608, .shli { h := { a := true, g := 3 }, rd := 7, ra := 24, imm := 8 }),
      (0x108943AB, .shri { h := { a := false, g := 8 }, rd := 20, ra := 14, imm := 43 }),
      (0x1A8C04CC, .sari { h := { a := false, g := 13 }, rd := 0, ra := 19, imm := 12 }),
      (0x869096B0, .andi { h := { a := true, g := 3 }, rd := 9, ra := 26, imm := 48 }),
      (0x4096CBBC, .ori { h := { a := false, g := 32 }, rd := 44, ra := 46, imm := 60 }),
      (0x1C9BEEFD, .xori { h := { a := false, g := 14 }, rd := 62, ra := 59, imm := 61 }),
      (0xCE9CA48D, .roli { h := { a := true, g := 39 }, rd := 10, ra := 18, imm := 13 })] : List (Nat × Instr)).all (fun p => decide (decodeWord .s p.1 = some p.2)) = true := by
  decide +kernel

theorem test_decode_SKOp_s : ([
      (0xC2A3D52A, .movi { h := { a := true, g := 33 }, rd := 61, imm := 1322 }),
      (0x34A6E4B0, .movk { h := { a := false, g := 26 }, rd := 46, imm := 1200 }),
      (0x4CA8B85B, .addk { h := { a := false, g := 38 }, rd := 11, imm := 2139 }),
      (0x3752603D, .srd { h := { a := false, g := 27 }, rd := 38, imm := 61 }),
      (0x5D552012, .swr { h := { a := false, g := 46 }, rd := 18, imm := 18 })] : List (Nat × Instr)).all (fun p => decide (decodeWord .s p.1 = some p.2)) = true := by
  decide +kernel

theorem test_decode_CmpOp_s : ([
      (0xAAC2D72A, .cmpeq { h := { a := true, g := 21 }, pd := 45, ra := 28, rb := 42 }),
      (0x30C5ECDD, .cmpne { h := { a := false, g := 24 }, pd := 30, ra := 51, rb := 29 }),
      (0x1ECAD0C3, .cmplt { h := { a := false, g := 15 }, pd := 45, ra := 3, rb := 3 }),
      (0x98CE162C, .cmple { h := { a := true, g := 12 }, pd := 33, ra := 24, rb := 44 }),
      (0xD8D2E29C, .cmpltn { h := { a := true, g := 44 }, pd := 46, ra := 10, rb := 28 }),
      (0x3AD4C66B, .cmplen { h := { a := false, g := 29 }, pd := 12, ra := 25, rb := 43 })] : List (Nat × Instr)).all (fun p => decide (decodeWord .s p.1 = some p.2)) = true := by
  decide +kernel

theorem test_decode_CmpIOp_s : ([
      (0x1AD80F6C, .cmpeqi { h := { a := false, g := 13 }, pd := 0, ra := 61, imm := 44 }),
      (0x1EDC167D, .cmpnei { h := { a := false, g := 15 }, pd := 1, ra := 25, imm := 61 }),
      (0x0EE2A2F2, .cmplti { h := { a := false, g := 7 }, pd := 42, ra := 11, imm := 50 }),
      (0x86E4A515, .cmpgei { h := { a := true, g := 3 }, pd := 10, ra := 20, imm := 21 }),
      (0x06E93ED2, .cmpltni { h := { a := false, g := 3 }, pd := 19, ra := 59, imm := 18 }),
      (0xD8ED3402, .cmpgeni { h := { a := true, g := 44 }, pd := 19, ra := 16, imm := 2 })] : List (Nat × Instr)).all (fun p => decide (decodeWord .s p.1 = some p.2)) = true := by
  decide +kernel

theorem test_decode_PredOp_s : ([
      (0x1AF111D8, .pand { h := { a := false, g := 13 }, pd := 17, pa := 7, pb := 24 }),
      (0x06F606E5, .por { h := { a := false, g := 3 }, pd := 32, pa := 27, pb := 37 }),
      (0x52FA1150, .pxor { h := { a := false, g := 41 }, pd := 33, pa := 5, pb := 16 }),
      (0x5AFCA150, .pandn { h := { a := false, g := 45 }, pd := 10, pa := 5, pb := 16 })] : List (Nat × Instr)).all (fun p => decide (decodeWord .s p.1 = some p.2)) = true := by
  decide +kernel

theorem test_decode_RdOp_s : ([
      (0x05038000, .pget { h := { a := false, g := 2 }, rd := 56 }),
      (0x29637000, .rdcyc { h := { a := false, g := 20 }, rd := 55 }),
      (0xD7675000, .rdmcc { h := { a := true, g := 43 }, rd := 53 }),
      (0x5B6A8000, .rdptp { h := { a := false, g := 45 }, rd := 40 })] : List (Nat × Instr)).all (fun p => decide (decodeWord .s p.1 = some p.2)) = true := by
  decide +kernel

theorem test_decode_RaOp_s : ([
      (0x010404C0, .pset { h := { a := false, g := 0 }, ra := 19 }),
      (0x9B2801C0, .jr { h := { a := true, g := 13 }, ra := 7 }),
      (0x312C08C0, .callr { h := { a := false, g := 24 }, ra := 35 })] : List (Nat × Instr)).all (fun p => decide (decodeWord .s p.1 = some p.2)) = true := by
  decide +kernel

theorem test_decode_BrOp_s : ([
      (0x2523C9B6, .br { h := { a := false, g := 18 }, disp := 248246 }),
      (0x0F269B9C, .call { h := { a := false, g := 7 }, disp := 170908 })] : List (Nat × Instr)).all (fun p => decide (decodeWord .s p.1 = some p.2)) = true := by
  decide +kernel

theorem test_decode_LoopOp_s : ([
      (0x19330C81, .loop { h := { a := false, g := 12 }, lc := 3, ra := 3, len := 129 })] : List (Nat × Instr)).all (fun p => decide (decodeWord .s p.1 = some p.2)) = true := by
  decide +kernel

theorem test_decode_LoopIOp_s : ([
      (0xD3358F9E, .loopi { h := { a := true, g := 41 }, lc := 1, imm := 35, len := 926 })] : List (Nat × Instr)).all (fun p => decide (decodeWord .s p.1 = some p.2)) = true := by
  decide +kernel

theorem test_decode_LcOp_s : ([
      (0xBF3A0000, .lbrk { h := { a := true, g := 31 }, lc := 2 })] : List (Nat × Instr)).all (fun p => decide (decodeWord .s p.1 = some p.2)) = true := by
  decide +kernel

theorem test_decode_Hdr_s : ([
      (0x13400000, .exit { a := false, g := 9 }),
      (0x91480000, .rett { a := true, g := 8 }),
      (0x5D6C0000, .wfi { a := false, g := 46 })] : List (Nat × Instr)).all (fun p => decide (decodeWord .s p.1 = some p.2)) = true := by
  decide +kernel

theorem test_decode_ImmOp_s : ([
      (0x0B4403E4, .trap { h := { a := false, g := 5 }, imm := 996 }),
      (0xB9580303, .stamp { h := { a := true, g := 28 }, imm := 771 }),
      (0x9D5C0535, .hint { h := { a := true, g := 14 }, imm := 1333 })] : List (Nat × Instr)).all (fun p => decide (decodeWord .s p.1 = some p.2)) = true := by
  decide +kernel

theorem test_decode_TokOp_s : ([
      (0x578000EA, .twait { h := { a := false, g := 43 }, mask := 234 }),
      (0x858400C4, .tsig { h := { a := true, g := 2 }, mask := 196 })] : List (Nat × Instr)).all (fun p => decide (decodeWord .s p.1 = some p.2)) = true := by
  decide +kernel

theorem test_decode_TlOp_s : ([
      (0xCB888380, .tlwait { h := { a := true, g := 37 }, tl := 2, ra := 14 })] : List (Nat × Instr)).all (fun p => decide (decodeWord .s p.1 = some p.2)) = true := by
  decide +kernel

theorem test_decode_BinitOp_s : ([
      (0x1B8C5840, .binit { h := { a := false, g := 13 }, b := 5, ra := 33 })] : List (Nat × Instr)).all (fun p => decide (decodeWord .s p.1 = some p.2)) = true := by
  decide +kernel

theorem test_decode_BarOp_s : ([
      (0x8B90B000, .barr { h := { a := true, g := 5 }, b := 11 }),
      (0xA195B000, .bwait { h := { a := true, g := 16 }, b := 27 }),
      (0x87989000, .bsync { h := { a := true, g := 3 }, b := 9 })] : List (Nat × Instr)).all (fun p => decide (decodeWord .s p.1 = some p.2)) = true := by
  decide +kernel

theorem test_decode_LvOp_s : ([
      (0xD39C1000, .sstep { h := { a := true, g := 41 }, n := 1 })] : List (Nat × Instr)).all (fun p => decide (decodeWord .s p.1 = some p.2)) = true := by
  decide +kernel

theorem test_decode_VOp0_v_0 : ([
      (0x81169221, .vadd { a := true, w := 0, t := 2, m := 13, vd := 4, va := 17, vb := 1 }),
      (0x028B9207, .vsub { a := false, w := 2, t := 1, m := 7, vd := 4, va := 16, vb := 7 }),
      (0x0384204F, .vadds { a := false, w := 2, t := 0, m := 8, vd := 8, va := 2, vb := 15 }),
      (0x0492B273, .vaddsn { a := false, w := 2, t := 2, m := 5, vd := 12, va := 19, vb := 19 }),
      (0x058AC6C1, .vsubs { a := false, w := 2, t := 1, m := 5, vd := 17, va := 22, vb := 1 }),
      (0x060379FC, .vsubsn { a := false, w := 0, t := 0, m := 6, vd := 30, va := 15, vb := 28 }),
      (0x8704B5D5, .vmul { a := true, w := 0, t := 0, m := 9, vd := 13, va := 14, vb := 21 }),
      (0x0810A004, .vmulh { a := false, w := 0, t := 2, m := 1, vd := 8, va := 0, vb := 4 }),
      (0x89109712, .vmac { a := true, w := 0, t := 2, m := 1, vd := 5, va := 24, vb := 18 }),
      (0x0A8F2D51, .vmin { a := false, w := 2, t := 1, m := 14, vd := 11, va := 10, vb := 17 }),
      (0x0B8D51E2, .vmax { a := false, w := 2, t := 1, m := 10, vd := 20, va := 15, vb := 2 }),
      (0x0C885705, .vminn { a := false, w := 2, t := 1, m := 0, vd := 21, va := 24, vb := 5 }),
      (0x8D401605, .vmaxn { a := true, w := 1, t := 0, m := 0, vd := 5, va := 16, vb := 5 }),
      (0x8E004E6E, .vabsd { a := true, w := 0, t := 0, m := 0, vd := 19, va := 19, vb := 14 }),
      (0x0F07A649, .vavgn { a := false, w := 0, t := 0, m := 15, vd := 9, va := 18, vb := 9 }),
      (0x90439422, .vand { a := true, w := 1, t := 0, m := 7, vd := 5, va := 1, vb := 2 }),
      (0x910F0C2F, .vor { a := true, w := 0, t := 1, m := 14, vd := 3, va := 1, vb := 15 }),
      (0x9209149E, .vxor { a := true, w := 0, t := 1, m := 2, vd := 5, va := 4, vb := 30 }),
      (0x138B3BBF, .vandn { a := false, w := 2, t := 1, m := 6, vd := 14, va := 29, vb := 31 }),
      (0x1408B089, .vshl { a := false, w := 0, t := 1, m := 1, vd := 12, va := 4, vb := 9 }),
      (0x9588787F, .vshr { a := true, w := 2, t := 1, m := 0, vd := 30, va := 3, vb := 31 }),
      (0x164CCBBD, .vsar { a := false, w := 1, t := 1, m := 9, vd := 18, va := 29, vb := 29 }),
      (0x17497822, .vshli { a := false, w := 1, t := 1, m := 2, vd := 30, va := 1, vb := 2 }),
      (0x181635A4, .vshri { a := false, w := 0, t := 2, m := 12, vd := 13, va := 13, vb := 4 }),
      (0x1955A227, .vsari { a := false, w := 1, t := 2, m := 11, vd := 8, va := 17, vb := 7 }),
      (0x9A47E420, .vclz { a := true, w := 1, t := 0, m := 15, vd := 25, va := 1, vb := 0 }),
      (0x1B0E4D20, .vpopc { a := false, w := 0, t := 1, m := 12, vd := 19, va := 9, vb := 0 }),
      (0xA021D414, .vfadd { a := true, w := 0, t := 4, m := 3, vd := 21, va := 0, vb := 20 }),
      (0xA1184A17, .vfsub { a := true, w := 0, t := 3, m := 0, vd := 18, va := 16, vb := 23 }),
      (0xA225EE23, .vfmul { a := true, w := 0, t := 4, m := 11, vd := 27, va := 17, vb := 3 }),
      (0x232A3E3B, .vfma { a := false, w := 0, t := 5, m := 4, vd := 15, va := 17, vb := 27 }),
      (0xA46E872D, .vfnma { a := true, w := 1, t := 5, m := 13, vd := 1, va := 25, vb := 13 }),
      (0x251F225F, .vfmin { a := false, w := 0, t := 3, m := 14, vd := 8, va := 18, vb := 31 }),
      (0x2666D653, .vfmax { a := false, w := 1, t := 4, m := 13, vd := 21, va := 18, vb := 19 }),
      (0xA71CFB20, .vfabs { a := true, w := 0, t := 3, m := 9, vd := 30, va := 25, vb := 0 }),
      (0x28637DC0, .vfneg { a := false, w := 1, t := 4, m := 6, vd := 31, va := 14, vb := 0 }),
      (0xB00219E5, .vcmpeq { a := true, w := 0, t := 0, m := 4, vd := 6, va := 15, vb := 5 }),
      (0xB103AE0C, .vcmpne { a := true, w := 0, t := 0, m := 7, vd := 11, va := 16, vb := 12 }),
      (0xB2033235, .vcmplt { a := true, w := 0, t := 0, m := 6, vd := 12, va := 17, vb := 21 }),
      (0xB38218B1, .vcmple { a := true, w := 2, t := 0, m := 4, vd := 6, va := 5, vb := 17 })] : List (Nat × Instr)).all (fun p => decide (decodeWord .v p.1 = some p.2)) = true := by
  decide +kernel

theorem test_decode_VOp0_v_1 : ([
      (0xB406A428, .vcmpltn { a := true, w := 0, t := 0, m := 13, vd := 9, va := 1, vb := 8 }),
      (0xB5080B3D, .vcmplen { a := true, w := 0, t := 1, m := 0, vd := 2, va := 25, vb := 29 }),
      (0x361A10DD, .vfcmpeq { a := false, w := 0, t := 3, m := 4, vd := 4, va := 6, vb := 29 }),
      (0x372B8668, .vfcmplt { a := false, w := 0, t := 5, m := 7, vd := 1, va := 19, vb := 8 }),
      (0xB8218A6C, .vfcmple { a := true, w := 0, t := 4, m := 3, vd := 2, va := 19, vb := 12 }),
      (0xB96027B1, .vfcmpun { a := true, w := 1, t := 4, m := 0, vd := 9, va := 29, vb := 17 }),
      (0x3A003CE7, .mand { a := false, w := 0, t := 0, m := 0, vd := 15, va := 7, vb := 7 }),
      (0x3B003521, .mor { a := false, w := 0, t := 0, m := 0, vd := 13, va := 9, vb := 1 }),
      (0x3C0019ED, .mxor { a := false, w := 0, t := 0, m := 0, vd := 6, va := 15, vb := 13 }),
      (0x3D0020ED, .mandn { a := false, w := 0, t := 0, m := 0, vd := 8, va := 7, vb := 13 }),
      (0xBE0039E0, .many { a := true, w := 0, t := 0, m := 0, vd := 14, va := 15, vb := 0 }),
      (0x3F0055A0, .mall { a := false, w := 0, t := 0, m := 0, vd := 21, va := 13, vb := 0 }),
      (0xC0030244, .vpermb { a := true, w := 0, t := 0, m := 6, vd := 0, va := 18, vb := 4 }),
      (0x410CB1DD, .vpermw { a := false, w := 0, t := 1, m := 9, vd := 12, va := 14, vb := 29 }),
      (0xC28DFD6E, .vrmrg { a := true, w := 2, t := 1, m := 11, vd := 31, va := 11, vb := 14 }),
      (0xC3026460, .vrev { a := true, w := 0, t := 0, m := 4, vd := 25, va := 3, vb := 0 }),
      (0x44488D79, .vzip { a := false, w := 1, t := 1, m := 1, vd := 3, va := 11, vb := 25 }),
      (0xC512D58B, .vunzip { a := true, w := 0, t := 2, m := 5, vd := 21, va := 12, vb := 11 }),
      (0xC61E5EA0, .vbcs { a := true, w := 0, t := 3, m := 12, vd := 23, va := 21, vb := 0 }),
      (0x47081625, .vxs { a := false, w := 0, t := 1, m := 0, vd := 5, va := 17, vb := 5 }),
      (0xC81E5A78, .vmovi { a := true, w := 0, t := 3, m := 12, vd := 22, va := 19, vb := 24 }),
      (0x491B5F80, .vmov { a := false, w := 0, t := 3, m := 6, vd := 23, va := 28, vb := 0 }),
      (0xCA8069F9, .vsel { a := true, w := 2, t := 0, m := 0, vd := 26, va := 15, vb := 25 }),
      (0xD0090E03, .vcvt { a := true, w := 0, t := 1, m := 2, vd := 3, va := 16, vb := 3 }),
      (0xD1A50A14, .vcvtsr { a := true, w := 2, t := 4, m := 10, vd := 2, va := 16, vb := 20 }),
      (0xD20838DE, .vnarrow { a := true, w := 0, t := 1, m := 0, vd := 14, va := 6, vb := 30 }),
      (0xD38FA3EB, .vwiden { a := true, w := 2, t := 1, m := 15, vd := 8, va := 31, vb := 11 }),
      (0xD453D29D, .vrng { a := true, w := 1, t := 2, m := 7, vd := 20, va := 20, vb := 29 }),
      (0xD80629FA, .vredadd { a := true, w := 0, t := 0, m := 12, vd := 10, va := 15, vb := 26 }),
      (0x590AECC4, .vredmax { a := false, w := 0, t := 1, m := 5, vd := 27, va := 6, vb := 4 }),
      (0x5A46FF8B, .vredmin { a := false, w := 1, t := 0, m := 13, vd := 31, va := 28, vb := 11 }),
      (0x5B239E52, .vfredadd { a := false, w := 0, t := 4, m := 7, vd := 7, va := 18, vb := 18 }),
      (0xDC9C338F, .vfredmax { a := true, w := 2, t := 3, m := 8, vd := 12, va := 28, vb := 15 })] : List (Nat × Instr)).all (fun p => decide (decodeWord .v p.1 = some p.2)) = true := by
  decide +kernel

theorem test_decode_XFOp_x : ([
      (0x3C053274, .xrcp { h := { a := false, g := 30 }, vd := 9, va := 18, t := 3, m := 10 }),
      (0xC009EE7C, .xrsq { h := { a := true, g := 32 }, vd := 15, va := 14, t := 3, m := 14 }),
      (0x000FCE76, .xsqrt { h := { a := false, g := 0 }, vd := 30, va := 14, t := 3, m := 11 }),
      (0xBA10E36C, .xexp2 { h := { a := true, g := 29 }, vd := 7, va := 3, t := 3, m := 6 }),
      (0xAC1790A6, .xlog2 { h := { a := true, g := 22 }, vd := 28, va := 16, t := 5, m := 3 }),
      (0xB6185768, .xsint { h := { a := true, g := 27 }, vd := 2, va := 23, t := 3, m := 4 }),
      (0x401C4D94, .xcost { h := { a := false, g := 32 }, vd := 2, va := 13, t := 4, m := 10 }),
      (0xAE226482, .xtanh { h := { a := true, g := 23 }, vd := 19, va := 4, t := 4, m := 1 }),
      (0x902746A8, .xsigm { h := { a := true, g := 8 }, vd := 26, va := 6, t := 5, m := 4 }),
      (0x282B31B2, .xgelu { h := { a := false, g := 20 }, vd := 25, va := 17, t := 5, m := 9 })] : List (Nat × Instr)).all (fun p => decide (decodeWord .x p.1 = some p.2)) = true := by
  decide +kernel

theorem test_decode_MmaOp_x : ([
      (0x8B006CF6, .mma { h := { a := true, g := 5 }, tile := 13, sd := 39, ss := 2, sa := true, sb := true, z := false })] : List (Nat × Instr)).all (fun p => decide (decodeWord .x p.1 = some p.2)) = true := by
  decide +kernel

theorem test_decode_MzeroOp_x : ([
      (0xB3072003, .mzero { h := { a := true, g := 25 }, tile := 100, acc := 3 })] : List (Nat × Instr)).all (fun p => decide (decodeWord .x p.1 = some p.2)) = true := by
  decide +kernel

theorem test_decode_MldtOp_x : ([
      (0x010B7A83, .mldt { h := { a := false, g := 0 }, tile := 111, sd := 20, acc := 3 })] : List (Nat × Instr)).all (fun p => decide (decodeWord .x p.1 = some p.2)) = true := by
  decide +kernel

theorem test_decode_MsttOp_x : ([
      (0x170F3DC0, .mstt { h := { a := false, g := 11 }, tile := 103, sd := 46 })] : List (Nat × Instr)).all (fun p => decide (decodeWord .x p.1 = some p.2)) = true := by
  decide +kernel

theorem test_decode_MdrainOp_x : ([
      (0xA9110820, .mdrain { h := { a := true, g := 20 }, tile := 33, sd := 1, uns := false, req := false })] : List (Nat × Instr)).all (fun p => decide (decodeWord .x p.1 = some p.2)) = true := by
  decide +kernel

theorem test_decode_MrsumOp_x : ([
      (0x9716F009, .mrsum { h := { a := true, g := 11 }, tile := 94, sh := 2, neg := false, row := true })] : List (Nat × Instr)).all (fun p => decide (decodeWord .x p.1 = some p.2)) = true := by
  decide +kernel

theorem test_decode_MmodeOp_x : ([
      (0xA9190000, .mmode { h := { a := true, g := 20 }, rnd := 2, sat := false })] : List (Nat × Instr)).all (fun p => decide (decodeWord .x p.1 = some p.2)) = true := by
  decide +kernel

theorem test_decode_MstatOp_x : ([
      (0x031FEB20, .mstat { h := { a := false, g := 1 }, tile := 125, rd := 25 })] : List (Nat × Instr)).all (fun p => decide (decodeWord .x p.1 = some p.2)) = true := by
  decide +kernel

theorem test_decode_LdOp_m : ([
      (0xA0045F68, .ld8 { h := { a := true, g := 16 }, rd := 5, ra := 61, l := 40 }),
      (0x0208B51C, .ld16 { h := { a := false, g := 1 }, rd := 11, ra := 20, l := 28 }),
      (0xB20FC5DB, .ld32 { h := { a := true, g := 25 }, rd := 60, ra := 23, l := 27 }),
      (0x06114C6D, .ld64 { h := { a := false, g := 3 }, rd := 20, ra := 49, l := 45 }),
      (0x2615F605, .lds8 { h := { a := false, g := 19 }, rd := 31, ra := 24, l := 5 }),
      (0x5218FC7A, .lds16 { h := { a := false, g := 41 }, rd := 15, ra := 49, l := 58 }),
      (0x8A1E77F6, .lds32 { h := { a := true, g := 5 }, rd := 39, ra := 31, l := 54 })] : List (Nat × Instr)).all (fun p => decide (decodeWord .m p.1 = some p.2)) = true := by
  decide +kernel

theorem test_decode_StOp_m : ([
      (0xDE239E16, .st8 { h := { a := true, g := 47 }, src := 57, ra := 56, imm := 22 }),
      (0x0027EEDE, .st16 { h := { a := false, g := 0 }, src := 62, ra := 59, imm := 30 }),
      (0x94296F33, .st32 { h := { a := true, g := 10 }, src := 22, ra := 60, imm := 51 }),
      (0x102D0B77, .st64 { h := { a := false, g := 8 }, src := 16, ra := 45, imm := 55 })] : List (Nat × Instr)).all (fun p => decide (decodeWord .m p.1 = some p.2)) = true := by
  decide +kernel

theorem test_decode_VLdOp_m : ([
      (0x9641C145, .vld1 { h := { a := true, g := 11 }, v := 28, ra := 5, l := 5 }),
      (0x14454286, .vld2 { h := { a := false, g := 10 }, v := 20, ra := 10, l := 6 }),
      (0xA248120E, .vld4 { h := { a := true, g := 17 }, v := 1, ra := 8, l := 14 }),
      (0xB46107A8, .spld { h := { a := true, g := 26 }, v := 16, ra := 30, l := 40 }),
      (0x8864C5F3, .spldh { h := { a := true, g := 4 }, v := 12, ra := 23, l := 51 }),
      (0x40719BE1, .vgath { h := { a := false, g := 32 }, v := 25, ra := 47, l := 33 })] : List (Nat × Instr)).all (fun p => decide (decodeWord .m p.1 = some p.2)) = true := by
  decide +kernel

theorem test_decode_VStOp_m : ([
      (0x204DF915, .vst1 { h := { a := false, g := 16 }, v := 31, ra := 36, imm := 21 }),
      (0x10516814, .vst2 { h := { a := false, g := 8 }, v := 22, ra := 32, imm := 20 }),
      (0xC655D4A0, .vst4 { h := { a := true, g := 35 }, v := 29, ra := 18, imm := 32 }),
      (0x46694C15, .spst { h := { a := false, g := 35 }, v := 20, ra := 48, imm := 21 }),
      (0x9C6C3BB9, .spsth { h := { a := true, g := 14 }, v := 3, ra := 46, imm := 57 }),
      (0xDE749BAA, .vscat { h := { a := true, g := 47 }, v := 9, ra := 46, imm := 42 })] : List (Nat × Instr)).all (fun p => decide (decodeWord .m p.1 = some p.2)) = true := by
  decide +kernel

theorem test_decode_FenceOp_m : ([
      (0x1081A000, .fence { h := { a := false, g := 8 }, scope := 3, kind := 2 })] : List (Nat × Instr)).all (fun p => decide (decodeWord .m p.1 = some p.2)) = true := by
  decide +kernel

theorem test_decode_MSROp_m : ([
      (0x4AA209E8, .aadd { h := { a := false, g := 37 }, rd := 32, ra := 39, rb := 40 }),
      (0x08A5C4E5, .amin { h := { a := false, g := 4 }, rd := 28, ra := 19, rb := 37 }),
      (0x8AAAE190, .amax { h := { a := true, g := 5 }, rd := 46, ra := 6, rb := 16 }),
      (0xBAAC5086, .aminn { h := { a := true, g := 29 }, rd := 5, ra := 2, rb := 6 }),
      (0x5AB2636D, .amaxn { h := { a := false, g := 45 }, rd := 38, ra := 13, rb := 45 }),
      (0x08B6645A, .aand { h := { a := false, g := 4 }, rd := 38, ra := 17, rb := 26 }),
      (0x98B94441, .aor { h := { a := true, g := 12 }, rd := 20, ra := 17, rb := 1 }),
      (0x26BF9308, .axor { h := { a := false, g := 19 }, rd := 57, ra := 12, rb := 8 }),
      (0x44C33841, .axchg { h := { a := false, g := 34 }, rd := 51, ra := 33, rb := 1 }),
      (0x58C78FDF, .acas { h := { a := false, g := 44 }, rd := 56, ra := 63, rb := 31 }),
      (0x00C851C3, .afadd { h := { a := false, g := 0 }, rd := 5, ra := 7, rb := 3 })] : List (Nat × Instr)).all (fun p => decide (decodeWord .m p.1 = some p.2)) = true := by
  decide +kernel

theorem test_decode_RaOp_m : ([
      (0xAEE00780, .pf { h := { a := true, g := 23 }, ra := 30 }),
      (0x24E80D00, .clwb { h := { a := false, g := 18 }, ra := 52 }),
      (0x0AEC0580, .clinv { h := { a := false, g := 5 }, ra := 22 })] : List (Nat × Instr)).all (fun p => decide (decodeWord .m p.1 = some p.2)) = true := by
  decide +kernel

theorem test_decode_PfcOp_m : ([
      (0x0EE4D040, .pfc { h := { a := false, g := 7 }, n := 13, ra := 1 })] : List (Nat × Instr)).all (fun p => decide (decodeWord .m p.1 = some p.2)) = true := by
  decide +kernel

theorem test_decode_CpyOp_m : ([
      (0x91026103, .cpy { h := { a := true, g := 8 }, ra := 38, k := 0, sen := true, wait := 3 }),
      (0x8F07B359, .cpyf { h := { a := true, g := 7 }, ra := 59, k := 1, sen := true, wait := 89 }),
      (0x1B0A173F, .cpyt { h := { a := false, g := 13 }, ra := 33, k := 3, sen := true, wait := 63 }),
      (0xC30C6987, .seqrun { h := { a := true, g := 33 }, ra := 6, k := 4, sen := true, wait := 135 })] : List (Nat × Instr)).all (fun p => decide (decodeWord .m p.1 = some p.2)) = true := by
  decide +kernel

theorem test_decode_QpopOp_m : ([
      (0xB720A000, .qpop { h := { a := true, g := 27 }, rd := 10, q := 0 })] : List (Nat × Instr)).all (fun p => decide (decodeWord .m p.1 = some p.2)) = true := by
  decide +kernel

theorem test_decode_QpushOp_m : ([
      (0x4325E600, .qpush { h := { a := false, g := 33 }, ra := 30, q := 6 })] : List (Nat × Instr)).all (fun p => decide (decodeWord .m p.1 = some p.2)) = true := by
  decide +kernel
/-! The spec's own examples. -/

/-- The examples of 05, 06, 07 and 08 that give a word. -/
theorem test_decode_examples : decodeWord .v 0x42019022 = some (.vrmrg (vop 0 0 3 4 1 2)) ∧
    decodeWord .x 0x06114B60 = some (.xexp2 { h := { a := false, g := 3 }, vd := 10, va := 11, t := 3, m := 0 }) ∧
    decodeWord .x 0x0500290A = some (.mma
      { h := { a := false, g := 2 }, tile := 5, sd := 8, ss := 1, sa := false, sb := true, z := false }) ∧
    decodeWord .x 0x0118C000 = some (.mmode { h := hd, rnd := 1, sat := true }) ∧
    decodeWord .x 0x01103983 = some (.mdrain { h := hd, tile := 7, sd := 12, uns := true, req := true }) ∧
    decodeWord .m 0x01006704 = some (.cpy { h := hd, ra := 6, k := 3, sen := true, wait := 4 }) := by decide +kernel

/-- The bundle of 02 that is legal. -/
theorem test_bundle_legal :
    judgeBundle false false false [0x00043105, 0x0A809241, 0x20A80443, 0, 0, 0, 0x00107212, 0] = none := by decide +kernel

/-- The bundle of 02 that breaks two rules: WRITE_CONFLICT, condition 7, with slots 0x5C (R75). -/
theorem test_bundle_conflict :
    judgeBundle false false false [0, 0, 0x23A81022, 0x23A81423, 0x23A81843, 0, 0x004842A5, 0] = some (7, 0x5C) := by
  decide +kernel

/-- Bytes are read from the low end (R15, R54): the first bundle's first bytes are 05 31 04 00. -/
theorem test_bundle_bytes : (bundleBytes 0 0x00043105).take 4 = [0x05, 0x31, 0x04, 0x00] := by decide +kernel

/-- The third MOVK of the example of R131. -/
theorem test_movk : (after (exec (.movk { h := hd, rd := 5, imm := 0x789 }) (regsAt (sregs [(5, 0x123456)])))).core.r.getS 5 =
    0x123456789 := by decide +kernel

/-- BEXT and BINS of the example of R132. -/
theorem test_bext : (after (exec (.bext { h := hd, rd := 3, ra := 1, rb := 2 })
    (regsAt (sregs [(1, 0xABCD00), (2, 0x0708)])))).core.r.getS 3 = 0xCD := by decide +kernel

theorem test_bins : (after (exec (.bins { h := hd, rd := 3, ra := 1, rb := 2 })
    (regsAt (sregs [(1, 0x12), (2, 0x0708), (3, 0xFFFFFFFFFFFFFFFF)])))).core.r.getS 3 = 0xFFFFFFFFFFFF12FF := by
  decide +kernel

/-- ADD wraps at 2^64 (R129), and a source may be the destination. -/
theorem test_add_wraps : (after (exec (.add { h := hd, rd := 1, ra := 1, rb := 2 })
    (regsAt (sregs [(1, 0xFFFFFFFFFFFFFFFF), (2, 2)])))).core.r.getS 1 = 1 := by decide +kernel

/-- DIVS of the most negative word by −1, and REMU by 0 (R131). -/
theorem test_divs_overflow : (after (exec (.divs { h := hd, rd := 3, ra := 1, rb := 2 })
    (regsAt (sregs [(1, 0x8000000000000000), (2, 0xFFFFFFFFFFFFFFFF)])))).core.r.getS 3 = 0x8000000000000000 := by
  decide +kernel

theorem test_remu_zero : (after (exec (.remu { h := hd, rd := 3, ra := 1, rb := 2 })
    (regsAt (sregs [(1, 77)])))).core.r.getS 3 = 77 := by decide +kernel

/-- The guard of the example of 02: with p5 = 0, s9 keeps its value (R59). -/
theorem test_guard_false : (after (exec (.addi { h := { a := false, g := 5 }, rd := 9, ra := 9, imm := 1 })
    (regsAt (sregs [(9, 41)])))).core.r.getS 9 = 41 := by decide +kernel

/-- ADDI sign-extends its immediate (R130). -/
theorem test_addi_negative : (after (exec (.addi { h := hd, rd := 9, ra := 9, imm := 63 })
    (regsAt (sregs [(9, 41)])))).core.r.getS 9 = 40 := by decide +kernel

/-- FP32 narrowed to BF16: the four values of the example of R103. -/
theorem test_vcvt_bf16 : [0x00807FFF, 0x0080FFFF, 0x007FFFFF, 0x007F7FFF].map (cvtElt State.reset 5 3) =
    [0x0080, 0x0081, 0x0080, 0x0000] := by decide +kernel

/-- The four values of the example of R111. -/
theorem test_vcvtsr : [0x0000, 0xBFFF, 0xC000, 0xFFFF].map (stochastic (fmtT 3) 3 false 0x3F804000) =
    [0x3F80, 0x3F80, 0x3F81, 0x3F81] := by decide +kernel

/-- The two updates of RSIG of the example of R126. -/
theorem test_rsig : rsigStep 0 (rsigWord 3 0 1 1 0) = 0x03000110 ∧
    rsigStep 0x03000110 (rsigWord 3 0 1 1 0) = 0x83008911 := by decide +kernel

/-- The registers of the example of R171: v4 holds 2^24 and seven ones, and m2 leaves element 1 out. -/
def redRegs : Regs :=
  ((Regs.reset.setV 4 0x3F8000003F8000003F8000003F8000003F8000003F8000003F8000004B800000).setV 5 0).setM 2
    (BitVec.allOnes 128 &&& ~~~0xF0)

theorem test_vfredadd : ((after (exec (.vfredadd (vop 0 5 2 3 4 5)) (regsAt redRegs))).core.lands.map
    fun l => l.data.setWidth 32) = [0x4B800003#32] := by decide +kernel

/-- Bytes 0 to 4 of the example of R164. -/
theorem test_vrmrg : ((after (exec (.vrmrg (vop 0 0 3 4 1 2)) (regsAt ((Regs.reset.setV 1
    (0xA882E2 <<< 232)).setV 2 0x4241)))).core.lands.map fun l => l.data.setWidth 40) = [0x4241A882E2#40] := by
  decide +kernel

/-- XEXP2 of the example of R173: 1.0, −128 and 128 in BF16, whatever the free value. -/
theorem test_xexp2 : ∀ x ∈ [0, 1], [0x3F80, 0xC300, 0x4300].map (SpecialFn.exp2.elt (fmtT 3) true x) =
    [0x4000, 0x0000, 0x7F80] := by decide +kernel

/-- The two cells of the example of R196, and the second under UNS. -/
theorem test_mdrain : drainCell 2 5 0 false true false 3 0x285A82799A 1000000 0 = 0x7F ∧
    drainCell 2 5 0 false true false 3 0x285A82799A 0xFFFFEC78 0 % 256 = 0xFC ∧
    drainCell 2 5 0 false true true 3 0x285A82799A 0xFFFFEC78 0 = 0 := by decide +kernel

/-- The target of the example of R150: FBASE 0x1000 and STAMP 4 give 4,160; the bundle issues at that tick and waits before. -/
def stampState (mcc : Word) : State :=
  { regsAt { Regs.reset with fbase := 0x1000, detm := 3 } with mcc := mcc }

theorem test_stamp : (after (exec (.stamp { h := hd, imm := 4 }) (stampState 4160))).core.note = .none ∧
    (after (exec (.stamp { h := hd, imm := 4 }) (stampState 4159))).core.note = .waiting ∧
    (after (exec (.stamp { h := hd, imm := 4 }) (stampState 4176))).core.note = .trap true := by decide +kernel

/-- Sample 2 of the example of R415: 96 °C on sensor 12 sets TALERT0 bit 12 and pends THERM, and trips nothing. -/
theorem test_sensor : (after (exec (.sensorSample 12 (BitVec.ofNat 16 (16 * 96))) State.reset)).tripped = [] ∧
    ((after (exec (.sensorSample 12 (BitVec.ofNat 16 (16 * 96))) State.reset)).reg (Key.talert 0)).getLsbD 12 = true := by
  decide +kernel

/-- Sample 4: 106 °C trips. -/
theorem test_sensor_trip : (after (exec (.sensorSample 12 (BitVec.ofNat 16 (16 * 106))) State.reset)).tripped = [12] := by
  decide +kernel

/-- A 4-bit token field of 6 under a ceiling of 6 is full (R33): TSIG traps TOKEN_OVERFLOW and leaves it. -/
theorem test_tsig_overflow : (after (exec (.tsig { h := hd, mask := 8 }) (regsAt { Regs.reset with
    tkval := 0x6000, tkceil := 0x6000 }))).core.r.tkval = 0x6000 ∧
    (after (exec (.tsig { h := hd, mask := 8 }) (regsAt { Regs.reset with
      tkval := 0x6000, tkceil := 0x6000 }))).core.r.trc[0] = 9 := by decide +kernel

/-- TWAIT takes one of each token of its mask (R229). -/
theorem test_twait : (after (exec (.twait { h := hd, mask := 5 }) (regsAt { Regs.reset with
    tkval := 0x302 }))).core.r.tkval = 0x201 := by decide +kernel

/-- A word placed by withFetchWord runs as the first bundle: the first step issues MOVI s5, 0x123 and advances the PC. -/
theorem test_first_step : (after (step (State.reset.withFetchWord 32 0x00A05123))).core.r.getS 5 = 0x123 ∧
    (after (step (State.reset.withFetchWord 32 0x00A05123))).core.pc =
      (State.reset.withFetchWord 32 0x00A05123).core.pc + 32 := by decide +kernel

/-- The home slice of the example of R339. -/
theorem test_home_slice : homeSlice 0x12340 = 4 := by decide +kernel

/-- SHA-256 of "abc", as FIPS 180-4's example gives it. -/
theorem test_sha256 : leNat (sha256 [0x61, 0x62, 0x63]) =
    leNat [0xba,0x78,0x16,0xbf,0x8f,0x01,0xcf,0xea,0x41,0x41,0x40,0xde,0x5d,0xae,0x22,0x23,
     0xb0,0x03,0x61,0xa3,0x96,0x17,0x7a,0x9c,0xb4,0x10,0xff,0x61,0xf2,0x00,0x15,0xad] := by decide +kernel
/-! Witnesses: for each statement, and each clause of it that has hypotheses, a state and operands that meet them. -/

/-- A task on core 0 whose first 1 GB of memory is mapped, with registers `r`, and what `f` makes of its core. -/
def tcore (r : Regs) (f : Core → Core := id) : State :=
  (State.reset.withFetchWord 32 0).onCore fun c => f { c with r := r, iss := r }

/-- The same with the registers of first issue. -/
def placed (f : Core → Core := id) : State := tcore { Regs.reset with p := 1 } f

/-- The management core in focus. -/
def mgmtS (r : Regs := Regs.reset) : State := { State.reset with core := { id := 640, st := .active, r := r, iss := r, accept := true } }

/-- A module with one register set. -/
def reg1 (k : Nat) (v : Word) (s : State := State.reset) : State := s.setReg k v

/-- A 256-byte record with the bytes listed, the offsets rising. -/
def lrec (l : List (Nat × Byte)) : List Byte := (List.range 256).map fun i => Sparse.get 0 l i

/-- A one-level launch of eight tasks whose level is a co-resident cluster with supersteps (R277, R278). -/
def gangLaunch : Launch :=
  { serial := 0, queue := 0, phase := .accepted, live := [0],
    record := lrec [(0x08, 1), (0x0A, 1), (0x14, 1), (0x7C, 1), (0x80, 8), (0x84, 0x22), (0x85, 2)] }

/-- A launch of one task without a gang. -/
def plainLaunch : Launch :=
  { serial := 0, queue := 0, phase := .accepted, live := [0],
    record := lrec [(0x08, 1), (0x0A, 1), (0x14, 1), (0x80, 1)] }

theorem wit_source_reads : ((placed id).core.busy.contains (.scalar 1) || (placed id).core.busy.contains (.vector 0) ||
    (placed id).core.busy.contains (.mask 15) || (placed id).core.busy.contains (.pred 47)) = false := by decide +kernel

theorem wit_register_writes : (63 : BitVec 6) ≠ 0 ∧ (15 : BitVec 4) ≠ 0 ∧ (47 : BitVec 6) ≠ 0 ∧ (47 : BitVec 6).toNat < 48 := by
  decide

theorem wit_compares : (47 : BitVec 6) ≠ 0 ∧ (47 : BitVec 6).toNat < 48 := by decide

/-- A loop of three passes over one bundle. -/
def looping (n : BitVec 32) : State :=
  let l : Lc := { count := n, start := 0x1000000, stop := 0x1000000 }
  tcore { Regs.reset with p := 1, lc := Vector.replicate 4 { l with count := 0 } |>.set 0 l }

theorem wit_lbrk : ((looping 0).core.iss.lc[0]).count = 0 ∧ ((looping 3).core.iss.lc[0]).count ≠ 0 := by decide +kernel

theorem wit_next_pc :
    (placed fun c => { c with note := .jump 64 }).core.note = .jump 64 ∧
    (placed fun c => { c with note := .skip 64 }).core.note = .skip 64 ∧
    (placed fun c => { c with note := .armed }).core.note = .armed ∧
    (looping 0).core.note = .none ∧ (looping 0).core.r.lc.toList.map Lc.count = [0, 0, 0, 0] ∧
    (looping 1).core.r.lc.toList.map Lc.count = [1, 0, 0, 0] ∧ (looping 3).core.r.lc.toList.map Lc.count = [3, 0, 0, 0] ∧
    ((looping 3).core.r.lc[0]).stop = (looping 3).core.pc := by decide +kernel

/-- A cause that ends its task, and one that a handler takes. -/
def endsT : Trap := { cause := 0x04, detail := 3 }
def handT : Trap := { cause := 0x0E }
def trapT : Trap := { cause := 0x02 }

theorem wit_task_ends :
    ((placed id).mgmt = false ∧ (placed id).core.pend = [] ∧ (placed id).core.cq = [] ∧ (placed id).rdP 0 = true) ∧
    ((placed fun c => { c with pend := [endsT] }).core.pend = [endsT] ∧ (placed fun c => { c with pend := [endsT] }).core.cq = []) ∧
    mgmtS.mgmt = true ∧ mgmtS.rdP 0 = true := by decide +kernel

theorem wit_privilege : (mgmtS.mgmt = true ∧ mgmtS.rdP 0 = true) ∧ ((placed id).mgmt = false ∧ (placed id).rdP 0 = true) ∧
    (0x041#12).toNat ∈ [0x000, 0x041] ∧ ((0x02F#12).toNat < 0x030 ∧ 0x038 < (0x03A#12).toNat) := by decide +kernel

theorem wit_special_registers : (placed id).mgmt = false ∧ ({ h := hd, rd := 1, imm := 0x02F } : SKOp).imm = BitVec.ofNat 12 (0x20 + 15) ∧
    mgmtS.mgmt = true ∧ ({ h := hd, rd := 1, imm := 0x037 } : SKOp).imm = BitVec.ofNat 12 (0x30 + 7) ∧
    ((placed id).arrayOf 0).solo = false ∧ ({ placed id with arrays := [(0, { solo := true })] }.arrayOf 0).solo = true := by
  decide +kernel

/-- A queue that holds one copy entry in the phase given. -/
def cpyIn (ph : CopyPhase) : State := placed fun c =>
  { c with
    cq := [{ pos := 63, num := 1, kind := .cpy, desc := 0, sig := none, wait := 0, arrive := none, phase := ph }] }

/-- CPYST over a queue that waits, one whose first entry flies, and one whose first entry has faulted. -/
theorem wit_cpyst : ∀ ph ∈ [CopyPhase.waiting, .flying 3, .faulted endsT], (cpyIn ph).core.cq.length ≤ 64 ∧
    (cpyIn ph).core.cq.map CopyEntry.phase = [ph] := by decide +kernel

/-- A task with a handler. -/
def handled (f : Core → Core := id) : State := tcore { Regs.reset with p := 1, thnd := 0x2000 } f

theorem wit_handler_entry : handT.cause ∈ [0x02, 0x05, 0x09, 0x0A, 0x0B, 0x0D, 0x0E, 0x0F] ∧ handT.entry = none ∧
    handled.mgmt = false ∧ handled.core.r.thnd ≠ 0 ∧ handled.core.inh = false := by decide +kernel

theorem wit_task_ending_trap : (endsT.entry = none ∧ (placed id).mgmt = false ∧
      endsT.cause ∈ [0x01, 0x04, 0x06, 0x07, 0x08, 0x0C, 0x10, 0x13, 0x14]) ∧
    (handT.cause ∈ [0x02, 0x0E] ∧ (placed id).core.r.thnd = 0) ∧
    (trapT.cause ∈ [0x02, 0x0D] ∧ trapT.entry = none ∧ (handled fun c => { c with inh := true }).core.inh = true ∧
      (handled fun c => { c with inh := true }).core.r.thnd ≠ 0) := by
  decide +kernel

/-- A handler-class cause pends: under INH, without it, and with THND 0. -/
theorem wit_pending_causes : handT.cause ∈ [0x09, 0x0E] ∧ handT.entry = none ∧
    (let s := handled fun c => { c with inh := true, pend := [handT] }
     s.mgmt = false ∧ s.core.kill = none ∧ s.core.pend = [handT] ∧ s.core.inh = true ∧ s.core.pf = none ∧
       s.fetchFault = none) ∧
    (let s := handled fun c => { c with pend := [handT] }
     s.core.pend = [handT] ∧ s.core.inh = false ∧ s.core.r.thnd ≠ 0) ∧
    (let s := placed fun c => { c with pend := [handT] }
     s.core.kill = none ∧ s.core.pend = [handT] ∧ s.core.inh = false ∧ s.core.r.thnd = 0) := by decide +kernel

/-- Traps that name entry 63 of the copy queue, and entry 31 of the matrix queue. -/
theorem wit_entry_traps : (handled.mgmt = false ∧ handled.core.r.thnd ≠ 0 ∧ handled.core.inh = false) ∧
    (({ cause := 0x0D, entry := some (false, 63) } : Trap).entry = some (false, 63)) ∧
    ∀ c ∈ [0x09, 0x0A, 0x0B], c ∈ [0x09, 0x0A, 0x0B] ∧
      ({ cause := c, entry := some (true, 31) } : Trap).entry = some (true, 31) := by decide +kernel

/-- A page fault with room in the event ring, with none, and behind a held event. -/
theorem wit_page_fault : (placed id).mgmt = false ∧ (placed id).core.task.isSome = true ∧
    (((placed id).setReg Key.evbase 0x1000).held = [] ∧ ((placed id).setReg Key.evbase 0x1000).evRoom = true) ∧
    (placed id).evRoom = false := by decide +kernel

theorem wit_management_trap : mgmtS.mgmt = true ∧ mgmtS.core.accept = true ∧
    (mgmtS.onCore fun c => { c with accept := false }).mgmt = true ∧
    (mgmtS.onCore fun c => { c with accept := false }).core.accept = false := by decide +kernel

/-- The management core with source n pending and enabled. -/
def irqS (n : Nat) : State := (mgmtS.setReg Key.mien 0x1FF).setReg Key.mipend (BitVec.ofNat 64 (2 ^ n))

theorem wit_boundary_steps :
    ((placed fun c => { c with kill := some 2 }).core.kill = some 2 ∧ (placed fun c => { c with kill := some 2 }).core.st ≠ .bound) ∧
    ((placed fun c => { c with pend := [endsT] }).core.pend = [endsT] ∧ trapClass endsT.cause = .ends) ∧
    ((tcore { Regs.reset with p := 1, tbudget := 0 }).core.st = .active ∧
      (tcore { Regs.reset with p := 1, tbudget := 0 }).core.r.tbudget = 0) ∧
    (∀ n ∈ [0, 8], (irqS n).mgmt = true ∧ (irqS n).core.accept = true ∧
      ((irqS n).reg Key.mien &&& (irqS n).reg Key.mipend).getLsbD n = true ∧
      ∀ m, m < n → ((irqS n).reg Key.mien &&& (irqS n).reg Key.mipend).getLsbD m = false) ∧
    (irqS 8).reg Key.mien &&& (irqS 8).reg Key.mipend ≠ 0 := by decide +kernel

/-- A bundle whose first word has no instruction. -/
def badBundle : State := State.reset.place (bundleBytes 0 0x00680000)

theorem wit_illegal_bundle : badBundle.fetch = .ok (bundleBytes 0 0x00680000) ∧ badBundle.mgmt = false ∧
    badBundle.judgeWords (bundleWords (bundleBytes 0 0x00680000)) = some (2, 1) := by decide +kernel

/-- A task whose STAMP target stands at 64. -/
def stamped (mcc : Word) (f : Core → Core := id) : State :=
  { tcore { Regs.reset with p := 1, detm := 3, fbase := 0 } f with mcc := mcc }

theorem wit_stamp : ((stamped 64).rdP 0 = true ∧ (stamped 64).mgmt = false ∧
      (stamped 64).core.iss.fbase + 16#64 * (4#12).setWidth 64 = 64) ∧
    ((64#64).toNat ≤ (stamped 79).mcc.toNat ∧ (stamped 79).mcc.toNat ≤ (64#64).toNat + 15) ∧
    ((stamped 63).mcc.toNat < (64#64).toNat) ∧
    ((stamped 80).core.iss.detm.getLsbD 1 = true ∧ (64#64).toNat + 15 < (stamped 80).mcc.toNat) ∧
    ((stamped 80 fun c => { c with stamps := [(1, 64)] }).core.stamps = [(1, 64)] ∧
      (stamped 80 fun c => { c with stamps := [(1, 64)] }).core.r.detm.getLsbD 1 = true) := by decide +kernel

/-- A task with token values and ceilings. -/
def tokens (v c : BitVec 32) : State := tcore { Regs.reset with p := 1, tkval := v, tkceil := c }

theorem wit_tokens : (tokens 0x11 0xFFFFFFFF).rdP 0 = true ∧ (tokens 0x11 0xFFFFFFFF).core.cq = [] ∧
    (∀ k, k < 8 → (3#8).getLsbD k = true → 1 ≤ token (tokens 0x11 0xFFFFFFFF).core.r.tkval k) ∧
    ((3#8).getLsbD 1 = true ∧ token (tokens 0x01 0xFFFFFFFF).core.r.tkval 1 = 0) ∧
    (∀ k, k < 8 → (0xFF#8).getLsbD k = true →
      token (tokens 0xEEEEEEEE 0xFFFFFFFF).core.r.tkval k < token (tokens 0xEEEEEEEE 0xFFFFFFFF).core.r.tkceil k) ∧
    ((tokens 0x60 0x60).mgmt = false ∧ (3#8).getLsbD 1 = true ∧
      token (tokens 0x60 0x60).core.r.tkceil 1 ≤ token (tokens 0x60 0x60).core.r.tkval 1) := by decide +kernel

/-- A task whose timeline index 0 is its copy timeline at 5, and 1 module timeline 9. -/
def timed : State :=
  { tcore { (sregs [(1, 5), (2, 6)]) with p := 1 } fun c => { c with
      ctl := 5, tl := (c.tl.set 0 .copy).set 1 (.module 9) } with timelines := [(9, 5)] }

theorem wit_timelines : timed.rdP 0 = true ∧ timed.core.cq = [] ∧ timed.core.tl[(0#4).toNat] = .copy ∧
    ((timed.rdS 1).toNat ≤ timed.core.ctl ∧ timed.core.ctl < 2 ^ 64) ∧ timed.core.ctl < (timed.rdS 2).toNat ∧
    timed.core.tl[(1#4).toNat] = .module 9 ∧ (timed.rdS 1).toNat ≤ (Sparse.get 0 timed.timelines (9#12).toNat).toNat ∧
    (Sparse.get 0 timed.timelines (9#12).toNat).toNat < (timed.rdS 2).toNat ∧
    (timed.core.tl[(15#4).toNat] = .unbound ∧ timed.mgmt = false) := by decide +kernel

/-- A member of a gang, with barriers `x` and what `f` makes of its core. -/
def member (x : List Barrier) (f : Core → Core := id) : State :=
  { tcore { (sregs [(1, 0x20006), (2, 0xFFFFFF)]) with p := 1 } f with launches := [gangLaunch], barriers := x }

/-- Barrier 9 of the member's cluster. -/
def bar9 (arrived p : BitVec 16) : Barrier :=
  { serial := 0, b := 9, dom := 0, e := 6, q := 2, arrived := arrived, live := 8, broken := false, p := p }

/-- The member's arrival record for barrier 9. -/
def arrived9 (p : BitVec 16) (c : Core) : Core :=
  { c with arr := c.arr.set 9 (some p), firstReady := c.firstReady.set 9 (some (c.pc, 0)) }

theorem wit_barriers : ((member []).core.task.isSome = true ∧ (member []).rdP 0 = true) ∧
    ((member []).barrierUsable 9 = true ∧ (member []).barrier 9 = none ∧
      (∀ ra ∈ [(1 : BitVec 6), 2], ((member []).rdS ra).toNat < 2 ^ 24 ∧ ((member []).rdS ra).toNat % 2 ^ 16 ≠ 0)) ∧
    (barrierOf (member [bar9 2 0]) 9 (bar9 2 0) ∧ (bar9 2 0).broken = false ∧ (bar9 2 0).arrived + 1 ≠ (bar9 2 0).e) ∧
    (barrierOf (member [bar9 5 0]) 9 (bar9 5 0) ∧ (bar9 5 0).arrived + 1 = (bar9 5 0).e) ∧
    (barrierOf (member [bar9 0 1] (arrived9 0)) 9 (bar9 0 1) ∧ (member [bar9 0 1] (arrived9 0)).core.orphan = [] ∧
      (member [bar9 0 1] (arrived9 0)).core.relWait = [] ∧ (member [bar9 0 1] (arrived9 0)).core.arr[9] = some 0 ∧
      (member [bar9 0 1] (arrived9 0)).core.firstReady[9] = some ((member [bar9 0 1] (arrived9 0)).core.pc, 0) ∧
      (bar9 0 1).p ≠ 0) ∧
    (barrierOf (member [bar9 1 0] (arrived9 0)) 9 (bar9 1 0) ∧
      (member [bar9 1 0] (arrived9 0)).core.arr[9] = some (bar9 1 0).p) ∧
    ((member [bar9 2 0]).core.arr[9] = none ∧ (member [bar9 2 0]).core.orphan = []) ∧ (member []).mgmt = false := by
  unfold barrierOf; decide +kernel

/-- The superstep instance of the member. -/
def stepKey0 : StepKey := { serial := 0, level := 0, inst := 0 }

/-- A member at a superstep of level 0. -/
def stepping (f : Core → Core := id) : State := member [] f

theorem wit_supersteps : stepping.rdP 0 = true ∧ stepping.core.task.isSome = true ∧ stepping.launch 0 = some gangLaunch ∧
    (0#3).toNat < gangLaunch.count ∧ gangLaunch.cores 0 = true ∧ gangLaunch.sstep 0 = true ∧ stepping.core.orphan = [] ∧
    stepKey0 = { serial := 0, level := (0#3).toNat, inst := gangLaunch.inst (0#3).toNat 0 } ∧
    (let s := stepping fun c => { c with ssArr := [(0, 1, c.pc)] }
     s.core.ssArr.find? (fun a => a.1 == 0) = some (0, 1, s.core.pc) ∧ 1 ≠ (s.stepInst stepKey0).steps ∧ s.core.relWait = []) ∧
    (stepping.core.ssArr.find? fun a => a.1 == 0) = none ∧ (stepping fun c => { c with st := .waiting }).core.st = .waiting ∧
    ((stepping fun c => { c with st := .frozen }).core.st = .frozen ∧ stepping.core.lateFrozen = false ∧ stepping.core.pf = none) := by
  decide +kernel

/-- Contexts that neither step of R46 changes. -/
theorem wit_waits_end : (placed id).core.st ≠ .waiting ∧ (placed id).core.st ≠ .frozen ∧
    (placed fun c => { c with st := .frozen, lateFrozen := true }).core.lateFrozen = true ∧
    (placed fun c => { c with st := .frozen, pf := some { detail := 0, va := 0, kind := 0 } }).core.pf ≠ none := by decide +kernel

/-- The superstep instance with its communication step begun. -/
def commS : State := { stepping with steps := [{ key := stepKey0, arrived := [0], comm := true }] }

theorem wit_superstep_release : commS.commDone stepKey0 = true ∧ commS.groups = [] ∧
    commS.inStep stepKey0 commS.core = true ∧ commS.core.st ≠ .free ∧
    (commS.onCore fun c => { c with task := none }).inStep stepKey0 (commS.onCore fun c => { c with task := none }).core = false := by
  decide +kernel

theorem wit_vector_types :
    ((([Instr.vadd, .vsub, .vadds, .vaddsn, .vsubs, .vsubsn, .vmul, .vmulh, .vmac, .vmin, .vmax, .vminn, .vmaxn, .vabsd,
      .vavgn, .vand, .vor, .vxor, .vandn, .vshl, .vshr, .vsar, .vshli, .vshri, .vsari, .vclz, .vpopc, .vcmpeq, .vcmpne,
      .vcmplt, .vcmple, .vcmpltn, .vcmplen, .vrev, .vzip, .vunzip, .vxs].all
        fun mk => (mk (vop 2 2 0 1 1 0)).wf && (mk (vop 0 0 0 1 1 0)).wf) &&
      ([Instr.vfadd, .vfsub, .vfmul, .vfma, .vfnma, .vfmin, .vfmax, .vfabs, .vfneg, .vfcmpeq, .vfcmplt, .vfcmple,
        .vfcmpun].all fun mk => (mk (vop 2 5 0 1 1 0)).wf && (mk (vop 0 3 0 1 1 0)).wf)) &&
      [Instr.vshli (vop 2 2 0 1 1 31), .vshri (vop 2 0 0 1 1 7), .vsari (vop 1 1 0 1 1 15), .vpermb (vop 0 0 0 1 1 1),
       .vpermw (vop 0 1 0 1 1 1), .vpermw (vop 2 2 0 1 1 1), .vbcs (vop 0 5 0 1 1 0), .vmovi (vop 0 0 0 1 1 1),
       .vmovi (vop 2 5 0 1 1 1), .vmov (vop 2 7 0 1 1 0), .vsel (vop 2 7 0 1 1 1), .vcvt (vop 2 7 0 1 1 7),
       .vcvtsr (vop 0 3 0 1 1 1), .vcvtsr (vop 0 7 0 1 1 1), .vnarrow (vop 0 1 0 1 1 1), .vwiden (vop 0 2 0 1 1 1),
       .vrng (vop 0 2 0 1 1 1), .vxs (vop 2 0 0 1 1 31), .vrmrg (vop 0 1 15 1 1 1), .vrmrg (vop 2 7 15 1 1 1)].all
        fun i => i.wf) = true := by decide +kernel

theorem wit_special_functions : [Instr.xrcp, .xrsq, .xsqrt, .xexp2, .xlog2, .xsint, .xcost, .xtanh, .xsigm, .xgelu].all
      (fun mk => (mk { h := hd, vd := 1, va := 1, t := 3, m := 0 }).wf && (mk { h := hd, vd := 1, va := 1, t := 5, m := 0 }).wf) = true ∧
    (placed id).rdP hd.g = true ∧ (placed id).core.entries < 256 := by decide +kernel

/-- A landing of the core. -/
def land (d : DstReg) (k : LandKind) (wait : Option Nat) : Landing :=
  { id := 7, slot := 0, dst := d, data := 5, wm := BitVec.allOnes 1024, left := 0, wait := wait, kind := k }
def landing (l : Landing) : State := placed fun c => { c with lands := [l] }

theorem wit_sfu_steps :
    ((landing (land (.vector 1) (.sfu false) none)).core.lands = [land (.vector 1) (.sfu false) none] ∧
      (land (.vector 1) (.sfu false) none).kind = .sfu false) ∧
    ((landing (land (.vector 1) (.sfu true) (some 0))).core.lands = [land (.vector 1) (.sfu true) (some 0)] ∧
      (land (.vector 1) (.sfu true) (some 0)).kind = .sfu true ∧ (land (.vector 1) (.sfu true) (some 0)).left = 0 ∧
      (land (.vector 1) (.sfu true) (some 0)).err = none ∧ (land (.vector 1) (.sfu true) (some 0)).lost = false) := by decide +kernel

theorem wit_landings : (landing (land (.vector 1) .fixed none)).core.lands = [land (.vector 1) .fixed none] ∧
    (land (.vector 1) .fixed none).left = 0 ∧ (land (.vector 1) .fixed none).wait = none ∧
    (land (.vector 1) .fixed none).awaits = [] ∧ (land (.vector 1) .fixed none).holds = [] ∧
    (land (.vector 1) .fixed none).err = none ∧ (land (.vector 1) .fixed none).lost = false ∧
    (land (.vector 1) .fixed none).arrive = none ∧
    (land (.vector 1) .fixed none).rsig = none ∧ (land (.vector 1) .fixed none).kind = .fixed ∧ (15 : BitVec 4) ≠ 0 := by
  decide +kernel

/-! The matrix queue. -/

/-- FT entry for INT8 by INT8 into INT32, wrapping (1) or clamping (2). -/
def ftInt (acc : Nat) : BitVec 32 := BitVec.ofNat 32 (5 + 16 * 5 + 256 * acc)

/-- A task with an integer FT entry; s1 an MMA descriptor of one block, A rows from 0, B rows from 12288; s2 a tile descriptor
of rows 0 to 63; s3 a drain to rows 0 to 15 in INT8; s4 a descriptor with a reserved bit. -/
def matrixS (f : Core → Core := id) : State :=
  tcore { (sregs [(1, BitVec.ofNat 64 (12288 * 2 ^ 15)), (2, 0), (3, BitVec.ofNat 64 (5 * 2 ^ 46)),
    (4, BitVec.ofNat 64 (2 ^ 63))]) with p := 1, ft := Vector.replicate 16 (ftInt 1) } f

def mma1 : MmaOp := { h := hd, tile := 0, sd := 1, ss := 0, sa := true, sb := true, z := true }

theorem wit_matrix_issue : matrixS.rdP hd.g = true ∧ hd.a = false ∧ matrixS.core.mq.length < 32 ∧
    mmaCheck mma1 matrixS (matrixS.rdS 1) = none ∧
    (matrixS.mgmt = false ∧ (matrixS.rdS 4).extractLsb' 52 12 ≠ 0) ∧ (2 : BitVec 2) ≠ 3 ∧ matrixS.core.comp = none := by
  decide +kernel

/-- The companion of an MRSUM. -/
def g1 : MmaArgs := mmaArgs mma1 matrixS (matrixS.rdS 1)

theorem wit_mrsum : (matrixS fun c => { c with comp := some g1 }).core.comp = some g1 ∧
    (pairOf (ftA g1.ft) (ftB g1.ft)).map Pair.kind = some .int ∧
    (matrixS.core.rowsFault [(g1.arow, (g1.kb + 1) * 4, 0), (g1.brow, (g1.kb + 1) * 4, 0)]) = none ∧
    (pairOf (ftA g1.ft) (ftB g1.ft)).map (fun p => (p.ra, p.rb)) = some (4, 4) := by decide +kernel

/-- A queue whose head is `e`. -/
def queued (e : MEntry) : State := matrixS fun c => { c with mq := [e] }
def zero1 : MEntry := { idx := 0, op := .mzero 1, tile := 3, fresh := false }
def mmaE (n : Nat) : MEntry := { idx := 0, op := .mma g1, tile := 3, fresh := false, running := true, done := n }

theorem wit_matrix_queue : ((queued zero1).canStart = true ∧ zero1.op ≠ .mmode) ∧
    ((queued (mmaE 0)).served = true ∧ (queued (mmaE 0)).core.mqDid = false ∧ (mmaE 0).running = true ∧
      (mmaE 0).done < (mmaE 0).blocksDue ∧ (mmaE 0).early (queued (mmaE 0)).core = false) ∧
    (let s := (queued { mmaE 0 with after := 5 }).onCore fun c => { c with stores := [{ id := 3, left := 9, holds := [4] }] }
     s.core.mq = [{ mmaE 0 with after := 5 }] ∧ ({ mmaE 0 with after := 5 } : MEntry).early s.core = true) ∧
    ({ zero1 with running := true, done := 1 }.op = .mzero 1) ∧
    ((mmaE 1).op = .mma g1 ∧ (mmaE 1).done = g1.kb + 1 ∧ (mmaE 1).sig = none ∧ (mmaE 1).bad = none) ∧
    ({ State.reset with arrays := [(319, { set := true })] }.arrays = [(319, { set := true })]) := by decide +kernel

theorem wit_integer_cells : (∀ acc ∈ [1, 2], ftAcc (ftInt acc) = acc ∧ (pairOf (ftA (ftInt acc)) (ftB (ftInt acc))).map Pair.kind =
    some .int) := by decide +kernel

theorem wit_matrix_transfers : matrixS.rdP hd.g = true ∧ hd.a = false ∧ matrixS.core.tilePort = 0 ∧
    matrixS.core.tileBusy (127#7).toNat = 0 ∧ (tileRowsCheck matrixS (matrixS.rdS 2) 1 0 = none ∧
      ∀ q, q < 64 → matrixS.core.rowBad (((matrixS.rdS 2).extractLsb' 0 15).toNat + q) = false) ∧
    (tileRowsCheck matrixS (matrixS.rdS 2) 0 1 = none ∧ (matrixS.tile 127).bad = []) ∧
    (drainCheck { h := hd, tile := 127, sd := 3, uns := true, req := false } matrixS (matrixS.rdS 3) = none) ∧
    (queued (mmaE 0)).core.tileBusy (3#7).toNat ≠ 0 ∧ (queued (mmaE 0)).rdP hd.g = true ∧
    (matrixS fun c => { c with tilePort := 16 }).core.tilePort ≠ 0 := by decide +kernel


/-- MDRAIN of s5, a drain to BF16 rows 0 to 31 with parameters at row 100; REQ needs an accumulating tile. -/
def drainReq : State :=
  (matrixS fun c => { c with iss := c.iss.setS 5 (BitVec.ofNat 64 (9 * 2 ^ 46 + 100 * 2 ^ 15)) }).setTile 7
    { (matrixS.tile 7) with acc := 1 }

theorem wit_matrix_transfer_completion :
    (matrixS.rdP 0 = true ∧ matrixS.core.tilePort = 0 ∧ matrixS.core.tileBusy (127#7).toNat = 0 ∧
      (matrixS.rdS 2).extractLsb' 15 49 = 0 ∧ ((matrixS.rdS 2).extractLsb' 0 15).toNat + 64 ≤ 24576 ∧
      (∀ q, q < 64 → matrixS.core.rowOk ((0 + q : Nat) : Int) = true) ∧
      (∀ q, q < 64 → matrixS.core.rowBad (0 + q) = false) ∧ (matrixS.tile 127).bad = [] ∧ matrixS.core.mq.length ≤ 32) ∧
    (let s := matrixS fun c => { c with badWords := [24] }
     s.core.rowBad 3 = true ∧ (∀ i, i < 3 → s.core.rowBad (0 + i) = false) ∧ s.core.st = .active) ∧
    ((matrixS.rdS 3).extractLsb' 50 14 = 0 ∧ ((matrixS.rdS 3).extractLsb' 46 4).toNat = 5 ∧ 0 + 2 * mBits 5 ≤ 24576 ∧
      ∀ q, q < 2 * mBits 5 → matrixS.core.rowOk ((0 + q : Nat) : Int) = true) ∧
    (drainReq.rdP 0 = true ∧ drainReq.core.tilePort = 0 ∧ drainReq.core.tileBusy (7#7).toNat = 0 ∧
      (drainReq.tile 7).acc ≠ 0 ∧ (drainReq.rdS 5).extractLsb' 50 14 = 0 ∧
      ((drainReq.rdS 5).extractLsb' 46 4).toNat = 9 ∧ ((drainReq.rdS 5).extractLsb' 15 15).toNat = 100 ∧
      (∀ q, q < 2 * mBits 9 → drainReq.core.rowOk ((0 + q : Nat) : Int) = true) ∧
      ∀ q, q < 4 → drainReq.core.rowOk ((100 + q : Nat) : Int) = true) ∧
    matrixS.rdP 1 = false := by
  decide +kernel
/-! Memory. -/

/-- A task with s1 an address in HBM, s2 a tail of the same line, and memory mapped. -/
def memS (f : Core → Core := id) : State :=
  tcore { (sregs [(1, 0x2000000), (2, 0x2000078), (3, 64), (4, 12288 * 64 + 64)]) with p := 1 } f
def pieceAt (va : Word) (n : Nat) : Piece := { va := va, pa := va.toNat, n := n, key := 0 }

theorem wit_loads : ∀ n ∈ [1, 2, 4, 8, 32, 64, 128], memS.rdP hd.g = true ∧
    Reaches memS (memS.rdS 1) n 0 true (n == 8) (pieceAt 0x2000000 n) ∧
    Reaches memS (memS.rdS 1) n 0 true false (pieceAt 0x2000000 n) := by
  unfold Reaches; decide +kernel

/-- A load to s5 under way, with its data. -/
def loadL (n : Nat) (sext : Bool) : Landing :=
  { id := 7, slot := 0, dst := .scalar 5, data := 0x80, wm := BitVec.allOnes 1024, left := 0, wait := none,
    kind := .load 0x2000000 n sext }

theorem wit_load_landing : ∀ n ∈ [1, 2, 4, 8], (landing (loadL n true)).core.lands = [loadL n true] ∧
    (loadL n true).kind = .load 0x2000000 n true ∧ (loadL n true).dst = .scalar 5 ∧ (5 : BitVec 6) ≠ 0 ∧
    (loadL n true).err = none ∧ (loadL n true).lost = false ∧ (loadL n true).arrive = none ∧ (loadL n true).data.toNat < 2 ^ (8 * n) ∧
    (loadL n true).left = 0 ∧ (loadL n true).wait = none := by decide +kernel

theorem wit_stores : memS.canonical = true ∧ ∀ n ∈ [1, 2, 4, 8, 32, 64, 128],
    Reaches memS (memS.rdS 1 + BitVec.ofNat 64 n * (63#6).signExtend 64) n 1 true (n == 8)
      (pieceAt (0x2000000 - BitVec.ofNat 64 n) n) ∧
    Reaches memS (memS.rdS 1 + BitVec.ofNat 64 n * (31#6).signExtend 64) n 1 true false
      (pieceAt (0x2000000 + BitVec.ofNat 64 (31 * n)) n) := by
  unfold Reaches; decide +kernel

theorem wit_atomics : memS.canonical = true ∧ ∀ n ∈ [4, 8],
    Reaches memS (memS.rdS 1) n 2 false false (pieceAt 0x2000000 n) ∧ (memS.rdS 1).toNat % n = 0 := by
  unfold Reaches; decide +kernel

/-! The scratchpad. -/

theorem wit_undeclared_row : (placed id).mgmt = false ∧ (placed id).core.badRange (-1) 2 = some (-1) ∧
    (placed id).core.badRange 24575 2 = some 24576 := by decide +kernel

theorem wit_scratchpad : (memS.cluster (memS.core.id / 8)).wa = false ∧
    (∀ i, i < 2 → memS.core.rowBad (0 + i) = false) ∧
    memS.rowsReach (2 * ((memS.rdS 3).toNat / 128 : Nat)) 2 0 = .ok 0 ∧
    memS.rowsReach ((memS.rdS 4).toNat / 64 : Nat) 1 0 = .ok 12289 ∧
    (let r : Int := ((memS.rdS 3).toNat / 64 : Nat) + (63#6).toInt
     memS.rowsReach (r - r % 2) 2 1 = .ok 0 ∧ memS.rowsReach r 1 1 = .ok 0) ∧
    (∀ j, j < 32 →
      memS.core.rowOk ((((memS.rdS 3 + BitVec.ofNat 64 (el (memS.rdV 0) 32 j)).toNat / 4 * 4) / 64 : Nat) : Int) = true) ∧
    (∀ j, j < 16 → memS.core.rowOk (((((memS.rdS 3 >>> 6 <<< 6) + 64#64 * (1#6).signExtend 64 +
      BitVec.ofNat 64 (el (memS.rdV 0) 32 (16 + j))).toNat / 4 * 4) / 64 : Nat) : Int) = true) := by decide +kernel

/-! Fences, caches, FIFOs. -/

def postedDone : Posted := { id := 3, left := 10 }
def fence4 : Fence := { id := 4, kind := 1, scope := 1, loads := [], stores := [], remotes := [] }
def remote5 : Remote :=
  { id := 5, module := 63, serial := some 1, ackt := 0, inc := 0, va := 0, addr := 0, kind := .store [1], keyid := 0,
    age := 660000 }
def fence6 : Fence := { id := 6, kind := 3, scope := 5, age := 660000, loads := [], stores := [], remotes := [5] }

theorem wit_fences : (memS.core.lands = [] ∧ memS.core.stores = [] ∧ memS.core.remotes = [] ∧ memS.rdP hd.g = true) ∧
    ((4 : BitVec 3) ≠ 0 ∧ (4 : BitVec 3).toNat < 5 ∧ (1 : BitVec 2) ≠ 0 ∧
      (memS fun c => { c with stores := [postedDone] }).core.stores = [postedDone] ∧ postedDone.act = .done ∧
      postedDone.holds = []) ∧
    ((memS fun c => { c with fences := [fence4] }).core.fences = [fence4] ∧ fence4.remotes = [] ∧ fence4.past = [] ∧ fence4.lost = [] ∧
      (memS fun c => { c with fences := [fence4] }).core.lands = [] ∧ (memS fun c => { c with fences := [fence4] }).core.spawns = [] ∧
      (memS fun c => { c with fences := [fence4] }).core.stores = []) ∧
    ((memS fun c => { c with fences := [fence6], remotes := [remote5] }).core.fences = [fence6] ∧
      (memS fun c => { c with fences := [fence6], remotes := [remote5] }).core.remotes = [remote5] ∧
      (memS fun c => { c with fences := [fence6], remotes := [remote5] }).core.spawns = [] ∧
      (memS fun c => { c with fences := [fence6], remotes := [remote5] }).core.lands = [] ∧
      (memS fun c => { c with fences := [fence6], remotes := [remote5] }).core.stores = [] ∧
      fence6.remotes = [remote5.id] ∧ fence6.lost = [] ∧ 5 ≤ fence6.scope.toNat ∧ 660000 ≤ fence6.age ∧ remote5.module < 64) := by
  decide +kernel

/-- The line a prefetch of s1 reaches. -/
def linePiece : Piece := { pieceAt 0x2000000 64 with key := 0 }

theorem wit_caches : memS.prefetchPiece (memS.rdS 1) = some linePiece ∧ linePiece.lines memS = [0x80000] ∧
    0x80000 < 0x200000000 ∧ memS.physKind linePiece.pa = .hbm ∧ linePiece.chk = false ∧
    (Sparse.find (after (exec (.pf { h := hd, ra := 1 }) memS)).llc 0x80000).isSome = true ∧
    Sparse.find (after (exec (.pfc { h := hd, n := 63, ra := 1 }) memS)).llc (memS.canon linePiece.pa / 64) = some false ∧
    memS.access (memS.rdS 1) 1 5 true false = .ok (.mem [pieceAt 0x2000000 1]) ∧ memS.keptLine (memS.rdS 1) = false ∧
    (63 : BitVec 6) ≠ 0 ∧ memS.core.fences = [] ∧
    (let s := memS fun c => { c with fences := [fence6], remotes := [remote5] }
     s.access (s.rdS 1) 1 5 true false = .ok (.mem [pieceAt 0x2000000 1]) ∧ s.core.fences ≠ [] ∧
       s.core.holders false ≠ []) := by decide +kernel

/-- A task with FIFO 15 bound to this module's own channel 2, and the words given. -/
def fifoS (i o : List Word) : State := memS fun c =>
  { c with fifo := c.fifo.set 15 { peer := some (memS.pos, 2), inb := i, outb := o } }

theorem wit_fifos : (fifoS [5] []).rdP hd.g = true ∧
    (((fifoS [5] []).core.fifo[(15#4).toNat]).peer = some ((fifoS [5] []).pos, 2) ∧
      ((fifoS [5] []).core.fifo[(15#4).toNat]).err = false ∧ ((fifoS [5] []).core.fifo[(15#4).toNat]).gone = false ∧
      ((fifoS [5] []).core.fifo[(15#4).toNat]).inb = [5]) ∧
    ((fifoS [] []).core.fifo[(15#4).toNat]).inb = [] ∧
    (((fifoS [] (List.replicate 63 1)).core.fifo[(15#4).toNat]).outb.length < 64) ∧
    (64 ≤ ((fifoS [] (List.replicate 64 1)).core.fifo[(15#4).toNat]).outb.length) ∧
    (let s := (fifoS [5] (List.replicate 63 1)).onCore fun c => { c with gain := { words := List.replicate 16 (1, 1) } }
     (s.core.fifo[(15#4).toNat]).inb.length ≤ (s.newWords 15).1 ∧
       64 ≤ (s.core.fifo[(15#4).toNat]).outb.length + (s.newWords 15).2) ∧
    ((fifoS [5] []).newWords 15).1 ≤ ([] : List Word).length ∧
    (memS.mgmt = false ∧ (memS.core.fifo[(0#4).toNat]).peer = none) := by decide +kernel

/-! Translation and tags. -/

/-- The same task with no TLB of its die holding a leaf; and with the core TLB holding one. -/
def coldS : State := { memS (fun c => { c with utlb := [], ctlb := [] }) with dtlb := [] }
def deepS : State := { memS (fun c => { c with utlb := [] }) with dtlb := [] }

theorem wit_page_walks : memS.core.task.isSome = true ∧
    (coldS.inval = none ∧ coldS.tlbDeep 0 0x3FFFFFFF = none ∧ coldS.walk 0 0x3FFFFFFF 0 = .ok (0x1F, 1073741824)) ∧
    (deepS.inval = none ∧ (deepS.tlbDeep 0 0x3FFFFFFF).isSome = true ∧
      (deepS.tlbDeep 0 0x3FFFFFFF).all (deepS.stillHeld 0 0x3FFFFFFF 0) = true) ∧
    (coldS.tlbDeep 0 0x40000000 = none ∧ (coldS.walk 0 0x40000000 0).toOption = none) := by decide +kernel

/-- A tag that task 5 wrote in this step. -/
def tag5 : OwnerTag := { wv := true, serial := 0, step := 0, writer := 5 }

theorem wit_owner_tags : memS.core.task.isSome = true ∧ Sparse.find memS.tags 0x80000 = none ∧ memS.canPin [] 0x80000 = true ∧
    0x80000 ∈ [0x7FFFF, 0x80000] ∧ Sparse.find { memS with tags := [(0x80000, tag5)] }.tags 0x80000 = some tag5 ∧
    tag5.current 0 memS.core.r.ssn = true ∧ tag5.wv = true ∧ tag5.writer ≠ BitVec.ofNat 20 0 := by decide +kernel

/-- Slice 0 with all its pins taken: line 0 cannot be pinned. -/
theorem wit_pin_limit (p : Pin) : { memS with pins := List.replicate 32768 (0x102, p) }.canPin [] 0 = false := by
  have h : (homeSlice (64 * 0x102) == homeSlice (64 * 0)) = true := by decide
  have none (l : List (Nat × Pin)) : (Sparse.find ((0x102, p) :: l) 0).isSome = false := by simp [Sparse.find]
  simp only [State.canPin, List.filter_replicate, h, if_true, List.length_replicate]
  rw [show 32768 = 32767 + 1 from rfl, List.replicate_succ, none]
  rfl

/-- Slice 0 with one place left: lines 0 and 0x81 are both new to it. -/
theorem wit_pin_pair (p : Pin) : homeSlice (64 * 0x81) = homeSlice (64 * 0) ∧
    (let s := { memS with pins := List.replicate 32767 (0x102, p) }
     Sparse.find s.pins 0x81 = none ∧ Sparse.find s.pins 0 = none ∧
       (s.pins.filter fun q => homeSlice (64 * q.1) == homeSlice (64 * 0)).length = 32767) := by
  have h : (homeSlice (64 * 0x102) == homeSlice (64 * 0)) = true := by decide
  have none (l : List (Nat × Pin)) (n : Nat) (hn : n < 0x102) : Sparse.find ((0x102, p) :: l) n = none := by
    simp [Sparse.find, Nat.ne_of_lt hn, Nat.not_le_of_lt hn]
  have cut : List.replicate 32767 (0x102, p) = (0x102, p) :: List.replicate 32766 (0x102, p) := List.replicate_succ
  refine ⟨by decide, ?_, ?_, ?_⟩
  · rw [cut]; exact none _ _ (by decide)
  · rw [cut]; exact none _ _ (by decide)
  · simp only [List.filter_replicate, h, if_true, List.length_replicate]
/-! Copies and the Enlarger. -/

/-- A descriptor row: source, destination, bytes, kinds (1: scratchpad source, 4: scratchpad destination) and PEERS. -/
def desc (src dst len kinds peers : Nat) : Row :=
  BitVec.ofNat 512 (src + dst * 2 ^ 64 + len * 2 ^ 128 + kinds * 2 ^ 176 + peers * 2 ^ 384)

/-- A task whose row 1 holds a descriptor, under a grant of one transfer word and a tree table. -/
def copyS (r : Row) : State :=
  (((memS fun c => c.setRow 1 r).setReg Key.enlgt 0x80000).setReg Key.treebase 0x1000).physWrite 0x80000
    (leBytes 4 0 ++ leBytes 4 1) 0

/-- The task of these states. -/
def tk : Task := { serial := 0, index := 0, context := 0, keyid := 0, scratch := 12288, half := 2, preloaded := true, left := 0 }

theorem wit_copy_issue : (copyS 0).core.task = some tk ∧ (copyS 0).core.cq.length < 64 ∧
    declared tk (((copyS 0).rdS 3).toNat / 64) = true ∧ (copyS 0).reg Key.treebase ≠ 0 ∧
    ∀ p ∈ [(CopyKind.cpy, desc 0x2000000 0 64 4 0), (.cpyf, desc 0x2000000 0x3000000 64 0 2),
        (.cpyt, desc 0 0x3000000 64 1 0), (.seqrun, BitVec.ofNat 512 (2 ^ 32))],
      (copyS p.2).descOk tk p.1 ((copyS p.2).core.row (((copyS p.2).rdS 3).toNat / 64)) = true := by decide +kernel

/-- A queue that holds one entry. -/
def entry (kind : CopyKind) (r : Row) (ph : CopyPhase) : CopyEntry :=
  { pos := 0, num := 1, kind := kind, desc := r, sig := none, wait := 0, arrive := none, phase := ph, fresh := false }
def cqS (e : CopyEntry) : State := memS fun c => { c with cq := [e] }

theorem wit_copy_steps :
    (let e := entry .cpy (desc 0x2000000 0 64 4 0) .waiting
     (cqS e).core.cq = [e] ∧ (cqS e).core.task = some tk ∧ (cqS e).copyDue = true ∧ (cqS e).core.r.detm = 0) ∧
    (let e := entry .cpy (desc 0x2000000 0 0 4 0) (.flying 0)
     e.len = 0 ∧ (cqS e).core.cqDone = [] ∧ (cqS e).core.wordSigs = [] ∧ e.num = (cqS e).core.ctl + 1) ∧
    (let e := entry .cpy (desc 0x2000000 64 64 4 0) (.flying 0)
     e.toMove = [] ∧ e.len ≠ 0 ∧ e.nl = 0 ∧ e.sk = false ∧ e.dk = true ∧ (cqS e).core.unperformed e.after = false ∧
       (cqS e).core.remotes = [] ∧ (cqS e).core.wordSigs = [] ∧
       (∀ p ∈ ((cqS e).vparts 0 0 6 e.src e.len).1, (cqS e).physKind p.pa = .hbm) ∧
       (cqS e).vread 0 0 e.num e.src e.len = (List.replicate 64 0, none)) ∧
    (let e := entry .cpy (desc 64 0x2000000 64 1 0) (.flying 0)
     e.toMove = [] ∧ e.sk = true ∧ e.dk = false ∧ e.len ≠ 0 ∧ (cqS e).core.unperformed e.after = false ∧ (∀ i, i < e.len → (cqS e).core.rowBad ((e.src.toNat + i) / 64) = false) ∧
       (cqS e).engineXlate 0 e.dst 7 = .ok (0x2000000, 0x1F, 1073741824) ∧ e.dst.toNat % 1073741824 + e.len ≤ 1073741824 ∧
       (cqS e).physKind 0x2000000 = .hbm ∧ (cqS e).badLine 0x2000000 e.len (leafKey 0x1F 0) = none ∧
       (cqS e).canonical = true) ∧
    (let e : CopyEntry := { entry .cpy (desc 0x2000000 64 64 4 0) (.flying 0) with toMove := [1] }
     let s := (cqS e).onCore fun c => { c with port := [(rowBank 1, 0), (rowBank 1, 0)] }
     (cqS e).core.cq = [e] ∧ e.len ≠ 0 ∧ (cqS e).core.unperformed e.after = false ∧ (cqS e).core.tileRows = [] ∧
       (cqS e).core.preloading = none ∧ (cqS e).core.port.count (rowBank 1, 0) < 2 ∧ s.core.cq = [e] ∧
       s.core.preloading = none ∧ 2 ≤ s.core.port.count (rowBank 1, 0)) ∧
    (cqS (entry .cpy 0 (.flying 9))).core.st = .active ∧ (entry .seqrun 0 .held).phase = .held ∧
    (let e := entry .seqrun 0 .landed
     e.phase = .landed ∧ e.arrive = none ∧ e.sig = none ∧ (cqS e).core.cqDone = [] ∧ (cqS e).core.wordSigs = [] ∧
       e.num = (cqS e).core.ctl + 1) := by decide +kernel

/-- A gang of two launches' states for the Enlarger: the segment of one word that multicasts one row of 64 bytes from
0x2000000 to row 8 of task 0. -/
def transfer : List Byte :=
  leBytes 8 0x2000000 ++ leBytes 2 0 ++ leBytes 2 8 ++ leBytes 4 0 ++ leBytes 2 0 ++ leBytes 2 1 ++ leBytes 4 0 ++ leBytes 8 0
def seg (read : Option (List Byte)) (data : List Byte) (count : Nat) : Segment :=
  { id := 0, serial := 0, index := 0, num := 1, pos := 0, first := 0, count := count, read := read, data := data }
/-- The same, handed over behind a store that a fence holds. -/
def early : Segment := { seg none [] 1 with after := 5 }
def enlS (g : Segment) : State :=
  { (memS.setReg Key.enlprog 0x100000).physWrite 0x100000 transfer 0 with
    launches := [{ plainLaunch with record := lrec [(0x08, 1), (0x0A, 1), (0x15, 1), (0x80, 1)] }], segs := [g] }

theorem wit_enlarger : ((enlS (seg none [] 1)).segs = [seg none [] 1] ∧ (enlS (seg none [] 1)).transferWord 0 = transfer ∧
      ((enlS (seg none [] 1)).launch 0).any (fun l => l.wordOk transfer) = true ∧
      (enlS (seg none [] 1)).segEarly (seg none [] 1) = false ∧ 64 * (bits (wordField transfer 8 2) 0 15 + 1) = 64 ∧
      (let s := enlS (seg none [] 1)
       let r := partsBy (fun a => s.sysXlate 0 a 6) 0 (64 / 65536 + 2) (BitVec.ofNat 64 (wordField transfer 0 8)) 64
       r.2 = none ∧ (∀ p ∈ r.1, s.physKind p.pa = .hbm) ∧ s.partsBytes 0 r.1 = (List.replicate 64 0, none))) ∧
    (let s := (enlS early).onCore fun c => { c with stores := [{ id := 3, left := 9, holds := [4] }] }
     s.segs = [early] ∧ s.segEarly early = true) ∧
    (let s := enlS (seg (some transfer) (List.replicate 64 3) 2)
     wordTag transfer = none ∧ receivers transfer = [tk.index] ∧ bits (wordField transfer 24 2) 15 1 = 0 ∧
       s.core.task = some tk ∧ s.core.st = .active ∧ s.core.port = [] ∧
       (s.launch 0).any (fun l => (List.range 1).all fun i => declared (l.mkTask 0 0) (wordField transfer 10 2 % 32768 + i)) =
         true) := by decide +kernel

/-! Clusters, power, heat, keys, lanes, patrol. -/

/-- The reset state with cluster 79 as given. -/
def clus (c : Cluster) : State := { State.reset with clusters := [(79, c)] }
/-- A task whose cluster is as given. -/
def clus0 (c : Cluster) : State := let s := placed id; { s with clusters := [(0, c)] }

theorem wit_clusters : 79 < 80 ∧ (4 : Word).toNat % 8 ≤ 4 ∧ 4 < (5 : Word).toNat % 8 ∧
    (1 ≤ (16 : Word).toNat / 16 % 32 ∧ (256 : Word).toNat / 16 % 32 ≤ 16) ∧
    ((clus { want := some 4 }).switchDue 79 = true ∧ ((clus { want := some 4 }).cluster 79).want = some 4) ∧
    ((clus0 { want := some 4 }).switchDue 0 = true ∧ (clus0 { want := some 4 }).core.id / 8 = 0 ∧
      (clus0 { want := some 4 }).core.task.isSome = true ∧
      (clus0 { want := some 4 }).core.st ≠ .captured ∧ (clus0 { want := some 4 }).core.st ≠ .held) ∧
    (((clus { wantThr := some 1, k := 16 }).cluster 79).wantThr = some 1 ∧ ((clus { wantThr := some 1, k := 16 }).cluster 79).k % 16 = 0 ∧
      (clus { wantThr := some 1, k := 16 }).detmHeld 79 = false) ∧
    (∀ x ∈ [true, false], (clus { wantWa := some x }).switchDue 79 = true ∧ ((clus { wantWa := some x }).cluster 79).want = none ∧
      ((clus { wantWa := some x }).cluster 79).wantWa = some x) := by decide +kernel

theorem wit_temperature : 89 < 90 ∧ State.reset.rfld (Key.temp 89) 16 1 = 0 ∧
    (BitVec.ofNat 16 (State.reset.rfld Key.tlimit 32 16)).toInt ≤ (1536#16).toInt ∧ (89 ∉ State.reset.tripped) ∧
    (BitVec.ofNat 16 (State.reset.rfld Key.tlimit 48 16)).toInt ≤ (1680#16).toInt ∧
    ((89 ∈ { State.reset with tripped := [89] }.tripped) ∧
      (1000#16).toInt < (BitVec.ofNat 16 (State.reset.rfld Key.tlimit 16 16)).toInt) := by decide +kernel

/-- The module after `n` samples of `uw` µW. -/
def sampled (n uw : Nat) : State := { State.reset with samples := List.replicate n uw }

theorem wit_power : 3600000000 < 1000 * 3600000 + 1 ∧
    ((sampled 2 3000000001).samples.length = 1 + 1 ∧ 3000000000 * (1 + 1) < (sampled 2 3000000001).samples.sum) ∧
    ((sampled 2 2900000000).samples.sum ≤ 3000000000 * (1 + 1) ∧ 2900000000 * (1 + 1) ≤ (sampled 2 2900000000).samples.sum) ∧
    (sampled 2 2899999999).samples.sum < 2900000000 * (1 + 1) ∧
    (let s := { State.reset.setReg Key.acctbase (BitVec.ofNat 64 (1 * 524288)) with heldCyc := [(65535, 7)] }
     s.heldCyc = [(65535, 7)] ∧ s.reg Key.acctbase = BitVec.ofNat 64 (1 * 524288) ∧ 1 * 524288 + 524288 ≤ 0x8000000000 ∧
       s.badLine (1 * 524288 + 8 * 65535) 8 0 = none ∧ s.canonical = true) ∧
    (79 < 80 ∧ (State.reset.cluster 79).ce < 65535 ∧
      ((State.reset.setRfld (Key.clctl 79) 16 16 1).cluster 79).ce + 1 = (State.reset.setRfld (Key.clctl 79) 16 16 1).rfld (Key.clctl 79) 16 16) := by
  decide +kernel

theorem wit_cluster_retirement : 79 < 80 ∧ State.reset.clusterEmpty 79 = true ∧ State.reset.rfld Key.clret 8 1 = 0 ∧
    (0xCF : Word).getLsbD 7 = true ∧ (0xCF : Word).toNat % 128 = 79 ∧
    (let s := State.reset.setReg Key.clret (BitVec.ofNat 64 (256 + 79))
     s.clusterEmpty 79 = true ∧ s.rfld Key.clret 8 1 = 1 ∧ s.rfld Key.clret 0 7 = 79 ∧ s.rfld (Key.spare (79 / 10)) 16 1 = 0 ∧
       s.slots = []) ∧
    (let s := (State.reset.setReg Key.clret (BitVec.ofNat 64 (256 + 79))).setReg (Key.spare (79 / 10)) 0x10000
     s.clusterEmpty 79 = true ∧ s.rfld Key.clret 8 1 = 1 ∧ s.rfld Key.clret 0 7 = 79 ∧ s.rfld (Key.spare (79 / 10)) 16 1 = 1 ∧
       s.slots = []) := by
  decide +kernel

/-- A key-wrap action under way on KEYID 5, without a session and in one. -/
def job5 : KeyJob := { kind := 0, index := 5, wrapped := [] }
def wrapS : State := { State.reset.setReg Key.kwctl 0x80000005 with kwJob := some job5 }
def wrapS1 : State := { wrapS with session := some (1, 7) }

theorem wit_keys : (State.reset.rfld Key.kwctl 31 1 = 0 ∧ (0x10005 : Word).getLsbD 16 = true) ∧ State.reset.kwJob = none ∧
    (wrapS.rfld Key.kwctl 31 1 = 1 ∧ wrapS.kwJob = some job5 ∧ wrapS.session = none) ∧
    (wrapS1.session = some (1, 7) ∧ wrapS1.kwJob = some job5 ∧ job5.kind = 0 ∧ job5.index < 65536) := by decide +kernel

theorem wit_shutter : (2 : Word).getLsbD 1 = true ∧ (State.reset.setReg Key.shctl 1).rfld Key.shctl 0 1 = 1 ∧
    State.reset.rfld Key.shctl 0 1 = 0 := by decide +kernel

theorem wit_lanes : (65#16).toNat % 128 < 66 ∧ State.reset.laneUp (63#16).toNat = true ∧
    ((0#16).toNat < (State.reset.setReg Key.eyeth 0x10000).rfld Key.eyeth 16 16) ∧
    (State.reset.rfld Key.hbmrep 31 1 = 0 ∧ (0x1000000 : Word).toNat / 2 ^ 24 % 4 = 1 ∧ (0x2000000 : Word).toNat / 2 ^ 24 % 4 = 2) ∧
    (∀ a ∈ [1, 2], { State.reset.setReg Key.hbmrep 0x80000000 with hbmAct := a, hbmSel := 0x3F }.rfld Key.hbmrep 31 1 = 1 ∧
      { State.reset.setReg Key.hbmrep 0x80000000 with hbmAct := a, hbmSel := 0x3F }.hbmAct = a ∧ State.reset.laneMap = [] ∧
      State.reset.spares = [] ∧
      { State.reset.setReg Key.hbmrep 0x80000000 with hbmAct := a, hbmSel := 0x3F }.hbmSel % 128 < 64) ∧
    (let s := { State.reset.setReg Key.hbmrep 0x80000000 with hbmAct := 1, hbmSel := 0x3F, spares := [64, 65] }
     s.rfld Key.hbmrep 31 1 = 1 ∧ s.hbmAct = 1 ∧ s.hbmSel / 128 * 128 + 64 ∈ s.spares ∧
       s.hbmSel / 128 * 128 + 65 ∈ s.spares) := by decide +kernel

/-- Line 5 uncorrectable, line 6 correctable. -/
def patrolS : State :=
  { State.reset.setReg Key.sqctl 0x10001 with lines := [(5, { bad := true }), (6, { soft := true })] }

theorem wit_patrol : patrolS.rfld Key.sqctl 16 1 = 1 ∧ patrolS.supply.hib = false ∧
    ({ patrolS with patrol := 5 }.patrol = 5 ∧ patrolS.lineInfo 5 = some { bad := true } ∧ patrolS.rfld Key.sqstat 24 24 < 16777215) ∧
    ({ patrolS with patrol := 6 }.patrol = 6 ∧ 6 < 0x1FFFFFFFF ∧ patrolS.lineInfo 6 = some { soft := true }) ∧
    patrolS.scrub = none ∧ { patrolS with supply := { hib := true } }.supply.hib = true ∧
    (∀ b ∈ [true, false], { patrolS with scrub := some { line := 6, data := [], stale := b } }.scrub =
      some { line := 6, data := [], stale := b } ∧ patrolS.rfld Key.sqstat 0 24 < 16777215) ∧
    (let s := { (State.reset.setReg Key.loupectl (BitVec.ofNat 64 (2 ^ 40 + 2 ^ 32 + 3))).setReg Key.loupebase
        (BitVec.ofNat 64 (64 * 16384)) with misses := [(9, 3)] }
     s.rfld Key.loupectl 40 1 = 1 ∧ s.misses = [(9, 3)] ∧ s.rfld Key.loupectl 0 32 ≤ 3 ∧ pagePinned s.pinnedPages 9 = false ∧
       s.supply.hib = false ∧ s.reg Key.loupebase = BitVec.ofNat 64 (64 * 16384) ∧ s.badLine (64 * 16384) 16 0 = none ∧ s.canonical = true) := by
  decide +kernel

/-! Registers, ports, windows, the clock. -/

theorem wit_registers : Writer.hp0 ≠ .mgmt ∧ 0xFFFF < 0x10000 ∧ State.reset.supply.hib = false ∧
    { State.reset with supply := { hib := true } }.supply.hib = true := by decide +kernel

theorem wit_bar_two : Writer.hp1 = (if (1#1) = 0 then Writer.hp0 else Writer.hp1) ∧ 31 < 32 ∧ State.reset.supply.hib = false ∧
    { State.reset with supply := { hib := true } }.supply.hib = true := by decide +kernel

theorem wit_ports : ((State.reset.reg (Key.b4base (1#1).toNat)).extractLsb' 36 16).toNat * 2 ^ 36 + (0xFF8#36).toNat = 0xFF8 ∧
    State.reset.supply.hib = false ∧ ([1] : List Byte) ≠ [] ∧ (8 : Nat) ≠ 0 ∧ 0xFF8 + 8 ≤ 0x8000000000 ∧ State.reset.badLine 0xFF8 8 0 = none ∧
    State.reset.canonical = true ∧
    (let s := State.reset.setReg (Key.b4base 0) (BitVec.ofNat 64 (7 * 2 ^ 36))
     0x8000000000 < ((s.reg (Key.b4base 0)).extractLsb' 36 16).toNat * 2 ^ 36 + (0xFFFFFFFF9#36).toNat + 8) := by decide +kernel

/-- Landing window 63: launch 0, task 0, rows 8 and 9, the commit row 9, timeline 4. -/
def windowS (b : Word) : State :=
  { (memS.setReg (Key.wina 63) 0).setReg (Key.winb 63) b with
    launches := [{ plainLaunch with record := lrec [(0x08, 1), (0x0A, 1), (0x15, 1), (0x80, 1)] }] }
def winb : Word := BitVec.ofNat 64 (8 + 1 * 2 ^ 15 + 4 * 2 ^ 32 + 2 ^ 61 + 2 ^ 63)

theorem wit_windows :
    ((windowS winb).reg (Key.winb (63#6).toNat) = winb ∧ ((windowS winb).launch 0).isSome = true ∧ winb.getLsbD 63 = true ∧
      winb.getLsbD 61 = true ∧ (windowS winb).supply.hib = false ∧ (windowS winb).core.task = some tk ∧
      ((windowS winb).launch 0).all (fun l => (windowS winb).recvAt l 0 == .core 0 (windowS winb).core.half) = true ∧
      (∀ off ∈ [0x3F, 0x40, 0x7F], off / 64 ≤ (winb.extractLsb' 15 10).toNat ∧
        ((windowS winb).launch 0).all (fun l => declared (l.mkTask 0 0) ((winb.extractLsb' 0 15).toNat + off / 64)) = true) ∧
      (0x7F#16).toNat / 64 = (winb.extractLsb' 15 10).toNat ∧ (0x3F#16).toNat / 64 ≠ (winb.extractLsb' 15 10).toNat) ∧
    ((0 : Word).getLsbD 63 = false ∧ (windowS 0).rfld (Key.winstat (63#6).toNat) 32 32 < 4294967295) := by decide +kernel

/-- The clock set to `t`, with source `src`. -/
def clockS (src t : Nat) : State := { State.reset.setReg Key.ptpctl (BitVec.ofNat 64 (4 + src)) with ptp := t }

theorem wit_clock : State.reset.rfld Key.ptpctl 2 1 = 0 ∧ (clockS 3 0).rfld Key.ptpctl 2 1 = 1 ∧
    ((clockS 3 999999000).rfld Key.ptpctl 0 2 = 3 ∧ (clockS 3 999999000).ptp ≤ 1 * 1000000000 ∧
      1 * 1000000000 ≤ (clockS 3 999999000).ptp + 1000) ∧
    ((clockS 2 5).rfld Key.ptpctl 2 1 = 1 ∧ (clockS 2 5).rfld Key.ptpctl 0 2 = (1#1).toNat + 1 ∧ (clockS 2 5).ptp ≤ (1005 : Word).toNat ∧
      (1005 : Word).toNat ≤ (clockS 2 5).ptp + 1000) ∧
    State.reset.rfld Key.ptpctl 0 2 ≠ (1#1).toNat + 1 := by decide +kernel

/-! The panel. -/

/-- Link 15 up, its next flit 7, with flits 3 and 4 kept and flit 3 replayed `n` times. -/
def linkS (n : Nat) : State :=
  { State.reset with links := [(15, { up := true, rxSeq := 7, replay := [(3, 0), (4, 0)], tries := [(3, n)], txSeq := 5 })] }

theorem wit_links : (let f : Flit := { link := 15, seq := 7, epoch := 0, ok := true }
      ((linkS 0).link f.link).up = true ∧ f.ok = true ∧ ((linkS 0).link f.link).rxLive.contains f.epoch = true ∧
        f.seq = ((linkS 0).link f.link).rxSeq) ∧
    (let f : Flit := { link := 15, seq := 7, epoch := 0, ok := false }
     f.ok = false ∧ ((linkS 0).link f.link).rxSeq ≤ f.seq) ∧
    Sparse.get 0 ((linkS 15).link 15).tries 3 < 16 ∧ 16 ≤ Sparse.get 0 ((linkS 16).link 15).tries 3 ∧
    (((linkS 0).link 15).txLive = [((linkS 0).link 15).txEpoch] ∧ ((linkS 0).link 15).rotate = 0 ∧
      ((linkS 0).link 15).rxWait = 0 ∧ ((linkS 0).link 15).resync = false ∧ ((linkS 0).link 15).asked = false) ∧
    (let s := (linkS 0).onLink 15 fun l => { l with asked := true, rxLive := [0, 1], rxWait := 1, txLive := [0, 1],
                                                    txEpoch := 1, replay := [(4, 0)] }
     (s.link 15).up = true ∧ (s.link 15).asked = true ∧ (s.link 15).rxSeq < 8 ∧ (s.link 15).rxWait = 1 ∧
       (s.link 15).rxLive = [0, 0 + 1] ∧ (s.link 15).txLive = [0, 0 + 1] ∧ (s.link 15).replay = [(4, 0)]) := by decide +kernel

theorem wit_incarnations : (State.reset.peer 63).inc ≠ 1 ∧ (State.reset.peer 63).inc = 0 ∧ (State.reset.peer 63).hib = false := by
  decide +kernel

/-- A requester, and requests of it. -/
def who3 : Requester := { module := 3, core := 17, slot := 0 }
def req (k : RemoteKind) : RemoteReq :=
  { who := who3, reqInc := 2, ownerInc := State.reset.inc, serial := 0x105, ackt := 0x104, keyid := 0, addr := 0x2000000, kind := k,
    order := 4, settled := 3 }
def proof3 (age : Nat) (p : Option Nat) : Proof :=
  { who := who3, serial := 0x105, status := .done, data := [], age := age, probing := p }
def ownerS (ps : List Proof) : State :=
  { State.reset with peers := [(3, { inc := 2, present := true, rxInc := 2, next := 4 })], ackts := [(who3, 0x104)], proofs := ps }

theorem wit_owner_requests :
    (State.reset.supply.hib = false ∧ State.reset.supply.safe = false ∧ (req (.load 8)).addr + 8 ≤ 0x8000000000 ∧
      State.reset.badLine (req (.load 8)).addr 8 0 = none ∧ InTurn (ownerS []) (req (.load 8)) ∧
      (req (.load 8)).ownerInc = (ownerS []).inc) ∧ { State.reset with supply := { hib := true } }.supply.hib = true ∧
    (let s := { ownerS [] with peers := [(3, { inc := 2, present := true, rxInc := 2, next := 2 })] }
     let q := { req (.load 8) with settled := 0 }
     (s.peer q.who.module).rxInc = q.reqInc ∧ (s.peer q.who.module).waiting = [] ∧
       max (s.peer q.who.module).next q.settled < q.order) ∧
    (let q := req (.store [1])
     let s := ownerS []
     InTurn s q ∧ q.reqInc = (s.peer q.who.module).inc ∧ (s.peer q.who.module).released = none ∧ s.acktOf q.who = some q.ackt ∧
       1 ≤ (q.serial - q.ackt).toNat ∧ (q.serial - q.ackt).toNat ≤ 1073741824 ∧ s.proofOf q.who q.serial = none ∧
       s.proofs.length < 32768 ∧ q.addr + 1 ≤ 0x8000000000 ∧ s.badLine q.addr 1 q.keyid = none ∧ s.canonical = true) ∧
    (ownerS [proof3 0 none]).proofOf who3 0x105 = some (proof3 0 none) := by
  unfold InTurn; decide +kernel

theorem wit_owner_proofs :
    ((ownerS [proof3 33000000 none]).proofs = [proof3 33000000 none] ∧
      ((ownerS [proof3 33000000 none]).peer who3.module).hib = false ∧ 33000000 ≤ (proof3 33000000 none).age) ∧
    ((proof3 0 (some 3300000000)).probing = some 3300000000) ∧
    ((0x105#32 - (proof3 0 (some 0)).serial).toNat < 2147483648 ∧ 2147483648 ≤ (0x104#32 - (proof3 0 (some 0)).serial).toNat) ∧
    (State.reset.supply.hib = false ∧ State.reset.ctxs = [] ∧
      { State.reset with rqTable := [(17 * 4096 + 0, 5, 4)] }.rqTable = [(who3.core * 4096 + who3.slot, 5, 4)]) ∧
    ((0xBF : Word).getLsbD 7 = true ∧ ((0xBF : Word).extractLsb' 0 6).toNat = 63 ∧
      ({ State.reset with peers := [(63, { hib := true })] }.peer 63).hib = true ∧ (State.reset.peer 63).hib = false) := by
  decide +kernel

/-- A remote request under way, for landing 7 or for none. -/
def rem (land : Option (Nat × Nat)) (age tries : Nat) (hib : Option Nat) : Remote :=
  { id := 5, module := 9, serial := none, ackt := 0, inc := 0, va := 0x4000, addr := 0, kind := .load 8, keyid := 0,
    land := land, age := age, tries := tries, hib := hib }
def waitL : Landing :=
  { id := 7, slot := 0, dst := .scalar 5, data := 0, wm := BitVec.allOnes 1024, left := 0, wait := none, awaits := [(5, 0)] }
def remS (r : Remote) : State := placed fun c => { c with remotes := [r], lands := if r.land.isSome then [waitL] else [] }

theorem wit_requester :
    (let r := rem (some (7, 0)) 0 1 none
     (remS r).core.remotes = [r] ∧ r.land = some (waitL.id, 0) ∧ (remS r).core.lands = [waitL] ∧ waitL.awaits = [(r.id, 0)] ∧
       waitL.data = 0) ∧
    (rem none 0 1 none).land = none ∧ (rem none 0 1 none).into = none ∧ (rem none 0 1 none).hib = none ∧ (remS (rem none 0 1 none)).core.st = .active ∧
    (let r := rem none 66000 7 none
     66000 ≤ r.age ∧ r.tries < 8 ∧ ((remS r).peer r.module).hib = false) ∧
    ((rem none 66000 8 none).tries = 8 ∧ 66000 ≤ (rem none 66000 8 none).age) ∧
    (rem none 0 1 (some 3300000000)).hib = some 3300000000 := by decide +kernel

/-- Tree entry 2: no children, deliver, local, parent 6. -/
def stream : TreeStream := { id := 4, entry := 2, sender := 6, lines := [(0x2000000, [1, 2])] }
def treeS : State := (State.reset.setReg Key.treebase 0x1000).physWrite 0x1020 (leBytes 8 0 ++ [3, 6] ++ leBytes 6 0) 0
def badTreeS : State := (State.reset.setReg Key.treebase 0x1000).physWrite 0x1020 (leBytes 8 0 ++ [3, 6] ++ leBytes 6 1) 0

theorem wit_trees : (treeS.treeEntry stream.entry.toNat = (0, 3, stream.sender, true) ∧ treeS.children 0 = [] ∧
      ([1, 2] : List Byte) ≠ [] ∧ 0x2000000 + 2 ≤ 0x8000000000 ∧ treeS.badLine 0x2000000 2 0 = none ∧
      treeS.canonical = true) ∧
    badTreeS.treeEntry stream.entry.toNat = (0, 3, stream.sender, false) ∧
    (({ id := 4, parent := 6, waits := [1] } : Tree).core = none ∧
      ({ id := 4, parent := 6, waits := [1] } : Tree).waits = [1] ∧ ({ id := 4, parent := 6, waits := [1, 2] } : Tree).waits = [1, 2]) := by
  decide +kernel

theorem wit_channels : (let s := memS.setReg Key.qbinda 0
      s.core.task = some tk ∧ s.core.st = .active ∧ s.reg Key.qbinda = BitVec.ofNat 64 (tk.serial.toNat * 2 ^ 32 + tk.index) ∧
        tk.index < 2 ^ 32 ∧ (s.core.fifo[((0x1F : Word).extractLsb' 0 4).toNat]).peer = none ∧
        (0x1F : Word).getLsbD 63 = false ∧ (0x800000000000001F : Word).getLsbD 63 = true) ∧
    (let s := memS fun c => { c with fifo := c.fifo.set 15 { peer := some (9, 2), inb := List.replicate 63 0, outb := [5], room := 3 } }
     s.core.st ≠ .free ∧ 0 < (s.core.fifo[(15#4).toNat]).room ∧ (s.core.fifo[(15#4).toNat]).peer = some (9, 2) ∧ (s.core.fifo[(15#4).toNat]).inb.length < 64 ∧ 9 ≠ s.pos ∧
        (s.core.fifo[(15#4).toNat]).outb = [5] ∧ s.core.fifoOf (9, 2) = some 15 ∧ s.others = []) ∧
    (let s := memS fun c => { c with fifo := c.fifo.set 15 { peer := some (9, 2), outb := [5] } }
     (s.core.fifo[(15#4).toNat]).room = 0 ∧ (s.core.fifo[(15#4).toNat]).outb = [5] ∧ 9 ≠ s.pos ∧ s.core.fifoOf (9, 2) = some 15) ∧
    64 ≤ ((fifoS (List.replicate 64 0) []).core.fifo[(15#4).toNat]).inb.length := by decide +kernel

/-! Hibernation. -/

/-- A state with the supply as given, core 0 as `f` makes it. -/
def supS (u : Supply) (f : Core → Core := id) : State := let s := placed f; { s with supply := u }
def safeS : Supply := { safe := true, shed := [0] }

theorem wit_warnings : (supS { hib := true }).supply.hib = true ∧
    (let s := placed id
     s.supply.hib = false ∧ s.others = [] ∧ s.core.st = .active ∧ s.core.task.isSome = true ∧ s.core.capReq = none ∧
       s.core.restoring = none ∧ s.core.staged = none ∧ s.handoffs = [] ∧ s.core.st ≠ .captured) ∧
    ((4 : Word).getLsbD 2 = true ∧ (3 : Word).getLsbD 2 = false) ∧
    (let s : State := { State.reset with hot := [(12, 0)], mcc := 3300000 }
     Sparse.find s.hot 12 = some 0 ∧ 0 + 3300000 ≤ s.mcc.toNat) ∧ Sparse.find State.reset.hot 12 = none ∧
    State.reset.rfld Key.fxctl 3 13 = 0 ∧
    (let s := ((placed id).setReg Key.fxstat 60).setRfld Key.fxstat 63 1 1
     s.supply.safe = false ∧ s.fit = true ∧ (59999 : BitVec 32).toNat < 1000 * s.rfld Key.fxstat 0 32) ∧
    (let s := (placed id).setReg Key.fxctl 2
     s.supply.hib = false ∧ s.rfld Key.fxctl 1 1 = 1 ∧ s.others = [] ∧ s.handoffs = [] ∧ s.core.st = .active ∧
       s.core.staged = none ∧ s.core.restoring = none) ∧
    (placed id).rfld Key.fxctl 1 1 = 0 := by decide +kernel

theorem wit_safelight : (placed id).mustHold (placed id).core = false ∧
    ((supS safeS).mustHold (supS safeS).core = true ∧ (supS safeS).core.st = .active ∧ (supS safeS).core.lands = [] ∧
      (supS safeS).core.remotes = [] ∧ (supS safeS).core.mq = []) ∧
    ((supS safeS).supply.safe = true ∧ (supS safeS).supply.hib = false ∧ (supS safeS).others = [] ∧ (supS safeS).core.st ≠ .held) ∧
    (let s := supS safeS fun c => { c with st := .held }
     s.core.st = .held ∧ s.core.task.isSome = true ∧ s.core.kill = none ∧ s.core.haltDrain = false ∧ s.core.lands = [] ∧
       s.core.remotes = [] ∧ s.core.reissue = []) := by decide +kernel

/-- A region half drained. -/
def region (cls : BitVec 8) : Region := { addr := 0x2000000, len := 131072, cls := cls, done := 65536 }
def drainS (r : List Region) (mj : Word) (ended : Bool) : State :=
  { (State.reset.setReg Key.fxarea 2).setReg Key.resmtr mj with
    supply := { hib := true, draining := true, regions := r, ended := ended } }

/-- A priority list of one entry, armed. -/
def listS (cls : Nat) : State :=
  let s := (State.reset.setReg Key.fxctl 9).physWrite 0 (leBytes 8 0x2000000 ++ leBytes 8 131072 ++ leBytes 16 cls) 0
  { s with supply := { hib := true } }

theorem wit_drain :
    (let s : State := { State.reset with supply := { hib := true } }
     s.supply.draining = false ∧ s.allCaptured = true ∧ s.rfld Key.fxctl 0 1 = 0 ∧ s.sheet.usable = false ∧
       { s with sheet := { valid := true } }.sheet.usable = true) ∧
    (∀ k ∈ [0, 8], (listS k).supply.draining = false ∧ (listS k).allCaptured = true ∧ (listS k).rfld Key.fxctl 0 1 = 1 ∧
      (listS k).sheet.usable = false ∧ (listS k).listRegions.length = 1 ∧ ∀ r ∈ (listS k).listRegions, r.class ≤ 1) ∧
    (∀ k ∈ [0, 8], let r := region (BitVec.ofNat 8 k)
     (drainS [r] 100000 false).supply.regions = [r] ∧ (drainS [r] 100000 false).supply.ended = false ∧ r.state = 0 ∧
       r.done < r.len ∧
       (drainS [r] 100000 false).supply.used + 65536 ≤ ((drainS [r] 100000 false).rfld Key.fxarea 0 12 - 1) * 1073741824 ∧
       (if r.class = 0 then 20000 else (drainS [r] 100000 false).rfld Key.fxthr 0 32) < (drainS [r] 100000 false).rfld Key.resmtr 0 32 ∧
       (drainS [r] 100000 false).supply.image = [] ∧ (drainS [r] 100000 false).canonical = true ∧
       ((drainS [r] 100000 false).lineInfo (0x2010000 / 64)).any (·.bad) = false ∧
       (drainS [r] 20000 false).rfld Key.resmtr 0 32 ≤ (if r.class = 0 then 20000 else (drainS [r] 20000 false).rfld Key.fxthr 0 32)) ∧
    (region 0).class = 0 ∧ (region 8).class ≠ 0 ∧
    ((drainS [] 0 false).supply.regions = [] ∧ (drainS [] 0 false).supply.ended = false) ∧
    ((drainS [] 0 true).supply.ended = true ∧ (drainS [] 0 true).supply.hib = true ∧
      (drainS [] 0 true).rfld Key.fxarea 0 12 ≠ 0 ∧ (drainS [] 0 true).sheet.usable = false ∧
      State.reset.rfld Key.fxarea 0 12 = 0) := by
  decide +kernel

/-- Reset pins of a good boot, and the boot at a stage, with the sheet as `f` makes it. -/
def pins (signed : Bool) : ResetPins :=
  { inc := 1, chout := 0, firmware := 0, unlock := false, signed := signed, damaged := [], ptp := some 20 }
def bootS (stage : Word) (p : ResetPins) (f : Sheet → Sheet) : State :=
  { (State.reset.setReg Key.modid 5).setReg Key.bootst stage with
    boot := some p, sheet := f { valid := true, pos := (State.reset.setReg Key.modid 5).pos, ptpw := some 10 } }

/-- The strapped position is free; of the state after reset the statement asks that it is below 64. -/
theorem wit_boot : (State.reset.setReg Key.modid 5).pos < 64 ∧ (pins true).firmware = 0 ∧ (pins true).lanes = [] ∧
    ({ pins true with firmware := 2 }.firmware ≠ 0) ∧ (BootPart.ready ≠ .reset ∧ State.reset.boot ≠ some (pins true)) ∧
    ([1, 2, 3].all fun n => let s := bootS (BitVec.ofNat 64 n) (pins true) id
      s.boot == some (pins true) && s.rfld Key.bootst 0 3 == n && decide (s.pos < 64)) = true ∧
    ((bootS 2 (pins true) fun h => { h with spent := true }).sheet.usable = false ∧
      (bootS 2 (pins true) id).reg Key.evbase = 0) := by decide +kernel

theorem wit_restore :
    (let s := bootS 2 (pins false) id
     s.boot = some (pins false) ∧ s.rfld Key.bootst 0 3 = 2 ∧ s.sheet.valid = true ∧ s.sheet.spent = false ∧
       s.reg Key.evbase = 0 ∧ (pins false).signed = false) ∧
    ((pins true).signed = true ∧ (bootS 2 (pins true) fun h => { h with version := 2 }).sheet.version ≠ 1 ∧
      (let s := bootS 2 (pins true) fun h => { h with pos := h.pos + 1 }
       s.sheet.pos ≠ s.pos)) ∧
    (let s := bootS 2 (pins true) id
     s.sheet.version = 1 ∧ s.sheet.pos = s.pos ∧ s.sheet.complete = true ∧ (pins true).damaged = [] ∧
       s.sheet.ptpw = some 10 ∧ (pins true).ptp = some 20 ∧ s.sheet.regs = [] ∧ s.sheet.regions = []) ∧
    (bootS 2 (pins true) fun h => { h with ptpw := none }).sheet.ptpw = none := by decide +kernel

/-- Group entry 0 of a collective: launch 0, module 9 a member, step 41; the check of the group `age` ticks old. -/
def groupS (flag : Byte) (age : Nat) : State :=
  { ((State.reset.setReg Key.modid 5).setReg Key.cgbase 0x1000).physWrite 0x1000
      (leBytes 4 0 ++ [flag] ++ leBytes 3 0 ++ leBytes 8 512 ++ leBytes 4 41) 0 with rejoin := [{ entry := 0, age := age }] }

theorem wit_rejoin : (∀ r ∈ (groupS 0x80 0).rejoin, r.entry ≠ 1) ∧
    ∀ age ∈ [3299999999, 3300000000], let s := groupS 0x80 age
      s.rejoin = [{ entry := 0, age := age }] ∧ s.slots = [] ∧ s.reg Key.evbase = 0 ∧
        s.launch (BitVec.ofNat 32 (s.groupOf 0).1) = none ∧ leNat (s.agentRead (s.groupAt 0 + 16) 4) = 41 := by decide +kernel

theorem wit_rejoin_members : (groupS 0x80 0).otherMembers 0 = [9] := by decide +kernel

theorem wit_announcement : State.reset.announced = [] ∧
    (let s := groupS 0x80 0
     s.announced = [] ∧ (s.groupOf 0).1 = (0 : BitVec 32).toNat ∧ bits (s.groupOf 0).2.2 9 1 = 1 ∧
       s.groupAt 0 + 28 ≤ 0x8000000000 ∧ s.badLine (s.groupAt 0 + 20) 8 0 = none ∧ s.canonical = true) := by decide +kernel

theorem wit_no_groups : State.reset.groups = [] := by decide +kernel

theorem wit_one_group : (groupS 0x80 0).groups = [0] := by decide +kernel
/-! Launches. -/

/-- A record of one task that passes every check: ENTRY 0x2000000, one DIE level of extent 1, 12,288 rows. -/
def goodRec : List Byte := lrec [(0x03, 2), (0x08, 1), (0x0A, 1), (0x15, 0x30), (0x80, 1), (0x84, 0x33)]

/-- Queue 63 served, its record read. -/
def queueS (bs : List Byte) : State :=
  { ((State.reset.setReg (Key.qctl 63) 0x81).setReg Key.cscount 640).setReg Key.bootst 4 with readRec := [(63, bs)] }

theorem wit_submission :
    (let s := queueS goodRec
     let l : Launch := { serial := s.nextSerial, queue := 63, record := goodRec, avail := s.available }
     ((16 : Word).toNat % 2 ^ 32 + 2 ^ 32 - s.rfld (Key.qhead (63#6).toNat) 0 32) % 2 ^ 32 ≤ 2 ^ s.rfld (Key.qring (63#6).toNat) 0 5 ∧
       2 ^ s.rfld (Key.qring (63#6).toNat) 0 5 <
         ((17 : Word).toNat % 2 ^ 32 + 2 ^ 32 - s.rfld (Key.qhead (63#6).toNat) 0 32) % 2 ^ 32 ∧
       s.queueServed (63#6).toNat = true ∧ s.readBusy = [] ∧ Sparse.find s.readRec (63#6).toNat = some goodRec ∧
       l.f 0x4C 4 = 0 ∧ s.launch s.nextSerial = none ∧ l.rejects none true = [] ∧ s.unplaceable l = false) ∧
    (let s := queueS (lrec [])
     let l : Launch := { serial := s.nextSerial, queue := 63, record := lrec [], avail := s.available }
     l.rejects none true ≠ [] ∧ l.f 0x60 8 = 0) ∧ Sparse.find State.reset.readRec 0 = none := by decide +kernel

/-- A task of a launch, with the launches given. -/
def launched (ls : List Launch) (f : Core → Core := id) : State := let s := memS f; { s with launches := ls }
def lone (p : Place) : Launch := { plainLaunch with record := goodRec, place := p }

/-- The record of a launch with a spill ring of four places at 0x2000000. -/
def spillRec : List Byte := lrec [(0x03, 2), (0x08, 1), (0x0A, 1), (0x15, 0x30), (0x4C, 4), (0x5B, 2), (0x80, 1), (0x84, 0x33)]

theorem wit_spawn : (let s := launched [lone .host]
     s.rdP hd.g = true ∧ s.mgmt = false ∧ (s.rdS 1).toNat % 256 = 0 ∧
       (s.reach (s.rdS 1) 256 4 false) = .ok [{ va := 0x2000000, pa := 0x2000000, n := 256, leaf := 0x1F }] ∧
       s.core.task = some tk ∧ s.launch tk.serial = some (lone .host) ∧ s.poolUsed false < 3840 ∧
       { s with nextSerial := 9 }.launch 9 = none ∧ s.core.fences = [] ∧ s.core.lands = [] ∧ s.core.stores = [] ∧
       (∀ y ∈ pieces 0 [{ va := 0x2000000, pa := 0x2000000, n := 256, leaf := 0x1F }], s.physKind y.pa = .hbm) ∧
       s.partsBytes (spawnInto 9) (pieces 0 [{ va := 0x2000000, pa := 0x2000000, n := 256, leaf := 0x1F }]) =
         (List.replicate 256 0, none)) ∧
    (let s := launched [lone .host] fun c => { c with fences := [fence6], remotes := [remote5], lands := [] }
     s.core.fences.any (fun f => f.kind != 1) = true ∧ s.core.holders true ≠ []) ∧
    (let s := launched (lone .host :: List.replicate 3840 { lone (.pool false) with serial := 1 })
     s.launch tk.serial = some (lone .host) ∧ 3840 ≤ s.poolUsed false ∧ (lone .host).f 0x4C 4 = 0) ∧
    (let p : Launch := { lone .host with record := spillRec }
     let s := { launched (p :: List.replicate 3840 { lone (.pool false) with serial := 1 }) with nextSerial := 9 }
     s.launch tk.serial = some p ∧ 3840 ≤ s.poolUsed false ∧ p.f 0x4C 4 ≠ 0 ∧ s.ringFree p p.spillTail = true ∧
       s.launch s.nextSerial = none) ∧
    (let p : Launch := { lone .host with record := spillRec }
     let x : SpawnRead := { id := 3, serial := 1, va := 0x2000000, pc := 0, parts := [pieceAt 0x2000000 256] }
     let ch : Launch := { lone .spilled with serial := 1, parent := some 0, unread := true, ringPos := 3 }
     let s := launched [p, ch] fun c => { c with spawns := [x] }
     s.core.spawnsDue = [x] ∧ s.launch tk.serial = some p ∧ s.launch x.serial = some ch ∧ ch.place = .spilled ∧
       p.record.length = 256 ∧ s.sysXlate p.context (BitVec.ofNat 64 (p.f 0x58 8 + 256 * ch.ringPos)) 1 =
         .ok (0x2000300, 0x1F, 1073741824) ∧
       s.physKind 0x2000300 = .hbm ∧ s.badLine 0x2000300 256 (leafKey 0x1F p.keyid) = none ∧ s.canonical = true) ∧
    (memS.rdS 2).toNat % 256 ≠ 0 ∧
    (let x : SpawnRead := { id := 3, serial := 1, va := 0x2000000, pc := 0, parts := [pieceAt 0x2000000 256] }
     let ch : Launch := { lone (.pool false) with serial := 1, parent := some 0, unread := true }
     let s := launched [lone .host, ch] fun c => { c with spawns := [x] }
     s.core.spawnsDue = [x] ∧ (∀ y ∈ x.parts, s.physKind y.pa = .hbm) ∧
       s.partsBytes (spawnInto x.serial) x.parts = (List.replicate 256 0, none) ∧ (List.replicate 256 (0 : Byte)).length = 256 ∧
       s.core.task = some tk ∧ s.launch tk.serial = some (lone .host) ∧ s.launch x.serial = some ch ∧
       ch.place ≠ .spilled) := by decide +kernel

/-- A child of launch 0, its position spilled, whose parent waits for it on timeline 9. -/
def child (p : Place) (blocked : Nat) : Launch :=
  { serial := 1, queue := 0, parent := some 0, place := p, phase := .accepted, blocked := blocked, avail := List.range 640,
    record := lrec [(0x03, 2), (0x08, 1), (0x0A, 1), (0x15, 0x30), (0x4A, 9), (0x4B, 0x80), (0x80, 1), (0x84, 0x33)] }

theorem wit_pool :
    (let s := launched [lone .host, child .spilled 0]
     s.launch 1 = some (child .spilled 0) ∧ (child .spilled 0).unread = false ∧ s.poolUsed false < 3840 ∧
       s.oldestSpilled (child .spilled 0) = true) ∧
    (let s := launched [lone .host, child .spilled 0] fun c => { c with st := .waiting, waitOn := [64 + 9] }
     s.poolUsed true < 256 ∧ s.parentBlocked (child .spilled 0) = true) ∧
    ((child .host 0).place ≠ .spilled ∧ (child .host 329999).blocked < 330000) ∧
    (let s := (launched [lone .host, child (.pool true) 330000] fun c => { c with st := .waiting, waitOn := [64] }).setReg
        Key.cscount 641
     s.launch 1 = some (child (.pool true) 330000) ∧ 330000 ≤ (child (.pool true) 330000).blocked ∧ s.others = [] ∧
       s.core.capReq = none ∧ s.core.staged = none ∧ s.core.task = some tk ∧
       s.core.id ∈ s.permitted (child (.pool true) 330000)
         ((child (.pool true) 330000).next.headD (child (.pool true) 330000).cursor) ∧
       s.launch tk.serial = some (lone .host) ∧ (lone .host).gangLevel = none ∧ s.freeSlots = [640]) := by decide +kernel

/-- A launch with one task to bind; the same accepted by a module whose die 0 is shed. -/
def fresh : Launch := { lone .host with live := [], avail := List.range 640 }
def offerS : State :=
  { ((State.reset.setReg (Key.qctl 0) 0x81).setReg Key.cscount 640).setReg Key.bootst 4 with
    launches := [{ fresh with avail := (List.range 640).drop 80 }], supply := { shed := [0] } }
def pick0 : Pick := { serial := 0, tasks := [(0, 80)], slots := [], stage := false }

theorem wit_selection : offerS.supply.hib = false ∧ offerS.offers = [(0, pick0, 0)] ∧ offerS.handoffs = [] ∧
    ((∃ x ∈ pick0.tasks, x.2 / 80 = 1) ∧ ∀ x ∈ pick0.tasks, 1 ≤ x.2 / 80) ∧ (∀ x ∈ pick0.tasks, x.2 / 80 ≠ 7) ∧
    (∃ x ∈ pick0.tasks, x.2 / 80 < 7) := by decide +kernel

/-- The selection handed over, to core 0. -/
def handS : State :=
  { State.reset with launches := [{ fresh with live := [0] }], handoffs := [{ serial := 0, tasks := [(0, 0)], left := 0 }] }
def boundS (n left : Nat) : State :=
  launched [{ lone .host with record := lrec [(0x03, 2), (0x08, 1), (0x0A, 1), (0x15, 0x30), (0x6B, 3), (0x7A, BitVec.ofNat 8 n), (0x80, 1), (0x84, 0x33)] }]
    fun c => { c with st := .bound, task := some { tk with preloaded := n == 0, left := left } }

theorem wit_binding :
    (handS.launch 0 = some { fresh with live := [0] } ∧ handS.core.id = 0 ∧ ({ fresh with live := [0] } : Launch).stopped = false ∧
      handS.reg Key.rqbase = 0 ∧ handS.clusterUp (handS.core.id / 8) = true ∧ handS.sheet.usable = false ∧
      (handS.setReg Key.clret 256).clusterUp (handS.core.id / 8) = false) ∧
    ((boundS 2 5).core.task = some { tk with preloaded := false, left := 5 } ∧ (boundS 2 5).core.st = .bound ∧
      (boundS 2 5).core.remotes = [] ∧ { tk with preloaded := false, left := 5 }.landed = [] ∧
      { tk with preloaded := false, left := 5 }.toFill = [] ∧
      { tk with preloaded := false, toFill := [3] }.toFill ≠ [] ∧
      (∀ l ∈ ((boundS 2 5).launch 0).toList, l.f 0x7A 2 = 2 ∧
        (∀ p ∈ ((boundS 2 5).vparts l.context l.keyid 6 (l.preload 0).1 (l.preload 0).2).1, (boundS 2 5).physKind p.pa = .hbm) ∧
        (boundS 2 5).vread l.context l.keyid 0 (l.preload 0).1 (l.preload 0).2 = (List.replicate 128 0, none)) ∧
      ((boundS 2 5).launch 0).isSome = true) ∧
    ((boundS 0 0).core.task = some tk ∧ tk.preloaded = true ∧ tk.left = 0 ∧ (boundS 0 0).core.st = .bound) := by decide +kernel

/-- A drained task of a launch with the live INDEXes given. -/
def drained (live : List Nat) : State :=
  launched [{ lone .host with live := live, cursor := 1 }] fun c => { c with st := .draining }

theorem wit_retirement :
    (let s := drained [0, 1]
     s.core.task = some tk ∧ s.core.drained = true ∧ s.core.status = none ∧ s.core.staged = none ∧
       s.launch tk.serial = some { lone .host with live := [0, 1], cursor := 1 } ∧ s.reg Key.rqbase = 0 ∧
       s.core.fifo.toList.all (fun f => f.peer.isNone) = true ∧ 1 ≠ tk.index ∧ 1 ∈ ({ lone .host with live := [0, 1] } : Launch).live) ∧
    (let l : Launch := { lone .host with live := [0], cursor := 1 }
     (drained [0]).launches = [l] ∧ l.live = [tk.index] ∧ l.back = [] ∧ l.past ≤ l.cursor ∧ l.f 0x60 8 = 0) ∧
    memS.core.drained = false := by decide +kernel

/-- No level of that launch has SSTEP. -/
theorem wit_retirement_sstep : ∀ n, ({ lone .host with live := [0], cursor := 1 } : Launch).sstep n = false := by
  intro n
  by_cases h : n < 16
  · have : ∀ k, k < 16 → ({ lone .host with live := [0], cursor := 1 } : Launch).sstep k = false := by decide +kernel
    exact this n h
  · have hl : ({ lone .host with live := [0], cursor := 1 } : Launch).record.length = 256 := by decide +kernel
    have hd : ({ lone .host with live := [0], cursor := 1 } : Launch).record.drop (0x80 + 8 * n) = [] :=
      List.drop_eq_nil_of_le (by omega)
    simp only [Launch.sstep, Launch.level, Launch.f, hd]
    decide

theorem wit_cancel :
    (let s : State := { State.reset with launches := [fresh] }
     s.launch ((0 : Word).setWidth 32) = some fresh ∧ fresh.phase = .accepted ∧ fresh.live = [] ∧ fresh.bound = 0 ∧
       fresh.rqKept = [] ∧ fresh.f 0x60 8 = 0 ∧ fresh.parent = none ∧ fresh.queue.toNat < 32) ∧
    (32 ≤ ({ fresh with queue := 63 } : Launch).queue.toNat ∧ ({ fresh with parent := some 3 } : Launch).parent ≠ none) ∧
    (lone .host).live ≠ [] ∧
    (let s := launched [lone .host]
     s.others = [] ∧ s.slots = [] ∧ s.handoffs = [] ∧ s.core.task = some tk ∧ tk.serial = 0 ∧ s.core.st = .active ∧ s.core.staged = none ∧
       s.launch 0 = some (lone .host)) := by decide +kernel

/-! Captures and responses. -/

/-- A capture of kind `k` into slot 640, requested of a task in the state given. -/
def capS (k : CapKind) (st : CtxSt) : State := memS fun c => { c with capReq := some (k, 640), st := st }
def saved : Saved := { core := (memS id).core, kind := .switch, tiles := [], ready := true }

theorem wit_captures :
    (let s := (launched [lone .host]).setReg Key.cscount 641
     s.others = [] ∧ (1 : Word).getLsbD 2 = false ∧ s.reg Key.preqa = BitVec.ofNat 64 (tk.serial.toNat * 2 ^ 32 + tk.index) ∧
       s.core.task = some tk ∧ s.core.st = .active ∧ s.core.capReq = none ∧ s.launch tk.serial = some (lone .host) ∧
       (lone .host).gangLevel = none ∧ (lone .host).live = [tk.index] ∧ s.freeSlots = [640] ∧ (1 : Word).toNat % 4 = 1 ∧
       (2 : Word).toNat % 4 = 2) ∧
    (State.reset.reg Key.evbase = 0 ∧ State.reset.launches = []) ∧
    ((capS .preempt .active).core.capReq = some (.preempt, 640) ∧ (capS .preempt .active).core.st = .active ∧
      (capS .preempt .active).core.staged = none ∧ (capS .preempt .active).core.lands = [] ∧
      (capS .preempt .active).core.remotes = [] ∧ (capS .preempt .active).core.mq = []) ∧
    ((capS .switch .captured).core.capReq = some (.switch, 640) ∧ (capS .switch .captured).core.task = some tk ∧
      (capS .switch .captured).core.st = .captured ∧ (capS .switch .captured).core.cq = [] ∧
      (capS .switch .captured).core.lands = [] ∧ (capS .switch .captured).core.spawns = [] ∧
      (capS .switch .captured).core.wordSigs = [] ∧ (capS .switch .captured).core.stores = [] ∧
      (capS .switch .captured).core.kill = none ∧
      (capS .switch .captured).reg Key.rqbase = 0 ∧ (capS .switch .captured).reg Key.evbase = 0) := by decide +kernel

theorem wit_resume :
    (let v : Word := BitVec.ofNat 64 (640 * 4096 + 3)
     let s : State := { State.reset with slots := [(640, saved)], sealed := [State.reset.slotLine 640] }
     (v.extractLsb' 12 12).toNat = 640 ∧ v.toNat % 4 = 3 ∧ Sparse.find s.slots 640 = some saved ∧ saved.kind = .switch ∧
       saved.sheet = false ∧ saved.asked = false ∧ s.slotIntact 640 = true ∧
       ({ s with sealed := [] } : State).slotIntact 640 = false ∧
       Sparse.find State.reset.slots 640 = none) ∧
    (let s : State := let u := memS fun c => { c with restoring := some 640 }; { u with slots := [(640, saved)] }
     s.core.restoring = some 640 ∧ Sparse.find s.slots 640 = some saved ∧ s.core.lands = [] ∧ s.core.remotes = [] ∧
       s.core.reissue = [] ∧ s.landMarks = [] ∧ saved.sheet = false ∧ s.reg Key.rqbase = 0 ∧ s.core.haltDrain = false ∧ s.core.id < 640 ∧ s.core.resumeM0 = none) ∧
    (memS fun c => { c with resumeM0 := some 7 }).core.resumeM0 = some 7 := by decide +kernel

theorem wit_responses :
    (let h : PageHold := { detail := 0x40, va := 0x40000000, kind := 0 }
     let s := memS fun c => { c with pf := some h }
     ((2048 : Word).extractLsb' 0 10).toNat = s.core.id ∧ (2048 : Word).getLsbD 10 = false ∧ s.core.pf = some h ∧
       (2048 : Word).toNat / 2048 % 4 = 1 ∧ (4096 : Word).toNat / 2048 % 4 = 2) ∧
    (let h : PageHold := { detail := 0x40, va := 0x40000000, kind := 0, failed := true }
     let s := memS fun c => { c with pf := some h }
     s.core.pf = some h ∧ h.failed = true ∧ s.core.kill = none ∧ s.core.pend = [] ∧ s.core.reissue = [] ∧ s.mgmt = false) ∧
    (let e := entry .cpy 0 (.paged 0x40000000 0x40)
     (cqS e).core.cq = [e] ∧ e.phase = .paged 0x40000000 0x40 ∧ (3072 : Word).getLsbD 10 = true ∧ (cqS e).core.st = .active) ∧
    (State.reset.inval = none ∧ { State.reset with inval := some 5 }.inval ≠ none ∧ State.reset.held = []) ∧
    (let s := { memS with inval := some 5 }
     s.reg Key.evbase = 0 ∧ ∀ c ∈ s.cores ++ s.slots.map (fun p => p.2.core), s.invalAwaits c = false) ∧
    (let p : Posted := { id := 3, left := 9, holds := [4], act := .store (pieceAt 0x2000000 1) [7] }
     let s := ({ memS (fun c => { c with stores := [p] }) with inval := some 5 }.setReg Key.tlbinvb (BitVec.ofNat 64 (2 ^ 33))).setReg
       Key.tlbinva 0x2000000
     (∃ c ∈ s.cores ++ s.slots.map (fun p => p.2.core), s.invalAwaits c = true) ∧
       (let u : State := { s with core := State.reset.core, slots := [(640, { saved with core := s.core })] }
        ∃ c ∈ u.cores ++ u.slots.map (fun p => p.2.core), u.invalAwaits c = true)) ∧
    (let e : Event := { kind := 3 }
     let s : State := { State.reset.setReg Key.evctl 0 with held := [e] }
     s.held = [e] ∧ s.reg Key.evprod = s.reg Key.evcons ∧ 4096 % 32 = 0 ∧ s.rfld Key.evctl 0 5 = 0 ∧
       4096 + 32 ≤ 0x8000000000 ∧ s.badLine 4096 32 0 = none ∧ s.canonical = true ∧ s.rfld Key.evprod 0 32 < 4294967295) := by
  decide +kernel

/-! The machine. -/

/-- A task about to issue a bundle of one word in slot k. -/
def issuing (k w : Nat) : State := State.reset.place (bundleBytes k w)

theorem wit_step_runs :
    (let s := issuing 0 0x00A05123
     let t := s.tickCtr
     let w := t.noteFetch.resumeFbase.issueState
     let i : Instr := .movi { h := hd, rd := 5, imm := 0x123 }
     let u := after (exec i { w with slot := 0 })
     s.halted = false ∧ s.due = [] ∧ s.phase = .issue ∧ Calm t ∧ t.fetch = .ok (bundleBytes 0 0x00A05123) ∧
       t.noteFetch.judgeWords (bundleWords (bundleBytes 0 0x00A05123)) = none ∧
       slotsOf (bundleWords (bundleBytes 0 0x00A05123)) = [(0, i)] ∧ went (exec i { w with slot := 0 }) = true ∧
       w.crowded [(0, i, u)] = false ∧ u.core.note.stops = false) := by
  unfold Calm; decide +kernel

/-- The same with TRAP, in S1, which takes the trap. -/
theorem wit_step_traps :
    (let t := (issuing 1 0x01440007).tickCtr
     let w := t.noteFetch.resumeFbase.issueState
     let i : Instr := .trap { h := hd, imm := 7 }
     let u := after (exec i { w with slot := 1 })
     Calm t ∧ t.noteFetch.judgeWords (bundleWords (bundleBytes 1 0x01440007)) = none ∧
       slotsOf (bundleWords (bundleBytes 1 0x01440007)) = [(1, i)] ∧ w.crowded [(1, i, u)] = false ∧
       u.core.note = .trap false) := by
  unfold Calm; decide +kernel

theorem wit_step_other :
    (let x : Input := { row := .ppsPulse }
     State.reset.halted = false ∧ State.reset.due = [] ∧ State.reset.phase = .tick ∧
      { State.reset with inputs := [x] }.inputs = x :: [] ∧ x.bare = none ∧ hostRow x.row = false ∧ State.reset.landWait = [] ∧
      State.reset.supply.hib = false ∧ barZero x.row = false ∧ barZero (.ptpset 0) = true) ∧
    (hostRow (.bar4Access 1 0 (.read 8)) = true ∧
      { State.reset with landWait := [{ row := .landingWindowWrite 0 63 0 [1] }] }.landWait ≠ []) ∧
    (let w := fun (f : Core → Core) => (windowS winb).tickCtr.onCore f
     (w id).windowOk 0 63 0x40 [] = false ∧ (w id).windowOk 0 63 0x3F (List.replicate 65 1) = true ∧
       (w id).windowRows 63 0x3F 65 = some (0, 2, 8, 2) ∧
       (w fun c => { c with port := List.replicate 2 (rowBank 8, 0) }).windowRows 63 0x3F 65 = some (0, 2, 8, 0) ∧
       (w fun c => { c with port := List.replicate 2 (rowBank 9, 0) }).windowRows 63 0x3F 65 = some (0, 2, 8, 1) ∧
       (rowsTouched 0x3F 65).length = 2 ∧ rowsTouched 0x3F 65 ≠ []) ∧
    (let x : Input := { row := .bar4Access 1 0 (.read 8), bare := some 1 }
     (State.reset.tickCtr.ideNeeded 1 = false ∧ (State.reset.setReg Key.ptpctl1 0x80).tickCtr.ideNeeded 1 = true) ∧
       x.bare = some 1) ∧
    (decodeWord (slotCls 7) 0x00107212).isSome = true ∧ 7 < 8 ∧
    { State.reset with phase := .copy }.phase = .copy ∧
    (let s : State := let u := cqS (entry .cpy (desc 0x2000000 0 0 4 0) (.flying 0)); { u with phase := .copy }
     s.tickCtr.copyEnds = true) ∧
    (let s : State := let u := cqS (entry .cpy (desc 0x2000000 0 64 4 0) .waiting); { u with phase := .copy }
     s.tickCtr.copyEnds = false ∧ s.tickCtr.copyStarts = true) ∧
    (let s : State := let u := cqS { entry .cpy (desc 0x2000000 0 64 4 0) .waiting with num := 1 }
                      { u with phase := .copy }
     (s.tickCtr.core.firstCopy.any s.tickCtr.startsBefore) = false) ∧
    { State.reset with halted := true, inputs := [{ row := .moduleReset ⟨pins true, .reset⟩ }] }.halted = true ∧
    (let s := { State.reset with halted := true, supply := { down := true } }
     s.inputs = [] ∧ s.supply.down = true ∧ s.supply.lost = false) := by
  decide +kernel

/-- An item of the module, one of core 639, and a part of a boot that no reset has begun, which is no row. -/
theorem wit_step_due : { State.reset with due := [(none, .limiterFallCheck)] }.due = (none, .limiterFallCheck) :: [] ∧
    IsRow none .limiterFallCheck .limiterFallCheck ∧
    { State.reset with due := [(some 639, .storeAck 3)] }.due = (some 639, .storeAck 3) :: [] ∧
    IsRow none (.storeAck 3) (.storeAck 3) ∧ ∀ i, ¬IsRow State.reset.boot (.moduleReset .trained) i := by
  refine ⟨rfl, rfl, rfl, rfl, ?_⟩
  rintro i ⟨p, h, -⟩
  cases h

/-- One step of the reset state goes on, and leaves memory canonical. -/
theorem wit_invariant : State.reset.canonical = true ∧ State.reset.clocked = true ∧
    went (step (issuing 0 0x00A05123)) = true ∧ (issuing 0 0x00A05123).canonical = true := by
  decide +kernel

/-- Well-formed instructions of each class, for the round trip. -/
theorem wit_round_trip : (Instr.add { h := hd, rd := 63, ra := 63, rb := 63 }).cls = some .s ∧
    (Instr.add { h := hd, rd := 63, ra := 63, rb := 63 }).wf = true ∧ (Instr.vadd (vop 2 2 15 31 31 31)).wf = true ∧
    (Instr.vadd (vop 2 2 15 31 31 31)).cls = some .v ∧ (Instr.mma mma1).cls = some .x ∧ (Instr.mma mma1).wf = true ∧
    (Instr.fence { h := hd, scope := 6, kind := 3 }).cls = some .m ∧ (Instr.fence { h := hd, scope := 6, kind := 3 }).wf = true := by
  decide

/-- An arrival of a member whose ABAR names barrier 9; one whose ABAR is off. -/
theorem wit_arrivals :
    (let s : State := let u := tcore { Regs.reset with p := 1, abar := 0x89 }; { u with launches := [gangLaunch], barriers := [bar9 2 0] }
     s.core.iss.abar.getLsbD 7 = true ∧ s.core.task = some tk ∧ s.core.iss.abar.setWidth 5 = 9#5 ∧
       s.barrier (s.core.iss.abar.setWidth 5) = some (bar9 2 0) ∧ (bar9 2 0).broken = false) ∧
    memS.core.iss.abar.getLsbD 7 = false := by decide +kernel

/-! Numbers. -/

/-- The first row of R97's table, and the row of FE4M3, which has no infinity. -/
def row32 : Row97 := ⟨fp32, 32, 8, 23, 127, (2 - 2 ^ (-23 : Int)) * 2 ^ 127, 0x7F7FFFFF, 0x7F800000, 0x7FC00000⟩
def row8 : Row97 := ⟨fe4m3, 8, 4, 3, 7, 448, 0x7E, 0x7F, 0x7F⟩

theorem wit_rows : row32 ∈ table97 ∧ row8 ∈ table97 ∧ (row32.f = fp32 ∨ row32.f = bf16 ∨ row32.f = fp16) :=
  ⟨List.mem_cons_self, by simp [table97, row8], Or.inl rfl⟩

/-- The greatest subnormal, the smallest and the greatest finite value, the infinity and a NaN of FP32; FE4M3's NaN. -/
theorem wit_formats : (0x807FFFFF = row32.signed true 0x7FFFFF ∧ 0x7FFFFF < 2 ^ (row32.width - 1) ∧ 0x7FFFFF / 2 ^ row32.fb = 0) ∧
    (0 < 0x800000 / 2 ^ row32.fb ∧ 0 < 0x7F7FFFFF / 2 ^ row32.fb ∧ 0x7F7FFFFF ≤ row32.maxE) ∧
    (0x7F800000 = row32.infE ∧ row32.infE ≠ row32.nanE) ∧ (row32.maxE < 0x7FFFFFFF ∧ 0x7FFFFFFF ≠ row32.infE) ∧
    (row8.maxE < 0x7F ∧ row8.infE = row8.nanE) := by decide +kernel

theorem wit_operands : (0 < 1 ∧ 1 < 2 ^ row32.fb) ∧ (2 ^ row32.fb ≤ 0x800000 ∧ 0x800000 < 2 ^ (row32.width - 1)) := by
  decide +kernel

/-- Widening of a finite value, an infinity and a NaN; a narrowing pair; the most negative byte. -/
theorem wit_conversions : (((3, 5) : BitVec 3 × BitVec 3) ∈ widening ∧ 0x7FC0 < 2 ^ (fmtT 3).width ∧
      (fmtT 3).dec 0x3F80 = .fin false 128 (-7) ∧ (fmtT 3).dec 0x7F80 = .inf false ∧ (fmtT 3).dec 0x7FC0 = .nan) ∧
    (3 ≤ (5 : BitVec 3).toNat ∧ 3 ≤ (3 : BitVec 3).toNat ∧ ((5, 3) : BitVec 3 × BitVec 3) ∉ widening) ∧
    ((2 : BitVec 3).toNat ≤ 2 ∧ (0x80 : Nat) = ((-128 : Int) % 2 ^ 8).toNat ∧ (-2 : Int) ^ (8 - 1) ≤ -128) := by decide +kernel

theorem wit_stochastic : row8.f ≠ fp32 ∧ op32 3 0x7FC00000 = .nan ∧ op32 3 0x7F800000 = .inf false ∧
    op32 3 0 = .fin false 0 (-149) ∧ op32 3 0x3F804000 = .fin false 8404992 (-23) := by decide +kernel

theorem wit_trees_and_maxima : 2 ≤ [1, 2, 3].length ∧ 2 * 0 + 1 < [1, 2, 3].length ∧ [1, 2, 3].length % 2 = 1 ∧
    val true 1 0 < val false 1 0 := by
  refine ⟨by decide, by decide, by decide, ?_⟩
  norm_num [val]

/-- FP32's 1, 1/2 and 1/4 as operands: an integer that is a power of two, a half and a quarter. -/
theorem wit_special_values : 0x3F800000 < 2 ^ row32.width ∧
    (row32.f.operand true 0x3F800000 = .fin false 8388608 (-23) ∧ val false 8388608 (-23) = (1 : Int) ∧
      val false 8388608 (-23) = 2 ^ (0 : Int) ∧ 1 - (row32.bias : Int) ≤ 1 ∧ (1 : Int) ≤ row32.bias) ∧
    (row32.f.operand true 0x3F000000 = .fin false 8388608 (-24) ∧ val false 8388608 (-24) = (0 : Int) + 1 / 2) ∧
    (row32.f.operand true 0x3E800000 = .fin false 8388608 (-25) ∧ val false 8388608 (-25) = (0 : Int) / 2 + 1 / 4) := by
  refine ⟨by decide +kernel, ⟨by decide +kernel, ?_, ?_, by decide +kernel, by decide +kernel⟩, ⟨by decide +kernel, ?_⟩,
    by decide +kernel, ?_⟩ <;> norm_num [val, zpow_neg]

/-! Loops, bundles, barriers. -/

/-- Three loops that end at one bundle: loop 0 outside with three passes left, loops 1 and 2 in their last. -/
def nested (n : BitVec 32) : Vector Lc 4 :=
  #v[{ count := n, start := 0x1000000, stop := 0x1000040 }, { count := 1, start := 0x1000000, stop := 0x1000040 },
    { count := 1, start := 0x1000020, stop := 0x1000040 }, { count := 2, start := 0, stop := 0x2000000 }]
def nestedS : State := placed fun c => { c with pc := 0x1000040 }

theorem wit_nested_loops : nestedS.core.note = .none ∧
    (EndsHere nestedS (nested 3) 0 ∧ (nested 3)[0].count ≠ 1 ∧
      ∀ j : Fin 4, EndsHere nestedS (nested 3) j → Inside (nested 3) j 0 → (nested 3)[j].count = 1) ∧
    (EndsHere nestedS (nested 3) 1 ∧ Inside (nested 3) 1 0 ∧ Inside (nested 3) 2 0 ∧ ¬EndsHere nestedS (nested 3) 3) ∧
    ∀ j : Fin 4, EndsHere nestedS (nested 1) j → (nested 1)[j].count = 1 := by
  unfold EndsHere Inside; decide +kernel

/-- Bundles that offend under conditions of the table, and the empty one, which is legal. -/
theorem wit_illegal_conditions : judgeBundle true false false (List.replicate 8 0) = none ∧
    (∀ x ∈ [(2, [(0, 0x00680000)]), (3, [(0, 0x60000000 ||| 0x00A05123)]), (6, [(2, 0x80000000)]),
        (7, [(0, 0x00A05123), (1, 0x00A05123)])],
      (judgeBundle true false true (x.2.foldl (fun l p => l.set p.1 p.2) (List.replicate 8 0))).map Prod.fst = some x.1) ∧
    (∀ x ∈ [(1, [(0, 0x017C0000)]), (4, [(6, 0x01006704)]), (5, [(5, 0x01000CF6)]),
        (8, [(2, 0x23A81022), (3, 0x23A81423), (4, 0x23A81843)])],
      (judgeBundle true true false (x.2.foldl (fun l p => l.set p.1 p.2) (List.replicate 8 0))).map Prod.fst = some x.1) := by
  decide +kernel

theorem wit_last_arrival : barrierOf (member [bar9 5 0]) 9 (bar9 5 0) ∧ (member [bar9 5 0]).core.orphan = [] ∧
    (member [bar9 5 0]).core.arr[9] = none ∧ (bar9 5 0).broken = false ∧ (bar9 5 0).arrived + 1 = (bar9 5 0).e ∧
    ((member []).barrier 9 = none ∧ (member []).core.orphan = [] ∧ (member []).mgmt = false) := by
  unfold barrierOf; decide +kernel

/-! Matrix checks and cells. -/

/-- The FT entry of INT8 by a GQ operand (B format 7) under groups of 32, its side table at row n. -/
def ftGq (n : Nat) : BitVec 32 := BitVec.ofNat 32 (5 + 16 * 7 + 1024 + 4096 * n)
/-- The task of `matrixS` with FT entry e and the descriptor x in s1. -/
def formatS (e : BitVec 32) (x : Nat) : State :=
  matrixS fun c => { c with iss := { c.iss.setS 1 (BitVec.ofNat 64 x) with ft := Vector.replicate 16 e } }
def mmaU : MmaOp := { mma1 with sa := false, sb := false }

/-- A full queue, FT entries by number and by loop counter, and each check in its order. -/
theorem wit_matrix_checks : (matrixS fun c => { c with mq := List.replicate 32 zero1 }).core.mq.length = 32 ∧
    matrixS.core.iss.ftsel.getLsbD 2 = false ∧
    (let s := matrixS fun c => { c with iss := { c.iss with ftsel := 5 } }
     s.core.iss.ftsel.getLsbD 2 = true ∧ ((1 : Fin 4) : Nat) = (s.core.iss.ftsel.extractLsb' 0 2).toNat ∧
       ((0 : Fin 16) : Nat) = s.core.iss.lc[(1 : Fin 4)].count.toNat % 16) ∧
    -- K = 8 does not divide by 32; K = 32 does, with its side table at the last two rows, and one row past
    ((formatS (ftGq 0) (12288 * 2 ^ 15)).ftInUse = ftGq 0 ∧ depth 5 * (0 + 1) % (16 * 2 ^ 1) ≠ 0 ∧
      depth 5 * (3 + 1) % (16 * 2 ^ 1) = 0 ∧ 24574 + 2 * (32 / (16 * 2 ^ 1)) ≤ 24576 ∧
      24576 < 24575 + 2 * (32 / (16 * 2 ^ 1))) ∧
    -- A rows 12286 to 12289 pass row 12287; B rows from 12287
    (12288 < 12286 + 32 * 8 * codeBits 5 / 512 ∧ 12287 < 12288 ∧ 24576 < 24573 + 32 * 8 * codeBits 5 / 512) ∧
    (undeclared matrixS ((List.range 4).map (fun i => 0 + i) ++ (List.range 4).map fun i => 12288 + i) = none ∧
      undeclared (matrixS fun c => { c with task := c.task.map fun k => { k with scratch := 2 } })
        ((List.range 4).map fun i => 0 + i) = some 2) := by
  decide +kernel

theorem wit_admits : Admits 5 5 1 0 mma1.ss mma1.sa mma1.sb ∧ ¬Admits 5 5 0 0 mma1.ss mma1.sa mma1.sb ∧
    Admits 5 7 0 1 mmaU.ss mmaU.sa mmaU.sb := by simp [Admits, mma1, mmaU]

/-- What the tile transfers refuse: s4's reserved bit, rows past the last, an undeclared row, and MDRAIN's fields. -/
theorem wit_transfer_checks : matrixS.core.tilePort = 0 ∧ matrixS.core.tileBusy (127#7).toNat = 0 ∧
    (matrixS.rdS 4).extractLsb' 15 49 ≠ 0 ∧ (24576 < 24513 + 64 ∧ (3 : BitVec 2) = 3) ∧
    ((matrixS.rdS 2).extractLsb' 15 49 = 0 ∧ 0 + 64 ≤ 24576 ∧
      undeclared (matrixS fun c => { c with task := c.task.map fun k => { k with scratch := 2 } })
        ((List.range 64).map fun i => 0 + i) = some 2) ∧
    (6 ∈ [6, 7, 8] ∧ 11 ≤ 11 ∧ (matrixS.tile 127).acc = 0 ∧ 4 ≤ 4 ∧ 24576 < 24561 + 2 * codeBits 5 ∧ 24576 ≤ 24573 + 3) ∧
    (¬(matrixS.rdS 3).extractLsb' 50 14 ≠ 0 ∧ ((matrixS.rdS 3).extractLsb' 46 4).toNat = 5 ∧
      undeclared matrixS ((List.range (2 * codeBits 5)).map fun i => 0 + i) = none) ∧
    (matrixS.core.mq.length < 32 ∧ matrixS.core.comp = none ∧
      (matrixS fun c => { c with comp := some g1 }).core.comp = some g1 ∧ (g1.ft.extractLsb' 0 4).toNat = 5 ∧
      (g1.ft.extractLsb' 4 4).toNat = 5 ∧ ((5, 7) : Nat × Nat) ∉ [(5, 5), (6, 6)]) := by decide +kernel

/-- The pairs of the floating cells and of the integer ones. -/
theorem wit_cells : (∀ x ∈ [(5, 5), (6, 6), (0, 0), (4, 3), (1, 7), (1, 8), (5, 7), (5, 8)], (pairOf x.1 x.2).isSome = true) ∧
    ((ftInt 1).extractLsb' 8 2 ≠ 2 ∧ (ftInt 2).extractLsb' 8 2 = 2) ∧
    (g1.ft.extractLsb' 0 4).toNat = 5 ∧ (∀ f ∈ [5, 9, 10], codeBits f = [8, 16, 32].getD (f / 4 - 1) 32 ∨ f = 10) := by
  decide +kernel

/-- Of a unit's terms: a NaN; infinities of one sign and of both; zeros of both signs; and 1 + 2^-1, whose emax is 0. -/
theorem wit_block_alignment : fp32.operand false 0x7FC00000 = .nan ∧
    (fp32.operand false 0xFF800000 = .inf true ∧ Machine.Num.nan ∉ [Machine.Num.inf true, .fin false 1 0] ∧
      Machine.Num.inf false ∉ [Machine.Num.inf true, .fin false 1 0]) ∧
    (Machine.Num.inf false ∈ [Machine.Num.inf true, .inf false] ∧ Machine.Num.inf true ∈ [Machine.Num.inf true, .inf false]) ∧
    ((fp32.operand true 0x80000000).isZero = true ∧ (fp32.operand true 0x80000000).isNeg = true) ∧
    |value (.fin false 1 0)| < 2 ^ ((0 : Int) + 1) ∧ (2 : ℚ) ^ (0 : Int) ≤ |value (.fin false 1 0)| := by
  refine ⟨by decide +kernel, ⟨by decide +kernel, by decide, by decide⟩, by decide, by decide +kernel, ?_, ?_⟩ <;>
    norm_num [value, val]

/-- Cells of MDRAIN: an FP32 NaN, infinity and number, and an INT32 with a multiplier and a shift. -/
theorem wit_drain_cells : fp32.dec 0x7FC00000 = .nan ∧ fp32.dec 0xFF800000 = .inf true ∧
    fp32.dec 0x3F800000 = .fin false 8388608 (-23) ∧ (1 : BitVec 2) ≠ 0 ∧
    (3 * 2 ^ 64 + 4 * 2 ^ 96) / 2 ^ (64 * 1) % 2 ^ 32 = 3 ∧ (3 * 2 ^ 64 + 4 * 2 ^ 96) / 2 ^ (64 * 1 + 32) % 2 ^ 6 = 4 := by
  decide +kernel

/-- An MRSUM that has read its block. -/
theorem wit_mrsum_completes :
    (let e : MEntry := { idx := 0, op := .mrsum g1 2 true false, tile := 3, fresh := false, running := true, done := 1 }
     (queued e).core.mq = [e] ∧ e.done = g1.kb + 1 ∧ (queued e).core.mqDid = false ∧ e.sig = none ∧ e.arrive = none ∧
       e.bad = none) := by decide +kernel

/-- −0 and +0, −1 and 1, and a number and itself. -/
theorem wit_comparisons : Machine.Num.lt (.fin true 1 0) (.fin false 1 0) = true ∧
    (Machine.Num.eq (.fin false 1 1) (.fin false 2 0) = true ∧ (Machine.Num.fin false 1 1).isZero = false) := by decide

/-! Fences, FIFOs, copies. -/

/-- An unanswered load of another module's memory before a release at PANEL scope, and that release at its time-out. -/
def remoteL : Remote := { remote5 with kind := .load 8 }
theorem wit_releases :
    (let s := memS fun c => { c with remotes := [remoteL] }
     OthersSettled s ∧ s.core.lands = [] ∧ s.core.stores = [] ∧ s.core.spawns = [] ∧ s.core.remotes = [remoteL] ∧
       remoteL.kind = .load 8 ∧ remoteL.into = none ∧ 5 ≤ (5 : BitVec 3).toNat) ∧
    (let f : Fence := { fence6 with kind := 1, order := true }
     let s := memS fun c => { c with fences := [f], remotes := [remote5] }
     s.core.fences = [f] ∧ f.order = true ∧ f.remotes = [remote5.id] ∧ 660000 ≤ f.age) := by
  unfold OthersSettled; decide +kernel

/-- A FIFO to channel 2 of module 5, whose peer is gone. -/
theorem wit_remote_fifo :
    (let s := memS fun c => { c with fifo := c.fifo.set 15 { peer := some (5, 2), inb := [7], gone := true } }
     (s.core.fifo[(15#4).toNat]).peer = some (5, 2) ∧ (s.core.fifo[(15#4).toNat]).err = false ∧ 5 ≠ s.pos ∧
       (s.core.fifo[(15#4).toNat]).inb = [7] ∧ (s.newWords 15).1 ≤ ([] : List Word).length ∧
       (s.core.fifo[(15#4).toNat]).gone = true) := by decide +kernel

/-! Registers and ports. -/

/-- Bounds of the limited fields, a window on and off, and a ring on and off. -/
theorem wit_register_fields : ((4096 : Word).extractLsb' 0 13).toNat ≤ 4096 ∧ 4096 < ((4097 : Word).extractLsb' 0 13).toNat ∧
    ((windowS winb).reg (0x13008 + 32 * 63)).getLsbD 63 = true ∧ (State.reset.reg (0x13008 + 32 * 63)).getLsbD 63 = false ∧
    ((State.reset.setReg (0x11000 + 8 * 63) 0x80).reg (0x11000 + 8 * 63)).getLsbD 7 = true ∧
    (State.reset.reg (0x11000 + 8 * 63)).getLsbD 7 = false ∧
    (State.reset.setReg 0x10108 0x80).ideNeeded 1 = true ∧ State.reset.ideNeeded 1 = false := by decide +kernel

/-- A load that the owner has performed, and that comes again. -/
theorem wit_answer_again :
    (let q := req (.load 8)
     let s := { ownerS [] with peers := [(3, { inc := 2, present := true, rxInc := 2, next := 5, loads := [(4, .done, [1])] })] }
     InTurn s q ∧ (s.peer q.who.module).loads = [(4, .done, [1])] ∧ q.order = 4 ∧ q.settled ≤ q.order) ∧
    (∀ x ∈ ((ownerS []).peer 3).loads, x.1 ≠ (req (.load 8)).order) := by
  unfold InTurn; decide +kernel

/-! Records. -/

/-- A record with a level word that names a reserved bit and an unused level that is not zero; its lowest byte is 0x84; with
a completion record at 0x2000040. -/
def badRec : List Byte :=
  lrec [(0x03, 2), (0x08, 1), (0x0A, 1), (0x15, 0x30), (0x60, 0x40), (0x63, 2), (0x80, 1), (0x84, 0xBB), (0x88, 1)]

theorem wit_record_checks : badRec.length = 256 ∧
    (let t := { memS with readRec := [(63, badRec)], nextSerial := 9 }
     let l : Launch := { serial := 9, queue := 63, record := badRec, phase := .accepted, avail := t.available }
     Sparse.find t.readRec (63#6).toNat = some badRec ∧ t.launch t.nextSerial = none ∧ l.f 0x4C 4 = 0 ∧
       least (l.rejects none true) = some 0x84 ∧ l.f 0x60 8 = 0x2000040 ∧ l.f 0x60 8 % 64 = 0 ∧
       t.sysXlate l.context (BitVec.ofNat 64 (l.f 0x60 8)) 1 = .ok (0x2000040, 0x1F, 1073741824) ∧
       t.physKind 0x2000040 = .hbm ∧ t.canonical = true) := by decide +kernel
end Sys2Proof.Tests
end

section
/-! PROOFS. Every row of the opcode table answers with a next state and keeps memory in its canonical form, and so
does every step while a clock runs (R5, R8, R15, R355). A lemma `f_mem` says that `f` leaves memory alone, `f_wf` that
it keeps memory canonical, `f_keeps` that the state that `f` answers with when it stops a slot does so, and `f_goesOn`
both facts of an outcome. -/

namespace Sys2Proof.Machine

/-! What an outcome owes: it is a next state, and memory stays canonical. -/

/-- Memory of `t` is in its canonical form if memory of `s` is. -/
def Keeps (s t : State) : Prop := Memory.wf s.mem = true → Memory.wf t.mem = true

/-- The outcome is a next state, and it keeps memory canonical. Both facts are proved together, row by row: what a row
does to memory is said of the state it answers with. -/
def GoesOn (s : State) (o : Out) : Prop := ∃ t, o = .next t ∧ Keeps s t

theorem GoesOn.next {s t : State} (h : Keeps s t) : GoesOn s (.next t) := ⟨t, rfl, h⟩

theorem GoesOn.keeps {s t : State} {o : Out} (ho : GoesOn s o) (h : o = .next t) : Keeps s t := by
  obtain ⟨u, rfl, hk⟩ := ho
  cases h
  exact hk

/-- Steps in sequence. -/
theorem GoesOn.of_keeps {s t : State} {o : Out} (h : Keeps s t) (ho : GoesOn t o) : GoesOn s o := by
  obtain ⟨u, hu, hk⟩ := ho
  exact ⟨u, hu, fun hs => hk (h hs)⟩

theorem GoesOn.onNext {s : State} {o : Out} {f : State → Out} (ho : GoesOn s o)
    (hf : ∀ t, Keeps s t → GoesOn s (f t)) : GoesOn s (onNext o f) := by
  obtain ⟨t, rfl, ht⟩ := ho
  exact hf t ht

/-! Folds over states, and states with a further result. -/

@[simp] theorem foldl_mem {α : Type} (f : State → α → State) (hf : ∀ t a, (f t a).mem = t.mem)
    (l : List α) (s : State) : (l.foldl f s).mem = s.mem :=
  foldl_keeps (fun t : State => t.mem = s.mem) f (fun t a h => (hf t a).trans h) l s rfl

theorem foldl_fst_mem {α β : Type} (f : State × β → α → State × β) (hf : ∀ t a, (f t a).1.mem = t.1.mem)
    (l : List α) (s : State × β) : (l.foldl f s).1.mem = s.1.mem :=
  foldl_keeps (fun t : State × β => t.1.mem = s.1.mem) f (fun t a h => (hf t a).trans h) l s rfl

@[simp] theorem foldl_wf {α : Type} (f : State → α → State)
    (hf : ∀ t a, Memory.wf t.mem = true → Memory.wf (f t a).mem = true) (l : List α) (s : State)
    (h : Memory.wf s.mem = true) : Memory.wf (l.foldl f s).mem = true :=
  foldl_keeps (fun t : State => Memory.wf t.mem = true) f hf l s h

theorem foldl_fst_wf {α β : Type} (f : State × β → α → State × β)
    (hf : ∀ t a, Memory.wf t.1.mem = true → Memory.wf (f t a).1.mem = true) (l : List α) (s : State × β)
    (h : Memory.wf s.1.mem = true) : Memory.wf (l.foldl f s).1.mem = true :=
  foldl_keeps (fun t : State × β => Memory.wf t.1.mem = true) f hf l s h

/-- A fold that keeps its choice or takes the element it stands at answers with an element of the list. -/
theorem foldl_choice_mem {α : Type} (f : Option α → α → Option α)
    (hf : ∀ m x y, f m x = some y → y = x ∨ m = some y) (l : List α) (m : Option α) (y : α)
    (h : l.foldl f m = some y) : m = some y ∨ y ∈ l := by
  induction l generalizing m with
  | nil => exact .inl h
  | cons x l ih =>
    rcases ih _ h with h | h
    · rcases hf _ _ _ h with rfl | h
      · exact .inr List.mem_cons_self
      · exact .inl h
    · exact .inr (List.mem_cons_of_mem _ h)

theorem wf_ite {c : Prop} [Decidable c] {s t : State} (hs : Memory.wf s.mem = true) (ht : Memory.wf t.mem = true) :
    Memory.wf (if c then s else t).mem = true := by
  split
  · exact hs
  · exact ht

/-! Memory without some of its bytes. -/

theorem Sparse.rising_none_of_some {α : Type} (l : List (Nat × α)) (lo : Nat)
    (h : Sparse.rising (some lo) l = true) : Sparse.rising none l = true := by
  cases l with
  | nil => rfl
  | cons q l => exact (Bool.and_eq_true_iff.1 h).2

theorem Sparse.rising_some_filter {α : Type} (p : Nat × α → Bool) (l : List (Nat × α)) (lo : Nat)
    (h : Sparse.rising (some lo) l = true) : Sparse.rising (some lo) (l.filter p) = true := by
  induction l generalizing lo with
  | nil => rfl
  | cons q l ih =>
    obtain ⟨hlt, hl⟩ := Bool.and_eq_true_iff.1 h
    rw [List.filter_cons]
    split
    · exact Bool.and_eq_true_iff.2 ⟨hlt, ih _ hl⟩
    · exact ih _ (Sparse.rising_mono l lo q.1 (of_decide_eq_true hlt).le hl)

theorem Sparse.rising_filter {α : Type} (p : Nat × α → Bool) (l : List (Nat × α))
    (h : Sparse.rising none l = true) : Sparse.rising none (l.filter p) = true := by
  induction l with
  | nil => rfl
  | cons q l ih =>
    rw [List.filter_cons]
    split
    · exact Sparse.rising_some_filter p l q.1 h
    · exact ih (Sparse.rising_none_of_some l q.1 h)

theorem Memory.wf_filter (p : Host.Cell → Bool) (m : List Host.Cell) (h : Memory.wf m = true) :
    Memory.wf (m.filter p) = true := by
  obtain ⟨hr, ha⟩ := Bool.and_eq_true_iff.1 h
  refine Bool.and_eq_true_iff.2 ⟨Sparse.rising_filter p m hr, ?_⟩
  exact List.all_eq_true.2 fun c hc => List.all_eq_true.1 ha c (List.mem_of_mem_filter hc)

@[simp] theorem outsideHbm_wf (m : List Host.Cell) (h : Memory.wf m = true) : Memory.wf (outsideHbm m) = true :=
  Memory.wf_filter _ m h

/-! The register file of the module, and the small operations. -/

@[simp] theorem State.setRfld_mem (s : State) (key lo w v : Nat) : (s.setRfld key lo w v).mem = s.mem := rfl

@[simp] theorem State.onCluster_mem (s : State) (c : Nat) (f : Cluster → Cluster) :
    (s.onCluster c f).mem = s.mem := rfl

@[simp] theorem State.onArray_mem (s : State) (core : Nat) (f : ArraySt → ArraySt) :
    (s.onArray core f).mem = s.mem := rfl

@[simp] theorem State.putRq_wf (s : State) (n k : Nat) (next ackt : BitVec 32) (st : Nat)
    (h : Memory.wf s.mem = true) :
    Memory.wf (s.putRq n k next ackt st).mem = true := by
  unfold State.putRq
  split_ifs <;> simp [h, State.agentWrite_wf]

@[simp] theorem State.writeRq_wf (s : State) (c : Core) (st : Nat) (h : Memory.wf s.mem = true) :
    Memory.wf (s.writeRq c st).mem = true := by
  simp [State.writeRq, h]

@[simp] theorem State.dropHandOffs_mem (s : State) (serial : BitVec 32) (on : HandOff → Bool) :
    (s.dropHandOffs serial on).mem = s.mem := rfl

@[simp] theorem State.setBarrier_mem (s : State) (x : Barrier) : (s.setBarrier x).mem = s.mem := rfl

@[simp] theorem State.release_mem (s : State) (serial : BitVec 32) (b : BitVec 5) (dom : Nat) :
    (s.release serial b dom).mem = s.mem := rfl

@[simp] theorem State.drainSaved_mem (s : State) : s.drainSaved.mem = s.mem := by
  unfold State.drainSaved
  split_ifs <;> simp

@[simp] theorem State.trapEarly_wf (s : State) (t : Trap) (h : Memory.wf s.mem = true) :
    Memory.wf (s.trapEarly t).mem = true := by
  simp [State.trapEarly, h, State.trapSlot_wf]

@[simp] theorem State.trapReturn_mem (s : State) : s.trapReturn.mem = s.mem := rfl

@[simp] theorem State.freeze_mem (s : State) : s.freeze.mem = s.mem := rfl

@[simp] theorem State.hold_mem (s : State) : s.hold.mem = s.mem := rfl

theorem runSlot_goesOn (g : Hdr) (s : State) (f : State → State) (hf : Keeps s (f s)) : GoesOn s (runSlot g s f) := by
  refine ⟨_, rfl, fun h => ?_⟩
  rw [State.arriveNow_mem]
  split
  · exact hf h
  · exact h

theorem runChecked_goesOn (g : Hdr) (s : State) (chk : State → Option State) (f : State → State)
    (hc : ∀ t, chk s = some t → Keeps s t) (hf : Keeps s (f s)) : GoesOn s (runChecked g s chk f) := by
  unfold runChecked
  split
  · split
    · exact ⟨_, rfl, hc _ ‹_›⟩
    · exact ⟨_, rfl, fun h => by simpa using hf h⟩
  · exact ⟨_, rfl, fun h => by simpa using h⟩

/-! Rows and tiles, and the caches, which hold marks of lines and no bytes. -/

@[simp] theorem State.setTile_mem (s : State) (n : Nat) (t : Tile) : (s.setTile n t).mem = s.mem := rfl

@[simp] theorem State.evictLine_mem (s : State) (line : Nat) : (s.evictLine line).mem = s.mem := rfl

@[simp] theorem State.llcPut_mem (s : State) (line : Nat) (dirty : Bool) : (s.llcPut line dirty).mem = s.mem := by
  unfold State.llcPut
  dsimp only
  repeat' split
  all_goals rfl

@[simp] theorem State.loupeMiss_mem (s : State) (line : Nat) : (s.loupeMiss line).mem = s.mem := by
  unfold State.loupeMiss
  split_ifs <;> rfl

@[simp] theorem State.sliceLook_mem (s : State) (line : Nat) (dirty : Bool) :
    (s.sliceLook line dirty).mem = s.mem := by
  unfold State.sliceLook
  repeat' split
  all_goals simp

@[simp] theorem State.sliceRead_mem (s : State) (line : Nat) : (s.sliceRead line).mem = s.mem := by
  unfold State.sliceRead
  dsimp only
  repeat' split
  all_goals simp

@[simp] theorem State.fillLine_mem (s : State) (line : Nat) (dirty : Bool) : (s.fillLine line dirty).mem = s.mem := by
  unfold State.fillLine
  dsimp only
  repeat' split
  all_goals simp

@[simp] theorem State.homeLine_mem (s : State) (die line : Nat) : (s.homeLine die line).mem = s.mem := by
  unfold State.homeLine
  repeat' split
  all_goals rfl

@[simp] theorem State.home_mem (s : State) (die : Option Nat) (p : Piece) : (s.home die p).mem = s.mem := by
  unfold State.home
  split
  · split_ifs <;> simp
  · refine foldl_mem _ (fun t l => ?_) _ _
    split_ifs <;> simp

@[simp] theorem State.logBad_mem (s : State) (pa n : Nat) (key : BitVec 16) : (s.logBad pa n key).mem = s.mem := by
  unfold State.logBad
  split <;> rfl

@[simp] theorem State.fill_mem (s : State) (p : Piece) (dirty : Bool) : (s.fill p dirty).mem = s.mem := by
  unfold State.fill
  split_ifs <;> simp

@[simp] theorem State.engineRead_mem (s : State) (die : Option Nat) (p : Piece) :
    (s.engineRead die p).mem = s.mem := by
  unfold State.engineRead
  split_ifs <;> simp

@[simp] theorem State.agentLook_mem (s : State) (pa n : Nat) : (s.agentLook pa n).mem = s.mem := by
  simp [State.agentLook]

@[simp] theorem State.engineWrote_mem (s : State) (die : Option Nat) (p : Piece) :
    (s.engineWrote die p).mem = s.mem := by
  unfold State.engineWrote
  split_ifs <;> simp

/-! Translation and owner tags (spec 8). -/

@[simp] theorem State.setUtlb_mem (s : State) (l : List TlbEntry) : (s.setUtlb l).mem = s.mem := rfl

@[simp] theorem State.cacheDeep_mem (s : State) (e : TlbEntry) : (s.cacheDeep e).mem = s.mem := by
  unfold State.cacheDeep
  split_ifs <;> rfl

@[simp] theorem State.cacheLeaf_mem (s : State) (ctx : BitVec 16) (va leaf : Word) (size : Nat) :
    (s.cacheLeaf ctx va leaf size).mem = s.mem := by
  unfold State.cacheLeaf
  dsimp only
  split_ifs <;> simp

@[simp] theorem State.walked_mem (s : State) (ctx : BitVec 16) (va : Word) : (s.walked ctx va).mem = s.mem := by
  unfold State.walked
  refine foldl_mem _ (fun t a => ?_) _ _
  split_ifs <;> simp

@[simp] theorem State.fillLeaf_mem (s : State) (ctx : BitVec 16) (va : Word) (kind : BitVec 3) :
    (s.fillLeaf ctx va kind).mem = s.mem := by
  unfold State.fillLeaf
  repeat' split
  all_goals simp

theorem execPageWalk_goesOn (va : Word) (kind : BitVec 3) (s : State) : GoesOn s (execPageWalk va kind s) := by
  refine .next fun h => ?_
  split <;> simp [h]

@[simp] theorem State.engineWalked_mem (s : State) (ctx : BitVec 16) (va : Word) (kind : BitVec 3) :
    (s.engineWalked ctx va kind).mem = s.mem := by
  unfold State.engineWalked
  split <;> simp

@[simp] theorem State.grantTag_mem (s : State) (store : Bool) (granule : Nat) :
    (s.grantTag store granule).mem = s.mem := by
  unfold State.grantTag
  repeat' split
  all_goals rfl

@[simp] theorem State.checkTags_mem (s : State) (granules : List Nat) (store : Bool) :
    (s.checkTags granules store).mem = s.mem := by
  unfold State.checkTags
  dsimp only
  split_ifs <;> simp

theorem execOwnerTagCheck_goesOn (granules : List Nat) (store : Bool) (s : State) :
    GoesOn s (execOwnerTagCheck granules store s) := .next fun h => by simpa using h

@[simp] theorem State.freezeFor_mem (s : State) (w : Want) : (s.freezeFor w).mem = s.mem := rfl

theorem State.reach_keeps (s t : State) (va : Word) (n : Nat) (kind : BitVec 3) (plain : Bool)
    (h : s.reach va n kind plain = .error t) : Keeps s t := by
  intro hs
  unfold State.reach at h
  split at h
  · cases h; exact State.trapSlot_wf _ _ hs
  · split at h
    · cases h; exact State.trapSlot_wf _ _ hs
    · cases h; simpa using hs
    · split at h
      · cases h
      · split at h <;> cases h
        · exact State.trapSlot_wf _ _ hs
        · simpa using hs

/-! Loads, stores and atomics at their pieces, fences, and landings. -/

@[simp] theorem State.onLanding_mem (s : State) (id : Nat) (f : Landing → Landing) :
    (s.onLanding id f).mem = s.mem := rfl

@[simp] theorem State.onPeer_mem (s : State) (j : Nat) (f : Peer → Peer) : (s.onPeer j f).mem = s.mem := rfl

@[simp] theorem State.request_mem (s : State) (j addr : Nat) (va : Word) (keyid : BitVec 16) (kind : RemoteKind)
    (land : Option (Nat × Nat)) (into : Option Nat) :
    (s.request j addr va keyid kind land into).mem = s.mem := by
  simp [State.request]

@[simp] theorem State.sendRemote_mem (s : State) (p : Piece) (kind : RemoteKind) (land : Option (Nat × Nat))
    (into : Option Nat) :
    (s.sendRemote p kind land into).mem = s.mem := by
  unfold State.sendRemote
  split <;> simp

@[simp] theorem State.doStore_wf (s : State) (p : Piece) (data : List Byte) (h : Memory.wf s.mem = true) :
    Memory.wf (s.doStore p data).mem = true := by
  unfold State.doStore
  split <;> simp [h, State.physWrite_wf]

@[simp] theorem State.doAtomic_wf (s : State) (op : AtomicOp) (p : Piece) (b d : Word) (nbv : BitVec 8)
    (ret : Option Nat) (pc : Word) (h : Memory.wf s.mem = true) :
    Memory.wf (s.doAtomic op p b d nbv ret pc).mem = true := by
  unfold State.doAtomic
  dsimp only
  repeat' split
  all_goals simp [h, State.physWrite_wf]

@[simp] theorem State.doLoad_mem (s : State) (id : Nat) (parts : List Piece) : (s.doLoad id parts).mem = s.mem := by
  unfold State.doLoad
  simp only [State.onLanding_mem]
  refine foldl_fst_mem _ (fun a p => ?_) _ _
  split <;> simp

@[simp] theorem State.acquire_mem (s : State) : s.acquire.mem = s.mem := by
  unfold State.acquire
  dsimp only
  split_ifs <;> rfl

@[simp] theorem State.scModule_mem (s : State) (own : Option Nat) : (s.scModule own).mem = s.mem := by
  unfold State.scModule
  dsimp only
  split_ifs <;> rfl

@[simp] theorem State.issueStore_wf (s : State) (p : Piece) (data : List Byte) (h : Memory.wf s.mem = true) :
    Memory.wf (s.issueStore p data).mem = true := by
  unfold State.issueStore
  split <;> dsimp only <;> split_ifs <;> simp [h]

@[simp] theorem State.issueRelaxed_wf (s : State) (op : AtomicOp) (p : Piece) (b d : Word) (nbv : BitVec 8)
    (ret : Option Nat) (h : Memory.wf s.mem = true) :
    Memory.wf (s.issueRelaxed op p b d nbv ret).mem = true := by
  unfold State.issueRelaxed
  dsimp only
  repeat' split
  all_goals simp [h]

@[simp] theorem State.issueAtomic_wf (s : State) (op : AtomicOp) (p : Piece) (b d : Word) (nbv : BitVec 8)
    (ret : Option Nat) (h : Memory.wf s.mem = true) :
    Memory.wf (s.issueAtomic op p b d nbv ret).mem = true := by
  unfold State.issueAtomic
  split_ifs <;> simp [h]

@[simp] theorem State.cleanLine_mem (s : State) (line : Nat) : (s.cleanLine line).mem = s.mem := by
  unfold State.cleanLine
  split <;> rfl

@[simp] theorem State.cacheOp_mem (s : State) (p : Piece) (evict : Bool) : (s.cacheOp p evict).mem = s.mem := by
  unfold State.cacheOp
  split_ifs <;> simp

@[simp] theorem State.perform_wf (s : State) (p : Posted) (h : Memory.wf s.mem = true) :
    Memory.wf (s.perform p).mem = true := by
  unfold State.perform
  repeat' split
  all_goals simp [h]

@[simp] theorem State.askFor_mem (s : State) (into : Nat) (l : List Piece) : (s.askFor into l).mem = s.mem := by
  simp [State.askFor]

@[simp] theorem State.sawRead_mem (s : State) (ctx : BitVec 16) (l : List Piece) : (s.sawRead ctx l).mem = s.mem := by
  simp [State.sawRead]

@[simp] theorem State.writePieces_wf (s : State) (ctx : BitVec 16) (into : Nat) (ps : List Piece) (bs : List Byte)
    (h : Memory.wf s.mem = true) : Memory.wf (s.writePieces ctx into ps bs).mem = true := by
  induction ps generalizing s bs with
  | nil => exact h
  | cons p l ih =>
    unfold State.writePieces
    refine ih _ _ ?_
    split <;> simp [h, State.physWrite_wf]

@[simp] theorem State.writeRing_wf (s : State) (p : Launch) (pos : Nat) (bs : List Byte)
    (h : Memory.wf s.mem = true) :
    Memory.wf (s.writeRing p pos bs).mem = true := by
  unfold State.writeRing
  dsimp only
  split <;> simp [h, State.physWrite_wf]

@[simp] theorem State.readSpawn_wf (s : State) (x : SpawnRead) (h : Memory.wf s.mem = true) :
    Memory.wf (s.readSpawn x).mem = true := by
  unfold State.readSpawn
  dsimp only
  repeat' split
  all_goals simp [h]

@[simp] theorem State.performId_wf (s : State) (id : Nat) (h : Memory.wf s.mem = true) :
    Memory.wf (s.performId id).mem = true := by
  unfold State.performId
  repeat' split
  all_goals simp [h]

@[simp] theorem State.endFence_wf (s : State) (f : Fence) (lost : List Nat) (h : Memory.wf s.mem = true) :
    Memory.wf (s.endFence f lost).mem = true := by
  have hp : ∀ (l : List Nat) (u : State), Memory.wf u.mem = true →
      Memory.wf (l.foldl (fun t id => t.performId id) u).mem = true :=
    fun l u hu => foldl_wf _ (fun t id ht => State.performId_wf t id ht) l u hu
  unfold State.endFence
  dsimp only
  split
  · exact hp _ _ h
  · exact hp _ _ h

theorem execFenceComplete_goesOn (id : Nat) (s : State) : GoesOn s (execFenceComplete id s) := by
  refine .next fun h => ?_
  repeat' split
  all_goals simp [h]

theorem execFenceTimeout_goesOn (id : Nat) (s : State) : GoesOn s (execFenceTimeout id s) := by
  refine .next fun h => ?_
  repeat' split
  all_goals simp [h]

theorem execStoreAck_goesOn (id : Nat) (s : State) : GoesOn s (execStoreAck id s) := .next fun h => h

theorem execDataArrival_goesOn (id : Nat) (err : Bool) (s : State) :
    GoesOn s (execDataArrival id err s) := .next fun h => h

@[simp] theorem State.land_mem (s : State) (l : Landing) : (s.land l).mem = s.mem := by
  unfold State.land
  repeat' split
  all_goals simp

theorem execLanding_goesOn (id : Nat) (s : State) : GoesOn s (execLanding id s) := by
  refine .next fun h => ?_
  repeat' split
  all_goals simp [h]

theorem execSfuStart_goesOn (id : Nat) (s : State) : GoesOn s (execSfuStart id s) := .next fun h => h

theorem execSfuResult_goesOn (id : Nat) (s : State) : GoesOn s (execSfuResult id s) := by
  refine .next fun h => ?_
  repeat' split
  all_goals simp [h]

@[simp] theorem State.usePort_mem (s : State) (rows : List Nat) : (s.usePort rows).mem = s.mem := rfl

/-! The scalar slots. -/

theorem scalarRR_goesOn (o : SROp) (s : State) (f : Word → Word → Word) :
    GoesOn s (scalarRR o s f) := runSlot_goesOn _ _ _ fun h => h

theorem scalarRI_goesOn (o : SIOp) (s : State) (f : Word → BitVec 6 → Word) :
    GoesOn s (scalarRI o s f) := runSlot_goesOn _ _ _ fun h => h

theorem compareRR_goesOn (o : CmpOp) (s : State) (f : Word → Word → Bool) :
    GoesOn s (compareRR o s f) := runSlot_goesOn _ _ _ fun h => h

theorem compareRI_goesOn (o : CmpIOp) (s : State) (f : Word → BitVec 6 → Bool) :
    GoesOn s (compareRI o s f) := runSlot_goesOn _ _ _ fun h => h

theorem predOp_goesOn (o : PredOp) (s : State) (f : Bool → Bool → Bool) :
    GoesOn s (predOp o s f) := runSlot_goesOn _ _ _ fun h => h

theorem execNop_goesOn (o : NopOp) (s : State) : GoesOn s (execNop o s) := .next fun h => by simpa using h

theorem execNopV_goesOn (o : NopVOp) (s : State) : GoesOn s (execNopV o s) := .next fun h => by simpa using h

theorem execSel_goesOn (o : SROp) (s : State) : GoesOn s (execSel o s) := .next fun h => by simpa using h

@[simp] theorem armLoop_mem (s t : State) (n : BitVec 2) (count : BitVec 32) (len : BitVec 10) :
    (armLoop s t n count len).mem = t.mem := rfl

theorem execLbrk_goesOn (o : LcOp) (s : State) : GoesOn s (execLbrk o s) := by
  refine runSlot_goesOn _ _ _ fun h => ?_
  dsimp only
  split <;> exact h

theorem privilege_keeps (s t : State) (bad : Bool) (h : privilege s bad = some t) : Keeps s t := by
  unfold privilege at h
  split at h <;> cases h
  exact State.trapSlot_wf _ _

@[simp] theorem State.exitTask_mem (s : State) : s.exitTask.mem = s.mem := by
  unfold State.exitTask
  dsimp only
  split <;> simp

theorem execExit_goesOn (o : Hdr) (s : State) : GoesOn s (execExit o s) := by
  unfold execExit
  exact runChecked_goesOn _ _ _ _ (fun t ht => privilege_keeps _ _ _ ht) (by simp [Keeps])

theorem execTrap_goesOn (o : ImmOp) (s : State) : GoesOn s (execTrap o s) :=
  runChecked_goesOn _ _ _ _ (fun t ht h => by cases ht; exact State.trapSlot_wf _ _ h) (fun h => h)

theorem execRett_goesOn (o : Hdr) (s : State) : GoesOn s (execRett o s) := by
  unfold execRett
  exact runChecked_goesOn _ _ _ _ (fun t ht => privilege_keeps _ _ _ ht) (by simp [Keeps])

theorem execWfi_goesOn (o : Hdr) (s : State) : GoesOn s (execWfi o s) := by
  unfold execWfi
  refine runChecked_goesOn _ _ _ _ (fun t ht => privilege_keeps _ _ _ ht) (fun h => ?_)
  split_ifs <;> exact h

@[simp] theorem writeSreg_mem (s : State) (n : Nat) (x : Word) : (writeSreg s n x).mem = s.mem := rfl

theorem execSrd_goesOn (o : SKOp) (s : State) : GoesOn s (execSrd o s) := by
  unfold execSrd
  exact runChecked_goesOn _ _ _ _ (fun t ht => privilege_keeps _ _ _ ht) (by simp [Keeps])

theorem execSwr_goesOn (o : SKOp) (s : State) : GoesOn s (execSwr o s) := by
  unfold execSwr
  refine runChecked_goesOn _ _ _ _ (fun t ht => privilege_keeps _ _ _ ht) (fun h => ?_)
  dsimp only
  split_ifs <;> simpa using h

/-! Stamps, tokens, timelines, barriers and supersteps. -/

@[simp] theorem State.holdOn_mem (s : State) (n : Nat) : (s.holdOn n).mem = s.mem := rfl

theorem execStamp_goesOn (o : ImmOp) (s : State) : GoesOn s (execStamp o s) := by
  unfold execStamp
  refine runChecked_goesOn _ _ _ _ (fun t ht h => ?_) (fun h => h)
  split_ifs at ht
  · exact privilege_keeps _ _ _ ht h
  · cases ht; exact State.trapEarly_wf _ _ h
  · cases ht; simpa using h

theorem execFrameOverrun_goesOn (s : State) : GoesOn s (execFrameOverrun s) := by
  refine .next fun h => ?_
  split <;> simp [h, State.takeTrap_wf]

theorem execTwait_goesOn (o : TokOp) (s : State) : GoesOn s (execTwait o s) := by
  unfold execTwait
  refine runChecked_goesOn _ _ _ _ (fun t ht h => ?_) (fun h => h)
  split at ht
  · cases ht; exact State.trapEarly_wf _ _ h
  · split_ifs at ht; cases ht; simpa using h

theorem execTsig_goesOn (o : TokOp) (s : State) : GoesOn s (execTsig o s) := by
  unfold execTsig
  refine runChecked_goesOn _ _ _ _ (fun t ht h => ?_) (fun h => h)
  dsimp only at ht
  split_ifs at ht
  cases ht; exact State.trapSlot_wf _ _ h

theorem execTlwait_goesOn (o : TlOp) (s : State) : GoesOn s (execTlwait o s) := by
  unfold execTlwait
  refine runChecked_goesOn _ _ _ _ (fun t ht h => ?_) (fun h => h)
  dsimp only at ht
  split at ht
  · cases ht; exact State.trapSlot_wf _ _ h
  · cases ht; exact State.trapEarly_wf _ _ h
  · split_ifs at ht; cases ht; simpa using h
  · split_ifs at ht; cases ht; simpa using h

@[simp] theorem State.initBarrier_mem (s : State) (b : BitVec 5) (e : BitVec 16) (q : BitVec 8) :
    (s.initBarrier b e q).mem = s.mem := by
  unfold State.initBarrier
  split <;> rfl

theorem execBinit_goesOn (o : BinitOp) (s : State) : GoesOn s (execBinit o s) := by
  unfold execBinit
  refine runChecked_goesOn _ _ _ _ (fun t ht => ?_) (fun h => ?_)
  · split at ht <;> cases ht
    exact State.trapSlot_wf _ _
  · split
    · split_ifs <;> simpa using h
    · simpa using h

theorem execBarr_goesOn (o : BarOp) (s : State) : GoesOn s (execBarr o s) := by
  unfold execBarr
  refine runChecked_goesOn _ _ _ _ (fun t ht => ?_) (fun h => ?_)
  · split at ht <;> cases ht
    exact State.trapSlot_wf _ _
  · split
    · rw [State.arriveOn_mem _ _ _ _ ‹_›]; exact h
    · exact h

theorem State.phaseWait_keeps (s t : State) (b : BitVec 5) (p : BitVec 16) (h : s.phaseWait b p = some t) :
    Keeps s t := by
  intro hs
  unfold State.phaseWait at h
  split at h
  · cases h; exact State.trapEarly_wf _ _ hs
  · split_ifs at h <;> cases h
    · simpa using hs
    · exact State.trapEarly_wf _ _ hs
    · simpa using hs

theorem State.orphanTrap_keeps (s t : State) (n : Nat) (h : s.orphanTrap n = some t) : Keeps s t := by
  unfold State.orphanTrap at h
  split at h <;> cases h
  exact fun hs => State.trapEarly_wf _ _ hs

@[simp] theorem State.clearWait_mem (s : State) (b : BitVec 5) : (s.clearWait b).mem = s.mem := by
  simp [State.clearWait]

@[simp] theorem State.markReady_mem (s : State) (b : BitVec 5) (p : BitVec 16) : (s.markReady b p).mem = s.mem := rfl

theorem execBwait_goesOn (o : BarOp) (s : State) : GoesOn s (execBwait o s) := by
  unfold execBwait
  refine runChecked_goesOn _ _ _ _ (fun t ht h => ?_) (by simp [Keeps])
  split at ht
  · cases ht; exact State.orphanTrap_keeps _ _ _ ‹_› h
  · cases ht; exact State.trapSlot_wf _ _ h
  · split at ht
    · exact State.phaseWait_keeps _ _ _ _ ht h
    · exact State.phaseWait_keeps _ _ _ _ ht h
    · exact State.phaseWait_keeps _ _ _ _ ht (by simpa using h)

theorem execBsync_goesOn (o : BarOp) (s : State) : GoesOn s (execBsync o s) := by
  unfold execBsync
  refine runChecked_goesOn _ _ _ _ (fun t ht h => ?_) (by simp [Keeps])
  split at ht
  · cases ht; exact State.orphanTrap_keeps _ _ _ ‹_› h
  · cases ht; exact State.trapSlot_wf _ _ h
  · split at ht
    · exact State.phaseWait_keeps _ _ _ _ ht h
    · split_ifs at ht
      · exact State.phaseWait_keeps _ _ _ _ ht (by simpa using h)
      · split at ht
        · cases ht; rw [State.arriveOn_mem _ _ _ _ ‹_›]; simpa using h
        · cases ht; exact State.trapSlot_wf _ _ h

theorem execBarrierReleaseDelivery_goesOn (s : State) : GoesOn s (execBarrierReleaseDelivery s) := .next fun h => h

theorem execWaitSatisfied_goesOn (s : State) : GoesOn s (execWaitSatisfied s) := by
  refine .next fun h => ?_
  split_ifs <;> simp [h]

theorem execFreezeEnd_goesOn (s : State) : GoesOn s (execFreezeEnd s) := by
  refine .next fun h => ?_
  split_ifs <;> simp [h]

@[simp] theorem State.onMembers_mem (s : State) (key : StepKey) (f : Core → Core) :
    (s.onMembers key f).mem = s.mem := rfl

@[simp] theorem State.setStep_mem (s : State) (x : StepInst) : (s.setStep x).mem = s.mem := rfl

@[simp] theorem State.stepCheck_mem (s : State) (key : StepKey) : (s.stepCheck key).mem = s.mem := by
  unfold State.stepCheck
  dsimp only
  split_ifs <;> rfl

@[simp] theorem State.stepFail_mem (s : State) (key : StepKey) : (s.stepFail key).mem = s.mem := rfl

@[simp] theorem State.stepArrive_mem (s : State) (key : StepKey) (index : Nat) :
    (s.stepArrive key index).mem = s.mem := by
  simp [State.stepArrive]

theorem execSstep_goesOn (o : LvOp) (s : State) : GoesOn s (execSstep o s) := by
  unfold execSstep
  refine runChecked_goesOn _ _ _ _ (fun t ht h => ?_) (by simp [Keeps])
  split at ht
  · cases ht; exact State.trapSlot_wf _ _ h
  · split at ht
    · cases ht; exact State.trapSlot_wf _ _ h
    · split at ht
      · cases ht; exact State.trapSlot_wf _ _ h
      · dsimp only at ht
        split at ht
        · cases ht; exact State.orphanTrap_keeps _ _ _ ‹_› h
        · split_ifs at ht <;> cases ht <;> simpa using h
        · cases ht; simpa using h

@[simp] theorem State.sawGroups_mem (s : State) : s.sawGroups.mem = s.mem := by simp [State.sawGroups]

@[simp] theorem State.noteStep_wf (s : State) (pos : Nat) (serial : BitVec 32) (v : Nat) (h : Memory.wf s.mem = true) :
    Memory.wf (s.noteStep pos serial v).mem = true := by
  unfold State.noteStep
  refine foldl_wf _ (fun t n ht => ?_) _ _ (by simpa using h)
  dsimp only
  split_ifs <;> simp [ht, State.agentWrite_wf]

@[simp] theorem State.collective_wf (s : State) (serial : BitVec 32) (level : Nat) (h : Memory.wf s.mem = true) :
    Memory.wf (s.collective serial level).mem = true := by
  unfold State.collective
  dsimp only
  split
  · refine foldl_wf _ (fun u n hu => ?_) _ _ (by simpa using h)
    rw [foldl_mem _ fun v j => by split_ifs <;> simp]
    exact State.agentWrite_wf _ _ _ hu
  · refine State.noteStep_wf _ _ _ _ (foldl_wf _ (fun u n hu => ?_) _ _ (by simpa using h))
    rw [foldl_mem _ fun v j => by split_ifs <;> simp]
    exact State.agentWrite_wf _ _ _ hu

@[simp] theorem State.raiseTop_mem (s : State) (serial : BitVec 32) : (s.raiseTop serial).mem = s.mem := by
  unfold State.raiseTop
  split
  · dsimp only
    split_ifs <;> rfl
  · rfl

theorem execSuperstepRelease_goesOn (key : StepKey) (s : State) : GoesOn s (execSuperstepRelease key s) := by
  refine .next fun h => ?_
  split_ifs <;> simp [h]

/-! Launches, tasks and queues. -/

@[simp] theorem State.writeRecord_wf (s : State) (l : Launch) (rej : Option (Nat × Nat))
    (h : Memory.wf s.mem = true) :
    Memory.wf (s.writeRecord l rej).mem = true := by
  unfold State.writeRecord
  dsimp only
  repeat' split
  all_goals simp [h, State.physWrite_wf, State.postEvent_wf]

@[simp] theorem State.raiseTimeline_mem (s : State) (t v : Nat) : (s.raiseTimeline t v).mem = s.mem := by
  unfold State.raiseTimeline
  split_ifs <;> rfl

@[simp] theorem State.freeKept_wf (s : State) (l : Launch) (h : Memory.wf s.mem = true) :
    Memory.wf (s.freeKept l).mem = true :=
  foldl_wf _ (fun t _ ht => State.putRq_wf t _ _ _ _ _ ht) _ _ h

@[simp] theorem State.complete_wf (s : State) (l : Launch) (rej : Option (Nat × Nat)) (h : Memory.wf s.mem = true) :
    Memory.wf (s.complete l rej).mem = true := by
  unfold State.complete
  dsimp only
  split_ifs <;> simp [h]

@[simp] theorem State.completeIfEnded_wf (s : State) (serial : BitVec 32) (h : Memory.wf s.mem = true) :
    Memory.wf (s.completeIfEnded serial).mem = true := by
  unfold State.completeIfEnded
  repeat' split
  all_goals simp [h]

@[simp] theorem State.beginReads_mem (s : State) : s.beginReads.mem = s.mem := by
  unfold State.beginReads
  refine foldl_mem _ (fun t q => ?_) _ _
  split_ifs <;> rfl

@[simp] theorem State.writeTail_mem (s : State) (q : Nat) (v : Word) : (s.writeTail q v).mem = s.mem := by
  simp [State.writeTail, apply_ite State.mem]

theorem execQtailWrite_goesOn (q : BitVec 6) (v : Word) (s : State) :
    GoesOn s (execQtailWrite q v s) := .next fun h => by simpa using h

theorem execLaunchRecordFetch_goesOn (q : BitVec 6) (s : State) :
    GoesOn s (execLaunchRecordFetch q s) := .next fun h => by simpa using h

@[simp] theorem State.spillWalked_mem (s : State) (l : Launch) (vas : List Word) :
    (s.spillWalked l vas).mem = s.mem := by
  induction vas generalizing s with
  | nil => rfl
  | cons va rest ih =>
    unfold State.spillWalked
    split
    · rw [ih, State.walked_mem]
    · simp

@[simp] theorem State.judge_wf (s0 : State) (l : Launch) (clv : Option Nat) (h : Memory.wf s0.mem = true) :
    Memory.wf (s0.judge l clv).mem = true := by
  unfold State.judge
  dsimp only
  repeat' split
  all_goals simp [h]

theorem execLaunchAcceptance_goesOn (src : RecordSource) (s : State) : GoesOn s (execLaunchAcceptance src s) := by
  refine .next fun h => ?_
  repeat' split
  all_goals simp [h]

theorem spawnCheck_keeps (a : Word) (s t : State) (h : spawnCheck a s = some t) : Keeps s t := by
  unfold spawnCheck at h
  split_ifs at h
  · exact privilege_keeps _ _ _ h
  · cases h; exact State.trapSlot_wf _ _
  · split at h <;> cases h
    exact State.reach_keeps _ _ _ _ _ _ ‹_›

theorem State.placeChild_mem (s t : State) (child p c : Launch) (n : Nat) (h : s.placeChild child p = some (c, t, n)) :
    t.mem = s.mem := by
  unfold State.placeChild at h
  split_ifs at h <;> cases h <;> simp

@[simp] theorem State.startSpawn_wf (s : State) (serial : BitVec 32) (va : Word) (parts : List Piece)
    (h : Memory.wf s.mem = true) : Memory.wf (s.startSpawn serial va parts).mem = true := by
  unfold State.startSpawn
  refine wf_ite (State.readSpawn_wf _ _ ?_) ?_ <;> exact h

@[simp] theorem State.spawn_wf (s : State) (rd : BitVec 6) (a : Word) (l : List Span) (h : Memory.wf s.mem = true) :
    Memory.wf (s.spawn rd a l).mem = true := by
  unfold State.spawn
  dsimp only
  split
  · simpa using h
  · split
    · simpa using h
    · split
      · simpa using h
      · next u _ hp =>
        have hu : u.mem = s.mem := State.placeChild_mem _ _ _ _ _ _ hp
        rw [State.wrS_mem]
        exact State.startSpawn_wf _ _ _ _ (by simpa [hu] using h)

theorem execSpawn_goesOn (o : SR2Op) (s : State) : GoesOn s (execSpawn o s) := by
  unfold execSpawn
  refine runChecked_goesOn _ _ _ _ (fun t ht => spawnCheck_keeps _ _ _ ht) (fun h => ?_)
  split
  · exact State.spawn_wf _ _ _ _ h
  · exact State.reach_keeps _ _ _ _ _ _ ‹_› h

theorem execSpawnRecordRead_goesOn (s : State) : GoesOn s (execSpawnRecordRead s) := by
  refine .next fun h => ?_
  split <;> simp [h]

@[simp] theorem State.moveIn_mem (s : State) (c : Launch) (reserved : Bool) : (s.moveIn c reserved).mem = s.mem := by
  unfold State.moveIn
  repeat' (split <;> dsimp only) <;> simp

theorem execSpillMove_goesOn (serial : BitVec 32) (s : State) : GoesOn s (execSpillMove serial s) := by
  refine .next fun h => ?_
  repeat' split
  all_goals simp [h]

theorem execReservedEntryGrant_goesOn (serial : BitVec 32) (s : State) :
    GoesOn s (execReservedEntryGrant serial s) := by
  refine .next fun h => ?_
  repeat' split
  all_goals simp [h]

@[simp] theorem State.refreshVt_mem (s : State) (os : List (Nat × Pick × Nat)) : (s.refreshVt os).mem = s.mem := rfl

@[simp] theorem State.handOver_mem (s : State) (q : Nat) (p : Pick) : (s.handOver q p).mem = s.mem := rfl

theorem execSchedulerSelection_goesOn (die : Nat) (s : State) : GoesOn s (execSchedulerSelection die s) := by
  refine .next fun h => ?_
  dsimp only
  repeat' split
  all_goals simp [h]

@[simp] theorem State.newRq_wf (s : State) (n : Nat) (h : Memory.wf s.mem = true) :
    Memory.wf (s.newRq n).1.mem = true := by
  simp [State.newRq, h]

@[simp] theorem State.takeRq_wf (s : State) (serial : BitVec 32) (i n : Nat) (h : Memory.wf s.mem = true) :
    Memory.wf (s.takeRq serial i n).1.mem = true := by
  unfold State.takeRq
  repeat' split
  all_goals simp [h]

@[simp] theorem State.setMode_mem (s : State) (l : Launch) (n : Nat) : (s.setMode l n).mem = s.mem := rfl

@[simp] theorem State.joinBarriers_mem (s : State) (serial : BitVec 32) (n : Nat) :
    (s.joinBarriers serial n).mem = s.mem := rfl

@[simp] theorem State.landBacked_mem (s : State) (n : Nat) (t : Task) : (s.landBacked n t).mem = s.mem := by
  unfold State.landBacked
  refine foldl_mem _ (fun u w => ?_) _ _
  split_ifs
  · refine foldl_mem _ (fun v k => ?_) _ _
    split_ifs <;> simp
  · rfl

@[simp] theorem State.bindTask_wf (s : State) (l : Launch) (i n : Nat) (rerun : Bool) (h : Memory.wf s.mem = true) :
    Memory.wf (s.bindTask l i n rerun).mem = true := by
  simp [State.bindTask, h]

@[simp] theorem State.stageTask_wf (s : State) (l : Launch) (i n : Nat) (rerun : Bool) (h : Memory.wf s.mem = true) :
    Memory.wf (s.stageTask l i n rerun).mem = true := by
  simp [State.stageTask, h]

@[simp] theorem State.moveBarriers_mem (s : State) (serial : BitVec 32) (m n : Nat) :
    (s.moveBarriers serial m n).mem = s.mem := rfl

@[simp] theorem State.bindSaved_mem (s : State) (slot n : Nat) : (s.bindSaved slot n).mem = s.mem := by
  unfold State.bindSaved
  repeat' split
  all_goals simp

@[simp] theorem State.bindOne_wf (s : State) (x : HandOff) (i : Nat) (p : Nat × Nat) (h : Memory.wf s.mem = true) :
    Memory.wf (s.bindOne x i p).mem = true := by
  unfold State.bindOne
  repeat' split
  all_goals simp [h]

@[simp] theorem State.handBack_mem (s : State) (x : HandOff) : (s.handBack x).mem = s.mem := rfl

@[simp] theorem State.spendSheet_wf (s : State) (h : Memory.wf s.mem = true) : Memory.wf s.spendSheet.mem = true := by
  unfold State.spendSheet
  dsimp only
  split
  · exact memSet_wf _ _ _ h
  · exact h

theorem execTaskBinding_goesOn (n : Nat) (s : State) : GoesOn s (execTaskBinding n s) := by
  refine .next fun h => ?_
  split
  · exact h
  · dsimp only
    split
    · exact h
    · split
      · exact State.completeIfEnded_wf _ _ h
      · split
        · simpa using h
        · refine foldl_wf _ (fun t p ht => State.bindOne_wf t _ _ _ ht) _ _ (wf_ite ?_ h)
          exact State.spendSheet_wf _ h

@[simp] theorem State.endUnissued_mem (s : State) (t : Trap) : (s.endUnissued t).mem = s.mem := by
  simp [State.endUnissued]

theorem execFirstIssue_goesOn (s : State) : GoesOn s (execFirstIssue s) := by
  refine .next fun h => ?_
  repeat' split
  all_goals simp [h]

@[simp] theorem State.leaveBarriers_mem (s : State) (serial : BitVec 32) (n : Nat) :
    (s.leaveBarriers serial n).mem = s.mem := rfl

@[simp] theorem State.leaveSteps_mem (s : State) (l : Launch) (index : Nat) : (s.leaveSteps l index).mem = s.mem := by
  unfold State.leaveSteps
  refine foldl_mem _ (fun t n => ?_) _ _
  split_ifs <;> simp

@[simp] theorem State.tellGone_mem (s : State) (f : Fifo) : (s.tellGone f).mem = s.mem := by
  unfold State.tellGone
  repeat' split
  all_goals simp

@[simp] theorem State.bindFifo_mem (s : State) (q : BitVec 4) (peer : Option (Nat × Nat)) :
    (s.bindFifo q peer).mem = s.mem := by
  unfold State.bindFifo
  repeat' split
  all_goals simp

@[simp] theorem State.dropFifos_mem (s : State) (c : Core) : (s.dropFifos c).mem = s.mem :=
  foldl_mem _ State.tellGone_mem _ _

@[simp] theorem State.leave_wf (s : State) (c : Core) (t : Task) (h : Memory.wf s.mem = true) :
    Memory.wf (s.leave c t).mem = true := by
  unfold State.leave
  dsimp only
  split <;> simp [h]

@[simp] theorem State.retireStaged_wf (s : State) (n : Nat) (h : Memory.wf s.mem = true) :
    Memory.wf (s.retireStaged n).mem = true := by
  unfold State.retireStaged
  split <;> simp [h]

@[simp] theorem State.endStaged_wf (s : State) (t : Trap) (h : Memory.wf s.mem = true) :
    Memory.wf (s.endStaged t).mem = true := by
  unfold State.endStaged
  split
  · exact h
  · refine State.completeIfEnded_wf _ _ ?_
    split
    · split_ifs <;> simp [h]
    · simp [h]

theorem execPreloadComplete_goesOn (s : State) : GoesOn s (execPreloadComplete s) := by
  refine .next fun h => ?_
  split
  · exact h
  · split
    · exact h
    · dsimp only
      split
      · exact h
      · split
        · rw [State.askFor_mem]; exact h
        · split
          · exact h
          · split
            · rw [State.onCore_mem, foldl_mem _ (fun u k => u.onCore_mem _)]
              simpa using h
            · split_ifs <;> simp [h, State.postEvent_wf]

@[simp] theorem State.applyBinds_mem (s : State) : s.applyBinds.mem = s.mem := by
  unfold State.applyBinds
  split <;> simp

@[simp] theorem State.activateStaged_mem (s : State) (before : Task) : (s.activateStaged before).mem = s.mem := by
  unfold State.activateStaged
  repeat' split
  all_goals simp

theorem execTaskRetire_goesOn (s : State) : GoesOn s (execTaskRetire s) := by
  refine .next fun h => ?_
  split
  · exact h
  · dsimp only
    split
    · exact h
    · refine State.completeIfEnded_wf _ _ ?_
      split
      · split_ifs <;> simp [h]
      · split_ifs <;> simp [h]

@[simp] theorem State.cancel_wf (s : State) (wr : Writer) (v : Word) (h : Memory.wf s.mem = true) :
    Memory.wf (s.cancel wr v).mem = true := by
  unfold State.cancel
  dsimp only
  repeat' split
  all_goals simp [h]

theorem execCancel_goesOn (wr : Writer) (v : Word) (s : State) :
    GoesOn s (execCancel wr v s) := .next fun h => by simp [h]

@[simp] theorem State.dropSaved_wf (s : State) (slot : Nat) (h : Memory.wf s.mem = true) :
    Memory.wf (s.dropSaved slot).mem = true := by
  unfold State.dropSaved
  repeat' split
  all_goals simp [h]

@[simp] theorem State.sweepSaved_wf (s : State) (h : Memory.wf s.mem = true) : Memory.wf s.sweepSaved.mem = true := by
  unfold State.sweepSaved
  exact foldl_wf _ (fun t p ht => State.dropSaved_wf t _ ht) _ _ h

theorem execCancelAtDie_goesOn (die : Nat) (serial : BitVec 32) (s : State) :
    GoesOn s (execCancelAtDie die serial s) := by
  refine .next fun h => ?_
  refine State.completeIfEnded_wf _ _ ?_
  refine foldl_wf _ (fun t n ht => State.dropSaved_wf t n ht) _ _ ?_
  rw [State.mapCores_mem]
  refine foldl_wf _ (fun t c ht => ?_) _ _ (by simpa using h)
  split
  · split_ifs <;> simp [ht]
  · exact ht

/-! The matrix queue. -/

@[simp] theorem State.enqueue_mem (s : State) (e : MEntry) : (s.enqueue e).mem = s.mem := rfl

theorem queued_goesOn (g : Hdr) (s : State) (chk : Option Trap) (e : MEntry) (f : State → State)
    (hf : ∀ u, (f u).mem = u.mem) : GoesOn s (queued g s chk e f) := by
  unfold queued
  split_ifs
  · exact ⟨_, rfl, by simp [Keeps]⟩
  · split
    · exact ⟨_, rfl, State.trapSlot_wf _ _⟩
    · exact ⟨_, rfl, by simp [Keeps, hf]⟩
  · exact ⟨_, rfl, by simp [Keeps]⟩

theorem execMma_goesOn (o : MmaOp) (s : State) : GoesOn s (execMma o s) := by
  unfold execMma
  exact queued_goesOn _ _ _ _ _ fun _ => rfl

theorem execMrsum_goesOn (o : MrsumOp) (s : State) : GoesOn s (execMrsum o s) := by
  unfold execMrsum
  dsimp only
  split <;> exact queued_goesOn _ _ _ _ _ fun _ => rfl

theorem direct_goesOn (g : Hdr) (s : State) (tile : BitVec 7) (chk : Option Trap) (rows : List Nat)
    (f : State → State) (hf : Keeps s (f s)) : GoesOn s (direct g s tile chk rows f) := by
  unfold direct
  split_ifs
  · exact ⟨_, rfl, by simp [Keeps]⟩
  · split
    · exact ⟨_, rfl, State.trapSlot_wf _ _⟩
    · exact ⟨_, rfl, fun h => by simpa using hf h⟩
  · exact ⟨_, rfl, by simp [Keeps]⟩

theorem execMldt_goesOn (o : MldtOp) (s : State) : GoesOn s (execMldt o s) := by
  unfold execMldt
  refine direct_goesOn _ _ _ _ _ _ fun h => ?_
  dsimp only
  split <;> simpa using h

theorem execMstt_goesOn (o : MsttOp) (s : State) : GoesOn s (execMstt o s) := by
  unfold execMstt
  refine direct_goesOn _ _ _ _ _ _ fun h => ?_
  dsimp only
  split <;> simpa using h

theorem execMdrain_goesOn (o : MdrainOp) (s : State) : GoesOn s (execMdrain o s) := by
  unfold execMdrain
  refine direct_goesOn _ _ _ _ _ _ fun h => ?_
  dsimp only
  split <;> simpa using h

@[simp] theorem State.onHead_mem (s : State) (f : MEntry → MEntry) : (s.onHead f).mem = s.mem := rfl

@[simp] theorem State.signal_mem (s : State) (k : BitVec 3) (entry : Bool × BitVec 6) :
    (s.signal k entry).mem = s.mem := by
  unfold State.signal
  dsimp only
  split_ifs <;> simp

@[simp] theorem State.completeHead_mem (s : State) : s.completeHead.mem = s.mem := by
  unfold State.completeHead
  repeat' split
  all_goals simp

theorem execMatrixEntryStart_goesOn (s : State) : GoesOn s (execMatrixEntryStart s) := by
  refine .next fun h => ?_
  repeat' split
  all_goals simp [h]

@[simp] theorem State.blockNow_mem (s : State) : s.blockNow.mem = s.mem := by
  unfold State.blockNow
  split <;> rfl

theorem execMatrixBlock_goesOn (s : State) : GoesOn s (execMatrixBlock s) := by
  refine .next fun h => ?_
  split_ifs <;> simp [h]

theorem execMatrixEntryComplete_goesOn (s : State) : GoesOn s (execMatrixEntryComplete s) := by
  refine .next fun h => ?_
  repeat' split
  all_goals simp [h]

theorem execArrayWindowSwitch_goesOn (j : Nat) (s : State) : GoesOn s (execArrayWindowSwitch j s) := .next fun h => h

/-! The copy engine and the enlarger. -/

@[simp] theorem State.asCore_mem (s : State) (c : Core) (f : State → State) (hf : ∀ u, (f u).mem = u.mem) :
    (s.asCore c f).1.mem = s.mem := by
  unfold State.asCore
  dsimp only
  split <;> simp [hf]

@[simp] theorem State.withTaskAt_mem (s : State) (serial : BitVec 32) (index : Nat) (f g : State → State)
    (hf : ∀ u, (f u).mem = u.mem) (hg : ∀ u, (g u).mem = u.mem) :
    (s.withTaskAt serial index f g).mem = s.mem := by
  unfold State.withTaskAt
  dsimp only
  repeat' split
  all_goals simp [hf, hg]

@[simp] theorem State.withTask_mem (s : State) (serial : BitVec 32) (index : Nat) (f : State → State) (hf : ∀ u,
    (f u).mem = u.mem) :
    (s.withTask serial index f).mem = s.mem := by
  simp [State.withTask, hf]

theorem copyCheck_keeps (kind : CopyKind) (a : Word) (s t : State) (h : copyCheck kind a s = some t) : Keeps s t := by
  unfold copyCheck at h
  intro hs
  dsimp only at h
  split at h
  · cases h; exact State.trapSlot_wf _ _ hs
  · split_ifs at h <;> cases h
    · exact hs
    · exact State.trapSlot_wf _ _ hs
    · exact State.trapSlot_wf _ _ hs

@[simp] theorem State.enqueueCopy_mem (s : State) (kind : CopyKind) (o : CpyOp) (a : Word) :
    (s.enqueueCopy kind o a).mem = s.mem := by
  simp [State.enqueueCopy]

theorem copyInstr_goesOn (kind : CopyKind) (o : CpyOp) (s : State) : GoesOn s (copyInstr kind o s) := by
  unfold copyInstr
  dsimp only
  split
  · split
    · exact ⟨_, rfl, copyCheck_keeps _ _ _ _ ‹_›⟩
    · exact ⟨_, rfl, by simp [Keeps]⟩
  · exact ⟨_, rfl, by simp [Keeps]⟩

theorem execSeqrun_goesOn (o : CpyOp) (s : State) : GoesOn s (execSeqrun o s) := by
  unfold execSeqrun
  split
  · split
    · exact .of_keeps (fun h => by simpa using h) (copyInstr_goesOn .seqrun o (s.agentLook _ 8))
    · exact copyInstr_goesOn _ _ _
  · exact copyInstr_goesOn _ _ _

@[simp] theorem State.copyLines_wf (s : State) (t : Task) (e : CopyEntry) (src : List Piece) (l : Nat)
    (bs : List (List Byte)) (h : Memory.wf s.mem = true) : Memory.wf (s.copyLines t e src l bs).1.mem = true := by
  induction bs generalizing s l with
  | nil => exact h
  | cons b rest ih =>
    unfold State.copyLines
    dsimp only
    split
    · exact ih _ _ h
    · split
      · simp [h]
      · exact ih _ _ (by simp [h])

@[simp] theorem State.deliver_wf (s : State) (x : Nat × List Byte) (h : Memory.wf s.mem = true) :
    Memory.wf (s.deliver x).1.mem = true := by
  unfold State.deliver
  split_ifs <;> simp [h, State.physWrite_wf]

@[simp] theorem State.sendStreams_wf (s : State) (e : CopyEntry) (lines : List (List Byte))
    (h : Memory.wf s.mem = true) : Memory.wf (s.sendStreams e lines).1.mem = true := by
  unfold State.sendStreams
  refine foldl_fst_wf _ (fun u x hu => foldl_fst_wf _ (fun v j hv => ?_) _ _ hu) _ _ h
  split_ifs <;> simp [hv]

@[simp] theorem State.sawTree_mem (s : State) (i : Nat) : (s.sawTree i).mem = s.mem := by simp [State.sawTree]

@[simp] theorem State.forward_mem (s : State) (mask id : Nat) (entry : BitVec 8) (lines : List (Nat × List Byte)) :
    (s.forward mask id entry lines).mem = s.mem := by
  simp [State.forward]

@[simp] theorem State.deliverAll_wf (s : State) (lines : List (Nat × List Byte)) (h : Memory.wf s.mem = true) :
    Memory.wf (s.deliverAll lines).1.mem = true := by
  unfold State.deliverAll
  refine foldl_fst_wf _ (fun u x hu => ?_) lines (s, true) h
  exact State.deliver_wf u.1 x hu

@[simp] theorem State.onEntry_mem (s : State) (pos : BitVec 6) (f : CopyEntry → CopyEntry) :
    (s.onEntry pos f).mem = s.mem := rfl

@[simp] theorem State.finishEntry_mem (s : State) (e : CopyEntry) : (s.finishEntry e).mem = s.mem := by
  unfold State.finishEntry
  repeat' split
  all_goals simp

@[simp] theorem State.holdFault_mem (s0 : State) (e : CopyEntry) (addr aux : Word) :
    (s0.holdFault e addr aux).mem = s0.mem := by
  unfold State.holdFault
  split <;> dsimp only <;> split_ifs <;> simp

@[simp] theorem State.copyViolates_mem (s0 : State) (e : CopyEntry) (t : Trap) :
    (s0.copyViolates e t).mem = s0.mem := by
  unfold State.copyViolates
  dsimp only
  split_ifs <;> simp

@[simp] theorem State.copyStops_wf (s : State) (e : CopyEntry) (t : Trap) (h : Memory.wf s.mem = true) :
    Memory.wf (s.copyStops e t).mem = true := by
  unfold State.copyStops
  repeat' split
  all_goals simp [h, State.postEvent_wf]

@[simp] theorem State.startTree_wf (s0 : State) (e : CopyEntry) (lines : List (List Byte))
    (h : Memory.wf s0.mem = true) :
    Memory.wf (s0.startTree e lines).mem = true := by
  unfold State.startTree
  dsimp only
  split_ifs <;> simp [h]

@[simp] theorem State.moveCopy_wf (s : State) (t : Task) (e : CopyEntry) (parts : List Piece)
    (h : Memory.wf s.mem = true) : Memory.wf (s.moveCopy t e parts).mem = true := by
  unfold State.moveCopy
  dsimp only
  split
  · split
    · simp [h]
    · split_ifs <;> simp [h]
  · split
    · simp [h]
    · split_ifs <;> simp [h]
  · split <;> simp [h]

@[simp] theorem State.wordTokens_mem (s : State) (of : Option (BitVec 6)) : (s.wordTokens of).mem = s.mem := by
  simp [State.wordTokens]

theorem execCopyComplete_goesOn (s0 : State) : GoesOn s0 (execCopyComplete s0) := by
  refine .next fun h => ?_
  dsimp only
  repeat' split
  all_goals simp [h]

@[simp] theorem State.afterEnds_wf (s : State) (fuel : Nat) (h : Memory.wf s.mem = true) :
    Memory.wf (s.afterEnds fuel).mem = true := by
  induction fuel generalizing s with
  | zero => exact h
  | succ fuel ih =>
    unfold State.afterEnds
    obtain ⟨t, ht, hk⟩ := execCopyComplete_goesOn s
    rw [ht]
    split
    · exact ih t (hk h)
    · exact h

theorem execCopyEntryStart_goesOn (s : State) : GoesOn s (execCopyEntryStart s) := by
  refine .next fun h => ?_
  split
  · split
    · exact h
    · dsimp only
      split
      · split_ifs <;> simpa using h
      · split_ifs <;> simpa using h
  · exact h

theorem execCopyFault_goesOn (addr aux : Word) (s : State) : GoesOn s (execCopyFault addr aux s) := by
  refine .next fun h => ?_
  split
  · rw [State.holdFault_mem]; exact h
  · exact h

theorem execSeqrunComplete_goesOn (num : Nat) (s : State) : GoesOn s (execSeqrunComplete num s) := by
  refine .next fun h => ?_
  split <;> simp [h]

@[simp] theorem State.onSeg_mem (s : State) (id : Nat) (f : Segment → Segment) : (s.onSeg id f).mem = s.mem := rfl

@[simp] theorem State.segFail_mem (s : State) (g : Segment) (w : List Byte) (addr : Word) :
    (s.segFail g w addr).mem = s.mem := by
  unfold State.segFail
  dsimp only
  have hu : ∀ u : State, (match u.core.cq.find? fun (e : CopyEntry) => e.num == g.num with
      | some e => u.holdFault e addr (BitVec.ofNat 64 (g.first + g.word))
      | none => u).mem = u.mem := fun u => by split <;> simp
  split
  · rw [State.stepFail_mem]; exact State.withTask_mem _ _ _ _ hu
  · exact State.withTask_mem _ _ _ _ hu

theorem execEnlargerWordRead_goesOn (id : Nat) (s0 : State) : GoesOn s0 (execEnlargerWordRead id s0) := by
  refine .next fun h => ?_
  dsimp only
  repeat' split
  all_goals simp [h]

@[simp] theorem State.giveRows_mem (s : State) (n half first k : Nat) (data : List Byte) :
    (s.giveRows n half first k data).1.mem = s.mem := by
  simp [State.giveRows]

@[simp] theorem State.giveWord_mem (s : State) (l : Launch) (g : Segment) (w : List Byte) :
    (s.giveWord l g w).1.mem = s.mem := by
  unfold State.giveWord
  refine foldl_fst_mem _ (fun u i => ?_) _ _
  split <;> simp

@[simp] theorem State.wordSignal_mem (s : State) (g : Segment) (w : List Byte) : (s.wordSignal g w).mem = s.mem := by
  unfold State.wordSignal
  dsimp only
  split
  · exact State.withTaskAt_mem _ _ _ _ _ (by simp) (by simp)
  · rfl

@[simp] theorem State.segDone_mem (s : State) (g : Segment) : (s.segDone g).mem = s.mem := by
  unfold State.segDone
  exact State.withTaskAt_mem _ _ _ _ _ (by simp) (fun u => by split <;> simp)

theorem execEnlargerDelivery_goesOn (id : Nat) (s : State) : GoesOn s (execEnlargerDelivery id s) := by
  refine .next fun h => ?_
  dsimp only
  repeat' split
  all_goals simp [h]

theorem execEnlargerFailover_goesOn (s : State) : GoesOn s (execEnlargerFailover s) := .next fun h => h

/-! Links, requests of other modules, trees and FIFOs. -/

@[simp] theorem State.atCore_mem (s : State) (n : Nat) (f : State → State) (hf : ∀ u, (f u).mem = u.mem) :
    (s.atCore n f).mem = s.mem := by
  simp [State.atCore, hf]

theorem State.atCore_wf (s : State) (n : Nat) (f : State → State)
    (hf : ∀ u, Memory.wf u.mem = true → Memory.wf (f u).mem = true) (h : Memory.wf s.mem = true) :
    Memory.wf (s.atCore n f).mem = true := by
  rw [State.atCore, State.focus_mem]
  exact hf _ (by simpa using h)

@[simp] theorem State.onLink_mem (s : State) (k : Nat) (f : Link → Link) : (s.onLink k f).mem = s.mem := rfl

theorem execFlitReceive_goesOn (f : Flit) (s : State) : GoesOn s (execFlitReceive f s) := by
  refine .next fun h => ?_
  split_ifs <;> simp [h]

theorem execReplayRequest_goesOn (link seq : Nat) (s : State) : GoesOn s (execReplayRequest link seq s) := by
  refine .next fun h => ?_
  split_ifs <;> simp [h]

@[simp] theorem State.retireEpochs_mem (s : State) (k fuel : Nat) : (s.retireEpochs k fuel).mem = s.mem := by
  induction fuel generalizing s with
  | zero => rfl
  | succ fuel ih =>
    unfold State.retireEpochs
    dsimp only
    split
    · split
      · rfl
      · simp [ih]
    · rfl

@[simp] theorem State.retireEpoch_mem (s : State) (k : Nat) : (s.retireEpoch k).mem = s.mem := by
  simp [State.retireEpoch]

theorem execFlitAck_goesOn (link seq : Nat) (s : State) :
    GoesOn s (execFlitAck link seq s) := .next fun h => by simpa using h

theorem execRetireMarker_goesOn (link : Nat) (epoch : BitVec 8) (s : State) :
    GoesOn s (execRetireMarker link epoch s) := .next fun h => h

theorem execKeyRotation_goesOn (link : Nat) (s : State) :
    GoesOn s (execKeyRotation link s) := .next fun h => by simpa using h

theorem execLinkUp_goesOn (link : Nat) (s : State) : GoesOn s (execLinkUp link s) := .next fun h => by simpa using h

@[simp] theorem State.retireProofs_mem (s : State) (j : Nat) : (s.retireProofs j).mem = s.mem := rfl

@[simp] theorem State.forgetPeer_mem (s : State) (j : Nat) : (s.forgetPeer j).mem = s.mem := rfl

@[simp] theorem State.learn_mem (s : State) (j : Nat) (inc : BitVec 16) (hib : Bool) :
    (s.learn j inc hib).mem = s.mem := by
  unfold State.learn
  split_ifs <;> rfl

theorem execIncarnationAnnouncement_goesOn (pos : Nat) (inc : BitVec 16) (s : State) :
    GoesOn s (execIncarnationAnnouncement pos inc s) := .next fun h => by simpa using h

theorem execHibernatedAnnouncement_goesOn (pos : Nat) (inc : BitVec 16) (s : State) :
    GoesOn s (execHibernatedAnnouncement pos inc s) := .next fun h => by simpa using h

@[simp] theorem State.serve_wf (s : State) (q : RemoteReq) (h : Memory.wf s.mem = true) :
    Memory.wf (s.serve q).1.mem = true := by
  unfold State.serve
  split <;> dsimp only <;> split_ifs <;> simp [h, State.physWrite_wf]

@[simp] theorem State.takeAckt_mem (s : State) (q : RemoteReq) : (s.takeAckt q).mem = s.mem := by
  unfold State.takeAckt
  split_ifs <;> rfl

@[simp] theorem State.answerReq_wf (s : State) (q : RemoteReq) (h : Memory.wf s.mem = true) :
    Memory.wf (s.answerReq q).mem = true := by
  unfold State.answerReq
  dsimp only
  repeat' split
  all_goals simp [h]

@[simp] theorem State.takeTurns_wf (s : State) (j at_ : Nat) (off : Option AnsStatus) (fuel : Nat)
    (h : Memory.wf s.mem = true) : Memory.wf (s.takeTurns j at_ off fuel).mem = true := by
  induction fuel generalizing s at_ off with
  | zero => exact h
  | succ fuel ih =>
    unfold State.takeTurns
    split
    · exact h
    · split
      · exact h
      · split
        · exact ih _ _ _ (by simp [h])
        · refine ih _ _ _ (State.answerReq_wf _ _ ?_)
          split_ifs <;> simp [h]

theorem execRemoteRequest_goesOn (q : RemoteReq) (s : State) :
    GoesOn s (execRemoteRequest q s) := .next fun h => by simp [h]

@[simp] theorem State.onProof_mem (s : State) (i : Nat) (f : Proof → Proof) : (s.onProof i f).mem = s.mem := rfl

theorem execProofProbe_goesOn (i : Nat) (s : State) : GoesOn s (execProofProbe i s) := by
  refine .next fun h => ?_
  repeat' split
  all_goals simp [h]

theorem execProbeRequest_goesOn (who : Requester) (from_ : Nat) (s : State) :
    GoesOn s (execProbeRequest who from_ s) := by
  refine .next fun h => ?_
  split_ifs <;> simp [h]

theorem execProbeAnswer_goesOn (i : Nat) (x : ProbeAns) (s : State) : GoesOn s (execProbeAnswer i x s) := by
  refine .next fun h => ?_
  repeat' split
  all_goals simp [h]

theorem execProbeTimeout_goesOn (i : Nat) (s : State) : GoesOn s (execProbeTimeout i s) := by
  refine .next fun h => ?_
  repeat' split
  all_goals simp [h]

@[simp] theorem State.prfrel_mem (s : State) (v : Word) : (s.prfrel v).mem = s.mem := by
  unfold State.prfrel
  dsimp only
  split_ifs <;> rfl

theorem execPrfrel_goesOn (v : Word) (s : State) : GoesOn s (execPrfrel v s) := .next fun h => by simpa using h

@[simp] theorem State.endRemote_mem (s : State) (r : Remote) (data : Option (List Byte)) (lost : Bool) :
    (s.endRemote r data lost).mem = s.mem := rfl

@[simp] theorem State.bring_mem (s : State) (r : Remote) (data : List Byte) (bad : Option Trap) :
    (s.bring r data bad).mem = s.mem := by
  unfold State.bring
  split <;> rfl

@[simp] theorem State.answeredRemote_mem (s : State) (r : Remote) (data : List Byte) :
    (s.answeredRemote r data).mem = s.mem := by
  unfold State.answeredRemote
  split_ifs <;> simp

@[simp] theorem State.failRemote_mem (s : State) (r : Remote) (t : Trap) (lost : Bool) :
    (s.failRemote r t lost).mem = s.mem := by
  unfold State.failRemote
  repeat' split
  all_goals simp

@[simp] theorem State.onRemote_mem (s : State) (id : Nat) (f : Remote → Remote) : (s.onRemote id f).mem = s.mem := rfl

@[simp] theorem State.withRemote_wf (s : State) (n id : Nat) (f : State → Remote → State)
    (hf : ∀ t r, Memory.wf t.mem = true → Memory.wf (f t r).mem = true) (h : Memory.wf s.mem = true) :
    Memory.wf (s.withRemote n id f).mem = true := by
  unfold State.withRemote
  split
  · refine State.atCore_wf _ _ _ (fun t ht => ?_) h
    split
    · exact hf _ _ ht
    · exact ht
  · exact h

theorem execRemoteAnswer_goesOn (x : RemoteAns) (s : State) : GoesOn s (execRemoteAnswer x s) := by
  refine .next ?_
  refine State.withRemote_wf _ _ _ _ fun t r ht => ?_
  split <;> simp [ht]

theorem execRetransmitTimeout_goesOn (core id : Nat) (s : State) : GoesOn s (execRetransmitTimeout core id s) := by
  refine .next ?_
  refine State.withRemote_wf _ _ _ _ fun t r ht => ?_
  split_ifs <;> simp [ht]

theorem execHibernatingTimeout_goesOn (core id : Nat) (s : State) : GoesOn s (execHibernatingTimeout core id s) := by
  refine .next ?_
  refine State.withRemote_wf _ _ _ _ fun t r ht => ?_
  split
  · split_ifs <;> simp [ht]
  · exact ht

@[simp] theorem State.endTree_mem (s : State) (t : Tree) : (s.endTree t).mem = s.mem := by
  unfold State.endTree
  split
  · simp
  · refine State.atCore_mem _ _ _ fun u => ?_
    split
    · split_ifs <;> simp
    · rfl

theorem execTreeStreamReceive_goesOn (x : TreeStream) (s0 : State) : GoesOn s0 (execTreeStreamReceive x s0) := by
  refine .next fun h => ?_
  split_ifs <;> simp [h]

theorem execTreeAck_goesOn (id from_ failed : Nat) (s : State) : GoesOn s (execTreeAck id from_ failed s) := by
  refine .next fun h => ?_
  dsimp only
  repeat' split
  all_goals simp [h]

@[simp] theorem State.bindLater_mem (s : State) (q : BitVec 4) (peer : Option (Nat × Nat)) :
    (s.bindLater q peer).mem = s.mem := rfl

@[simp] theorem State.setFifo_wf (s : State) (v : Word) (peer : Option (Nat × Nat)) (h : Memory.wf s.mem = true) :
    Memory.wf (s.setFifo v peer).mem = true := by
  unfold State.setFifo
  dsimp only
  split
  · rw [State.withTaskAt_mem _ _ _ _ _ (fun u => by split_ifs <;> simp) (by simp)]
    exact h
  · simp [h, State.postEvent_wf]

theorem execFifoBind_goesOn (v : Word) (s : State) : GoesOn s (execFifoBind v s) := by
  refine .next fun h => ?_
  split_ifs <;> simp [h]

theorem execFifoUnbind_goesOn (v : Word) (s : State) : GoesOn s (execFifoUnbind v s) := by
  refine .next fun h => ?_
  split_ifs <;> simp [h]

@[simp] theorem State.onChannel_mem (s : State) (p : Nat × Nat) (f : Fifo → Fifo) :
    (s.onChannel p f).mem = s.mem := by
  unfold State.onChannel
  repeat' split
  all_goals simp

@[simp] theorem State.fifoOut_mem (s : State) (core : Nat) (q : BitVec 4) : (s.fifoOut core q).mem = s.mem := by
  unfold State.fifoOut
  dsimp only
  repeat' split
  all_goals simp

theorem execFifoWordTransfer_goesOn (who which : Nat) (x : FifoMove) (s : State) :
    GoesOn s (execFifoWordTransfer who which x s) := by
  refine .next fun h => ?_
  split <;> simp [h]

theorem execChannelError_goesOn (peer chan : Nat) (s : State) :
    GoesOn s (execChannelError peer chan s) := .next fun h => by simpa using h

/-! Captures, restores and page faults. -/

@[simp] theorem State.unbind_mem (s0 : State) (n : Nat) : (s0.unbind n).mem = s0.mem := by
  unfold State.unbind
  dsimp only
  split <;> simp

@[simp] theorem State.askCapture_mem (s : State) (kind : CapKind) (n slot : Nat) :
    (s.askCapture kind n slot).mem = s.mem := by
  simp [State.askCapture]

@[simp] theorem State.refuse_wf (s : State) (status : BitVec 8) (n : Nat) (serial : BitVec 32) (i : Nat)
    (h : Memory.wf s.mem = true) :
    Memory.wf (s.refuse status n serial i).mem = true := by
  simp [State.refuse, h, State.postEvent_wf]

@[simp] theorem State.captureGroup_wf (s : State) (kind : CapKind) (serial : BitVec 32) (named : Nat → Bool)
    (g : List Nat) (h : Memory.wf s.mem = true) : Memory.wf (s.captureGroup kind serial named g).mem = true := by
  unfold State.captureGroup
  dsimp only
  split
  · refine foldl_wf _ (by simp) _ _ ?_
    refine foldl_wf _ (fun t i ht => ?_) _ _ h
    repeat' split
    all_goals simp [ht]
  · refine foldl_wf _ (fun t i ht => ?_) _ _ h
    repeat' split
    all_goals simp [ht]

@[simp] theorem State.requestCapture_wf (s : State) (kind : CapKind) (v : Word) (h : Memory.wf s.mem = true) :
    Memory.wf (s.requestCapture kind v).mem = true := by
  unfold State.requestCapture
  dsimp only
  split
  · simp [h]
  · split
    · simp [h]
    · exact foldl_wf _ (fun t g ht => State.captureGroup_wf t _ _ _ g ht) _ _ h

theorem execPreempt_goesOn (v : Word) (s : State) : GoesOn s (execPreempt v s) := by
  refine .next fun h => ?_
  split_ifs <;> simp [h]

theorem execSwitch_goesOn (v : Word) (s : State) : GoesOn s (execSwitch v s) := by
  refine .next fun h => ?_
  split_ifs <;> simp [h]

theorem execChildPreemptTimeout_goesOn (serial : BitVec 32) (s : State) :
    GoesOn s (execChildPreemptTimeout serial s) := by
  refine .next fun h => ?_
  dsimp only
  repeat' split
  all_goals simp [h]

@[simp] theorem State.settleLands_mem (s : State) : s.settleLands.mem = s.mem := by simp [State.settleLands]

@[simp] theorem State.settleHead_mem (s : State) : s.settleHead.mem = s.mem := by
  unfold State.settleHead
  repeat' split
  all_goals simp

@[simp] theorem State.settle_mem (s : State) : s.settle.mem = s.mem := by simp [State.settle]

@[simp] theorem State.halt_mem (s : State) (st : CtxSt) : (s.halt st).mem = s.mem := by simp [State.halt]

@[simp] theorem State.stopPaged_mem (s : State) : s.stopPaged.mem = s.mem := by
  unfold State.stopPaged
  refine foldl_mem _ (fun t e => ?_) _ _
  split <;> simp

theorem execCapture_goesOn (s : State) : GoesOn s (execCapture s) := by
  refine .next fun h => ?_
  dsimp only
  repeat' split
  all_goals simp [h]

@[simp] theorem State.slotLook_mem (s : State) (a : Nat) : (s.slotLook a).mem = s.mem := by
  unfold State.slotLook
  split_ifs <;> rfl

@[simp] theorem State.sealSlot_mem (s : State) (n : Nat) : (s.sealSlot n).mem = s.mem := by simp [State.sealSlot]

@[simp] theorem State.readSlot_mem (s : State) (n : Nat) : (s.readSlot n).mem = s.mem := by
  unfold State.readSlot
  dsimp only
  rw [foldl_mem _ (fun t l => t.evictLine_mem l)]
  simp

theorem execCaptureComplete_goesOn (s : State) : GoesOn s (execCaptureComplete s) := by
  refine .next fun h => ?_
  split
  · dsimp only
    split
    · exact h
    · have hu : Memory.wf ((s.core.lands.filter fun l => l.kind == .atomic && l.awaits.isEmpty).foldl
          (fun t l => t.land l) s).settleHead.mem = true := by
        rw [State.settleHead_mem, foldl_mem _ (fun t l => t.land_mem l)]
        exact h
      generalize ((s.core.lands.filter _).foldl _ s).settleHead = u at hu ⊢
      refine wf_ite (State.dropSaved_wf _ _ ?_) ?_ <;> simp [hu, State.postEvent_wf]
  · exact h

@[simp] theorem State.resumeSlot_wf (s : State) (v : Word) (h : Memory.wf s.mem = true) :
    Memory.wf (s.resumeSlot v).mem = true := by
  unfold State.resumeSlot
  dsimp only
  repeat' split
  all_goals simp [h, State.postEvent_wf]

theorem execResume_goesOn (v : Word) (s : State) : GoesOn s (execResume v s) := by
  refine .next fun h => ?_
  split_ifs <;> simp [h]

theorem State.resolveNow_mem (s t : State) (k : Task) (kind : BitVec 3) (va : Word) (n fuel : Nat) (l : List Span)
    (h : s.resolveNow k kind va n fuel = .ok (t, l)) : t.mem = s.mem := by
  induction fuel generalizing s with
  | zero => cases h
  | succ fuel ih =>
    unfold State.resolveNow at h
    split at h
    · cases h
    · simpa using ih _ h
    · split at h
      · cases h
      · simpa using ih _ h
      · cases h; rfl

@[simp] theorem State.startLoad_mem (s : State) (id : Nat) (ps : List Piece) : (s.startLoad id ps).mem = s.mem := by
  unfold State.startLoad
  dsimp only
  split_ifs <;> simp

@[simp] theorem State.dropReissue_mem (s : State) : s.dropReissue.mem = s.mem := by
  unfold State.dropReissue
  split <;> rfl

@[simp] theorem State.resend_mem (s : State) (which : Remote → Bool) : (s.resend which).mem = s.mem := by
  simp [State.resend]

@[simp] theorem State.reissueAll_wf (s : State) (fuel : Nat) (h : Memory.wf s.mem = true) :
    Memory.wf (s.reissueAll fuel).mem = true := by
  induction fuel generalizing s with
  | zero => exact h
  | succ fuel ih =>
    have hd : Memory.wf s.dropReissue.mem = true := by rw [State.dropReissue_mem]; exact h
    change Memory.wf (match s.core.reissue with | [] => s | _ :: _ => _ : State).mem = true
    split
    · exact h
    · dsimp only
      split
      · next l t _ _ =>
        cases l.kind with
        | load va n sext =>
          dsimp only
          split
          · split
            · exact ih _ hd
            · split
              · exact State.takeTrap_wf _ _ h
              · split
                · exact ih _ (State.takeTrap_wf _ _ hd)
                · exact State.takeTrap_wf _ _ hd
          · refine ih _ ?_
            rw [State.startLoad_mem, State.onCore_mem]
            exact (State.resolveNow_mem _ _ _ _ _ _ _ _ ‹_›) ▸ h
        | atomic => exact ih _ (by rw [State.resend_mem]; exact h)
        | _ => exact ih _ h
      · exact ih _ h

@[simp] theorem State.reissueNow_wf (s : State) (h : Memory.wf s.mem = true) : Memory.wf s.reissueNow.mem = true := by
  simp [State.reissueNow, h]

@[simp] theorem State.reissueFirst_wf (s : State) (h : Memory.wf s.mem = true) :
    Memory.wf s.reissueFirst.mem = true := by
  unfold State.reissueFirst
  dsimp only
  split_ifs <;> simp [h]

@[simp] theorem State.resumeRegs_mem (s : State) (m0 : Word) (flag : BitVec 128) :
    (s.resumeRegs m0 flag).mem = s.mem := rfl

@[simp] theorem State.resumeFbase_mem (s : State) : s.resumeFbase.mem = s.mem := by
  unfold State.resumeFbase
  split <;> rfl

@[simp] theorem State.reissueBoundary_wf (s : State) (h : Memory.wf s.mem = true) :
    Memory.wf s.reissueBoundary.mem = true := by
  unfold State.reissueBoundary
  split_ifs <;> simp [h]

@[simp] theorem State.landOwn_mem (s : State) : s.landOwn.mem = s.mem := by
  unfold State.landOwn
  split <;> simp

@[simp] theorem State.placeSaved_mem (s : State) (x : Saved) : (s.placeSaved x).mem = s.mem := rfl

@[simp] theorem State.goOn_mem (s : State) (m0 : Word) (flag : BitVec 128) : (s.goOn m0 flag).mem = s.mem := by
  simp [State.goOn]

@[simp] theorem State.resumeSaved_mem (s : State) (x : Saved) : (s.resumeSaved x).mem = s.mem := by
  simp [State.resumeSaved]

theorem execContextRestore_goesOn (n : Nat) (s : State) : GoesOn s (execContextRestore n s) := by
  refine .next fun h => ?_
  split
  · split
    · exact h
    · dsimp only
      split
      · exact State.reissueNow_wf _ (by simp [h])
      · simp [h]
  · exact h

@[simp] theorem State.retryFault_mem (s : State) (v : Word) : (s.retryFault v).mem = s.mem := by
  unfold State.retryFault
  split
  · refine State.atCore_mem _ _ _ fun t => ?_
    split
    · split
      · simp
      · split <;> rfl
      · rfl
    · split <;> rfl
  · rfl

@[simp] theorem State.failHeld_wf (s : State) (h : Memory.wf s.mem = true) : Memory.wf s.failHeld.mem = true := by
  unfold State.failHeld
  split <;> simp [h, State.takeTrap_wf]

@[simp] theorem State.failFault_wf (s : State) (v : Word) (h : Memory.wf s.mem = true) :
    Memory.wf (s.failFault v).mem = true := by
  unfold State.failFault
  split
  · refine State.atCore_wf _ _ _ (fun t ht => ?_) h
    split
    · split
      · simp [ht]
      · split <;> simp [ht]
      · exact ht
    · exact ht
  · exact h

theorem execRetry_goesOn (v : Word) (s : State) : GoesOn s (execRetry v s) := by
  refine .next fun h => ?_
  split_ifs <;> simp [h]

theorem execFail_goesOn (v : Word) (s : State) : GoesOn s (execFail v s) := by
  refine .next fun h => ?_
  split_ifs <;> simp [h]

@[simp] theorem State.dropLeaves_mem (s : State) : s.dropLeaves.mem = s.mem := rfl

@[simp] theorem State.startInval_mem (s : State) (v : Word) : (s.startInval v).mem = s.mem := by
  unfold State.startInval
  split_ifs <;> rfl

theorem execTlbInvalidate_goesOn (v : Word) (s : State) :
    GoesOn s (execTlbInvalidate v s) := .next fun h => by simpa using h

theorem execInvalidationComplete_goesOn (s : State) : GoesOn s (execInvalidationComplete s) := by
  refine .next fun h => ?_
  split_ifs <;> simp [h, State.postEvent_wf]

@[simp] theorem State.setEvbase_wf (s : State) (v : Word) (h : Memory.wf s.mem = true) :
    Memory.wf (s.setEvbase v).mem = true := by
  simp [State.setEvbase, h, State.flushEvents_wf]

@[simp] theorem State.setEvcons_wf (s : State) (v : Word) (h : Memory.wf s.mem = true) :
    Memory.wf (s.setEvcons v).mem = true := by
  simp [State.setEvcons, h, State.flushEvents_wf]

theorem execEvbaseWrite_goesOn (v : Word) (s : State) : GoesOn s (execEvbaseWrite v s) := .next fun h => by simp [h]

theorem execEvconsWrite_goesOn (v : Word) (s : State) : GoesOn s (execEvconsWrite v s) := .next fun h => by simp [h]

/-! Power, clocks, repair, keys and scrubbing. -/

@[simp] theorem State.refreshStep_mem (s : State) (c : Nat) : (s.refreshStep c).mem = s.mem := rfl

@[simp] theorem State.writeStep_mem (s : State) (c : Nat) (v : Word) : (s.writeStep c v).mem = s.mem := by
  unfold State.writeStep
  split_ifs <;> rfl

@[simp] theorem State.writeThr_mem (s : State) (c : Nat) (v : Word) : (s.writeThr c v).mem = s.mem := by
  unfold State.writeThr
  split_ifs <;> rfl

@[simp] theorem State.writeForcewa_mem (s : State) (c : Nat) (v : Word) : (s.writeForcewa c v).mem = s.mem := rfl

theorem execClctlStep_goesOn (c : Nat) (v : Word) (s : State) :
    GoesOn s (execClctlStep c v s) := .next fun h => by simpa using h

theorem execClctlThr_goesOn (c : Nat) (v : Word) (s : State) :
    GoesOn s (execClctlThr c v s) := .next fun h => by simpa using h

theorem execClctlForcewa_goesOn (c : Nat) (v : Word) (s : State) : GoesOn s (execClctlForcewa c v s) := .next fun h => h

theorem execSwitchPoint_goesOn (c : Nat) (s : State) : GoesOn s (execSwitchPoint c s) := by
  refine .next fun h => ?_
  split_ifs <;> simp [h]

theorem execClockPauseEnd_goesOn (c : Nat) (s : State) : GoesOn s (execClockPauseEnd c s) := .next fun h => h

theorem execThrottleApply_goesOn (c : Nat) (s : State) : GoesOn s (execThrottleApply c s) := by
  refine .next fun h => ?_
  split_ifs <;> simp [h]

theorem execSensorSample_goesOn (n : Nat) (deg : BitVec 16) (s : State) : GoesOn s (execSensorSample n deg s) := by
  refine .next fun h => ?_
  split
  · exact h
  · dsimp only
    rw [foldl_mem _ (by simp)]
    simp only [apply_ite State.mem, State.pendIrq_mem, State.setReg_mem, ite_self, h]

@[simp] theorem State.moveLim_mem (s : State) (d : Int) : (s.moveLim d).mem = s.mem := rfl

theorem execPowerSample_goesOn (mw uw : Nat) (s : State) : GoesOn s (execPowerSample mw uw s) := by
  refine .next fun h => ?_
  split_ifs <;> simp [h]

theorem execLimiterFallCheck_goesOn (s : State) : GoesOn s (execLimiterFallCheck s) := by
  refine .next fun h => ?_
  split_ifs <;> simp [h]

theorem execLimiterRiseCheck_goesOn (s : State) : GoesOn s (execLimiterRiseCheck s) := by
  refine .next fun h => ?_
  split_ifs <;> simp [h]

@[simp] theorem State.charge_wf (s : State) (ctx uj : Nat) (h : Memory.wf s.mem = true) :
    Memory.wf (s.charge ctx uj).mem = true := by
  unfold State.charge
  split_ifs <;> simp [h, State.agentWrite_wf]

theorem execAccountingUpdate_goesOn (uj : List Nat) (s : State) : GoesOn s (execAccountingUpdate uj s) := by
  refine .next fun h => ?_
  split
  · exact h
  · dsimp only
    refine foldl_wf _ (fun t n ht => ?_) _ _ (foldl_wf _ (fun t c ht => ?_) _ _ h)
    · split
      · exact State.charge_wf _ _ _ ht
      · exact ht
    · exact foldl_wf _ (fun u p hu => State.charge_wf _ _ _ hu) _ _ ht

theorem execCorrectedError_goesOn (c : Nat) (s : State) : GoesOn s (execCorrectedError c s) := by
  refine .next fun h => ?_
  split_ifs <;> simp [h]

@[simp] theorem State.unrestore_mem (s : State) (as : CapKind → CapKind) (p : Core → Bool) :
    (s.unrestore as p).mem = s.mem := by
  unfold State.unrestore
  refine foldl_mem _ (fun t c => ?_) _ _
  split
  · split_ifs <;> simp
  · rfl

@[simp] theorem State.startRetire_wf (s : State) (c : Nat) (h : Memory.wf s.mem = true) :
    Memory.wf (s.startRetire c).mem = true := by
  unfold State.startRetire
  refine foldl_wf _ (fun t x ht => ?_) _ _ h
  split
  · dsimp only
    split_ifs <;> simp [ht]
  · exact ht

@[simp] theorem State.orphanSlots_wf (s : State) (h : Memory.wf s.mem = true) :
    Memory.wf s.orphanSlots.mem = true := by
  unfold State.orphanSlots
  refine foldl_wf _ (fun t p ht => ?_) _ _ h
  split
  · split_ifs <;> simp [ht, State.postEvent_wf]
  · exact ht

@[simp] theorem State.replaceCluster_mem (s : State) (c : Nat) : (s.replaceCluster c).mem = s.mem := by
  unfold State.replaceCluster
  dsimp only
  split_ifs <;> rfl

@[simp] theorem State.endRetire_wf (s : State) (c : Nat) (h : Memory.wf s.mem = true) :
    Memory.wf (s.endRetire c).mem = true := by
  simp [State.endRetire, h]

@[simp] theorem State.writeClret_wf (s : State) (v : Word) (h : Memory.wf s.mem = true) :
    Memory.wf (s.writeClret v).mem = true := by
  unfold State.writeClret
  split <;> dsimp only <;> split_ifs <;> simp [h]

theorem execClusterRetire_goesOn (v : Word) (s : State) : GoesOn s (execClusterRetire v s) := .next fun h => by simp [h]

@[simp] theorem State.writeKwctl_mem (s : State) (v : Word) : (s.writeKwctl v).mem = s.mem := by
  unfold State.writeKwctl
  split_ifs <;> rfl

theorem execKeyWrapLoad_goesOn (v : Word) (s : State) :
    GoesOn s (execKeyWrapLoad v s) := .next fun h => by simpa using h

@[simp] theorem State.installKey_mem (s : State) (j : KeyJob) : (s.installKey j).mem = s.mem := by
  unfold State.installKey
  split_ifs <;> simp

theorem execKeyWrapDone_goesOn (s : State) : GoesOn s (execKeyWrapDone s) := by
  refine .next fun h => ?_
  split
  · exact h
  · dsimp only
    simp only [State.pendIrq_mem, State.setRfld_mem]
    split
    · simp [h]
    · exact h

@[simp] theorem State.writeShctl_mem (s : State) (v : Word) : (s.writeShctl v).mem = s.mem := by
  unfold State.writeShctl
  split <;> dsimp only <;> split_ifs <;> rfl

theorem execShutterFire_goesOn (v : Word) (s : State) :
    GoesOn s (execShutterFire v s) := .next fun h => by simpa using h

theorem execShutterN_goesOn (s : State) : GoesOn s (execShutterN s) := by
  refine .next fun h => ?_
  split_ifs <;> simp [h]

theorem execReadout_goesOn (addr : Word) (s : State) : GoesOn s (execReadout addr s) := .next fun h => h

theorem execEyeMeasurement_goesOn (sel vmarg tmarg : BitVec 16) (s : State) :
    GoesOn s (execEyeMeasurement sel vmarg tmarg s) := by
  refine .next fun h => ?_
  split_ifs <;> simp [h]

@[simp] theorem State.writeHbmrep_mem (s : State) (v : Word) : (s.writeHbmrep v).mem = s.mem := by
  unfold State.writeHbmrep
  dsimp only
  split_ifs <;> rfl

@[simp] theorem State.mapLane_mem (s : State) (sel spare : Nat) : (s.mapLane sel spare).mem = s.mem := rfl

theorem execLaneRepair_goesOn (v : Word) (s : State) : GoesOn s (execLaneRepair v s) := by
  refine .next fun h => ?_
  split_ifs <;> simp [h]

theorem execChannelRetrain_goesOn (v : Word) (s : State) : GoesOn s (execChannelRetrain v s) := by
  refine .next fun h => ?_
  split_ifs <;> simp [h]

theorem execHbmrepDone_goesOn (ok : Bool) (s : State) : GoesOn s (execHbmrepDone ok s) := by
  refine .next fun h => ?_
  repeat' split
  all_goals simp [h]

@[simp] theorem State.scrubBack_mem (s : State) : s.scrubBack.mem = s.mem := by
  unfold State.scrubBack
  dsimp only
  repeat' split
  all_goals rfl

theorem execScrubRead_goesOn (line : Nat) (s : State) : GoesOn s (execScrubRead line s) := by
  refine .next fun h => ?_
  dsimp only
  repeat' split
  all_goals simp [h]

theorem execScrubWriteback_goesOn (s : State) : GoesOn s (execScrubWriteback s) := by
  refine .next fun h => ?_
  split_ifs <;> simp [h]

@[simp] theorem State.loupeEntry_wf (s : State) (page count : Nat) (h : Memory.wf s.mem = true) :
    Memory.wf (s.loupeEntry page count).mem = true := by
  simp [State.loupeEntry, h, State.agentWrite_wf]

theorem execLoupeWindowEnd_goesOn (s : State) : GoesOn s (execLoupeWindowEnd s) := by
  refine .next fun h => ?_
  split
  · exact h
  · exact foldl_wf _ (fun t p ht => State.loupeEntry_wf t _ _ ht) _ _ h

/-! Safelight, contact sheets, resets and rejoins. -/

@[simp] theorem State.recall_mem (s : State) (p : HandOff → Bool) : (s.recall p).mem = s.mem := by
  unfold State.recall
  dsimp only
  rw [foldl_mem _ (fun t x => ?_)]
  rw [foldl_mem _ (fun u x => by simp)]

@[simp] theorem State.unbindAll_mem (s : State) (p : Core → Bool) : (s.unbindAll p).mem = s.mem := by
  unfold State.unbindAll
  refine foldl_mem _ (fun t c => ?_) _ _
  dsimp only
  split_ifs <;> simp

@[simp] theorem State.captureAll_mem (s : State) : s.captureAll.mem = s.mem := by simp [State.captureAll]

@[simp] theorem State.warn_mem (s : State) (lost : Bool) : (s.warn lost).mem = s.mem := by
  unfold State.warn
  split
  · rfl
  · dsimp only
    rw [foldl_mem _ (fun t x => by split_ifs <;> simp)]
    simp

theorem execPowerFailWarning_goesOn (s : State) : GoesOn s (execPowerFailWarning s) := .next fun h => by simpa using h

theorem execTripOverheatWarning_goesOn (n : Nat) (s : State) : GoesOn s (execTripOverheatWarning n s) := by
  refine .next fun h => ?_
  repeat' split
  all_goals simp [h]

@[simp] theorem State.refit_mem (s : State) : s.refit.mem = s.mem := by
  unfold State.refit
  dsimp only
  split_ifs <;> rfl

@[simp] theorem State.validateList_mem (s0 : State) : s0.validateList.mem = s0.mem := by simp [State.validateList]

theorem execFixerListValidate_goesOn (s : State) : GoesOn s (execFixerListValidate s) := .next fun h => by simpa using h

@[simp] theorem State.writeFxctl_mem (s : State) (v : Word) : (s.writeFxctl v).mem = s.mem := by
  unfold State.writeFxctl
  split_ifs <;> simp

theorem execFire_goesOn (v : Word) (s : State) : GoesOn s (execFire v s) := by
  refine .next fun h => ?_
  split_ifs <;> simp [h]

theorem execSafelightDisable_goesOn (s : State) : GoesOn s (execSafelightDisable s) := .next fun h => by simpa using h

theorem execResmtrUpdate_goesOn (mj : BitVec 32) (s : State) : GoesOn s (execResmtrUpdate mj s) := by
  refine .next fun h => ?_
  split_ifs <;> simp [h]

theorem execFixerDrain_goesOn (s : State) : GoesOn s (execFixerDrain s) := by
  refine .next fun h => ?_
  split_ifs <;> simp [h]

@[simp] theorem State.drainRanges_wf (s : State) (l : List (Nat × Nat)) (h : Memory.wf s.mem = true) :
    Memory.wf (s.drainRanges l).mem = true := by
  simp [State.drainRanges, h, memWrite_wf]

theorem execFixerChunk_goesOn (s : State) : GoesOn s (execFixerChunk s) := by
  refine .next fun h => ?_
  split
  · exact h
  · split
    · exact h
    · refine wf_ite h ?_
      exact State.drainRanges_wf s _ h

theorem execContactSheetWrite_goesOn (s : State) : GoesOn s (execContactSheetWrite s) := by
  refine .next fun h => ?_
  split_ifs <;> simp [h, memWrite_wf]

theorem execBrownOut_goesOn (s : State) : GoesOn s (execBrownOut s) := by
  refine .next fun h => ?_
  split
  · rw [State.warn_mem]; exact h
  · refine foldl_wf _ (fun t c ht => ?_) _ _ ?_
    · simpa using ht
    · rw [State.unbindAll_mem, State.unrestore_mem, State.recall_mem]
      exact h

theorem execSafelightHold_goesOn (s : State) : GoesOn s (execSafelightHold s) := by
  refine .next fun h => ?_
  split_ifs <;> simp [h]

@[simp] theorem State.unhold_wf (s : State) (h : Memory.wf s.mem = true) : Memory.wf s.unhold.mem = true := by
  unfold State.unhold
  repeat' split
  all_goals simp [h]

theorem execSafelightExit_goesOn (s : State) : GoesOn s (execSafelightExit s) := by
  refine .next fun h => ?_
  split
  · exact h
  · split
    · exact h
    · dsimp only
      refine foldl_wf _ (fun t n ht => State.atCore_wf _ _ _ (fun u hu => by simp [hu]) ht) _ _ ?_
      refine foldl_wf _ (fun t c ht => by simp [ht]) _ _ ?_
      simpa using h

@[simp] theorem State.trainLanes_mem (s : State) (p : ResetPins) : (s.trainLanes p).mem = s.mem := by
  unfold State.trainLanes
  refine foldl_mem _ (fun t sel => ?_) _ _
  split <;> simp

@[simp] theorem State.measure_mem (s : State) : s.measure.mem = s.mem := rfl

@[simp] theorem State.coldBoot_wf (s : State) (p : ResetPins) (h : Memory.wf s.mem = true) :
    Memory.wf (s.coldBoot p).mem = true := by
  unfold State.coldBoot
  dsimp only
  split
  · simp [h]
  · exact State.physWrite_wf _ _ _ _ (by simp [h])

@[simp] theorem State.trained_mem (s : State) (p : ResetPins) : (s.trained p).mem = s.mem := by
  unfold State.trained
  dsimp only
  split_ifs <;> simp

@[simp] theorem State.askMembers_mem (s : State) : s.askMembers.mem = s.mem := by
  unfold State.askMembers
  dsimp only
  rw [foldl_mem _ (fun t n => ?_), State.sawGroups_mem]
  split
  · rfl
  · exact foldl_mem _ (by simp) _ _

@[simp] theorem State.restore_wf (s : State) (p : ResetPins) (h : Memory.wf s.mem = true) :
    Memory.wf (s.restore p).mem = true := by
  unfold State.restore
  simp only [State.setReg_mem]
  refine foldl_wf _ (fun t r ht => State.postEvent_wf t _ ht) _ _ ?_
  simp only [State.askMembers_mem, State.setRfld_mem]
  exact foldl_keeps (fun m => Memory.wf m = true) _ (fun m c hm => memSet_wf m _ _ hm) _ _ (outsideHbm_wf _ h)

@[simp] theorem State.examine_wf (s : State) (p : ResetPins) (h : Memory.wf s.mem = true) :
    Memory.wf (s.examine p).mem = true := by
  unfold State.examine
  refine State.postEvent_wf _ _ ?_
  rw [State.setRfld_mem]
  split
  · exact State.restore_wf _ _ h
  · split
    · exact h
    · exact State.spendSheet_wf s h

theorem execModuleReset_goesOn (x : ResetEvent) (s : State) : GoesOn s (execModuleReset x s) := by
  refine .next fun h => ?_
  repeat' split
  all_goals simp [h]

@[simp] theorem State.dropLaunch_wf (s : State) (serial : BitVec 32) (h : Memory.wf s.mem = true) :
    Memory.wf (s.dropLaunch serial).mem = true := by
  unfold State.dropLaunch
  refine State.postEvent_wf _ _ ?_
  have hs : ∀ l : List (Nat × Saved), Memory.wf (l.foldl (fun (t : State) p =>
      match p.2.core.task with
      | some k => (({ t with slots := Sparse.del t.slots p.1 } : State).leave p.2.core k)
      | none => t) s).mem = true := fun l => foldl_wf _ (fun t p ht => by split <;> simp [ht]) l s h
  split
  · exact State.complete_wf _ _ _ (hs _)
  · exact hs _

@[simp] theorem State.endRejoin_wf (s0 : State) (r : Rejoin) (h : Memory.wf s0.mem = true) :
    Memory.wf (s0.endRejoin r).mem = true := by
  unfold State.endRejoin
  dsimp only
  split_ifs <;> simp [h]

theorem execCollectiveRejoin_goesOn (n : Nat) (x : RejoinEvent) (s : State) :
    GoesOn s (execCollectiveRejoin n x s) := by
  refine .next fun h => ?_
  dsimp only
  repeat' split
  all_goals simp [h]

theorem execStepAnnouncement_goesOn (pos : Nat) (serial stepv : BitVec 32) (s : State) :
    GoesOn s (execStepAnnouncement pos serial stepv s) := .next fun h => by simp [h]

/-! The host ports and their clocks. -/

theorem execTimelineWrite_goesOn (t : BitVec 12) (v : Word) (s : State) :
    GoesOn s (execTimelineWrite t v s) := .next fun h => by simpa using h

@[simp] theorem State.dropWrite_mem (s : State) (w : Nat) : (s.dropWrite w).mem = s.mem := rfl

theorem execLandingWindowWrite_goesOn (port : BitVec 1) (w : BitVec 6) (off : BitVec 16) (data : List Byte)
    (s : State) : GoesOn s (execLandingWindowWrite port w off data s) := by
  refine .next fun h => ?_
  dsimp only
  split
  · simp [h]
  · split
    · next t _ hput =>
      have ht : Memory.wf t.mem = true := by
        split at hput <;> cases hput
        · simpa using h
        · simpa using State.agentWrite_wf _ _ _ h
      split
      · simpa using ht
      · exact ht
    · simp [h]

theorem State.windowStep_goesOn (s : State) (x : Input) (port : BitVec 1) (w : BitVec 6) (off : BitVec 16)
    (data : List Byte) : GoesOn s (s.windowStep x port w off data) := by
  unfold State.windowStep
  split
  · dsimp only
    split_ifs
    · exact ⟨_, rfl, id⟩
    · exact execLandingWindowWrite_goesOn _ _ _ _ { s with landWait := _ }
    · exact execLandingWindowWrite_goesOn _ _ _ _ s
  · exact execLandingWindowWrite_goesOn _ _ _ _ s

theorem execBar4Access_goesOn (port : BitVec 1) (off : BitVec 36) (x : Bar4) (s : State) :
    GoesOn s (execBar4Access port off x s) := by
  refine .next fun h => ?_
  repeat' split
  all_goals simp [h, State.physWrite_wf]

@[simp] theorem State.turnAway_mem (s : State) (port : BitVec 1) (a : Instr) : (s.turnAway port a).mem = s.mem := by
  unfold State.turnAway
  split <;> rfl

@[simp] theorem State.keyExchange_mem (s : State) (port : Nat) : (s.keyExchange port).mem = s.mem := rfl

theorem execSpdmRequest_goesOn (port : BitVec 1) (keyExchange : Bool) (s : State) :
    GoesOn s (execSpdmRequest port keyExchange s) := by
  refine .next fun h => ?_
  split_ifs <;> simp [h]

theorem execHostLinkDown_goesOn (port : BitVec 1) (s : State) : GoesOn s (execHostLinkDown port s) := by
  refine .next fun h => ?_
  split_ifs <;> simp [h]

theorem execHostLinkUp_goesOn (port : BitVec 1) (s : State) : GoesOn s (execHostLinkUp port s) := .next fun h => h

@[simp] theorem State.setPtp_mem (s : State) (v : Word) : (s.setPtp v).mem = s.mem := by
  unfold State.setPtp
  split_ifs <;> rfl

theorem execPtpset_goesOn (v : Word) (s : State) : GoesOn s (execPtpset v s) := .next fun h => by simpa using h

@[simp] theorem State.discipline_mem (s : State) (err : Int) (tol : Nat) : (s.discipline err tol).mem = s.mem := by
  unfold State.discipline
  split_ifs <;> rfl

theorem execPpsPulse_goesOn (s : State) : GoesOn s (execPpsPulse s) := by
  refine .next fun h => ?_
  split_ifs <;> simp [h]

theorem execPtmResponse_goesOn (port : BitVec 1) (ns : Word) (s : State) : GoesOn s (execPtmResponse port ns s) := by
  refine .next fun h => ?_
  split_ifs <;> simp [h]

@[simp] theorem State.tickPtp_mem (s : State) : s.tickPtp.mem = s.mem := rfl

/-! Writes of module registers. -/

@[simp] theorem State.writePlain_mem (s : State) (k : Nat) (v : Word) : (s.writePlain k v).mem = s.mem := by
  unfold State.writePlain
  split_ifs <;> rfl

@[simp] theorem State.writeIf_mem (s : State) (k lo w : Nat) (v : Word) (ok : Nat → Bool) :
    (s.writeIf k lo w v ok).mem = s.mem := by
  unfold State.writeIf
  split_ifs <;> rfl

@[simp] theorem State.writeFxarea_mem (s : State) (v : Word) : (s.writeFxarea v).mem = s.mem := by
  simp [State.writeFxarea]

@[simp] theorem State.writeFxthr_mem (s : State) (v : Word) : (s.writeFxthr v).mem = s.mem := rfl

@[simp] theorem State.writeCsctl_mem (s : State) (v : Word) : (s.writeCsctl v).mem = s.mem := by
  simp [State.writeCsctl]

@[simp] theorem State.writeTlimit_mem (s : State) (v : Word) : (s.writeTlimit v).mem = s.mem := rfl

@[simp] theorem State.writeQctl_mem (s : State) (k : Nat) (v : Word) : (s.writeQctl k v).mem = s.mem := by
  simp [State.writeQctl]

@[simp] theorem State.writeQring_mem (s : State) (n : Nat) (v : Word) : (s.writeQring n v).mem = s.mem := by
  unfold State.writeQring
  split_ifs <;> simp

@[simp] theorem State.writeSqctl_mem (s : State) (v : Word) : (s.writeSqctl v).mem = s.mem := by
  simp [State.writeSqctl]

@[simp] theorem State.writeLoupectl_mem (s : State) (v : Word) : (s.writeLoupectl v).mem = s.mem := by
  simp [State.writeLoupectl]

@[simp] theorem State.writeWindow_mem (s : State) (k : Nat) (v : Word) : (s.writeWindow k v).mem = s.mem := by
  unfold State.writeWindow
  dsimp only
  split_ifs <;> rfl

@[simp] theorem State.writePtpctl_mem (s : State) (v : Word) (ide : Nat) : (s.writePtpctl v ide).mem = s.mem := rfl

@[simp] theorem State.writeClctl_mem (s : State) (c : Nat) (v : Word) : (s.writeClctl c v).mem = s.mem := by
  simp [State.writeClctl]

@[simp] theorem State.writePreqb_wf (s : State) (v : Word) (h : Memory.wf s.mem = true) :
    Memory.wf (s.writePreqb v).mem = true := by
  unfold State.writePreqb
  split_ifs <;> simp [h]

@[simp] theorem State.writePfresp_wf (s : State) (v : Word) (h : Memory.wf s.mem = true) :
    Memory.wf (s.writePfresp v).mem = true := by
  unfold State.writePfresp
  split_ifs <;> simp [h]

@[simp] theorem State.writePage_wf (s : State) (k : Nat) (v : Word) (h : Memory.wf s.mem = true) :
    Memory.wf (s.writePage k v).mem = true := by
  unfold State.writePage
  repeat' with_reducible refine wf_ite ?_ ?_
  all_goals simp [h]

@[simp] theorem State.writeBlock_wf (s : State) (wr : Writer) (k : Nat) (v : Word) (h : Memory.wf s.mem = true) :
    Memory.wf (s.writeBlock wr k v).mem = true := by
  unfold State.writeBlock
  repeat' with_reducible refine wf_ite ?_ ?_
  all_goals simp [h, State.flushEvents_wf]

@[simp] theorem State.regWrite_wf (s : State) (wr : Writer) (k : Nat) (v : Word) (h : Memory.wf s.mem = true) :
    Memory.wf (s.regWrite wr k v).mem = true := by
  unfold State.regWrite
  repeat' split
  all_goals simp [h]

theorem execRegisterWrite_goesOn (wr : Writer) (off : Nat) (v : Word) (s : State) :
    GoesOn s (execRegisterWrite wr off v s) := .next fun h => by simp [h]

/-! The rows of the memory slot. -/

theorem State.access_keeps (s t : State) (va : Word) (n : Nat) (kind : BitVec 3) (plain word : Bool)
    (h : s.access va n kind plain word = .error t) : Keeps s t := by
  unfold State.access at h
  split at h
  · split at h <;> cases h
    exact State.trapSlot_wf _ _
  · split at h <;> cases h
    exact State.reach_keeps _ _ _ _ _ _ ‹_›

theorem runAccess_goesOn {α : Type} (g : Hdr) (s : State) (r : Except State α) (f : α → State)
    (he : ∀ t, r = .error t → Keeps s t) (hf : ∀ x, Keeps s (f x)) : GoesOn s (runAccess g s r f) := by
  unfold runAccess
  split
  · split
    · exact ⟨_, rfl, he _ rfl⟩
    · exact ⟨_, rfl, hf _⟩
  · exact ⟨_, rfl, by simp [Keeps]⟩

@[simp] theorem State.loadInto_mem (s : State) (h : Hdr) (d : DstReg) (va : Word) (n : Nat) (sext : Bool)
    (wm : Vec) (left : Nat) (a : Target) :
    (s.loadInto h d va n sext wm left a).mem = s.mem := by
  unfold State.loadInto
  split <;> simp

@[simp] theorem State.oneAccess_mem (s t : State) : (s.oneAccess t).mem = t.mem := rfl

@[simp] theorem State.post_mem (s : State) (holds : List Nat) (act : Deferred) : (s.post holds act).mem = s.mem := rfl

@[simp] theorem State.loadNowhere_mem (s : State) (g : Hdr) (x : Target) : (s.loadNowhere g x).mem = s.mem := by
  unfold State.loadNowhere
  split
  · simp only [State.arriveNow_mem, State.oneAccess_mem]
    refine foldl_mem _ (fun t p => ?_) _ _
    split
    · simp
    · split <;> simp
  · simp

theorem scalarLoad_goesOn (n : Nat) (sext : Bool) (o : LdOp) (s : State) : GoesOn s (scalarLoad n sext o s) := by
  unfold scalarLoad
  refine runAccess_goesOn _ _ _ _ (fun t ht => State.access_keeps _ _ _ _ _ _ _ ht) fun x h => ?_
  split <;> simpa using h

theorem vectorLoad_goesOn (n : Nat) (o : VLdOp) (s : State) : GoesOn s (vectorLoad n o s) := by
  unfold vectorLoad
  exact runAccess_goesOn _ _ _ _ (fun t ht => State.access_keeps _ _ _ _ _ _ _ ht) fun x h => by simpa using h

@[simp] theorem State.storePieces_wf (s : State) (ps : List Piece) (bs : List Byte) (h : Memory.wf s.mem = true) :
    Memory.wf (s.storePieces ps bs).mem = true := by
  induction ps generalizing s bs with
  | nil => exact h
  | cons p ps ih => exact ih _ _ (State.issueStore_wf _ _ _ h)

theorem storeBytes_goesOn (g : Hdr) (va : Word) (bs : List Byte) (word : Bool) (s : State) :
    GoesOn s (storeBytes g va bs word s) := by
  unfold storeBytes
  refine runAccess_goesOn _ _ _ _ (fun t ht => State.access_keeps _ _ _ _ _ _ _ ht) fun x h => ?_
  split <;> simp [h]

theorem State.rowsReach_keeps (s t : State) (r : Int) (n : Nat) (kind : BitVec 3)
    (h : s.rowsReach r n kind = .error t) : Keeps s t := by
  unfold State.rowsReach at h
  split at h <;> cases h
  exact State.trapSlot_wf _ _

theorem rowLoad_goesOn (n : Nat) (r : Int) (o : VLdOp) (s : State) : GoesOn s (rowLoad n r o s) := by
  unfold rowLoad
  exact runAccess_goesOn _ _ _ _ (fun t ht => State.rowsReach_keeps _ _ _ _ _ ht) fun x h => by simpa using h

theorem rowStore_goesOn (n : Nat) (r : Int) (o : VStOp) (s : State) : GoesOn s (rowStore n r o s) := by
  unfold rowStore
  exact runAccess_goesOn _ _ _ _ (fun t ht => State.rowsReach_keeps _ _ _ _ _ ht) fun x h => by simpa using h

theorem State.wordsReach_keeps (s t : State) (l : List Nat) (kind : BitVec 3) (h : s.wordsReach l kind = .error t) :
    Keeps s t := by
  unfold State.wordsReach at h
  split at h <;> cases h
  exact State.trapSlot_wf _ _

theorem execVgath_goesOn (o : VLdOp) (s : State) : GoesOn s (execVgath o s) := by
  unfold execVgath
  exact runAccess_goesOn _ _ _ _ (fun t ht => State.wordsReach_keeps _ _ _ _ ht) fun x h => by simpa using h

theorem execVscat_goesOn (o : VStOp) (s : State) : GoesOn s (execVscat o s) := by
  unfold execVscat
  exact runAccess_goesOn _ _ _ _ (fun t ht => State.wordsReach_keeps _ _ _ _ ht) fun x h => by simpa using h

theorem execFence_goesOn (o : FenceOp) (s : State) : GoesOn s (execFence o s) := by
  unfold execFence
  refine runSlot_goesOn _ _ _ fun h => ?_
  dsimp only
  split_ifs <;> exact h

theorem State.atomicReach_keeps (s t : State) (op : AtomicOp) (va : Word) (h : s.atomicReach op va = .error t) :
    Keeps s t := by
  unfold State.atomicReach at h
  split at h
  · cases h; exact State.access_keeps _ _ _ _ _ _ _ ‹_›
  · dsimp only at h
    split_ifs at h
    cases h; exact State.trapSlot_wf _ _
  · cases h; exact State.trapSlot_wf _ _

theorem atomic_goesOn (op : AtomicOp) (o : SROp) (s : State) : GoesOn s (atomic op o s) := by
  unfold atomic
  refine runAccess_goesOn _ _ _ _ (fun t ht => State.atomicReach_keeps _ _ _ _ ht) fun p h => ?_
  dsimp only
  split <;> simp [h]

theorem execPf_goesOn (o : RaOp) (s : State) : GoesOn s (execPf o s) := by
  refine runSlot_goesOn _ _ _ fun h => ?_
  split <;> simpa using h

@[simp] theorem State.fillCounted_mem (s : State) (p : Piece) (n : Nat) : (s.fillCounted p n).mem = s.mem := by
  unfold State.fillCounted
  dsimp only
  split_ifs <;> simp

theorem execPfc_goesOn (o : PfcOp) (s : State) : GoesOn s (execPfc o s) := by
  refine runSlot_goesOn _ _ _ fun h => ?_
  split <;> simpa using h

@[simp] theorem State.postCache_mem (s : State) (p : Piece) (evict : Bool) : (s.postCache p evict).mem = s.mem := by
  unfold State.postCache
  dsimp only
  split_ifs <;> simp

theorem execClwb_goesOn (o : RaOp) (s : State) : GoesOn s (execClwb o s) := by
  unfold execClwb
  refine runAccess_goesOn _ _ _ _ (fun t ht => State.access_keeps _ _ _ _ _ _ _ ht) fun x h => ?_
  split <;> simpa using h

theorem execClinv_goesOn (o : RaOp) (s : State) : GoesOn s (execClinv o s) := by
  unfold execClinv
  refine runAccess_goesOn _ _ _ _ (fun t ht => State.access_keeps _ _ _ _ _ _ _ ht) fun x h => ?_
  split <;> simpa using h

theorem State.fifoBad_keeps (s t : State) (q : BitVec 4) (h : s.fifoBad q = some t) : Keeps s t := by
  unfold State.fifoBad at h
  split at h
  · cases h; exact State.trapSlot_wf s _
  · cases h

theorem execQpop_goesOn (o : QpopOp) (s : State) : GoesOn s (execQpop o s) := by
  unfold execQpop
  refine runChecked_goesOn _ _ _ _ (fun t ht => ?_) (fun h => ?_)
  · split at ht
    · cases ht; exact State.fifoBad_keeps _ _ _ ‹_›
    · split_ifs at ht
      cases ht; exact fun h => by simpa using h
  · dsimp only
    split
    · split_ifs <;> simpa using h
    · exact h

theorem execQpush_goesOn (o : QpushOp) (s : State) : GoesOn s (execQpush o s) := by
  unfold execQpush
  refine runChecked_goesOn _ _ _ _ (fun t ht => ?_) (fun h => h)
  split at ht
  · cases ht; exact State.fifoBad_keeps _ _ _ ‹_›
  · split_ifs at ht
    cases ht; exact fun h => by simpa using h

/-! Traps, interrupts and bundles that are not legal. -/

@[simp] theorem State.noteFetch_mem (s : State) : s.noteFetch.mem = s.mem := by
  unfold State.noteFetch
  split
  · rfl
  · dsimp only
    split_ifs <;> simp

theorem execIllegalBundle_goesOn (s : State) : GoesOn s (execIllegalBundle s) := by
  refine .next fun h => ?_
  split <;> simp [h, State.takeTrap_wf]

theorem execBudgetOverrun_goesOn (s : State) : GoesOn s (execBudgetOverrun s) := by
  refine .next fun h => ?_
  split_ifs <;> simp [h, State.takeTrap_wf]

theorem execTrapDelivery_goesOn (s : State) : GoesOn s (execTrapDelivery s) := by
  refine .next fun h => ?_
  repeat' split
  all_goals simp [h, State.takeTrap_wf]

theorem execInterrupt_goesOn (s : State) : GoesOn s (execInterrupt s) := by
  refine .next fun h => ?_
  split <;> simp [h]

theorem execWfiWake_goesOn (s : State) : GoesOn s (execWfiWake s) := by
  refine .next fun h => ?_
  split_ifs <;> simp [h]

/-! The vector slots. -/

theorem vLand_goesOn (o : VOp) (s : State) (cycles e n : Nat) (f : Nat → Nat) :
    GoesOn s (vLand o s cycles e n f) := .next fun h => by simpa using h

theorem vCmp_goesOn (o : VOp) (s : State) (cycles e : Nat) (f : Nat → Bool) :
    GoesOn s (vCmp o s cycles e f) := .next fun h => by simpa using h

theorem vMask_goesOn (o : VOp) (s : State) (f : Mask → Mask → Mask) :
    GoesOn s (vMask o s f) := .next fun h => by simpa using h

theorem vTest_goesOn (o : VOp) (s : State) (f : Mask → Bool) :
    GoesOn s (vTest o s f) := .next fun h => by simpa using h

theorem execVxs_goesOn (o : VOp) (s : State) : GoesOn s (execVxs o s) := .next fun h => by simpa using h

theorem execVsel_goesOn (o : VOp) (s : State) : GoesOn s (execVsel o s) := .next fun h => by simpa using h

theorem execVrmrg_goesOn (o : VOp) (s : State) : GoesOn s (execVrmrg o s) := .next fun h => by simpa using h

theorem vRed_goesOn (o : VOp) (s : State) (cycles x : Nat) (rsig : Option (BitVec 32)) :
    GoesOn s (vRed o s cycles x rsig) := .next fun h => by simpa using h

/-! The special-function slots. -/

theorem xf_goesOn (o : XFOp) (s : State) (g : SpecialFn) : GoesOn s (xf o s g) := by
  unfold xf
  split_ifs <;> refine .next fun h => ?_ <;> simp [h]

/-! What is due in a tick. -/

@[simp] theorem State.tickAll_mem (s : State) : s.tickAll.mem = s.mem := by
  unfold State.tickAll
  simp only [State.mapCores_mem, State.beginReads_mem]
  rfl

@[simp] theorem State.startCycles_mem (s : State) : s.startCycles.mem = s.mem := by
  unfold State.startCycles
  dsimp only
  exact foldl_mem _ (fun t c => t.onCluster_mem c _) _ _

@[simp] theorem State.endCycles_mem (s : State) : s.endCycles.mem = s.mem := by
  unfold State.endCycles
  exact foldl_mem _ (fun t c => t.onCluster_mem c _) _ _

@[simp] theorem State.regError_mem (s : State) : s.regError.mem = s.mem := by
  unfold State.regError
  split_ifs <;> simp

@[simp] theorem State.startCycle_mem (s : State) : s.startCycle.mem = s.mem := rfl

@[simp] theorem State.endCycle_mem (s : State) : s.endCycle.mem = s.mem := rfl

/-! The state of a bundle before its slots are tried. -/

@[simp] theorem State.takeOver_mem (s t : State) : (s.takeOver t).mem = s.mem := rfl

@[simp] theorem State.takeQueues_mem (s t : State) : (s.takeQueues t).mem = s.mem := rfl

@[simp] theorem State.freezeBundle_mem (s : State) (wants : List Want) (short : Bool) :
    (s.freezeBundle wants short).mem = s.mem := rfl

@[simp] theorem State.commitBundle_mem (s : State) (old : Vector Lc 4) : (s.commitBundle old).mem = s.mem := rfl

@[simp] theorem State.issueState_mem (s : State) : s.issueState.mem = s.mem := rfl

@[simp] theorem State.untoken_mem (s t : State) : (s.untoken t).mem = t.mem := rfl

@[simp] theorem State.keepM0_mem (s t : State) : (s.keepM0 t).mem = t.mem := by
  unfold State.keepM0
  split <;> rfl

@[simp] theorem State.notAdmitted_wf (s : State) (h : Memory.wf s.mem = true) :
    Memory.wf s.notAdmitted.mem = true := by
  unfold State.notAdmitted
  repeat' split
  all_goals simp [h]

@[simp] theorem State.pickPhase_mem (s : State) : s.pickPhase.mem = s.mem := by
  unfold State.pickPhase
  split <;> simp

@[simp] theorem State.bindPhase_mem (s : State) : s.bindPhase.mem = s.mem := rfl

/-! Every row of the opcode table. -/

/-- R8: every row answers with a next state, and keeps memory canonical. The rows of one kind share the lemma of the
operation that they are made from. -/
theorem exec_goesOn (i : Instr) (s : State) : GoesOn s (exec i s) := by
  cases i with dsimp only [exec]
  | add o | sub o | mul o | mulh o | mulhu o | divs o | divu o | remu o | and o | or o | xor o | andn o | shl o
  | shr o | sar o | rol o | min o | max o | minn o | maxn o | bext o | bins o => exact scalarRR_goesOn _ _ _
  | clz o | popc o | movi o | movk o | addk o | pget o | pset o | br o | call o | jr o | callr o | loop o
  | loopi o | hint o | rdcyc o | rdmcc o | rdptp o | mstat o => exact runSlot_goesOn _ _ _ fun h => h
  | addi o | shli o | shri o | sari o | andi o | ori o | xori o | roli o => exact scalarRI_goesOn _ _ _
  | cmpeq o | cmpne o | cmplt o | cmple o | cmpltn o | cmplen o => exact compareRR_goesOn _ _ _
  | cmpeqi o | cmpnei o | cmplti o | cmpgei o | cmpltni o | cmpgeni o => exact compareRI_goesOn _ _ _
  | pand o | por o | pxor o | pandn o => exact predOp_goesOn _ _ _
  | vadd o | vsub o | vadds o | vaddsn o | vsubs o | vsubsn o | vmul o | vmulh o | vmac o | vmin o | vmax o
  | vminn o | vmaxn o | vabsd o | vavgn o | vand o | vor o | vxor o | vandn o | vshl o | vshr o | vsar o
  | vshli o | vshri o | vsari o | vclz o | vpopc o | vfadd o | vfsub o | vfmul o | vfma o | vfnma o | vfmin o
  | vfmax o | vfabs o | vfneg o | vpermb o | vpermw o | vrev o | vzip o | vunzip o | vbcs o | vmovi o | vmov o
  | vcvt o | vcvtsr o | vnarrow o | vwiden o | vrng o => exact vLand_goesOn _ _ _ _ _ _
  | vcmpeq o | vcmpne o | vcmplt o | vcmple o | vcmpltn o | vcmplen o | vfcmpeq o | vfcmplt o | vfcmple o
  | vfcmpun o => exact vCmp_goesOn _ _ _ _ _
  | mand o | mor o | mxor o | mandn o => exact vMask_goesOn _ _ _
  | many o | mall o => exact vTest_goesOn _ _ _
  | vredadd o | vredmax o | vredmin o | vfredadd o | vfredmax o => exact vRed_goesOn _ _ _ _ _
  | xrcp o | xrsq o | xsqrt o | xexp2 o | xlog2 o | xsint o | xcost o | xtanh o | xsigm o | xgelu o =>
    exact xf_goesOn _ _ _
  | mzero o | mmode o => exact queued_goesOn _ _ _ _ _ fun _ => rfl
  | ld8 o | ld16 o | ld32 o | ld64 o | lds8 o | lds16 o | lds32 o => exact scalarLoad_goesOn _ _ _ _
  | st8 o | st16 o | st32 o | st64 o | vst1 o | vst2 o | vst4 o => exact storeBytes_goesOn _ _ _ _ _
  | vld1 o | vld2 o | vld4 o => exact vectorLoad_goesOn _ _ _
  | spld o | spldh o => exact rowLoad_goesOn _ _ _ _
  | spst o | spsth o => exact rowStore_goesOn _ _ _ _
  | aadd o | amin o | amax o | aminn o | amaxn o | aand o | aor o | axor o | axchg o | acas o | afadd o =>
    exact atomic_goesOn _ _ _
  | cpy o | cpyf o | cpyt o => exact copyInstr_goesOn _ _ _
  | nop _ => exact execNop_goesOn _ _
  | nopV _ => exact execNopV_goesOn _ _
  | sel _ => exact execSel_goesOn _ _
  | lbrk _ => exact execLbrk_goesOn _ _
  | exit _ => exact execExit_goesOn _ _
  | trap _ => exact execTrap_goesOn _ _
  | rett _ => exact execRett_goesOn _ _
  | spawn _ => exact execSpawn_goesOn _ _
  | srd _ => exact execSrd_goesOn _ _
  | swr _ => exact execSwr_goesOn _ _
  | stamp _ => exact execStamp_goesOn _ _
  | wfi _ => exact execWfi_goesOn _ _
  | twait _ => exact execTwait_goesOn _ _
  | tsig _ => exact execTsig_goesOn _ _
  | tlwait _ => exact execTlwait_goesOn _ _
  | binit _ => exact execBinit_goesOn _ _
  | barr _ => exact execBarr_goesOn _ _
  | bwait _ => exact execBwait_goesOn _ _
  | bsync _ => exact execBsync_goesOn _ _
  | sstep _ => exact execSstep_goesOn _ _
  | vrmrg _ => exact execVrmrg_goesOn _ _
  | vxs _ => exact execVxs_goesOn _ _
  | vsel _ => exact execVsel_goesOn _ _
  | mma _ => exact execMma_goesOn _ _
  | mldt _ => exact execMldt_goesOn _ _
  | mstt _ => exact execMstt_goesOn _ _
  | mdrain _ => exact execMdrain_goesOn _ _
  | mrsum _ => exact execMrsum_goesOn _ _
  | vgath _ => exact execVgath_goesOn _ _
  | vscat _ => exact execVscat_goesOn _ _
  | fence _ => exact execFence_goesOn _ _
  | pf _ => exact execPf_goesOn _ _
  | pfc _ => exact execPfc_goesOn _ _
  | clwb _ => exact execClwb_goesOn _ _
  | clinv _ => exact execClinv_goesOn _ _
  | seqrun _ => exact execSeqrun_goesOn _ _
  | qpop _ => exact execQpop_goesOn _ _
  | qpush _ => exact execQpush_goesOn _ _
  | illegalBundle => exact execIllegalBundle_goesOn _
  | dataArrival _ _ => exact execDataArrival_goesOn _ _ _
  | landing _ => exact execLanding_goesOn _ _
  | freezeEnd => exact execFreezeEnd_goesOn _
  | waitSatisfied => exact execWaitSatisfied_goesOn _
  | frameOverrun => exact execFrameOverrun_goesOn _
  | budgetOverrun => exact execBudgetOverrun_goesOn _
  | trapDelivery => exact execTrapDelivery_goesOn _
  | sfuStart _ => exact execSfuStart_goesOn _ _
  | sfuResult _ => exact execSfuResult_goesOn _ _
  | arrayWindowSwitch _ => exact execArrayWindowSwitch_goesOn _ _
  | matrixEntryStart => exact execMatrixEntryStart_goesOn _
  | matrixBlock => exact execMatrixBlock_goesOn _
  | matrixEntryComplete => exact execMatrixEntryComplete_goesOn _
  | copyEntryStart => exact execCopyEntryStart_goesOn _
  | copyComplete => exact execCopyComplete_goesOn _
  | copyFault _ _ => exact execCopyFault_goesOn _ _ _
  | seqrunComplete _ => exact execSeqrunComplete_goesOn _ _
  | barrierReleaseDelivery => exact execBarrierReleaseDelivery_goesOn _
  | superstepRelease _ => exact execSuperstepRelease_goesOn _ _
  | storeAck _ => exact execStoreAck_goesOn _ _
  | fenceComplete _ => exact execFenceComplete_goesOn _ _
  | fenceTimeout _ => exact execFenceTimeout_goesOn _ _
  | pageWalk _ _ => exact execPageWalk_goesOn _ _ _
  | ownerTagCheck _ _ => exact execOwnerTagCheck_goesOn _ _ _
  | spawnRecordRead => exact execSpawnRecordRead_goesOn _
  | qtailWrite _ _ => exact execQtailWrite_goesOn _ _ _
  | launchRecordFetch _ => exact execLaunchRecordFetch_goesOn _ _
  | launchAcceptance _ => exact execLaunchAcceptance_goesOn _ _
  | schedulerSelection _ => exact execSchedulerSelection_goesOn _ _
  | taskBinding _ => exact execTaskBinding_goesOn _ _
  | preloadComplete => exact execPreloadComplete_goesOn _
  | firstIssue => exact execFirstIssue_goesOn _
  | taskRetire => exact execTaskRetire_goesOn _
  | cancel _ _ => exact execCancel_goesOn _ _ _
  | cancelAtDie _ _ => exact execCancelAtDie_goesOn _ _ _
  | spillMove _ => exact execSpillMove_goesOn _ _
  | reservedEntryGrant _ => exact execReservedEntryGrant_goesOn _ _
  | childPreemptTimeout _ => exact execChildPreemptTimeout_goesOn _ _
  | preempt _ => exact execPreempt_goesOn _ _
  | switch _ => exact execSwitch_goesOn _ _
  | resume _ => exact execResume_goesOn _ _
  | capture => exact execCapture_goesOn _
  | captureComplete => exact execCaptureComplete_goesOn _
  | contextRestore _ => exact execContextRestore_goesOn _ _
  | retry _ => exact execRetry_goesOn _ _
  | fail _ => exact execFail_goesOn _ _
  | tlbInvalidate _ => exact execTlbInvalidate_goesOn _ _
  | invalidationComplete => exact execInvalidationComplete_goesOn _
  | evbaseWrite _ => exact execEvbaseWrite_goesOn _ _
  | evconsWrite _ => exact execEvconsWrite_goesOn _ _
  | switchPoint _ => exact execSwitchPoint_goesOn _ _
  | clockPauseEnd _ => exact execClockPauseEnd_goesOn _ _
  | clctlStep _ _ => exact execClctlStep_goesOn _ _ _
  | clctlThr _ _ => exact execClctlThr_goesOn _ _ _
  | clctlForcewa _ _ => exact execClctlForcewa_goesOn _ _ _
  | throttleApply _ => exact execThrottleApply_goesOn _ _
  | sensorSample _ _ => exact execSensorSample_goesOn _ _ _
  | tripOverheatWarning _ => exact execTripOverheatWarning_goesOn _ _
  | powerSample _ _ => exact execPowerSample_goesOn _ _ _
  | limiterFallCheck => exact execLimiterFallCheck_goesOn _
  | limiterRiseCheck => exact execLimiterRiseCheck_goesOn _
  | accountingUpdate _ => exact execAccountingUpdate_goesOn _ _
  | correctedError _ => exact execCorrectedError_goesOn _ _
  | clusterRetire _ => exact execClusterRetire_goesOn _ _
  | interrupt => exact execInterrupt_goesOn _
  | wfiWake => exact execWfiWake_goesOn _
  | keyWrapLoad _ => exact execKeyWrapLoad_goesOn _ _
  | keyWrapDone => exact execKeyWrapDone_goesOn _
  | shutterFire _ => exact execShutterFire_goesOn _ _
  | shutterN => exact execShutterN_goesOn _
  | readout _ => exact execReadout_goesOn _ _
  | moduleReset _ => exact execModuleReset_goesOn _ _
  | eyeMeasurement _ _ _ => exact execEyeMeasurement_goesOn _ _ _ _
  | laneRepair _ => exact execLaneRepair_goesOn _ _
  | channelRetrain _ => exact execChannelRetrain_goesOn _ _
  | hbmrepDone _ => exact execHbmrepDone_goesOn _ _
  | scrubRead _ => exact execScrubRead_goesOn _ _
  | scrubWriteback => exact execScrubWriteback_goesOn _
  | loupeWindowEnd => exact execLoupeWindowEnd_goesOn _
  | enlargerWordRead _ => exact execEnlargerWordRead_goesOn _ _
  | enlargerDelivery _ => exact execEnlargerDelivery_goesOn _ _
  | enlargerFailover => exact execEnlargerFailover_goesOn _
  | flitReceive _ => exact execFlitReceive_goesOn _ _
  | replayRequest _ _ => exact execReplayRequest_goesOn _ _ _
  | flitAck _ _ => exact execFlitAck_goesOn _ _ _
  | retireMarker _ _ => exact execRetireMarker_goesOn _ _ _
  | incarnationAnnouncement _ _ => exact execIncarnationAnnouncement_goesOn _ _ _
  | hibernatedAnnouncement _ _ => exact execHibernatedAnnouncement_goesOn _ _ _
  | remoteRequest _ => exact execRemoteRequest_goesOn _ _
  | remoteAnswer _ => exact execRemoteAnswer_goesOn _ _
  | retransmitTimeout _ _ => exact execRetransmitTimeout_goesOn _ _ _
  | hibernatingTimeout _ _ => exact execHibernatingTimeout_goesOn _ _ _
  | proofProbe _ => exact execProofProbe_goesOn _ _
  | probeRequest _ _ => exact execProbeRequest_goesOn _ _ _
  | probeAnswer _ _ => exact execProbeAnswer_goesOn _ _ _
  | probeTimeout _ => exact execProbeTimeout_goesOn _ _
  | prfrel _ => exact execPrfrel_goesOn _ _
  | treeStreamReceive _ => exact execTreeStreamReceive_goesOn _ _
  | treeAck _ _ _ => exact execTreeAck_goesOn _ _ _ _
  | fifoBind _ => exact execFifoBind_goesOn _ _
  | fifoUnbind _ => exact execFifoUnbind_goesOn _ _
  | fifoWordTransfer _ _ _ => exact execFifoWordTransfer_goesOn _ _ _ _
  | timelineWrite _ _ => exact execTimelineWrite_goesOn _ _ _
  | landingWindowWrite _ _ _ _ => exact execLandingWindowWrite_goesOn _ _ _ _ _
  | bar4Access _ _ _ => exact execBar4Access_goesOn _ _ _ _
  | spdmRequest _ _ => exact execSpdmRequest_goesOn _ _ _
  | ptpset _ => exact execPtpset_goesOn _ _
  | ppsPulse => exact execPpsPulse_goesOn _
  | powerFailWarning => exact execPowerFailWarning_goesOn _
  | fire _ => exact execFire_goesOn _ _
  | fixerDrain => exact execFixerDrain_goesOn _
  | fixerChunk => exact execFixerChunk_goesOn _
  | contactSheetWrite => exact execContactSheetWrite_goesOn _
  | fixerListValidate => exact execFixerListValidate_goesOn _
  | resmtrUpdate _ => exact execResmtrUpdate_goesOn _ _
  | brownOut => exact execBrownOut_goesOn _
  | safelightHold => exact execSafelightHold_goesOn _
  | safelightExit => exact execSafelightExit_goesOn _
  | safelightDisable => exact execSafelightDisable_goesOn _
  | collectiveRejoin _ _ => exact execCollectiveRejoin_goesOn _ _ _
  | stepAnnouncement _ _ _ => exact execStepAnnouncement_goesOn _ _ _ _
  | registerWrite _ _ _ => exact execRegisterWrite_goesOn _ _ _ _
  | linkUp _ => exact execLinkUp_goesOn _ _
  | keyRotation _ => exact execKeyRotation_goesOn _ _
  | hostLinkDown _ => exact execHostLinkDown_goesOn _ _
  | hostLinkUp _ => exact execHostLinkUp_goesOn _ _
  | ptmResponse _ _ => exact execPtmResponse_goesOn _ _ _
  | channelError _ _ => exact execChannelError_goesOn _ _ _

/-- The row that a due event names does so too. -/
theorem Due.run_goesOn (d : Due) (s : State) : GoesOn s (d.run s) := by
  cases d with dsimp only [Due.run]
  | dataArrival _ => exact execDataArrival_goesOn _ _ _
  | hibernatingTimeout _ _ => exact execHibernatingTimeout_goesOn _ _ _
  | retransmitTimeout _ _ => exact execRetransmitTimeout_goesOn _ _ _
  | fenceComplete _ => exact execFenceComplete_goesOn _ _
  | fenceTimeout _ => exact execFenceTimeout_goesOn _ _
  | storeAck _ => exact execStoreAck_goesOn _ _
  | fifoWordTransfer _ _ => exact execFifoWordTransfer_goesOn _ _ _ _
  | launchRecordFetch _ => exact execLaunchRecordFetch_goesOn _ _
  | schedulerSelection _ => exact execSchedulerSelection_goesOn _ _
  | launchAcceptance _ => exact execLaunchAcceptance_goesOn _ _
  | taskBinding _ => exact execTaskBinding_goesOn _ _
  | cancelAtDie _ _ => exact execCancelAtDie_goesOn _ _ _
  | spillMove _ => exact execSpillMove_goesOn _ _
  | reservedEntryGrant _ => exact execReservedEntryGrant_goesOn _ _
  | childPreemptTimeout _ => exact execChildPreemptTimeout_goesOn _ _
  | superstepRelease _ => exact execSuperstepRelease_goesOn _ _
  | enlargerWordRead _ => exact execEnlargerWordRead_goesOn _ _
  | enlargerDelivery _ => exact execEnlargerDelivery_goesOn _ _
  | invalidationComplete => exact execInvalidationComplete_goesOn _
  | probeTimeout _ => exact execProbeTimeout_goesOn _ _
  | proofProbe _ => exact execProofProbe_goesOn _ _
  | clockPauseEnd _ => exact execClockPauseEnd_goesOn _ _
  | switchPoint _ => exact execSwitchPoint_goesOn _ _
  | capture => exact execCapture_goesOn _
  | safelightHold => exact execSafelightHold_goesOn _
  | trapDelivery => exact execTrapDelivery_goesOn _
  | budgetOverrun => exact execBudgetOverrun_goesOn _
  | throttleApply _ => exact execThrottleApply_goesOn _ _
  | clusterRetire _ => exact execClusterRetire_goesOn _ _
  | limiterFallCheck => exact execLimiterFallCheck_goesOn _
  | limiterRiseCheck => exact execLimiterRiseCheck_goesOn _
  | loupeWindowEnd => exact execLoupeWindowEnd_goesOn _
  | scrubRead _ => exact execScrubRead_goesOn _ _
  | scrubWriteback => exact execScrubWriteback_goesOn _
  | collectiveRejoin _ => exact execCollectiveRejoin_goesOn _ _ _
  | tripOverheatWarning _ => exact execTripOverheatWarning_goesOn _ _
  | contactSheetWrite => exact execContactSheetWrite_goesOn _
  | fixerChunk => exact execFixerChunk_goesOn _
  | fixerDrain => exact execFixerDrain_goesOn _
  | arrayWindowSwitch _ => exact execArrayWindowSwitch_goesOn _ _
  | contextRestore _ => exact execContextRestore_goesOn _ _
  | barrierReleaseDelivery => exact execBarrierReleaseDelivery_goesOn _
  | sfuStart _ => exact execSfuStart_goesOn _ _
  | sfuResult _ => exact execSfuResult_goesOn _ _
  | landing _ => exact execLanding_goesOn _ _
  | pageWalk _ _ => exact execPageWalk_goesOn _ _ _
  | ownerTagCheck _ _ => exact execOwnerTagCheck_goesOn _ _ _
  | freezeEnd => exact execFreezeEnd_goesOn _
  | waitSatisfied => exact execWaitSatisfied_goesOn _
  | firstIssue => exact execFirstIssue_goesOn _
  | preloadComplete => exact execPreloadComplete_goesOn _
  | wfiWake => exact execWfiWake_goesOn _
  | taskRetire => exact execTaskRetire_goesOn _
  | captureComplete => exact execCaptureComplete_goesOn _
  | spawnRecordRead => exact execSpawnRecordRead_goesOn _
  | moduleReset part =>
    split
    · exact execModuleReset_goesOn _ s
    · exact .next id

theorem State.doDue_goesOn (s : State) : GoesOn s s.doDue := by
  unfold State.doDue
  split
  · exact .next id
  · exact .of_keeps (t := ({ s with due := _ } : State).focus _) (fun h => by simpa using h) (Due.run_goesOn _ _)
  · exact Due.run_goesOn _ { s with due := _ }

/-! A bundle: the trial of its slots, and what is decided of it. -/

theorem State.runOne_goesOn (s : State) (x : Nat × Instr) : GoesOn s (s.runOne x) :=
  exec_goesOn x.2 { s with slot := x.1 }

theorem State.trySlots_next (s : State) (l : List (Nat × Instr)) :
    ∃ r, s.trySlots l = .next r ∧ ∀ x ∈ r, Keeps s x.2.2 := by
  induction l generalizing s with
  | nil => exact ⟨[], rfl, by simp⟩
  | cons x l ih =>
    obtain ⟨t, ht, hk⟩ := s.runOne_goesOn x
    obtain ⟨r, hr, hall⟩ := ih (if t.core.note.stops then s else s.takeQueues t)
    refine ⟨(x.1, x.2, t) :: r, ?_, fun y hy => ?_⟩
    · simp only [State.trySlots, ht, onNext, hr]
    · rcases List.mem_cons.1 hy with rfl | hy
      · exact hk
      · have hy := hall y hy
        split at hy <;> exact hy

theorem State.runSlots_goesOn (s : State) (l : List (Nat × Instr)) : GoesOn s (s.runSlots l) := by
  induction l generalizing s with
  | nil => exact .next id
  | cons x l ih =>
    refine (s.runOne_goesOn x).onNext fun t ht => ?_
    split
    · exact .next ht
    · exact .of_keeps ht (ih t)

theorem State.waitBundle_goesOn (s : State) (l waits : List (Nat × Instr)) : GoesOn s (s.waitBundle l waits) := by
  refine GoesOn.onNext ?_ fun t ht => .next ht
  refine foldl_keeps (GoesOn s) _ (fun o x ho => ho.onNext fun t ht => ?_) _ _ (.next id)
  refine (GoesOn.of_keeps ht (t.runOne_goesOn x)).onNext fun u hu => .next ?_
  split
  · exact hu
  · exact ht

theorem State.commitSlots_goesOn (s : State) (l : List (Nat × Instr)) : GoesOn s (s.commitSlots l) := by
  refine (s.runSlots_goesOn l).onNext fun t ht => ?_
  split
  · exact .next id
  · exact .next ht

/-- The slot that a choice over the traps of a bundle answers with is one of its slots. -/
theorem trapped_mem {r : List (Nat × Instr × State)} {p q : Nat × Instr × State → Bool} {c : Bool}
    {y : Nat × Instr × State} (h : y ∈ r.filter p ++ if c then r.filter q else []) : y ∈ r := by
  rcases List.mem_append.1 h with h | h
  · exact List.mem_of_mem_filter h
  · split at h
    · exact List.mem_of_mem_filter h
    · cases h

theorem State.decideBundle_goesOn (s : State) (l : List (Nat × Instr)) (r : List (Nat × Instr × State))
    (hr : ∀ x ∈ r, Keeps s x.2.2) : GoesOn s (s.decideBundle l r) := by
  have hmem : ∀ (f : Option (Nat × Instr × State) → Nat × Instr × State → Option (Nat × Instr × State))
      (_ : ∀ m x y, f m x = some y → y = x ∨ m = some y) (p q : Nat × Instr × State → Bool) (c : Bool)
      (y : Nat × Instr × State),
      (r.filter p ++ if c then r.filter q else []).foldl f none = some y → y ∈ r := fun f hf p q c y hy =>
    trapped_mem ((foldl_choice_mem f hf _ _ _ hy).resolve_left nofun)
  have lower : ∀ (m : Option (Nat × Instr × State)) (x y : Nat × Instr × State), (match m with
      | some z => if x.1 < z.1 then some x else some z
      | none => some x) = some y → y = x ∨ m = some y := by
    intro m x y h
    cases m with
    | none => exact .inl (Option.some.inj h).symm
    | some z =>
      dsimp only at h
      split at h
      · exact .inl (Option.some.inj h).symm
      · exact .inr h
  unfold State.decideBundle
  dsimp only
  split
  · exact .next id
  · split
    · exact .next id
    · split
      · next hlow =>
        split
        · exact execFrameOverrun_goesOn (s.onCore _)
        · exact .next (hr _ (hmem _ lower _ _ _ _ hlow))
      · next hlow => exact .next (hr _ (hmem _ lower _ _ _ _ hlow))
      · split
        · exact s.commitSlots_goesOn l
        · exact s.waitBundle_goesOn l _

theorem State.issueWords_goesOn (s : State) (ws : List Nat) : GoesOn s (s.issueWords ws) := by
  have ht : Keeps s s.resumeFbase.issueState := fun h => by simpa using h
  refine .of_keeps ht ?_
  obtain ⟨r, hr, hall⟩ := s.resumeFbase.issueState.trySlots_next (inOrder (slotsOf ws))
  unfold State.issueWords
  dsimp only
  rw [hr]
  exact (State.decideBundle_goesOn _ _ r hall).onNext fun u hu => .next fun h => by simpa using hu h

theorem State.nextBundle_goesOn (s : State) : GoesOn s s.nextBundle := by
  have ht : Keeps s s.noteFetch := fun h => by simpa using h
  unfold State.nextBundle
  dsimp only
  split
  · exact .next ht
  · exact .of_keeps ht (execTrapDelivery_goesOn _)
  · split
    · exact .of_keeps ht (execIllegalBundle_goesOn _)
    · exact .of_keeps ht (State.issueWords_goesOn _ _)

@[simp] theorem State.notAdmitted_mem (s : State) : s.notAdmitted.mem = s.mem := by
  unfold State.notAdmitted
  split
  · split
    · split_ifs <;> rfl
    · rfl
  · rfl

theorem State.boundary_goesOn (s : State) : GoesOn s s.boundary := by
  unfold State.boundary
  dsimp only
  split
  · exact Due.run_goesOn _ s
  · split
    · have hr : Keeps s s.reissueBoundary := fun h => by simp [h]
      split
      · exact .next hr
      · exact .of_keeps hr (State.nextBundle_goesOn _)
    · split
      · exact .next fun h => by simpa using h
      · split
        · exact execInterrupt_goesOn s
        · exact s.nextBundle_goesOn

/-! The phases of a cycle, and a step. -/

theorem State.issuePhase_goesOn (s : State) : GoesOn s s.issuePhase :=
  s.boundary_goesOn.onNext fun _ ht => .next ht

theorem State.copyPhase_goesOn (s : State) : GoesOn s s.copyPhase := by
  unfold State.copyPhase
  split_ifs
  · exact execCopyEntryStart_goesOn s
  · exact execCopyComplete_goesOn s
  · exact execCopyEntryStart_goesOn s
  · exact .next id

theorem State.matrixPhase_goesOn (s : State) : GoesOn s s.matrixPhase := by
  unfold State.matrixPhase
  split
  · exact execMatrixEntryComplete_goesOn s
  · exact execMatrixEntryStart_goesOn s
  · exact execMatrixBlock_goesOn s
  · exact .next id

theorem State.takeRow_goesOn (s : State) (i : Instr) : GoesOn s (s.takeRow i) := by
  unfold State.takeRow
  split
  · exact .next id
  · exact exec_goesOn i s

theorem State.takeHost_goesOn (s : State) (x : Input) : GoesOn s (s.takeHost x) := by
  unfold State.takeHost
  split
  · exact .next id
  · split
    · exact s.windowStep_goesOn x _ _ _ _
    · exact s.takeRow_goesOn _

theorem State.tickPhase_goesOn (s : State) : GoesOn s s.tickPhase := by
  unfold State.tickPhase
  split
  · next x l _ =>
    dsimp only
    split
    · split
      · exact .next fun h => by simpa using h
      · exact State.takeHost_goesOn { s with inputs := l } x
    · exact State.takeHost_goesOn { s with inputs := l } x
  · refine .next fun h => ?_
    have ht : Memory.wf s.tickAll.sweepSaved.mem = true :=
      State.sweepSaved_wf _ ((congrArg Memory.wf s.tickAll_mem).trans h)
    generalize s.tickAll.sweepSaved = t at ht ⊢
    exact ht

theorem State.phaseStep_goesOn (s : State) : GoesOn s s.phaseStep := by
  unfold State.phaseStep
  split
  · exact s.tickPhase_goesOn
  · exact .next id
  · exact .next fun h => by simpa using h
  · exact .next fun h => by simpa using h
  · exact .next fun h => by simpa using h
  · exact s.issuePhase_goesOn
  · exact s.copyPhase_goesOn
  · exact s.matrixPhase_goesOn
  · exact .next fun h => by simpa using h

/-- R5, R53: while a clock runs the machine goes on. -/
theorem step_goesOn (s : State) (h : s.halted = false) : GoesOn s (step s) := by
  rw [step, if_neg (by simp [h])]
  split
  · exact s.tickCtr.phaseStep_goesOn
  · exact s.tickCtr.doDue_goesOn

/-- R426: with no clock running, what is a step at all keeps memory canonical. -/
theorem State.haltedStep_keeps (s t : State) (h : s.haltedStep = .next t) : Keeps s t := by
  unfold State.haltedStep at h
  split at h
  · exact fun hs => (execModuleReset_goesOn _ _).keeps h hs
  · exact fun hs => (execReadout_goesOn _ _).keeps h hs
  · split at h
    · exact fun hs => (execSafelightExit_goesOn _).keeps h hs
    · cases h
  · split at h
    · exact fun hs => (execModuleReset_goesOn _ _).keeps h hs
    · cases h

/-- Settles O55: a step that runs is a step of the phases or of what is due, and each row of these keeps memory
canonical; with no clock running, so do the few rows that are steps. -/
theorem stepKeepsMemoryCanonical : Obligations.StepKeepsMemoryCanonical := by
  intro s t hs ht
  cases hh : s.halted with
  | false =>
    exact (step_goesOn s hh).keeps ht hs
  | true =>
    rw [step, if_pos hh] at ht
    exact s.haltedStep_keeps t ht hs

end Sys2Proof.Machine
end

section
/-! PROOFS. With no clock running: which rows are steps, and that the only other answer is that no clock runs. -/

namespace Sys2Proof.Machine

theorem GoesOn.ne_fault {s : State} {o : Out} (h : GoesOn s o) (f : Fault) : o ≠ .fault f := by
  obtain ⟨t, rfl, -⟩ := h
  nofun

/-- R387, R426: the restart of a hibernated module, where the supply has gone down and what it held is not lost. -/
theorem restart_fault_iff (s : State) :
    (if s.supply.down && !s.supply.lost then execModuleReset ⟨s.restartPins, .reset⟩ s else .fault .clocksStopped) =
      .fault .clocksStopped ↔ s.supply.down = false ∨ s.supply.lost = true := by
  split
  · next h =>
    refine iff_of_false ((execModuleReset_goesOn _ s).ne_fault _) ?_
    simpa using h
  · next h =>
    refine iff_of_true rfl ?_
    cases hd : s.supply.down with
    | false => exact .inl rfl
    | true => exact .inr (by simpa [hd] using h)

theorem State.haltedStep_nil (s : State) (h : s.inputs = []) :
    s.haltedStep = .fault .clocksStopped ↔ s.supply.down = false ∨ s.supply.lost = true := by
  rw [State.haltedStep, h]
  exact restart_fault_iff s

theorem State.haltedStep_one (s : State) (i : Input) (h : s.inputs = [i]) :
    s.haltedStep = .fault .clocksStopped ↔ (∀ x, i.row ≠ .moduleReset x) ∧ (∀ a, i.row ≠ .readout a) ∧
      (s.supply.down = false ∨ (s.supply.lost = true ∧ i.row ≠ .safelightExit)) := by
  rw [State.haltedStep, h]
  split
  case h_1 heq =>
    cases heq
    exact iff_of_false ((execModuleReset_goesOn _ _).ne_fault _) fun hr => hr.1 _ rfl
  case h_2 heq =>
    cases heq
    exact iff_of_false ((execReadout_goesOn _ _).ne_fault _) fun hr => hr.2.1 _ rfl
  case h_3 heq =>
    cases heq
    split
    · next hd => exact iff_of_false ((execSafelightExit_goesOn _).ne_fault _) (by simp [hd])
    · next hd => simp [hd]
  case h_4 hreset hread hexit =>
    have hr : (∀ x, i.row ≠ .moduleReset x) ∧ (∀ a, i.row ≠ .readout a) ∧ i.row ≠ .safelightExit := by
      cases i
      exact ⟨fun x e => hreset _ _ _ _ (by rw [← e]), fun a e => hread _ _ _ _ (by rw [← e]),
        fun e => hexit _ _ _ (by rw [← e])⟩
    rw [restart_fault_iff]
    simp [hr]

/-- Settles O56: the rows answer one by one, a step with a clock running is made of them, and with no clock running the
rows named are the only steps. -/
theorem everyInstructionAnswers : Obligations.EveryInstructionAnswers := by
  refine ⟨fun i s => ?_, fun s hc => ?_, fun s hh hi => ?_, fun i s hh hi => ?_⟩
  · obtain ⟨t, ht, -⟩ := exec_goesOn i s
    exact ⟨t, ht⟩
  · obtain ⟨t, ht, -⟩ := step_goesOn s (by simpa [State.clocked] using hc)
    exact ⟨t, ht⟩
  · rw [step, if_pos hh]
    exact s.haltedStep_nil hi
  · rw [step, if_pos hh]
    exact s.haltedStep_one i hi

end Sys2Proof.Machine
end

section
/-! PROOFS. Reads after writes of the architectural registers, and what a landing writes (R18, R19, R155, R156). -/

namespace Sys2Proof.Machine

theorem Regs.getS_setS_self (r : Regs) (i : BitVec 6) (x : Word) (hi : i ≠ 0) : (r.setS i x).getS i = x := by
  rw [Regs.getS, if_neg hi, Regs.setS]
  simp only [if_neg hi, Vector.getElem_set_self]

theorem Regs.getV_setV (r : Regs) (i j : BitVec 5) (x : Vec) :
    (r.setV i x).getV j = if j = i then x else r.getV j := by
  simp only [Regs.getV, Regs.setV, Vector.getElem_set, BitVec.toNat_inj, eq_comm]

theorem Regs.getM_setM (r : Regs) (i j : BitVec 4) (x : Mask) (hi : i ≠ 0) :
    (r.setM i x).getM j = if j = i then x else r.getM j := by
  by_cases hj : j = i
  · subst hj
    simp only [Regs.getM, Regs.setM, if_neg hi, Vector.getElem_set_self, if_true]
  · have hne : i.toNat ≠ j.toNat := fun h => hj (BitVec.toNat_inj.1 h).symm
    simp only [Regs.getM, Regs.setM, if_neg hi, if_neg hj, Vector.getElem_set_ne _ _ hne]

/-- What a landing leaves in a register: the new bits where its mask is set, the old bits elsewhere. -/
theorem getLsbD_merge {n : Nat} (old x wm : BitVec n) (b : Nat) (hb : b < n) :
    ((old &&& ~~~wm) ||| (x &&& wm)).getLsbD b = if wm.getLsbD b = true then x.getLsbD b else old.getLsbD b := by
  rw [BitVec.getLsbD_or, BitVec.getLsbD_and, BitVec.getLsbD_and, BitVec.getLsbD_not]
  cases wm.getLsbD b <;> simp [hb]

theorem Regs.land_vector_bit (r : Regs) (i j : BitVec 5) (x wm : Vec) (b : Nat) (hb : b < 1024) :
    ((r.land (.vector i) x wm).getV j).getLsbD b =
      if j = i ∧ wm.getLsbD b = true then x.getLsbD b else (r.getV j).getLsbD b := by
  rw [Regs.land, Regs.getV_setV]
  by_cases hj : j = i
  · subst hj
    rw [if_pos rfl, getLsbD_merge _ _ _ _ hb]
    simp
  · simp [hj]

theorem Regs.land_mask_bit (r : Regs) (i j : BitVec 4) (x wm : Vec) (b : Nat) (hb : b < 128) (hi : i ≠ 0) :
    ((r.land (.mask i) x wm).getM j).getLsbD b =
      if j = i ∧ wm.getLsbD b = true then x.getLsbD b else (r.getM j).getLsbD b := by
  rw [Regs.land, Regs.getM_setM _ _ _ _ hi]
  by_cases hj : j = i
  · subst hj
    rw [if_pos rfl, getLsbD_merge _ _ _ _ hb]
    simp [hb]
  · simp [hj]

/-- A landing with its data, and with no error, arrival or RSIG update of its own, is the write of its register. -/
theorem State.land_plain (s : State) (l : Landing) (herr : l.err = none) (hlost : l.lost = false)
    (harr : l.arrive = none) (hrsig : l.rsig = none) :
    s.land l = s.onCore fun c =>
      { c with lands := c.lands.filter fun x => x.id != l.id, r := c.r.land l.dst l.value l.wm } := by
  simp [State.land, herr, hlost, harr, hrsig]

theorem execLanding_only (s : State) (l : Landing) (hl : s.core.lands = [l]) (hleft : l.left = 0)
    (hwait : l.wait = none) (hawaits : l.awaits = []) (hholds : l.holds = []) (herr : l.err = none)
    (hlost : l.lost = false) (harr : l.arrive = none) (hrsig : l.rsig = none) :
    execLanding l.id s = .next (s.onCore fun c => { c with lands := [], r := c.r.land l.dst l.value l.wm }) := by
  have hin : l.arrived = true := by simp [Landing.arrived, hwait, hawaits, hholds]
  simp [execLanding, hl, hleft, hin, State.land_plain s l herr hlost harr hrsig, State.onCore]

/-- Settles O20: a landing is an entry of `lands` with its count, and its turn is a merge of bits under its mask. -/
theorem landings : Obligations.Landings := by
  refine ⟨fun s c d x wm r => rfl, ?_, fun r i j x wm b hb => r.land_vector_bit i j x wm b hb,
    fun r i j x wm b hb hi => r.land_mask_bit i j x wm b hb hi⟩
  intro s l hl hleft hwait hawaits hholds herr hlost harr hrsig hkind
  have hval : l.value = l.data := by simp [Landing.value, hkind]
  exact hval ▸ execLanding_only s l hl hleft hwait hawaits hholds herr hlost harr hrsig

end Sys2Proof.Machine
end

section
/-! PROOFS. The caches hold marks of lines: looking a line up, filling and evicting it change the marks of a core's L1
and nothing else of the core (R240, R340). -/

namespace Sys2Proof.Machine

/-- The cores of `s` and `t` differ in the lines of their L1 alone. -/
def OnlyL1 (s t : State) : Prop := ∃ l, t.core = { s.core with l1 := l }

theorem OnlyL1.of_core {s t : State} (h : t.core = s.core) : OnlyL1 s t := ⟨_, h⟩

theorem OnlyL1.refl (s : State) : OnlyL1 s s := .of_core rfl

theorem OnlyL1.trans {s t u : State} (h : OnlyL1 s t) (k : OnlyL1 t u) : OnlyL1 s u := by
  obtain ⟨l, hl⟩ := h
  obtain ⟨m, hm⟩ := k
  exact ⟨m, by rw [hm, hl]⟩

theorem OnlyL1.r {s t : State} (h : OnlyL1 s t) : t.core.r = s.core.r := by
  obtain ⟨l, hl⟩ := h
  rw [hl]

theorem OnlyL1.lands {s t : State} (h : OnlyL1 s t) : t.core.lands = s.core.lands := by
  obtain ⟨l, hl⟩ := h
  rw [hl]

theorem OnlyL1.ite {s t u : State} {c : Prop} [Decidable c] (ht : OnlyL1 s t) (hu : OnlyL1 s u) :
    OnlyL1 s (if c then t else u) := by
  split
  · exact ht
  · exact hu

theorem OnlyL1.foldl {α : Type} {f : State → α → State} (hf : ∀ t a, OnlyL1 t (f t a))
    (l : List α) (s : State) : OnlyL1 s (l.foldl f s) :=
  foldl_keeps (OnlyL1 s) f (fun t a h => h.trans (hf t a)) l s (.refl s)

theorem State.evictLine_onlyL1 (s : State) (line : Nat) : OnlyL1 s (s.evictLine line) := ⟨_, rfl⟩

theorem State.llcPut_onlyL1 (s : State) (line : Nat) (dirty : Bool) : OnlyL1 s (s.llcPut line dirty) := by
  unfold State.llcPut
  dsimp only
  refine .ite (.of_core rfl) (.ite (.of_core rfl) ?_)
  split
  · exact (s.evictLine_onlyL1 _).trans (.of_core rfl)
  · exact .refl s

theorem State.loupeMiss_onlyL1 (s : State) (line : Nat) : OnlyL1 s (s.loupeMiss line) := by
  unfold State.loupeMiss
  exact .ite (.of_core rfl) (.refl s)

theorem State.sliceLook_onlyL1 (s : State) (line : Nat) (dirty : Bool) : OnlyL1 s (s.sliceLook line dirty) := by
  unfold State.sliceLook
  refine .ite (.refl s) ?_
  split
  · exact .of_core rfl
  · exact (s.loupeMiss_onlyL1 line).trans (State.llcPut_onlyL1 _ _ _)

theorem State.sliceRead_onlyL1 (s : State) (line : Nat) : OnlyL1 s (s.sliceRead line) := by
  refine (s.sliceLook_onlyL1 line false).trans ?_
  unfold State.sliceRead
  dsimp only
  split
  · exact .ite (State.evictLine_onlyL1 _ _) (.of_core rfl)
  · exact .refl _

theorem State.fillLine_onlyL1 (s : State) (line : Nat) (dirty : Bool) : OnlyL1 s (s.fillLine line dirty) := by
  have hread : ∀ l : List Nat, OnlyL1 s ((s.onCore fun c => { c with l1 := l }).sliceRead line) := fun l =>
    OnlyL1.trans ⟨l, rfl⟩ (State.sliceRead_onlyL1 _ line)
  unfold State.fillLine
  refine .ite (.refl s) (.ite (.ite (s.sliceLook_onlyL1 _ _) (.refl s)) ?_)
  dsimp only
  split
  · exact .ite ((hread _).trans (State.sliceLook_onlyL1 _ _ _)) (hread _)
  · exact (hread _).trans ⟨_, rfl⟩

theorem State.homeLine_onlyL1 (s : State) (die line : Nat) : OnlyL1 s (s.homeLine die line) := by
  unfold State.homeLine
  split
  · exact .ite (.refl s) ((s.evictLine_onlyL1 line).trans (.of_core rfl))
  · exact .of_core rfl

theorem State.home_onlyL1 (s : State) (die : Option Nat) (p : Piece) : OnlyL1 s (s.home die p) := by
  unfold State.home
  split
  · exact .ite (.foldl (fun t l => t.homeLine_onlyL1 _ l) _ s) (.refl s)
  · exact .foldl (fun t l => .ite (t.homeLine_onlyL1 _ l) (.refl t)) _ s

theorem State.logBad_onlyL1 (s : State) (pa n : Nat) (key : BitVec 16) : OnlyL1 s (s.logBad pa n key) := by
  unfold State.logBad
  split
  · exact .of_core rfl
  · exact .refl s

theorem State.fill_onlyL1 (s : State) (p : Piece) (dirty : Bool) : OnlyL1 s (s.fill p dirty) := by
  have hlog : OnlyL1 s (if dirty then s else s.logBad p.pa p.n p.key) := .ite (.refl s) (s.logBad_onlyL1 _ _ _)
  unfold State.fill
  exact .ite ((hlog.trans (State.home_onlyL1 _ _ p)).trans
    (.foldl (fun t l => t.fillLine_onlyL1 l dirty) _ _)) (.refl s)

end Sys2Proof.Machine
end

section
/-! PROOFS. A load of one piece of this module's memory that nothing holds (R70, R71, R199, R202). -/

namespace Sys2Proof.Machine

theorem leNat_lt (bs : List Byte) : leNat bs < 2 ^ (8 * bs.length) := by
  induction bs with
  | nil => exact Nat.one_pos
  | cons b bs ih =>
    have hb : b.toNat < 256 := b.isLt
    have hp : (2 : Nat) ^ (8 * (b :: bs).length) = 256 * 2 ^ (8 * bs.length) := by
      rw [List.length_cons, Nat.mul_succ, Nat.pow_add]
      omega
    rw [hp, leNat]
    omega

/-- R71: where every line of it passes its check, a physical read is the bytes of memory. -/
theorem State.physRead_of_ok (s : State) (pa n : Nat) (key : BitVec 16) (h : s.badLine pa n key = none) :
    s.physRead pa n key = memRead s.mem (s.canon pa) n := by
  refine List.map_congr_left fun i hi => if_neg ?_
  have hi : i < n := List.mem_range.1 hi
  have hline : (s.canon pa % 64 + i) / 64 < ceilDiv (s.canon pa % 64 + n) 64 := by
    rw [ceilDiv]
    omega
  have hpos : (s.canon pa + i) / 64 = s.canon pa / 64 + (s.canon pa % 64 + i) / 64 := by omega
  have hok := List.findSome?_eq_none_iff.1 h _ (List.mem_range.2 hline)
  rw [hpos]
  intro hbad
  rw [if_pos hbad] at hok
  cases hok

theorem Core.holders_nil (c : Core) (load : Bool) (h : c.fences = []) : c.holders load = [] := by
  rw [Core.holders, h]
  rfl

theorem Core.heldPieces_free (c : Core) (hstores : ∀ q ∈ c.stores, q.holds = [])
    (hlands : ∀ l ∈ c.lands, l.holds = []) (hspawns : c.spawns = []) : ∀ x ∈ c.heldPieces, x.2 = [] := by
  intro x hx
  rw [Core.heldPieces, hspawns, List.flatMap_nil, List.append_nil] at hx
  rcases List.mem_append.1 hx with hx | hx
  · obtain ⟨l, hl, hx⟩ := List.mem_flatMap.1 hx
    obtain ⟨p, -, rfl⟩ := List.mem_map.1 hx
    exact hlands l hl
  · obtain ⟨q, hq, hx⟩ := List.mem_flatMap.1 hx
    obtain ⟨p, -, rfl⟩ := Option.map_eq_some_iff.1 (Option.mem_toList.1 hx)
    exact hstores q hq

theorem State.behind_nil (s : State) (ps : List Piece) (h : ∀ x ∈ s.core.heldPieces, x.2 = []) :
    s.behind ps = [] := by
  rw [State.behind, List.flatMap_eq_nil_iff.2 fun x hx => h x (List.mem_of_mem_filter hx)]
  rfl

/-- Nothing stands before an access of the task: no fence, no held access, and no record of a child still to be read. -/
def Core.Free (c : Core) : Prop :=
  c.fences = [] ∧ (∀ q ∈ c.stores, q.holds = []) ∧ (∀ l ∈ c.lands, l.holds = []) ∧ c.spawns = []

theorem State.holds_nil (s : State) (ps : List Piece) (h : s.core.Free) :
    (s.core.holders true ++ s.behind ps).dedup = [] := by
  obtain ⟨hfences, hstores, hlands, hspawns⟩ := h
  rw [Core.holders_nil _ _ hfences, s.behind_nil ps (Core.heldPieces_free _ hstores hlands hspawns)]
  rfl

@[simp] theorem State.abar_false (s : State) : s.abar false = (none, s) := rfl

@[simp] theorem State.arriveNow_false (s : State) : s.arriveNow false = s := rfl

theorem State.addLanding_last (s : State) (l : Landing) :
    { l with id := s.core.nextId, slot := s.slot, pc := s.core.pc } ∈ (s.addLanding l).core.lands :=
  List.mem_append_right _ (List.mem_singleton.2 rfl)

/-- Adding a landing that nothing holds leaves nothing before an access. -/
theorem State.addLanding_free (s : State) (l : Landing) (h : s.core.Free) (hl : l.holds = []) :
    (s.addLanding l).core.Free := by
  obtain ⟨hfences, hstores, hlands, hspawns⟩ := h
  refine ⟨hfences, hstores, fun x hx => ?_, hspawns⟩
  rcases List.mem_append.1 hx with hx | hx
  · exact hlands x hx
  · rw [List.mem_singleton.1 hx]
    exact hl

theorem State.startLoad_free (s : State) (id : Nat) (ps : List Piece) (h : s.core.Free) :
    s.startLoad id ps = (s.onLanding id fun l => { l with parts := ps, holds := [] }).doLoad id ps := by
  rw [State.startLoad, s.holds_nil ps h]
  rfl

theorem State.onLanding_lands_mem (s : State) (id : Nat) (f : Landing → Landing) (l : Landing)
    (hl : l ∈ s.core.lands) (hid : l.id = id) : f l ∈ (s.onLanding id f).core.lands :=
  List.mem_map.2 ⟨l, hl, if_pos hid⟩

/-- R6, R71: a load of one piece of HBM whose lines pass their check fills the caches and reads its bytes. -/
theorem State.doLoad_one (s : State) (id : Nat) (p : Piece) (hk : s.physKind p.pa = .hbm)
    (hok : s.badLine p.pa p.n p.key = none) :
    s.doLoad id [p] = ((s.fill p false).onLanding id fun l =>
      { l with data := l.data ||| BitVec.ofNat 1024 (leNat (memRead s.mem (s.canon p.pa) p.n)) }).onLanding id fun l =>
        { l with holds := [], wait := if l.awaits.isEmpty then some s.memWait else none } := by
  simp [State.doLoad, hk, hok, s.physRead_of_ok _ _ _ hok]

/-- `doLoad` of one piece leaves the registers, and fills its own landing. -/
theorem State.doLoad_one_core (s : State) (id : Nat) (p : Piece) (l : Landing) (hl : l ∈ s.core.lands)
    (hid : l.id = id) (hk : s.physKind p.pa = .hbm) (hok : s.badLine p.pa p.n p.key = none) :
    (s.doLoad id [p]).core.r = s.core.r ∧ ∃ w, { l with
      data := l.data ||| BitVec.ofNat 1024 (leNat (memRead s.mem (s.canon p.pa) p.n)), holds := [], wait := w } ∈
        (s.doLoad id [p]).core.lands := by
  have hfill := s.fill_onlyL1 p false
  rw [s.doLoad_one id p hk hok]
  exact ⟨hfill.r, _, State.onLanding_lands_mem _ id _ _
    (State.onLanding_lands_mem (s.fill p false) id _ l (hfill.lands ▸ hl) hid) hid⟩

/-- R70, R199: a load of one piece that nothing holds stands among the landings with the bytes of memory, and changes no
register. -/
theorem State.loadInto_one (s : State) (h : Hdr) (d : DstReg) (va : Word) (n : Nat) (sext : Bool) (wm : Vec)
    (left : Nat) (p : Piece) (ha : h.a = false) (hfree : s.core.Free) (hk : s.physKind p.pa = .hbm)
    (hok : s.badLine p.pa p.n p.key = none) :
    (s.loadInto h d va n sext wm left (.mem [p])).core.r = s.core.r ∧
      ∃ l ∈ (s.loadInto h d va n sext wm left (.mem [p])).core.lands, l.id = s.core.nextId ∧ l.dst = d ∧
        l.left = left ∧ l.kind = .load va n sext ∧
        l.data = BitVec.ofNat 1024 (leNat (memRead s.mem (s.canon p.pa) p.n)) ∧ l.err = none := by
  simp only [State.loadInto, ha, State.abar_false]
  rw [State.startLoad_free _ _ _ (State.addLanding_free _ _ hfree rfl)]
  have hin := State.onLanding_lands_mem _ s.core.nextId (fun l => { l with parts := [p], holds := [] }) _
    (s.addLanding_last
      { id := 0, slot := 0, dst := d, data := 0, wm := wm, left := left, wait := none, kind := .load va n sext }) rfl
  obtain ⟨hr, w, hl⟩ := State.doLoad_one_core _ s.core.nextId p _ hin rfl hk hok
  exact ⟨hr, _, hl, rfl, rfl, rfl, rfl, BitVec.zero_or, rfl⟩

/-- R199: a load to s0 leaves the registers and the landings alone. -/
theorem State.loadNowhere_one (s : State) (h : Hdr) (p : Piece) (ha : h.a = false) (hfree : s.core.Free)
    (hk : s.physKind p.pa = .hbm) :
    (s.loadNowhere h (.mem [p])).core.r = s.core.r ∧ (s.loadNowhere h (.mem [p])).core.lands = s.core.lands := by
  have hfill := s.fill_onlyL1 p false
  simp only [State.loadNowhere, ha, State.arriveNow_false, s.holds_nil [p] hfree, List.foldl_cons, List.foldl_nil, hk,
    List.isEmpty_nil, Bool.not_true, Bool.false_eq_true, if_false]
  exact ⟨hfill.r, hfill.lands⟩

theorem runAccess_ok {α : Type} (g : Hdr) (s : State) (x : α) (f : α → State) (hg : s.rdP g.g = true) :
    runAccess g s (.ok x) f = .next (f x) := if_pos hg

theorem sameMemory_of_mem {s t : State} (h : t.mem = s.mem) : Claims.SameMemory s t := fun a => by rw [h]

/-- What a load whose checks pass leaves, for a scalar or a vector destination. -/
theorem loadInto_taken (i : Instr) (s : State) (h : Hdr) (d : DstReg) (va : Word) (n : Nat) (sext plain word : Bool)
    (wm : Vec) (left : Nat) (p : Piece) (hn : n ≤ 128) (ha : h.a = false) (hr : Claims.Reaches s va n 0 plain word p)
    (hi : exec i s = .next (s.loadInto h d va n sext wm left (.mem [p]))) :
    Claims.LoadTaken i s d va n sext left p := by
  obtain ⟨-, hpn, -, hk, hok, hfree⟩ := hr
  obtain ⟨hregs, l, hl, hid, hdst, hleft, hkind, hdata, herr⟩ :=
    s.loadInto_one h d va n sext wm left p ha hfree hk (hpn ▸ hok)
  refine ⟨_, l, hi, hl, hid, hdst, hleft, hkind, ?_, herr, hregs, sameMemory_of_mem (State.loadInto_mem ..)⟩
  have hlen : 8 * (memRead s.mem (s.canon p.pa) n).length ≤ 1024 := by
    rw [memRead, List.length_map, List.length_range]
    omega
  rw [hdata, hpn, BitVec.toNat_ofNat,
    Nat.mod_eq_of_lt ((leNat_lt _).trans_le (Nat.pow_le_pow_right Nat.two_pos hlen))]
  rfl

theorem scalarLoad_loads (mk : LdOp → Instr) (n : Nat) (sext : Bool) (hn : n ≤ 128)
    (hmk : ∀ o s, exec (mk o) s = scalarLoad n sext o s) : Claims.loads mk n sext := by
  intro o s p hg ha hr
  have hrun : exec (mk o) s = .next (if o.rd = 0 then s.loadNowhere o.h (.mem [p])
      else s.loadInto o.h (.scalar o.rd) (s.rdS o.ra) n sext 0 (landCycle o.l) (.mem [p])) := by
    rw [hmk, scalarLoad, hr.1]
    exact runAccess_ok _ _ _ _ hg
  refine ⟨fun hrd => ?_, fun hrd => ?_⟩
  · rw [if_neg hrd] at hrun
    exact loadInto_taken _ _ _ _ _ _ _ _ _ _ _ _ hn ha hr hrun
  · rw [if_pos hrd] at hrun
    obtain ⟨-, -, -, hk, -, hfree⟩ := hr
    obtain ⟨hregs, hlands⟩ := s.loadNowhere_one o.h p ha hfree hk
    exact ⟨_, hrun, hregs, hlands, sameMemory_of_mem (State.loadNowhere_mem ..)⟩

theorem vectorLoad_loads (mk : VLdOp → Instr) (n : Nat) (hn : n ≤ 128)
    (hmk : ∀ o s, exec (mk o) s = vectorLoad n o s) : Claims.loadsVector mk n := by
  intro o s p hg ha hr
  refine loadInto_taken _ s o.h _ _ _ _ _ _ (lowBytes n) _ p hn ha hr ?_
  rw [hmk, vectorLoad, hr.1]
  exact runAccess_ok _ _ _ _ hg

theorem loadIssue : Claims.LoadIssue :=
  ⟨scalarLoad_loads _ 1 false (by decide) fun _ _ => rfl, scalarLoad_loads _ 2 false (by decide) fun _ _ => rfl,
    scalarLoad_loads _ 4 false (by decide) fun _ _ => rfl, scalarLoad_loads _ 8 false (by decide) fun _ _ => rfl,
    scalarLoad_loads _ 1 true (by decide) fun _ _ => rfl, scalarLoad_loads _ 2 true (by decide) fun _ _ => rfl,
    scalarLoad_loads _ 4 true (by decide) fun _ _ => rfl, vectorLoad_loads _ 32 (by decide) fun _ _ => rfl,
    vectorLoad_loads _ 64 (by decide) fun _ _ => rfl, vectorLoad_loads _ 128 (by decide) fun _ _ => rfl⟩

/-- A number of `k` ≤ 64 bits, with its sign repeated up to bit 63, read as a 64-bit integer. -/
theorem toInt_signExtended (k x : Nat) (hk : k ≤ 64) (hx : x < 2 ^ k) :
    (BitVec.ofNat 64 (if 2 ^ k ≤ 2 * x then 2 ^ 64 + x - 2 ^ k else x)).toInt = Claims.sgn k x := by
  have hle : 2 ^ k ≤ 2 ^ 64 := Nat.pow_le_pow_right Nat.two_pos hk
  have hcast : ((2 : Int) ^ k) = ((2 ^ k : Nat) : Int) := by push_cast; rfl
  rw [Claims.sgn, hcast, BitVec.toInt_eq_toNat_cond, BitVec.toNat_ofNat]
  generalize 2 ^ k = w at hx hle
  split_ifs <;> omega

/-- R49: what a load lands with is its data, or its data with the sign repeated. -/
theorem Landing.value_zext (l : Landing) (va : Word) (n : Nat) (h : l.kind = .load va n false) : l.value = l.data := by
  rw [Landing.value, h]

theorem Landing.value_sext (l : Landing) (va : Word) (n : Nat) (h : l.kind = .load va n true)
    (hd : l.data.toNat < 2 ^ (8 * n)) :
    l.value = BitVec.ofNat 1024 (if 2 ^ (8 * n) ≤ 2 * l.data.toNat then 2 ^ 64 + l.data.toNat - 2 ^ (8 * n)
      else l.data.toNat) := by
  rw [Landing.value, h]
  dsimp only
  rw [Nat.mod_eq_of_lt hd]
  split <;> rfl

theorem loadLanding : Claims.LoadLanding := by
  intro s l va n sext rd hl hkind hn hdst hrd hawaits hholds herr hlost harr hrsig hd
  have hbits : 8 * n ≤ 64 := by
    simp only [List.mem_cons, List.not_mem_nil, or_false] at hn
    omega
  refine ⟨?_, fun hleft hwait => ?_⟩
  · simp [exec, execDataArrival, State.onLanding, State.onCore, hl, hawaits, hholds]
  · have hrun := execLanding_only s l hl hleft hwait hawaits hholds herr hlost harr hrsig
    have hregs : s.core.r.land l.dst l.value l.wm = s.core.r.setS rd (l.value.setWidth 64) := by rw [hdst]; rfl
    have hget : (s.core.r.land l.dst l.value l.wm).getS rd = l.value.setWidth 64 := by
      rw [hregs, Regs.getS_setS_self _ _ _ hrd]
    refine ⟨_, hrun, rfl, ?_, fun hz => ?_, fun hs => ?_, fun a => rfl⟩
    · exact hregs.trans (congrArg _ hget.symm)
    · subst hz
      refine (congrArg BitVec.toNat hget).trans ?_
      rw [l.value_zext va n hkind, BitVec.toNat_setWidth,
        Nat.mod_eq_of_lt (hd.trans_le (Nat.pow_le_pow_right Nat.two_pos hbits))]
    · subst hs
      refine (congrArg BitVec.toInt hget).trans ?_
      rw [l.value_sext va n hkind hd, BitVec.setWidth_ofNat_of_le (by decide), toInt_signExtended _ _ hbits hd]

/-- Settles O25: a load takes its entry with the bytes of memory, and its landing writes them, extended. -/
theorem loads : Obligations.Loads := ⟨loadIssue, loadLanding⟩

end Sys2Proof.Machine
end

section
/-! PROOFS. A step is `exec` of a row: the issue of a bundle of one instruction. -/

namespace Sys2Proof.Machine

theorem step_of_no_due (s : State) (hh : s.halted = false) (hd : s.due = []) : step s = s.tickCtr.phaseStep := by
  rw [step, if_neg (by simp [hh]), hd]

/-- R45, R306: at a calm boundary no cause is to be taken, and the next bundle is what there is to do. -/
theorem State.causeNow_of_calm (s : State) (h : Claims.Calm s) : s.causeNow = none := by
  obtain ⟨hcap, hkill, hpend, hpf, hhold, -, hbudget, -⟩ := h
  have hfirst : s.firstPending = none := by simp [State.firstPending, hpend]
  rcases hbudget with hm | hb
  · simp [State.causeNow, hcap, hkill, hfirst, hpf, hhold, hm]
  · simpa [State.causeNow, hcap, hkill, hfirst, hpf, hhold] using fun _ _ => hb

theorem State.boundary_of_calm (s : State) (h : Claims.Calm s) : s.boundary = s.nextBundle := by
  have hcause := s.causeNow_of_calm h
  obtain ⟨-, -, -, -, -, hissue, -, hirq⟩ := h
  have hre : s.core.reissue.isEmpty = true := by
    simp only [State.canIssue, Bool.and_eq_true] at hissue
    exact hissue.1.2
  have hno : (s.mgmt && s.core.accept && s.irq.isSome) = false := by
    rcases hirq with h | h | h <;> simp [h]
  simp [State.boundary, hcause, hre, hissue, hno]

theorem slotRank_lt (i : Instr) : slotRank i < 4 := by
  unfold slotRank
  split
  · split <;> decide
  · decide
  · decide
  · decide

theorem inOrder_singleton (x : Nat × Instr) : inOrder [x] = [x] := by
  have hr := slotRank_lt x.2
  simp only [inOrder, List.filter_cons, List.filter_nil]
  generalize slotRank x.2 = r at hr ⊢
  interval_cases r <;> rfl

theorem State.trySlots_singleton (w u : State) (k : Nat) (i : Instr) (hu : exec i { w with slot := k } = .next u) :
    w.trySlots [(k, i)] = .next [(k, i, u)] := by
  simp [State.trySlots, State.runOne, hu, onNext]

/-- A bundle of one instruction that does not stop commits. -/
theorem State.decideBundle_commits (w u : State) (k : Nat) (i : Instr) (hu : exec i { w with slot := k } = .next u)
    (hc : w.crowded [(k, i, u)] = false) (hn : u.core.note.stops = false) :
    w.decideBundle [(k, i)] [(k, i, u)] = .next (u.commitBundle w.core.iss.lc) := by
  have hrun : w.commitSlots [(k, i)] = .next (u.commitBundle w.core.iss.lc) := by
    simp [State.commitSlots, State.runSlots, State.runOne, hu, onNext, hn]
  cases hnote : u.core.note with
  | frozen => rw [hnote] at hn; cases hn
  | waiting => rw [hnote] at hn; cases hn
  | trap _ => rw [hnote] at hn; cases hn
  | _ => simp [State.decideBundle, hnote, hc, hrun]

/-- A bundle of one instruction that traps leaves the trap, and none of what the slot took. -/
theorem State.decideBundle_traps (w u : State) (k : Nat) (i : Instr) (hc : w.crowded [(k, i, u)] = false)
    (hn : u.core.note = .trap false) : w.decideBundle [(k, i)] [(k, i, u)] = .next (w.untoken u) := by
  simp only [State.decideBundle, hn, beq_iff_eq, reduceCtorEq, not_false_eq_true, List.filter_cons_of_neg,
    List.filter_nil, List.isEmpty_nil, Bool.not_true, Bool.false_eq_true, ↓reduceIte, hc, Note.trap.injEq, BEq.rfl,
    List.filter_cons_of_pos, List.nil_append, List.foldl_cons, List.foldl_nil]
  split
  · next h => cases h; exact if_neg (by simp [hn])
  · next h => cases h; rfl
  · next h => cases h

theorem Core.advance_note (c : Core) (old : Vector Lc 4) : (c.advance old).note = c.note := by
  cases h : c.note <;> simp only [Core.advance, h]

theorem State.keepM0_of_not_stops (s t : State) (hn : t.core.note.stops = false) : s.keepM0 t = t := by
  unfold State.keepM0
  split
  · next h => rw [h] at hn; cases hn
  · next h => rw [h] at hn; cases hn
  · rfl

theorem State.keepM0_commitBundle (s u : State) (old : Vector Lc 4) (hn : u.core.note.stops = false) :
    s.keepM0 (u.commitBundle old) = u.commitBundle old :=
  s.keepM0_of_not_stops _ ((congrArg Note.stops (u.core.advance_note old)).trans hn)

/-- R19, R45: the issue of the words of one instruction, which nothing crowds out. -/
theorem State.issueWords_one (s w u : State) (ws : List Nat) (k : Nat) (i : Instr) (hs : slotsOf ws = [(k, i)])
    (hw : w = s.resumeFbase.issueState) (hu : exec i { w with slot := k } = .next u)
    (hc : w.crowded [(k, i, u)] = false) :
    (u.core.note.stops = false → s.issueWords ws = .next (u.commitBundle w.core.iss.lc)) ∧
      (u.core.note = .trap false → s.issueWords ws = .next (s.keepM0 (w.untoken u))) := by
  subst hw
  have htry := State.trySlots_singleton _ u k i hu
  refine ⟨fun hn => ?_, fun hn => ?_⟩
  · have hcommit := State.decideBundle_commits _ u k i hu hc hn
    simp only [State.issueWords, hs, inOrder_singleton, htry, onNext, hcommit, State.keepM0_commitBundle _ _ _ hn]
  · have htrap := State.decideBundle_traps _ u k i hc hn
    simp only [State.issueWords, hs, inOrder_singleton, htry, onNext, htrap]

theorem State.issuePhase_one (t w u : State) (bs : List Byte) (k : Nat) (i : Instr) (hcalm : Claims.Calm t)
    (hf : t.fetch = .ok bs) (hj : t.noteFetch.judgeWords (bundleWords bs) = none)
    (hs : slotsOf (bundleWords bs) = [(k, i)]) (hw : w = t.noteFetch.resumeFbase.issueState)
    (hu : exec i { w with slot := k } = .next u) (hc : w.crowded [(k, i, u)] = false) :
    (u.core.note.stops = false →
        t.issuePhase = .next { (u.commitBundle w.core.iss.lc).onCore Core.servePorts with phase := .copy }) ∧
      (u.core.note = .trap false →
        t.issuePhase = .next { (t.noteFetch.keepM0 (w.untoken u)).onCore Core.servePorts with phase := .copy }) := by
  have hnext : t.boundary = t.noteFetch.issueWords (bundleWords bs) := by
    rw [t.boundary_of_calm hcalm]
    simp only [State.nextBundle, hf, hj]
  obtain ⟨hcommit, htrap⟩ := State.issueWords_one _ w u _ k i hs hw hu hc
  refine ⟨fun hn => ?_, fun hn => ?_⟩
  · rw [State.issuePhase, hnext, hcommit hn]
    rfl
  · rw [State.issuePhase, hnext, htrap hn]
    rfl

end Sys2Proof.Machine
end

section
/-! PROOFS. A step is `exec` of a row: the words of a bundle, inputs, what is due, and the copy phase. -/

namespace Sys2Proof.Machine

theorem leNat_leBytes (n x : Nat) : leNat (leBytes n x) = x % 256 ^ n := by
  induction n generalizing x with
  | zero => simp [leBytes, leNat, Nat.mod_one]
  | succ n ih =>
    have hcons : leBytes (n + 1) x = BitVec.ofNat 8 x :: leBytes n (x / 256) := by
      simp [leBytes, List.range_succ_eq_map, Nat.pow_succ', Nat.div_div_eq_div_mul]
    rw [hcons, leNat, ih, BitVec.toNat_ofNat, pow_succ' 256 n, Nat.mod_mul]

theorem slotWord_bundleBytes (k w j : Nat) (hj : j < 8) (hw : w < 2 ^ 32) :
    slotWord (bundleBytes k w) j = if j = k then w else 0 := by
  have hbytes : slotWord (bundleBytes k w) j = leNat (leBytes 4 (if j = k then w else 0)) := by
    interval_cases j <;> rfl
  rw [hbytes, leNat_leBytes]
  split
  · exact Nat.mod_eq_of_lt hw
  · rfl

theorem bundleWords_bundleBytes (k w : Nat) (hw : w < 2 ^ 32) :
    bundleWords (bundleBytes k w) = (List.range 8).map fun j => if j = k then w else 0 :=
  List.map_congr_left fun j hj => slotWord_bundleBytes k w j (List.mem_range.1 hj) hw

/-- R54: a word in slot k is the one instruction of its bundle. -/
theorem slotsOf_bundleBytes (k w : Nat) (i : Instr) (hk : k < 8) (h0 : 0 < w) (hw : w < 2 ^ 32)
    (hi : decodeWord (slotCls k) w = some i) : slotsOf (bundleWords (bundleBytes k w)) = [(k, i)] := by
  rw [bundleWords_bundleBytes k w hw]
  interval_cases k <;> simp [slotsOf, List.range_succ, h0.ne', hi]

/-- What is due is its row of the table. -/
theorem Due.run_of_isRow (d : Due) (v : State) (i : Instr) (h : Claims.IsRow v.boot d i) : d.run v = exec i v := by
  cases d
  case moduleReset part =>
    obtain ⟨p, hp, rfl⟩ := h
    simp only [Due.run, hp]
    rfl
  all_goals
    cases h
    rfl

/-- Only a reset's part with no reset going on is no row. -/
theorem Due.run_of_no_row (d : Due) (v : State) (h : ∀ i, ¬Claims.IsRow v.boot d i) : d.run v = .next v := by
  cases d
  case moduleReset part =>
    have hb : v.boot = none := Option.eq_none_iff_forall_ne_some.2 fun p hp => h _ ⟨p, hp, rfl⟩
    simp only [Due.run, hb]
  all_goals exact absurd rfl (h _)

theorem step_of_due (s v : State) (d : Due) (l : List (Option Nat × Due)) (hh : s.halted = false)
    (hd : (s.due = (none, d) :: l ∧ v = { s.tickCtr with due := l }) ∨
      ∃ n, s.due = (some n, d) :: l ∧ v = ({ s.tickCtr with due := l } : State).focus n) : step s = d.run v := by
  rw [step, if_neg (by simp [hh])]
  rcases hd with ⟨hd, rfl⟩ | ⟨n, hd, rfl⟩
  · simp only [hd, State.doDue, State.tickCtr_due]
  · simp only [hd, State.doDue, State.tickCtr_due]

/-! Inputs at the start of a tick. -/

theorem step_of_input (s v : State) (x : Input) (l : List Input) (hh : s.halted = false) (hd : s.due = [])
    (hp : s.phase = .tick) (hi : s.inputs = x :: l) (hv : v = { s.tickCtr with inputs := l }) :
    ((∀ p, x.bare = some p → s.tickCtr.ideNeeded p = false) → step s = v.takeHost x) ∧
      ∀ p, x.bare = some p → s.tickCtr.ideNeeded p = true → step s = .next (v.turnAway p x.row) := by
  have hstep : step s = s.tickCtr.tickPhase := by
    rw [step_of_no_due s hh hd]
    simp only [State.phaseStep, State.tickCtr_phase, hp]
  rw [hstep]
  simp only [State.tickPhase, State.tickCtr_inputs, hi, ← hv]
  refine ⟨fun hno => ?_, fun p hb hide => ?_⟩
  · split
    · next p hb => exact if_neg (by simp [hno p hb])
    · rfl
  · simp only [hb, hide, if_true]

theorem State.takeHost_waits (v : State) (x : Input) (hr : hostRow x.row = true) (hw : v.landWait ≠ []) :
    v.takeHost x = .next { v with landWait := v.landWait ++ [x] } :=
  if_pos (by simp [hr, hw])

theorem State.takeHost_row (v : State) (x : Input) (h : hostRow x.row = false ∨ v.landWait = [])
    (hwin : ∀ port w off data, x.row ≠ .landingWindowWrite port w off data) : v.takeHost x = v.takeRow x.row := by
  rw [State.takeHost, if_neg (by rcases h with h | h <;> simp [h])]
  split
  · next port w off data hx => exact absurd hx (hwin _ _ _ _)
  · rfl

theorem State.takeHost_window (v : State) (x : Input) (port : BitVec 1) (w : BitVec 6) (off : BitVec 16)
    (data : List Byte) (hw : v.landWait = []) (hx : x.row = .landingWindowWrite port w off data) :
    v.takeHost x = v.windowStep x port w (off + BitVec.ofNat 16 x.done) (data.drop x.done) := by
  rw [State.takeHost, if_neg (by simp [hw]), hx]

/-- A window write with no port to wait for: its window is not open to it, or its task is at no core. -/
theorem State.windowStep_all (v : State) (x : Input) (port : BitVec 1) (w : BitVec 6) (o : BitVec 16) (d : List Byte)
    (h : v.windowOk port w o d = false ∨ v.windowRows w o d.length = none) :
    v.windowStep x port w o d = execLandingWindowWrite port w o d v := by
  unfold State.windowStep
  split
  · next hok hrows => rcases h with h | h <;> simp_all
  · rfl

/-- A window write of which `k` rows find a port in this tick. -/
theorem State.windowStep_rows (v : State) (x : Input) (port : BitVec 1) (w : BitVec 6) (o : BitVec 16) (d : List Byte)
    (a b c k : Nat) (hok : v.windowOk port w o d = true) (hrows : v.windowRows w o d.length = some (a, b, c, k))
    (hw : v.landWait = []) :
    ((rowsTouched o.toNat d.length).length ≤ k →
        v.windowStep x port w o d = execLandingWindowWrite port w o d v) ∧
      (k = 0 → rowsTouched o.toNat d.length ≠ [] →
        v.windowStep x port w o d = .next { v with landWait := [x] }) ∧
      ∀ n, 0 < k → k < (rowsTouched o.toNat d.length).length → n = 64 * (o.toNat / 64 + k) - o.toNat →
        v.windowStep x port w o d =
          execLandingWindowWrite port w o (d.take n) { v with landWait := [{ x with done := x.done + n }] } := by
  simp only [State.windowStep, hok, hrows, hw, List.nil_append]
  refine ⟨fun hk => if_neg (by omega), fun hk hne => ?_, fun n h0 hk hn => ?_⟩
  · subst hk
    rw [if_pos (List.length_pos_of_ne_nil hne)]
    rfl
  · rw [if_pos hk, if_neg h0.ne', hn, if_neg h0.ne']

/-! The copy phase, and a halted machine. -/

theorem step_of_copy (s : State) (hh : s.halted = false) (hd : s.due = []) (hp : s.phase = .copy) :
    step s = s.tickCtr.copyPhase := by
  rw [step_of_no_due s hh hd]
  simp only [State.phaseStep, State.tickCtr_phase, hp]

theorem State.copyPhase_starts (s : State) (h : s.copyStarts = true)
    (hb : s.copyEnds = false ∨ s.core.firstCopy.any s.startsBefore = true) : s.copyPhase = execCopyEntryStart s := by
  rcases hb with hb | hb
  · simp [State.copyPhase, h, hb]
  · simp [State.copyPhase, h, hb]

theorem State.copyPhase_ends (s : State) (h : s.copyEnds = true)
    (hb : s.copyStarts = false ∨ s.core.firstCopy.any s.startsBefore = false) : s.copyPhase = execCopyComplete s := by
  rcases hb with hb | hb
  · simp [State.copyPhase, h, hb]
  · simp [State.copyPhase, h, hb]

/-- Settles O51, conjunct by conjunct: the issue of one instruction, its bundle's words, inputs, what is due, the copy
phase, and the steps of a halted machine. -/
theorem stepRunsInstruction : Obligations.StepRunsInstruction := by
  refine ⟨?_, slotsOf_bundleBytes, ?_, ?_, ?_, ?_⟩
  · intro s t w u i k bs hh hd hp ht hcalm hf hj hs hw hu hc
    have hstep : step s = t.issuePhase := by
      rw [step_of_no_due s hh hd, ht]
      simp only [State.phaseStep, State.tickCtr_phase, hp]
    rw [hstep]
    exact State.issuePhase_one t w u bs k i hcalm hf hj hs hw hu hc
  · intro s v x l hh hd hp hi hv
    obtain ⟨htake, haway⟩ := step_of_input s v x l hh hd hp hi hv
    have hwait : v.landWait = s.landWait := by rw [hv]; rfl
    have hsupply : v.supply = s.supply := by rw [hv]; rfl
    refine ⟨fun hide => ?_, haway⟩
    rw [htake hide, ← hwait, ← hsupply]
    refine ⟨v.takeHost_waits x, fun hr hwin => ?_, ?_⟩
    · rw [v.takeHost_row x hr hwin]
      exact ⟨fun hhib hbar => if_pos (by simp [hhib, hbar]), fun h => if_neg (by rcases h with h | h <;> simp [h])⟩
    · intro port w off o data d hw hx ho hdrop
      subst ho hdrop
      rw [v.takeHost_window x port w off data hw hx]
      exact ⟨v.windowStep_all x port w _ _, fun a b c k hok hrows =>
        v.windowStep_rows x port w _ _ a b c k hok hrows hw⟩
  · intro s v d l hh hd
    rw [step_of_due s v d l hh hd]
    exact ⟨d.run_of_isRow v, d.run_of_no_row v⟩
  · intro s hh hd hp
    rw [step_of_copy s hh hd hp]
    exact ⟨s.tickCtr.copyPhase_starts, s.tickCtr.copyPhase_ends⟩
  · intro s hh
    rw [step, if_pos hh]
    refine ⟨fun x b l hi => ?_, fun hi hdown hlost => ?_⟩
    · rw [State.haltedStep, hi]
      rfl
    · rw [State.haltedStep, hi]
      simp only [hdown, hlost]
      rfl

end Sys2Proof.Machine
end

section
/-! PROOFS. Registers and special registers: sources and writes, privilege, SRD and SWR, the clocks (R18, R19, R25, R26, R53,
R57, R148, R149). -/

namespace Sys2Proof.Machine

theorem Regs.getS_setS (r : Regs) (i j : BitVec 6) (x : Word) (hi : i ≠ 0) :
    (r.setS i x).getS j = if j = i then x else r.getS j := by
  by_cases hj : j = i
  · subst hj
    rw [if_pos rfl, Regs.getS_setS_self _ _ _ hi]
  · have hne : i.toNat ≠ j.toNat := fun h => hj (BitVec.toNat_inj.1 h).symm
    simp only [Regs.getS, Regs.setS, if_neg hi, if_neg hj, Vector.getElem_set_ne _ _ hne]

theorem getLsbD_setFld {n : Nat} (x : BitVec n) (lo w v j : Nat) (hj : j < n) :
    (setFld x lo w v).getLsbD j = if lo ≤ j ∧ j < lo + w then v.testBit (j - lo) else x.getLsbD j := by
  rw [setFld, BitVec.getLsbD_or, BitVec.getLsbD_and, BitVec.getLsbD_not, BitVec.getLsbD_ofNat, BitVec.getLsbD_ofNat,
    Nat.testBit_mul_two_pow, Nat.testBit_mul_two_pow, Nat.testBit_two_pow_sub_one, Nat.testBit_mod_two_pow]
  by_cases hlo : lo ≤ j
  · by_cases hw : j < lo + w
    · simp [hj, hlo, hw, show j - lo < w by omega]
    · simp [hj, hlo, hw, show ¬ j - lo < w by omega]
  · simp [hj, hlo]

theorem getLsbD_setFld_one {n : Nat} (x : BitVec n) (lo j : Nat) (b : Bool) (hj : j < n) :
    (setFld x lo 1 (bit b)).getLsbD j = if j = lo then b else x.getLsbD j := by
  rw [getLsbD_setFld _ _ _ _ _ hj]
  by_cases h : j = lo
  · subst h
    cases b <;> simp [bit]
  · rw [if_neg (by omega), if_neg h]

theorem Regs.getP_setP (r : Regs) (i j : BitVec 6) (b : Bool) (hi : i ≠ 0) (hn : i.toNat < 48) :
    (r.setP i b).getP j = if j = i then b else r.getP j := by
  simp only [Regs.getP, Regs.setP, if_neg hi]
  by_cases hj : j.toNat < 48
  · rw [getLsbD_setFld_one _ _ _ _ hj]
    by_cases hji : j = i
    · subst hji
      simpa using fun h => absurd h hi
    · rw [if_neg hji, if_neg fun h => hji (BitVec.toNat_inj.1 h)]
  · have hji : j ≠ i := fun h => hj (h ▸ hn)
    rw [if_neg hji, BitVec.getLsbD_of_ge _ _ (by omega), BitVec.getLsbD_of_ge _ _ (by omega)]

theorem sourceReads : Claims.SourceReads := by
  intro s
  refine ⟨⟨?_, ?_, ?_⟩, fun i hi hb => ?_, fun i hb => ?_, fun i hi hb => ?_, fun i hi hb => ?_⟩
  · simp [State.rdS, Regs.getS]
  · simp [State.rdP, Regs.getP]
  · simp [State.rdM, Regs.getM]
  · simpa [State.rdS, Regs.getS, hb] using fun h => absurd h hi
  · simp [State.rdV, Regs.getV, hb]
  · simpa [State.rdM, Regs.getM, hb] using fun h => absurd h hi
  · simpa [State.rdP, Regs.getP, hb] using fun h => absurd h hi

theorem registerWrites : Claims.RegisterWrites := by
  intro r x y b
  refine ⟨⟨if_pos rfl, if_pos rfl, if_pos rfl⟩, fun i j hi => r.getS_setS i j x hi, fun i j hi => r.getM_setM i j y hi,
    fun i j hi hn => r.getP_setP i j b hi hn,
    fun i => ⟨(r.setS i x).s, (r.setP i b).p, (r.setM (i.setWidth 4) y).m, ?_, ?_, ?_⟩⟩
  · unfold Regs.setS; split <;> rfl
  · unfold Regs.setP; split <;> rfl
  · unfold Regs.setM; split <;> rfl

/-- Settles O1: a source is the register at issue, and a write is a write of one element of its class. -/
theorem registers : Obligations.Registers := ⟨sourceReads, registerWrites⟩

/-! The rows of `exec` as the meanings they name. -/

theorem exec_spawn (o : SR2Op) (s : State) : exec (.spawn o) s = execSpawn o s := rfl
theorem exec_exit (o : Hdr) (s : State) : exec (.exit o) s = execExit o s := rfl
theorem exec_rett (o : Hdr) (s : State) : exec (.rett o) s = execRett o s := rfl
theorem exec_wfi (o : Hdr) (s : State) : exec (.wfi o) s = execWfi o s := rfl
theorem exec_stamp (o : ImmOp) (s : State) : exec (.stamp o) s = execStamp o s := rfl
theorem exec_srd (o : SKOp) (s : State) : exec (.srd o) s = execSrd o s := rfl
theorem exec_swr (o : SKOp) (s : State) : exec (.swr o) s = execSwr o s := rfl

theorem State.trapSlot_eq (s : State) (t : Trap) : s.trapSlot t = s.takeTrap (Claims.slotTrap s t) := rfl

theorem privilege_bad (s : State) (bad : Bool) (h : bad = true) :
    privilege s bad = some (s.takeTrap (Claims.slotTrap s { cause := 0x14 })) := if_pos h

theorem sregRO_of_mem (n : Nat)
    (h : n ∈ [0x000, 0x001, 0x002, 0x008, 0x009, 0x00A, 0x00B, 0x00C, 0x00D, 0x00E, 0x00F, 0x010, 0x019, 0x01A,
      0x030, 0x031, 0x032, 0x033, 0x034, 0x035, 0x036, 0x037, 0x03E, 0x03F, 0x040, 0x041]) : sregRO n = true := by
  revert n
  decide

theorem sregMgmt_eq_false (n : Nat) (h : n < 0x030 ∨ 0x038 < n) : sregMgmt n = false := by
  simp only [sregMgmt, Bool.and_eq_false_iff, decide_eq_false_iff_not]
  omega

theorem spawnCheck_mgmt (s : State) (a : Word) (h : s.mgmt = true) :
    spawnCheck a s = some (s.takeTrap (Claims.slotTrap s { cause := 0x14 })) :=
  (if_pos h).trans (privilege_bad s _ rfl)

/-- Settles O9: each of these words has `privilege`, or its own form of it, as its first check. -/
theorem privilegeTraps : Obligations.PrivilegeTraps := by
  intro s o k i p ho hk hi hp
  refine ⟨fun hm => ?_, fun hm => ?_, fun hm => ?_, fun hm => ?_, fun hm => ?_, fun hn => ?_, fun hm hn => ⟨?_, ?_⟩⟩
  · rw [exec_spawn, execSpawn]
    exact runChecked_some _ _ _ _ _ hp (spawnCheck_mgmt s _ hm)
  · rw [exec_exit, execExit]
    exact runChecked_some _ _ _ _ _ ho (privilege_bad s _ hm)
  · rw [exec_rett, execRett]
    exact runChecked_some _ _ _ _ _ ho (privilege_bad s _ (by simp [hm]))
  · rw [exec_wfi, execWfi]
    exact runChecked_some _ _ _ _ _ ho (privilege_bad s _ (by simp [hm]))
  · rw [exec_stamp, execStamp]
    exact runChecked_some _ _ _ _ _ hi ((if_pos hm).trans (privilege_bad s _ rfl))
  · rw [exec_swr, execSwr]
    exact runChecked_some _ _ _ _ _ hk (privilege_bad s _ (by simp [sregRO_of_mem _ hn]))
  · rw [exec_srd, execSrd]
    exact runChecked_some _ _ _ _ _ hk (privilege_bad s _ (by simp [hm, sregMgmt_eq_false _ hn]))
  · rw [exec_swr, execSwr]
    exact runChecked_some _ _ _ _ _ hk (privilege_bad s _ (by simp [hm, sregMgmt_eq_false _ hn]))

/-! SRD and SWR (R148). -/

theorem privilege_ok (s : State) (bad : Bool) (h : bad = false) : privilege s bad = none := by rw [h]; rfl

/-- A checked slot whose check answers nothing is a slot. -/
theorem runChecked_of_none (h : Hdr) (s : State) (c : State → Option State) (f : State → State) (hc : c s = none) :
    runChecked h s c f = .next ((if s.rdP h.g = true then f s else s).arriveNow h.a) := by
  cases hg : s.rdP h.g
  · exact runChecked_false _ _ _ _ hg
  · exact runChecked_none _ _ _ _ hg hc

theorem srd_runs (o : SKOp) (s : State) (h : s.mgmt = false ∨ sregMgmt o.imm.toNat = true) :
    Claims.Runs (.srd o) o.h s (s.wrS o.rd (readSreg s o.imm.toNat)) := by
  rw [Claims.Runs, exec_srd, execSrd]
  exact runChecked_of_none _ _ _ _ (privilege_ok s _ (by rcases h with h | h <;> simp [h]))

theorem reads_of (n : BitVec 12) (x : Regs → Word) (h : ∀ s : State, readSreg s n.toNat = x s.core.iss) :
    Claims.reads n x := by
  rintro o s rfl hm
  exact h s ▸ srd_runs o s (.inl hm)

/-! CPYST and QST: their words are numbers, and their fields digits of them. -/

/-- The number of sixteen-valued digits `d`, the lowest first. -/
def hexSum (d : Nat → Nat) (n : Nat) : Nat := (List.range n).foldl (fun a i => a + 16 ^ i * d i) 0

theorem hexSum_succ (d : Nat → Nat) (n : Nat) : hexSum d (n + 1) = hexSum d n + 16 ^ n * d n := by
  simp [hexSum, List.range_succ]

theorem hexSum_lt (d : Nat → Nat) (hd : ∀ i, d i < 16) (n : Nat) : hexSum d n < 16 ^ n := by
  induction n with
  | zero => exact Nat.one_pos
  | succ n ih =>
    have hmul : 16 ^ n * d n ≤ 16 ^ n * 15 := Nat.mul_le_mul_left _ (Nat.le_of_lt_succ (hd n))
    rw [hexSum_succ, pow_succ]
    omega

theorem hexSum_digit (d : Nat → Nat) (hd : ∀ i, d i < 16) (n i : Nat) (hi : i < n) : hexSum d n / 16 ^ i % 16 = d i := by
  induction n with
  | zero => omega
  | succ n ih =>
    have hpos : 0 < 16 ^ i := Nat.pow_pos (by decide)
    rw [hexSum_succ]
    rcases Nat.lt_succ_iff_lt_or_eq.1 hi with h | rfl
    · have hsplit : 16 ^ n * d n = 16 ^ i * (16 * (16 ^ (n - i - 1) * d n)) := by
        rw [← mul_assoc, ← mul_assoc, ← pow_succ, ← pow_add]
        congr 2
        omega
      rw [hsplit, Nat.add_mul_div_left _ _ hpos, Nat.add_mul_mod_self_left, ih h]
    · rw [Nat.add_mul_div_left _ _ hpos, Nat.div_eq_of_lt (hexSum_lt d hd i), Nat.zero_add, Nat.mod_eq_of_lt (hd i)]

/-- The four bits of a FIFO in QST (R44). -/
def Fifo.status (f : Fifo) : Nat :=
  bit f.peer.isSome + 2 * bit f.inb.isEmpty + 4 * bit (decide (64 ≤ f.outb.length)) + 8 * bit f.err

theorem fourBits (a b c d : Bool) : bit a + 2 * bit b + 4 * bit c + 8 * bit d < 16 ∧
    (bit a + 2 * bit b + 4 * bit c + 8 * bit d).testBit 0 = a ∧ (bit a + 2 * bit b + 4 * bit c + 8 * bit d).testBit 1 = b ∧
    (bit a + 2 * bit b + 4 * bit c + 8 * bit d).testBit 2 = c ∧
    (bit a + 2 * bit b + 4 * bit c + 8 * bit d).testBit 3 = d := by
  revert a b c d
  decide

/-- The digit of FIFO `i` in QST. -/
def Core.fifoDigit (c : Core) (i : Nat) : Nat := (c.fifo[i]?).elim 0 Fifo.status

theorem Core.fifoDigit_lt (c : Core) (i : Nat) : c.fifoDigit i < 16 := by
  unfold Core.fifoDigit
  cases c.fifo[i]? with
  | none => decide
  | some f => exact (fourBits _ _ _ _).1

theorem Core.qst_eq (c : Core) : c.qst = BitVec.ofNat 64 (hexSum c.fifoDigit 16) := by
  unfold Core.qst hexSum
  congr 2
  funext n i
  unfold Core.fifoDigit
  cases c.fifo[i]? <;> rfl

theorem Core.qst_bit (c : Core) (i j : Nat) (h : i < 16) (hj : j < 4) :
    c.qst.getLsbD (4 * i + j) = (c.fifo[i].status).testBit j := by
  have hdig : c.fifoDigit i = c.fifo[i].status := by simp [Core.fifoDigit, h]
  have hpow : (2 : Nat) ^ (4 * i) = 16 ^ i := by rw [Nat.pow_mul]
  have hlt : 4 * i + j < 64 := by omega
  rw [← hdig, ← hexSum_digit c.fifoDigit c.fifoDigit_lt 16 i h, show 16 = 2 ^ 4 by rfl, Nat.testBit_mod_two_pow]
  simp only [hj, decide_true, Bool.true_and]
  rw [← show 16 = 2 ^ 4 by rfl, ← hpow, Nat.testBit_div_two_pow, c.qst_eq, BitVec.getLsbD_ofNat,
    decide_eq_true hlt, Bool.true_and, Nat.add_comm]

theorem Core.qst_fields (c : Core) (i : Nat) (h : i < 16) :
    c.qst.getLsbD (4 * i) = c.fifo[i].peer.isSome ∧ c.qst.getLsbD (4 * i + 1) = c.fifo[i].inb.isEmpty ∧
      c.qst.getLsbD (4 * i + 2) = decide (64 ≤ c.fifo[i].outb.length) ∧ c.qst.getLsbD (4 * i + 3) = c.fifo[i].err := by
  obtain ⟨-, h0, h1, h2, h3⟩ := fourBits c.fifo[i].peer.isSome c.fifo[i].inb.isEmpty
    (decide (64 ≤ c.fifo[i].outb.length)) c.fifo[i].err
  exact ⟨(c.qst_bit i 0 h (by decide)).trans h0, (c.qst_bit i 1 h (by decide)).trans h1,
    (c.qst_bit i 2 h (by decide)).trans h2, (c.qst_bit i 3 h (by decide)).trans h3⟩

/-- CPYST is made of its queue's length, of a bit, and of what the faulted entry gives, if there is one (R44). -/
theorem Core.cpyst_parts (c : Core) : ∃ (busy : Bool) (f : Nat),
    c.cpyst = BitVec.ofNat 64 (c.cq.length + 128 * bit busy + f) ∧
    (f = 0 ∨ ∃ p : BitVec 6, f = 256 + 512 * p.toNat) ∧
    ((∀ e ∈ c.cq, e.phase = .waiting) → busy = false ∧ f = 0) ∧
    (∀ e l, c.cq = e :: l → (∃ t, e.phase = .flying t) → busy = true) ∧
    ∀ e l, c.cq = e :: l → (∃ t, e.phase = .faulted t) → f = 256 + 512 * e.pos.toNat := by
  refine ⟨_, _, rfl, ?_, fun hw => ⟨?_, ?_⟩, ?_, ?_⟩
  · split
    · exact .inr ⟨_, rfl⟩
    · exact .inl rfl
  · refine List.any_eq_false.2 fun e he => ?_
    rw [hw e he]
    exact Bool.false_ne_true
  · split
    · next e he =>
      have hp := List.find?_some he
      rw [hw e (List.mem_of_find?_eq_some he)] at hp
      cases hp
    · rfl
  · rintro e l hc ⟨t, ht⟩
    rw [hc, List.any_cons, ht]
    rfl
  · rintro e l hc ⟨t, ht⟩
    rw [hc, List.find?_cons_of_pos (by rw [ht])]

/-- The low fields of a word that is a number below 2^64. -/
theorem toNat_extractLsb'_ofNat (n lo w : Nat) (h : n < 2 ^ 64) :
    ((BitVec.ofNat 64 n).extractLsb' lo w).toNat = n / 2 ^ lo % 2 ^ w := by
  rw [BitVec.extractLsb'_toNat, BitVec.toNat_ofNat, Nat.mod_eq_of_lt h, Nat.shiftRight_eq_div_pow]

theorem getLsbD_ofNat_lt (n i : Nat) (h : n < 2 ^ 64) : (BitVec.ofNat 64 n).getLsbD i = decide (n / 2 ^ i % 2 = 1) := by
  rw [BitVec.getLsbD, BitVec.toNat_ofNat, Nat.mod_eq_of_lt h, Nat.testBit_eq_decide_div_mod_eq]

theorem Core.cpyst_fields (c : Core) (h : c.cq.length ≤ 64) :
    (c.cpyst.extractLsb' 0 7).toNat = c.cq.length ∧
    ((∀ e ∈ c.cq, e.phase = .waiting) → c.cpyst.extractLsb' 7 57 = 0) ∧
    (∀ e l, c.cq = e :: l → (∃ t, e.phase = .flying t) → c.cpyst.getLsbD 7 = true) ∧
    ∀ e l, c.cq = e :: l → (∃ t, e.phase = .faulted t) →
      c.cpyst.getLsbD 8 = true ∧ c.cpyst.extractLsb' 9 6 = e.pos := by
  obtain ⟨busy, f, hx, hf, hwait, hfly, hfault⟩ := c.cpyst_parts
  have hfault_lt : f < 2 ^ 16 ∧ f % 256 = 0 := by
    rcases hf with rfl | ⟨p, rfl⟩
    · decide
    · have := p.isLt
      omega
  obtain ⟨hf_lt, hf_mod⟩ := hfault_lt
  have hb : bit busy ≤ 1 := by cases busy <;> decide
  have hlt : c.cq.length + 128 * bit busy + f < 2 ^ 64 := by omega
  rw [hx]
  refine ⟨?_, fun hw => ?_, fun e l hc ht => ?_, fun e l hc ht => ⟨?_, ?_⟩⟩
  · rw [toNat_extractLsb'_ofNat _ _ _ hlt]
    omega
  · obtain ⟨rfl, rfl⟩ := hwait hw
    apply BitVec.eq_of_toNat_eq
    rw [toNat_extractLsb'_ofNat _ _ _ hlt]
    have h0 : bit false = 0 := rfl
    have hz : (0 : BitVec 57).toNat = 0 := rfl
    omega
  · have h1 : bit busy = 1 := by rw [hfly e l hc ht]; rfl
    rw [getLsbD_ofNat_lt _ _ hlt, decide_eq_true_eq]
    omega
  · rw [getLsbD_ofNat_lt _ _ hlt, hfault e l hc ht]
    simp only [decide_eq_true_eq]
    omega
  · apply BitVec.eq_of_toNat_eq
    rw [toNat_extractLsb'_ofNat _ _ _ hlt, hfault e l hc ht]
    have := e.pos.isLt
    omega

theorem setWidth_64_eq_extractLsb' (x : BitVec 128) : x.setWidth 64 = x.extractLsb' 0 64 := by
  ext i
  simp

theorem setWidth_64_shift_eq_extractLsb' (x : BitVec 128) : (x >>> 64).setWidth 64 = x.extractLsb' 64 64 := by
  ext i
  simp

theorem vector_getD_fin {α : Type} {n : Nat} (x : Vector α n) (i : Fin n) (d : α) : x.getD i d = x[i] := by
  simp [Vector.getD]

theorem specialRegisterReads : Claims.SpecialRegisterReads := by
  refine ⟨?_, ?_, ?_, fun n => ?_, ?_, ?_, ?_, ?_, ?_, ?_, ?_, ?_, ?_, ?_, ?_, ?_, fun n => ?_, fun n => ?_, fun n => ?_,
    ?_, ?_, ?_, ?_, ?_, ?_, fun o s ho hm => ?_, fun o s ho hm hl => ?_, fun o s ho hm => ?_, fun n o s ho hm => ?_,
    fun o s ho hm => ?_⟩
  case refine_26 =>
    have hread : readSreg s o.imm.toNat =
        if (s.arrayOf s.core.id).solo = true then s.core.iss.tdisc.extractLsb' 64 64 else 0 := by
      rw [ho, ← setWidth_64_shift_eq_extractLsb']
      rfl
    exact hread ▸ srd_runs o s (.inl hm)
  case refine_27 =>
    have hread : readSreg s o.imm.toNat = s.core.cpyst := by rw [ho]; rfl
    exact ⟨_, hread ▸ srd_runs o s (.inl hm), s.core.cpyst_fields hl⟩
  case refine_28 =>
    have hread : readSreg s o.imm.toNat = s.core.qst := by rw [ho]; rfl
    refine ⟨_, hread ▸ srd_runs o s (.inl hm), ?_⟩
    rintro i h f rfl
    exact s.core.qst_fields i h
  case refine_29 =>
    have hn : o.imm.toNat = 0x30 + n := by rw [ho]; simp; omega
    have hread : readSreg s o.imm.toNat = s.core.iss.trc[n] := by
      rw [hn, ← vector_getD_fin _ n 0]
      fin_cases n <;> rfl
    have hin : sregMgmt o.imm.toNat = true := by
      rw [hn]
      simp [sregMgmt]
      omega
    exact hread ▸ srd_runs o s (.inr hin)
  case refine_30 =>
    have hread : readSreg s o.imm.toNat = s.core.iss.thnd := by rw [ho]; rfl
    exact hread ▸ srd_runs o s (.inr (by rw [ho]; rfl))
  case refine_4 => exact reads_of _ _ fun s => by rw [← vector_getD_fin _ n 0]; fin_cases n <;> rfl
  case refine_17 => exact reads_of _ _ fun s => by rw [← vector_getD_fin _ n 0]; fin_cases n <;> rfl
  case refine_18 => exact reads_of _ _ fun s => by rw [← vector_getD_fin _ n 0]; fin_cases n <;> rfl
  case refine_19 => exact reads_of _ _ fun s => by rw [← vector_getD_fin _ n 0]; fin_cases n <;> rfl
  case refine_21 => exact reads_of _ _ fun s => setWidth_64_eq_extractLsb' _
  case refine_22 => exact reads_of _ _ fun s => setWidth_64_shift_eq_extractLsb' _
  case refine_23 => exact reads_of _ _ fun s => setWidth_64_eq_extractLsb' _
  all_goals exact reads_of _ _ fun s => rfl

theorem swr_runs (o : SKOp) (s : State) (h : sregRO o.imm.toNat = false)
    (hm : s.mgmt = false ∨ sregMgmt o.imm.toNat = true) :
    Claims.Runs (.swr o) o.h s
      (if o.imm = 0x038 ∧ s.mgmt = false then
        (writeSreg s o.imm.toNat (s.rdS o.rd)).onCore fun c => { c with inh := false }
      else writeSreg s o.imm.toNat (s.rdS o.rd)) := by
  rw [Claims.Runs, exec_swr, execSwr]
  exact runChecked_of_none _ _ _ _ (privilege_ok s _ (by rcases hm with hm | hm <;> simp [h, hm]))

theorem writesSpecial_of (n : BitVec 12) (f : Regs → Word → Regs) (h : sregRO n.toNat = false) (hne : n ≠ 0x038)
    (hf : ∀ (s : State) (x : Word), writeSreg s n.toNat x = s.onRegs fun r => f r x) : Claims.writesSpecial n f := by
  rintro o s rfl hm
  have hrun := swr_runs o s h (.inl hm)
  rw [if_neg fun hc => hne hc.1, hf] at hrun
  exact hrun

theorem fld_one {n : Nat} (x : BitVec n) (lo : Nat) : fld x lo 1 = bit (x.getLsbD lo) := by
  rw [fld, BitVec.extractLsb'_toNat, BitVec.getLsbD, Nat.testBit_eq_decide_div_mod_eq, Nat.shiftRight_eq_div_pow]
  simp only [bit, decide_eq_true_eq]
  split <;> omega

theorem setFld_detm (d : BitVec 2) (x : Word) : setFld d 1 1 (fld x 1 1) = (d &&& 1) ||| (x.setWidth 2 &&& 2) := by
  rw [fld_one]
  ext i hi
  rw [← BitVec.getLsbD_eq_getElem, ← BitVec.getLsbD_eq_getElem, getLsbD_setFld_one _ _ _ _ hi]
  interval_cases i <;> simp

theorem setFld_low (d : BitVec 128) (x : Word) : setFld d 0 64 x.toNat = (d >>> 64 <<< 64) ||| x.setWidth 128 := by
  ext i hi
  rw [← BitVec.getLsbD_eq_getElem, ← BitVec.getLsbD_eq_getElem, getLsbD_setFld _ _ _ _ _ hi, BitVec.testBit_toNat]
  by_cases h : i < 64
  · simp [h, hi]
  · simp [h, hi, BitVec.getLsbD_of_ge x i (by omega), show 64 + (i - 64) = i by omega]

theorem setFld_high (d : BitVec 128) (x : Word) :
    setFld d 64 64 x.toNat = (d.setWidth 64).setWidth 128 ||| x.setWidth 128 <<< 64 := by
  ext i hi
  rw [← BitVec.getLsbD_eq_getElem, ← BitVec.getLsbD_eq_getElem, getLsbD_setFld _ _ _ _ _ hi, BitVec.testBit_toNat]
  by_cases h : i < 64
  · simp [h, hi, show ¬ 64 ≤ i by omega]
  · simp [h, hi, show 64 ≤ i by omega]

theorem vector_setIfInBounds_fin {α : Type} {n : Nat} (x : Vector α n) (i : Fin n) (a : α) :
    x.setIfInBounds i a = x.set i a := by
  simp [Vector.setIfInBounds, Vector.set, Array.setIfInBounds]
theorem specialRegisterWrites : Claims.SpecialRegisterWrites := by
  refine ⟨?_, ?_, ?_, ?_, ?_, ?_, ?_, ?_, ?_, fun n => ?_, fun n => ?_, ?_, ?_, ?_, ?_, fun o s ho hm => ?_,
    fun o s ho hm => ?_, fun n o s ho hg => ?_⟩
  case refine_16 =>
    have hrun := swr_runs o s (by rw [ho]; rfl) (.inl hm)
    rw [if_pos ⟨ho, hm⟩, ho] at hrun
    exact hrun
  case refine_17 =>
    have hrun := swr_runs o s (by rw [ho]; rfl) (.inr (by rw [ho]; rfl))
    rw [if_neg (by simp [hm]), ho] at hrun
    exact hrun
  case refine_18 =>
    have hro : sregRO o.imm.toNat = true := by
      rw [ho]
      fin_cases n <;> rfl
    rw [exec_swr, execSwr]
    exact runChecked_some _ _ _ _ _ hg (privilege_bad s _ (by simp [hro]))
  case refine_10 =>
    refine writesSpecial_of _ _ (by fin_cases n <;> rfl) (by fin_cases n <;> decide) fun s x => ?_
    simp only [← vector_setIfInBounds_fin]
    fin_cases n <;> rfl
  case refine_11 =>
    refine writesSpecial_of _ _ (by fin_cases n <;> rfl) (by fin_cases n <;> decide) fun s x => ?_
    simp only [← vector_setIfInBounds_fin]
    fin_cases n <;> rfl
  case refine_1 => exact writesSpecial_of _ _ rfl (by decide) fun s x => by simp only [← setFld_detm]; rfl
  case refine_14 => exact writesSpecial_of _ _ rfl (by decide) fun s x => by simp only [← setFld_low]; rfl
  case refine_15 => exact writesSpecial_of _ _ rfl (by decide) fun s x => by simp only [← setFld_high]; rfl
  all_goals exact writesSpecial_of _ _ rfl (by decide) fun s x => rfl

/-- Settles O10: `readSreg` and `writeSreg` at each number of the table. -/
theorem specialRegisters : Obligations.SpecialRegisters := ⟨specialRegisterReads, specialRegisterWrites⟩

/-! Clocks, NOPs and reset. -/

theorem rfld_one_eq (s : State) (key lo : Nat) : s.rfld key lo 1 = 1 ↔ (s.reg key).getLsbD lo = true := by
  rw [State.rfld, fld_one]
  cases (s.reg key).getLsbD lo <;> simp [bit]

/-- Settles O11: each is a slot with its own effect, and RDPTP's condition is a bit of PTPCTL. -/
theorem clocksAndNops : Obligations.ClocksAndNops := by
  refine ⟨fun _ _ => rfl, fun _ _ => rfl, fun o s => ?_, fun _ _ => rfl, fun _ _ => rfl, fun _ _ => rfl⟩
  simp only [← rfld_one_eq]
  rfl

/-- Settles O54: the fields of the reset state, and the reset values of the registers named. -/
theorem resetState : Obligations.ResetState := by
  refine ⟨rfl, fun _ => rfl, rfl, rfl, rfl, rfl, rfl, ?_⟩
  decide

end Sys2Proof.Machine
end

section
/-! PROOFS. What a write of memory leaves: everything but the bytes and the marks of their lines (R336, R354, R355). -/

namespace Sys2Proof.Machine

/-- A state without its memory, and without what marks its lines: how they were written, the L1s, the LLC, read counts, and
the write-back in hand (R336, R354). -/
def State.sansMemory (s : State) : State :=
  { s with
    mem := [], lines := [], readCounts := [], llc := [], scrub := none, core := { s.core with l1 := [] }
    others := s.others.map fun c => { c with l1 := [] } }

/-- `s` and `t` differ at most in their memory and in what marks its lines. -/
def OnlyMemory (s t : State) : Prop := t.sansMemory = s.sansMemory

theorem OnlyMemory.refl (s : State) : OnlyMemory s s := rfl

theorem OnlyMemory.trans {s t u : State} (h : OnlyMemory s t) (k : OnlyMemory t u) : OnlyMemory s u := Eq.trans k h

theorem OnlyMemory.regs {s t : State} (h : OnlyMemory s t) : t.regs = s.regs :=
  have hu : t.sansMemory.regs = s.sansMemory.regs := congrArg State.regs h
  hu

theorem OnlyMemory.held {s t : State} (h : OnlyMemory s t) : t.held = s.held :=
  have hu : t.sansMemory.held = s.sansMemory.held := congrArg State.held h
  hu

theorem OnlyMemory.onlyL1 {s t : State} (h : OnlyMemory s t) : OnlyL1 s t := by
  have hu : t.sansMemory.core = s.sansMemory.core := congrArg State.core h
  refine ⟨t.core.l1, ?_⟩
  have hl : t.core = { t.sansMemory.core with l1 := t.core.l1 } := rfl
  rw [hl, hu]
  rfl

theorem State.touchLine_onlyMemory (s : State) (line : Nat) (key : BitVec 16) : OnlyMemory s (s.touchLine line key) := by
  simp only [OnlyMemory, State.sansMemory, State.touchLine, List.map_map, Function.comp_def]

theorem State.mergeLine_onlyMemory (s : State) (line : Nat) (whole : Bool) (key : BitVec 16) :
    OnlyMemory s (s.mergeLine line whole key) := by
  unfold State.mergeLine
  split
  · exact rfl
  · exact .refl s

theorem OnlyMemory.foldl {α : Type} {f : State → α → State} (hf : ∀ t a, OnlyMemory t (f t a)) (l : List α) (s : State) :
    OnlyMemory s (l.foldl f s) := foldl_keeps (OnlyMemory s) f (fun t a h => h.trans (hf t a)) l s (.refl s)

theorem State.physWrite_onlyMemory (s : State) (pa : Nat) (bs : List Byte) (key : BitVec 16) :
    OnlyMemory s (s.physWrite pa bs key) := by
  unfold State.physWrite
  extract_lets a n lines s1 s2
  have h1 : OnlyMemory s s1 := .foldl (fun t l => t.mergeLine_onlyMemory l _ key) lines s
  have h2 : OnlyMemory s1 s2 := rfl
  exact (h1.trans h2).trans (.foldl (fun t l => t.touchLine_onlyMemory l key) lines s2)

theorem State.agentWrite_onlyMemory (s : State) (pa : Nat) (bs : List Byte) : OnlyMemory s (s.agentWrite pa bs) := by
  unfold State.agentWrite
  split
  · exact .refl s
  · exact s.physWrite_onlyMemory pa bs 0

/-! A register of the module after a write (R378). -/

@[simp] theorem State.reg_setReg_same (s : State) (k : Nat) (v : Word) : (s.setReg k v).reg k = v :=
  Sparse.get_set_same _ _ _ _

theorem State.reg_setReg_other (s : State) (k j : Nat) (v : Word) (h : j ≠ k) : (s.setReg k v).reg j = s.reg j :=
  Sparse.get_set_other _ _ _ _ _ h

theorem State.reg_congr {s t : State} (h : t.regs = s.regs) (k : Nat) : t.reg k = s.reg k := by
  rw [State.reg, State.reg, h]

end Sys2Proof.Machine
end

section
/-! PROOFS. Taking a trap: what each delivery does, class by class (R304 to R311, R328, R422). -/

namespace Sys2Proof.Machine

/-! What the end of a task leaves of its core. -/

/-- A core without what a stop of a launch touches: the staged task, its preload, and KILL (R291, R294). -/
def Core.unstaged (c : Core) : Core := { c with staged := none, kill := none, remotes := [], fetched := [] }

/-- A state without what the stop of a launch touches: of its core in focus as above, the other cores, the launches, the
hand-offs and the save slots (R291, R294). -/
def State.unstopped (s : State) : State :=
  { s with core := s.core.unstaged, others := [], launches := [], handoffs := [], slots := [] }

/-- `s` and `t` differ at most in what the stop of a launch touches. -/
def OnlyStop (s t : State) : Prop := t.unstopped = s.unstopped

theorem OnlyStop.refl (s : State) : OnlyStop s s := rfl

theorem OnlyStop.trans {s t u : State} (h : OnlyStop s t) (k : OnlyStop t u) : OnlyStop s u := Eq.trans k h

theorem OnlyStop.r {s t : State} (h : OnlyStop s t) : t.core.r = s.core.r :=
  have hu : t.unstopped.core.r = s.unstopped.core.r := congrArg (fun u => u.core.r) h
  hu

theorem OnlyStop.pc {s t : State} (h : OnlyStop s t) : t.core.pc = s.core.pc :=
  have hu : t.unstopped.core.pc = s.unstopped.core.pc := congrArg (fun u => u.core.pc) h
  hu

theorem OnlyStop.mapCores (s : State) (f : Core → Core) (hf : ∀ c, (f c).unstaged = c.unstaged) :
    OnlyStop s (s.mapCores f) := congrArg (fun c : Core => ({ s.unstopped with core := c } : State)) (hf s.core)

theorem OnlyStop.onCoreAt (s : State) (n : Nat) (f : Core → Core) (hf : ∀ c, (f c).unstaged = c.unstaged) :
    OnlyStop s (s.onCoreAt n f) := by
  obtain ⟨l, h⟩ := s.onCoreAt_cases n f
  rw [h]
  split
  · exact congrArg (fun c : Core => ({ s.unstopped with core := c } : State)) (hf s.core)
  · exact rfl

theorem Core.unstaged_noPreload (c : Core) : Core.unstaged { c.noPreload with staged := none } = c.unstaged := by
  simp only [Core.unstaged, Core.noPreload, Core.forget]

theorem State.takeStaged_onlyStop (s : State) (n : Nat) : OnlyStop s (s.takeStaged n) :=
  .onCoreAt s n _ Core.unstaged_noPreload

theorem State.dropStaged_onlyStop (s : State) (n : Nat) : OnlyStop s (s.dropStaged n) := by
  unfold State.dropStaged
  split
  · exact (s.takeStaged_onlyStop n).trans rfl
  · exact .refl s

theorem State.unstage_onlyStop (s : State) (n : Nat) : OnlyStop s (s.unstage n) := by
  unfold State.unstage
  split
  · exact (s.dropStaged_onlyStop n).trans rfl
  · exact .refl s

theorem State.stopLaunch_onlyStop (s : State) (n : BitVec 32) : OnlyStop s (s.stopLaunch n) := by
  unfold State.stopLaunch
  extract_lets s1 s2
  have h1 : OnlyStop s s1 := by
    refine foldl_keeps (OnlyStop s) _ (fun t c h => ?_) _ _ rfl
    split
    · split
      · exact h.trans (t.unstage_onlyStop _)
      · exact h
    · exact h
  have h2 : OnlyStop s1 s2 := by
    refine .mapCores s1 _ fun c => ?_
    split
    · split <;> rfl
    · rfl
  have h3 : OnlyStop s2 _ := rfl
  exact (h1.trans h2).trans h3

theorem State.stopFor_onlyStop (s : State) (n : BitVec 32) : OnlyStop s (s.stopFor n) := by
  unfold State.stopFor
  split
  · split
    · exact s.stopLaunch_onlyStop n
    · exact .refl s
  · exact .refl s

theorem State.faultArises_onlyStop (s : State) (n : Nat) (t : Trap) : OnlyStop s (s.faultArises n t) := by
  unfold State.faultArises
  split
  · exact .refl s
  · split
    · exact .refl s
    · dsimp only
      split
      · exact OnlyStop.trans rfl (State.unstage_onlyStop _ n)
      · exact OnlyStop.trans rfl (State.stopFor_onlyStop _ _)

theorem Core.faultTaken_eq (c : Core) (pos : BitVec 6) :
    ∃ n ds, c.faultTaken pos = { c with cq := c.cq.filter fun e => e.pos != pos, ctl := n, cqDone := ds } := by
  unfold Core.faultTaken
  split
  · exact ⟨_, _, rfl⟩
  · next h =>
    refine ⟨c.ctl, c.cqDone, ?_⟩
    rw [List.filter_eq_self.2 fun e he => by simpa using List.find?_eq_none.1 h e he]

theorem Core.dropFaults_eq (c : Core) : ∃ q n ds, c.dropFaults = { c with cq := q, ctl := n, cqDone := ds } := by
  refine foldl_keeps (fun d : Core => ∃ q n ds, d = { c with cq := q, ctl := n, cqDone := ds }) _ ?_ _ _ ⟨_, _, _, rfl⟩
  rintro d x ⟨q, n, ds, rfl⟩
  obtain ⟨n', ds', h⟩ := Core.faultTaken_eq { c with cq := q, ctl := n, cqDone := ds } x.1
  exact ⟨_, _, _, h⟩

@[simp] theorem State.endTask_core_st (s : State) (t : Trap) : (s.endTask t).core.st = .draining := rfl
@[simp] theorem State.endTask_core_status (s : State) (t : Trap) : (s.endTask t).core.status = some t := rfl
@[simp] theorem State.endTask_core_pend (s : State) (t : Trap) : (s.endTask t).core.pend = [] := rfl
@[simp] theorem State.endTask_core_note (s : State) (t : Trap) : (s.endTask t).core.note = .trap false := rfl

theorem Core.dropFaults_r (c : Core) : c.dropFaults.r = c.r := by
  obtain ⟨q, n, ds, h⟩ := c.dropFaults_eq
  rw [h]

theorem Core.dropFaults_pc (c : Core) : c.dropFaults.pc = c.pc := by
  obtain ⟨q, n, ds, h⟩ := c.dropFaults_eq
  rw [h]

/-- The end of a task leaves its registers and its PC (R311). -/
@[simp] theorem State.endTask_core_r (s : State) (t : Trap) : (s.endTask t).core.r = s.core.r :=
  (Core.dropFaults_r _).trans (s.faultArises_onlyStop s.core.id t).r

@[simp] theorem State.endTask_core_pc (s : State) (t : Trap) : (s.endTask t).core.pc = s.core.pc :=
  (Core.dropFaults_pc _).trans (s.faultArises_onlyStop s.core.id t).pc

/-! The classes of causes (R304). -/

/-- The class of a cause, of a list of causes that have it. -/
theorem trapClass_of_list {l : List (BitVec 8)} {c : BitVec 8} {k : TrapClass} (hc : c ∈ l)
    (hl : ∀ x ∈ l, trapClass x = k) : trapClass c = k := hl c hc

/-! Deliveries. -/

/-- The trap takes no entry from a copy queue: it is no COPY_FAULT that names one (R225). -/
def Trap.plain (t : Trap) : Prop := t.cause ≠ 0x0D ∨ t.entry = none

theorem State.takeTrap_mgmt (s : State) (t : Trap) (hp : t.plain) (hm : s.mgmt = true) :
    s.takeTrap t = if s.core.accept then (s.enterHandler t).onCore fun c => { c with accept := false }
      else s.recover := by
  unfold State.takeTrap
  split
  · next h1 h2 => rcases hp with h | h <;> simp_all
  · exact if_pos hm

theorem State.takeTrap_handler (s : State) (t : Trap) (hp : t.plain) (hm : s.mgmt = false)
    (hc : trapClass t.cause = .handler) (hh : s.core.r.thnd ≠ 0) (hi : s.core.inh = false) :
    s.takeTrap t = (s.enterHandler t).onCore fun c => { c with inh := true } := by
  unfold State.takeTrap
  split
  · next h1 h2 => rcases hp with h | h <;> simp_all
  · simp only [hm, hc, Bool.false_eq_true, if_false]
    exact if_pos ⟨hh, hi⟩

theorem State.takeTrap_ends (s : State) (t : Trap) (hp : t.plain) (hm : s.mgmt = false)
    (hc : trapClass t.cause = .ends ∨ trapClass t.cause = .handler ∧ (s.core.r.thnd = 0 ∨ s.core.inh = true)) :
    s.takeTrap t = (s.onRegs fun r => { r with trc := trcOf t s.core.pc s.mcc }).endTask t := by
  unfold State.takeTrap
  split
  · next h1 h2 => rcases hp with h | h <;> simp_all
  · rcases hc with hc | ⟨hc, hh | hi⟩
    · simp [hm, hc]
    · simp [hm, hc, hh]
    · simp [hm, hc, hi]

/-- The fault of a copy entry: the entry leaves its queue, and the handler is entered (R225, R307). -/
theorem State.takeTrap_copyFault (s : State) (t : Trap) (pos : BitVec 6) (hm : s.mgmt = false) (hc : t.cause = 0x0D)
    (he : t.entry = some (false, pos)) (hh : s.core.r.thnd ≠ 0) (hi : s.core.inh = false) :
    s.takeTrap t = ((s.onCore fun c => c.faultTaken pos).enterHandler t).onCore fun c => { c with inh := true } := by
  obtain ⟨n, ds, hf⟩ := s.core.faultTaken_eq pos
  have hm' : (s.onCore fun c => c.faultTaken pos).mgmt = false := by
    simp only [State.mgmt, State.onCore_core, hf]
    exact hm
  have hcls := (congrArg trapClass hc : trapClass t.cause = .handler)
  unfold State.takeTrap
  split
  · next p h1 h2 =>
    obtain rfl : p = pos := by simpa [he] using h2.symm
    have hr : (s.core.faultTaken p).r = s.core.r := by rw [hf]
    have hin : (s.core.faultTaken p).inh = s.core.inh := by rw [hf]
    simp only [hm', hcls, Bool.false_eq_true, if_false]
    exact if_pos ⟨hr ▸ hh, hin ▸ hi⟩
  · next h => exact absurd he (h pos hc)

/-! What the record and the handler hold. -/

theorem trcOf_get (t : Trap) (pc mcc : Word) : (trcOf t pc mcc)[0] = BitVec.ofNat 64 (t.cause.toNat + 256 * t.detail.toNat) ∧
    (trcOf t pc mcc)[1] = t.slots.setWidth 64 ∧ (trcOf t pc mcc)[2] = pc ∧ (trcOf t pc mcc)[3] = t.addr ∧
    (trcOf t pc mcc)[5] = t.epoch ∧ (trcOf t pc mcc)[6] = mcc ∧ (trcOf t pc mcc)[7] = t.aux :=
  ⟨rfl, rfl, rfl, rfl, rfl, rfl, rfl⟩

theorem handlerEntry : Claims.HandlerEntry := by
  intro s t hc he hm hh hi
  refine ⟨trcOf t s.core.pc s.mcc, ?_, rfl, rfl, rfl, rfl, ?_, rfl, rfl, rfl⟩
  · rw [s.takeTrap_handler t (.inr he) hm (trapClass_of_list hc (by decide)) hh hi]
    rfl
  · simp [trcOf, he]

/-- R311: how a task ends by a trap. -/
theorem State.takeTrap_ended (s : State) (t : Trap) (hp : t.plain) (hm : s.mgmt = false)
    (hc : trapClass t.cause = .ends ∨ trapClass t.cause = .handler ∧ (s.core.r.thnd = 0 ∨ s.core.inh = true)) :
    Claims.EndedBy s (s.takeTrap t) t := by
  rw [s.takeTrap_ends t hp hm hc]
  have hr : ((s.onRegs fun r => { r with trc := trcOf t s.core.pc s.mcc }).endTask t).core.r =
      { s.core.r with trc := trcOf t s.core.pc s.mcc } := State.endTask_core_r _ _
  refine ⟨rfl, rfl, ?_, ?_, ?_, ?_, ?_, ?_, State.endTask_core_pc _ _, rfl, sameMemory_of_mem (State.endTask_mem _ _)⟩
  all_goals
    rw [hr]
    rfl

theorem taskEndingTrap : Claims.TaskEndingTrap := by
  intro s t he hm
  refine ⟨fun hc => ?_, fun hc hh => ?_, fun hc hi => ?_⟩
  · exact s.takeTrap_ended t (.inr he) hm (.inl (trapClass_of_list hc (by decide)))
  · exact s.takeTrap_ended t (.inr he) hm (.inr ⟨trapClass_of_list hc (by decide), .inl hh⟩)
  · have hcls : trapClass t.cause = .handler := by
      revert hc
      generalize t.cause = c
      revert c
      decide
    have hend := s.takeTrap_ended (Claims.slotTrap s t) (.inr he) hm (.inr ⟨hcls, .inr hi⟩)
    obtain ⟨hst, hstatus, -⟩ := id hend
    exact ⟨hend, hst, hstatus⟩

/-! Pending causes (R306, R308). -/

theorem State.firstPending_one (s : State) (x : Trap) (h : s.core.pend = [x]) :
    s.firstPending = if s.deliverable x then some x else none := by
  simp only [State.firstPending, h, List.filter_cons, List.filter_nil]
  split <;> rfl

/-- The state in which the one pending cause of the core is taken. -/
def State.unpend (s : State) : State := s.onCore fun c => { c with pend := [] }

/-- R306: the one pending cause, where it can be delivered, is taken. -/
theorem trapDelivery_one (s : State) (x : Trap) (hk : s.core.kill = none) (hp : s.core.pend = [x])
    (hd : s.deliverable x = true) : exec .trapDelivery s = .next (s.unpend.takeTrap x) := by
  have hfirst : s.firstPending = some x := by rw [s.firstPending_one x hp, hd]; rfl
  have herase : s.core.pend.erase x = [] := by rw [hp, List.erase_cons_head]
  simp only [exec, execTrapDelivery, hk, hfirst, State.unpend, State.onCore, herase]

theorem pendingCauses : Claims.PendingCauses := by
  intro s x hc he hm hk hpend
  have hcls : trapClass x.cause = .handler := trapClass_of_list hc (by decide)
  have hdel : s.deliverable x = !s.core.inh := by simp [State.deliverable, hcls, hm]
  refine ⟨fun hi hpf => ?_, fun hi hh => ?_, fun hi hh => ?_⟩
  · have hfirst : s.firstPending = none := by rw [s.firstPending_one x hpend, hdel, hi]; rfl
    refine ⟨?_, fun hf => ?_⟩
    · simp only [State.causeNow, hk, hfirst, hpf]
      split_ifs <;> simp_all
    · simp only [exec, execTrapDelivery, hk, hfirst, hpf, hf]
      rfl
  · refine ⟨_, trapDelivery_one s x hk hpend (by rw [hdel, hi]; rfl), ?_⟩
    rw [State.takeTrap_handler s.unpend x (.inr he) hm hcls hh hi]
    refine ⟨rfl, rfl, rfl, ?_, rfl, rfl, rfl, fun _ => rfl⟩
    refine (trcOf_get x s.core.pc s.mcc).1.trans ?_
    apply BitVec.eq_of_toNat_eq
    simp
  · exact ⟨_, trapDelivery_one s x hk hpend (by rw [hdel, hi]; rfl),
      s.unpend.takeTrap_ended x (.inr he) hm (.inr ⟨hcls, .inl hh⟩)⟩

/-! Faults of queue entries (R225, R304). -/

theorem trcOf_entry (t : Trap) (pc mcc : Word) (q : Bool) (i : BitVec 6) (h : t.entry = some (q, i)) :
    (trcOf t pc mcc)[4] = BitVec.ofNat 64 (128 + 64 * bit q) + i.setWidth 64 := by
  have hget : (trcOf t pc mcc)[4] = BitVec.ofNat 64 (128 + 64 * bit q + i.toNat) := by simp [trcOf, h]
  rw [hget, BitVec.ofNat_add, BitVec.ofNat_toNat]

theorem entryTraps : Claims.EntryTraps := by
  intro s t pos hm hh hi
  refine ⟨fun hc he => ?_, fun hc he => ?_, fun hc he => ?_⟩
  · obtain ⟨n, ds, hf⟩ := s.core.faultTaken_eq pos
    rw [s.takeTrap_copyFault t pos hm hc he hh hi]
    have hthnd : (s.core.faultTaken pos).r.thnd = s.core.r.thnd := by rw [hf]
    have hcq : (s.core.faultTaken pos).cq = s.core.cq.filter fun e => decide (e.pos ≠ pos) := by
      rw [hf]
      exact List.filter_congr fun e _ => by by_cases h : e.pos = pos <;> simp [h]
    exact ⟨hthnd, trcOf_entry t _ _ false pos he, rfl, hcq, fun _ => rfl⟩
  all_goals
    have hcls : trapClass t.cause = .handler := trapClass_of_list hc (by decide)
    have hne : t.cause ≠ 0x0D := fun h => absurd (h ▸ hc) (by decide)
    rw [s.takeTrap_handler t (.inl hne) hm hcls hh hi]
  · exact ⟨rfl, trcOf_entry t _ _ true pos he, rfl, rfl⟩
  · exact ⟨rfl, trcOf_entry t _ _ false pos he, rfl⟩

/-! Page faults and their events (R327, R328). -/

/-- A core whose bundle is held on a page fault. -/
def State.pageFrozen (s : State) (t : Trap) : State := s.onCore fun c =>
  { c with r := { c.r with trc := trcOf t c.pc s.mcc }, st := .frozen, note := .trap false,
           waitOn := [], stamps := [], want := [],
           pf := some { detail := t.detail, va := t.addr, kind := t.aux.setWidth 3 } }

theorem State.takeTrap_pageFault (s : State) (t : Trap) (k : Task) (hc : t.cause = 0x03) (he : t.entry = none)
    (hm : s.mgmt = false) (hk : s.core.task = some k) :
    s.takeTrap t = (s.pageFrozen t).postEvent { taskEvent 1 t.detail s.core k with va := t.addr } := by
  have hcls : trapClass t.cause = .software := by rw [hc]; rfl
  unfold State.takeTrap
  split
  · next h1 h2 => rw [he] at h2; cases h2
  · simp only [hm, hcls, hk, Bool.false_eq_true, if_false]
    rfl

theorem State.postEvent_held (s : State) (e : Event) (h : s.held ≠ [] ∨ s.evRoom = false) :
    s.postEvent e = { s with held := s.held ++ [{ e with mcc := s.mcc }] } :=
  if_neg (by rcases h with h | h <;> simp [h])

theorem State.postEvent_room (s : State) (e : Event) (h : s.held = []) (hr : s.evRoom = true) :
    s.postEvent e = s.writeEvent { e with mcc := s.mcc } := if_pos (by simp [h, hr])

@[simp] theorem State.sendFlit_core (s : State) : s.sendFlit.core = s.core := by
  unfold State.sendFlit; dsimp only; split <;> rfl

@[simp] theorem State.sendFlit_regs (s : State) : s.sendFlit.regs = s.regs := by
  unfold State.sendFlit; dsimp only; split <;> rfl

@[simp] theorem State.sendFlit_held (s : State) : s.sendFlit.held = s.held := by
  unfold State.sendFlit; dsimp only; split <;> rfl

theorem State.send_frame (s : State) (m : OutMsg) : (s.send m).core = s.core ∧ (s.send m).regs = s.regs ∧
    (s.send m).held = s.held := by
  unfold State.send
  extract_lets t
  split
  · exact ⟨t.sendFlit_core, t.sendFlit_regs, t.sendFlit_held⟩
  · exact ⟨rfl, rfl, rfl⟩

theorem State.tellEvent_frame (s : State) : s.tellEvent.core = s.core ∧ s.tellEvent.regs = s.regs ∧
    s.tellEvent.held = s.held := by
  unfold State.tellEvent
  split
  · exact ⟨rfl, rfl, rfl⟩
  · exact State.send_frame _ _

theorem State.reg_pendIrq_other (s : State) (n k : Nat) (h : k ≠ Key.mipend) : (s.pendIrq n).reg k = s.reg k :=
  Sparse.get_set_other _ _ _ _ _ h

theorem State.writeEvent_eq (s : State) (e : Event) : ∃ a bs, s.writeEvent e =
    (((s.agentWrite a bs).setReg Key.evprod
      (BitVec.ofNat 64 ((s.rfld Key.evprod 0 32 + 1) % 4294967296))).pendIrq 7).tellEvent := ⟨_, _, rfl⟩

/-- Writing an event advances EVPROD, and changes no core but for its L1 (R327). -/
theorem State.writeEvent_frame (s : State) (e : Event) : OnlyL1 s (s.writeEvent e) ∧ (s.writeEvent e).held = s.held ∧
    (s.writeEvent e).reg Key.evprod = BitVec.ofNat 64 ((s.rfld Key.evprod 0 32 + 1) % 4294967296) := by
  obtain ⟨a, bs, he⟩ := s.writeEvent_eq e
  have hmem : OnlyMemory s (s.agentWrite a bs) := s.agentWrite_onlyMemory a bs
  have hl1 := hmem.onlyL1
  have hheld := hmem.held
  rw [he]
  generalize BitVec.ofNat 64 ((s.rfld Key.evprod 0 32 + 1) % 4294967296) = v
  generalize s.agentWrite a bs = u at hl1 hheld
  obtain ⟨htcore, htregs, htheld⟩ := ((u.setReg Key.evprod v).pendIrq 7).tellEvent_frame
  refine ⟨hl1.trans (.of_core htcore), htheld.trans hheld, ?_⟩
  rw [State.reg_congr htregs, State.reg_pendIrq_other _ _ _ (by decide), State.reg_setReg_same]

theorem ofNat_and_low (n : Nat) : BitVec.ofNat 64 n &&& 0xFFFFFFFF = BitVec.ofNat 64 (n % 4294967296) := by
  apply BitVec.eq_of_toNat_eq
  rw [BitVec.toNat_and, BitVec.toNat_ofNat, BitVec.toNat_ofNat]
  exact (Nat.and_two_pow_sub_one_eq_mod (n % 2 ^ 64) 32).trans (by omega)

theorem pageFaultTrap : Claims.PageFaultTrap := by
  intro s t k hc he hm hk
  rw [s.takeTrap_pageFault t k hc he hm hk]
  have hroom : (s.pageFrozen t).evRoom = s.evRoom := rfl
  have hcore : ∀ u : State, OnlyL1 (s.pageFrozen t) u → u.core.st = .frozen ∧ u.core.pc = s.core.pc ∧
      u.core.pf = some { detail := t.detail, va := t.addr, kind := t.aux.setWidth 3 } ∧
      u.core.r.trc[0] = BitVec.ofNat 64 (3 + 256 * t.detail.toNat) ∧ u.core.r.trc[1] = t.slots.setWidth 64 ∧
      u.core.r.trc[2] = s.core.pc ∧ u.core.r.trc[3] = t.addr ∧ u.core.r.trc[6] = s.mcc ∧ u.core.r.trc[7] = t.aux ∧
      u.core.r.tbudget = s.core.r.tbudget ∧ u.core.cq = s.core.cq ∧ u.core.mq = s.core.mq := by
    rintro u ⟨l, hl⟩
    rw [hl]
    refine ⟨rfl, rfl, rfl, ?_, rfl, rfl, rfl, rfl, rfl, rfl, rfl, rfl⟩
    exact congrArg (fun c : BitVec 8 => BitVec.ofNat 64 (c.toNat + 256 * t.detail.toNat)) hc
  by_cases hev : s.held = [] ∧ s.evRoom = true
  · obtain ⟨hh, hr⟩ := hev
    obtain ⟨hl1, hheld, hprod⟩ := (s.pageFrozen t).writeEvent_frame
      { taskEvent 1 t.detail s.core k with va := t.addr, mcc := s.mcc }
    obtain ⟨h1, h2, h3, h4, h5, h6, h7, h8, h9, h10, h11, h12⟩ := hcore _ hl1
    refine ⟨_, State.postEvent_room (s.pageFrozen t) _ hh hr, h1, h2, h3, h4, h5, h6, h7, h8, h9, h10, h11, h12,
      fun _ _ => ⟨hheld.trans hh, hprod.trans ?_⟩, fun h => ?_⟩
    · exact (ofNat_and_low _).symm
    · rcases h with h | h
      · exact absurd hh h
      · rw [hr] at h
        cases h
  · have hno : s.held ≠ [] ∨ s.evRoom = false := by
      by_cases hh : s.held = []
      · exact .inr (by simpa [hh] using hev)
      · exact .inl hh
    refine ⟨_, State.postEvent_held (s.pageFrozen t) _ hno, ?_⟩
    obtain ⟨h1, h2, h3, h4, h5, h6, h7, h8, h9, h10, h11, h12⟩ := hcore (s.pageFrozen t) (.refl _)
    exact ⟨h1, h2, h3, h4, h5, h6, h7, h8, h9, h10, h11, h12, fun hh hr => absurd ⟨hh, hr⟩ hev, fun _ => ⟨rfl, fun _ => rfl⟩⟩

/-! The management core (R310, R422, R423). -/

theorem extractLsb'_setFld_same {n : Nat} (x : BitVec n) (lo w v : Nat) (h : lo + w ≤ n) :
    (setFld x lo w v).extractLsb' lo w = BitVec.ofNat w v := by
  ext i hi
  rw [BitVec.getElem_extractLsb', getLsbD_setFld _ _ _ _ _ (by omega), if_pos (by omega),
    Nat.add_sub_cancel_left, ← BitVec.getLsbD_eq_getElem, BitVec.getLsbD_ofNat, decide_eq_true hi, Bool.true_and]

theorem extractLsb'_setFld_disjoint {n : Nat} (x : BitVec n) (lo w v k j : Nat) (hn : k + j ≤ n)
    (h : k + j ≤ lo ∨ lo + w ≤ k) : (setFld x lo w v).extractLsb' k j = x.extractLsb' k j := by
  ext i hi
  rw [BitVec.getElem_extractLsb', BitVec.getElem_extractLsb', getLsbD_setFld _ _ _ _ _ (by omega), if_neg (by omega)]

theorem State.recover_reg (s : State) : s.recover.reg Key.bootst =
      setFld (s.reg Key.bootst) 48 16 (s.rfld Key.bootst 48 16 + 1) ∧
    s.recover.reg Key.mien = 0 ∧ s.recover.reg Key.mipend = s.reg Key.mipend := by
  refine ⟨?_, State.reg_setReg_same _ _ _, ?_⟩
  · exact (State.reg_setReg_other _ _ _ _ (by decide)).trans (State.reg_setReg_same _ _ _)
  · exact (State.reg_setReg_other _ _ _ _ (by decide)).trans (State.reg_setReg_other _ _ _ _ (by decide))

theorem managementTrap : Claims.ManagementTrap := by
  intro s t he hm
  have htake := s.takeTrap_mgmt t (.inr he) hm
  refine ⟨fun ha => ?_, fun ha => ⟨_, rfl, ?_⟩⟩
  · rw [htake, if_pos ha]
    exact ⟨rfl, rfl, rfl, rfl, rfl, fun _ => rfl⟩
  · rw [htake, if_neg (by simp [ha])]
    obtain ⟨hboot, hmien, hmipend⟩ := s.recover_reg
    refine ⟨rfl, rfl, rfl, ?_, ?_, hmien, hmipend, fun i => ?_, rfl, fun i hi => ?_, rfl, fun i hi => ?_, rfl, rfl,
      fun _ => rfl⟩
    · rw [hboot, extractLsb'_setFld_same _ _ _ _ (by decide)]
      rw [State.rfld, fld, BitVec.ofNat_add, BitVec.ofNat_toNat, BitVec.setWidth_eq]
      rfl
    · rw [hboot, extractLsb'_setFld_disjoint _ _ _ _ _ _ (by decide) (by decide)]
    · simp [Regs.getS, State.recover]
    · simp [State.recover]
    · simp [State.recover]

/-- Settles O12: the deliveries of `takeTrap`, one by one. -/
theorem trapDelivery : Obligations.TrapDelivery :=
  ⟨handlerEntry, taskEndingTrap, pendingCauses, entryTraps, pageFaultTrap, managementTrap⟩

end Sys2Proof.Machine
end

section
/-! PROOFS. Waits: STAMP, the tokens, and timelines (R21, R23, R150, R229, R230, R382). -/

namespace Sys2Proof.Machine

theorem exec_twait (o : TokOp) (s : State) : exec (.twait o) s = execTwait o s := rfl
theorem exec_tsig (o : TokOp) (s : State) : exec (.tsig o) s = execTsig o s := rfl
theorem exec_tlwait (o : TlOp) (s : State) : exec (.tlwait o) s = execTlwait o s := rfl

/-! What a trap at issue leaves, whether the handler takes it or the task ends (R307, R311). -/

/-- The record of a trap of class H or E, and what the slot notes; no other register changes. -/
theorem State.takeTrap_record (s : State) (t : Trap) (hp : t.plain) (hm : s.mgmt = false)
    (hc : trapClass t.cause = .handler ∨ trapClass t.cause = .ends) :
    (s.takeTrap t).core.note = .trap false ∧
      (s.takeTrap t).core.r = { s.core.r with trc := trcOf t s.core.pc s.mcc } := by
  by_cases hend : trapClass t.cause = .ends ∨ trapClass t.cause = .handler ∧ (s.core.r.thnd = 0 ∨ s.core.inh = true)
  · rw [s.takeTrap_ends t hp hm hend]
    exact ⟨rfl, State.endTask_core_r _ _⟩
  · obtain ⟨hne, hno⟩ := not_or.1 hend
    have hh := hc.resolve_right hne
    obtain ⟨hthnd, hinh⟩ := not_or.1 fun h => hno ⟨hh, h⟩
    rw [s.takeTrap_handler t hp hm hh hthnd (by simpa using hinh)]
    exact ⟨rfl, rfl⟩

theorem State.trapEarly_core (s : State) (t : Trap) :
    (s.trapEarly t).core = { (s.takeTrap (Claims.slotTrap s t)).core with note := .trap true } := rfl

/-! STAMP (R150). -/

theorem State.frameOverrun_one (s : State) (k : Nat) (t : Word) (hs : s.core.stamps = [(k, t)])
    (ho : overrun (s.core.r.detm.getLsbD 1) s.mcc t = true) :
    exec .frameOverrun s = .next (s.takeTrap (stamp s s.core { cause := 0x0A, slots := BitVec.ofNat 8 (2 ^ k), aux := t })) := by
  have hslots : (0#8 ||| BitVec.ofNat 8 (2 ^ k)) = BitVec.ofNat 8 (2 ^ k) := BitVec.zero_or
  simp only [exec, execFrameOverrun, hs, List.filter_cons, List.filter_nil, ho, if_true, List.foldl_cons, List.foldl_nil]
  exact congrArg (fun m => Host.Outcome.next (s.takeTrap (stamp s s.core { cause := 0x0A, slots := m, aux := t }))) hslots

theorem overrun_iff (arm : Bool) (mcc t : Word) : overrun arm mcc t = true ↔ arm = true ∧ t.toNat + 15 < mcc.toNat := by
  rw [overrun, Bool.and_eq_true, decide_eq_true_eq]

/-- What STAMP's check answers on a tile core: the overrun of its window, the wait for its target, or nothing. -/
theorem exec_stamp_tile (o : ImmOp) (s : State) (t : Word) (ht : t = stampTarget s.core.iss.fbase o.imm)
    (hg : s.rdP o.h.g = true) (hm : s.mgmt = false) :
    (overrun (s.core.iss.detm.getLsbD 1) s.mcc t = true →
      exec (.stamp o) s = .next (s.trapEarly { cause := 0x0A, aux := t })) ∧
    (¬ overrun (s.core.iss.detm.getLsbD 1) s.mcc t = true → s.mcc.toNat < t.toNat →
      exec (.stamp o) s = .next (s.hold.onCore fun c => { c with stamps := c.stamps ++ [(s.slot, t)] })) ∧
    (¬ overrun (s.core.iss.detm.getLsbD 1) s.mcc t = true → ¬ s.mcc.toNat < t.toNat →
      exec (.stamp o) s = .next (s.arriveNow o.h.a)) := by
  subst ht
  have hno : ¬ s.mgmt = true := by simp [hm]
  rw [exec_stamp, execStamp]
  refine ⟨fun h => ?_, fun h hlt => ?_, fun h hlt => ?_⟩
  · exact runChecked_some _ _ _ _ _ hg ((if_neg hno).trans (if_pos h))
  · exact runChecked_some _ _ _ _ _ hg ((if_neg hno).trans ((if_neg h).trans (if_pos hlt)))
  · exact runChecked_none _ _ _ _ hg ((if_neg hno).trans ((if_neg h).trans (if_neg hlt)))

theorem stampWindow : Claims.StampWindow := by
  intro o s t ht hg hm
  obtain ⟨hover, hwait, hpass⟩ := exec_stamp_tile o s t ht hg hm
  have hhandler : trapClass 0x0A = .handler := rfl
  refine ⟨fun hle hw => hpass ?_ (by omega), fun hlt => ⟨_, hwait ?_ hlt, rfl, rfl, rfl, rfl, fun _ => rfl⟩,
    fun harm hlt => ⟨_, hover ((overrun_iff _ _ _).2 ⟨harm, hlt⟩), rfl, ?_⟩, fun k hs harm hlt => ?_⟩
  · intro hov
    obtain ⟨harm, hlt⟩ := (overrun_iff _ _ _).1 hov
    rcases hw with h | h
    · exact Bool.false_ne_true (h.symm.trans harm)
    · omega
  · intro hov
    obtain ⟨-, hgt⟩ := (overrun_iff _ _ _).1 hov
    omega
  · obtain ⟨-, hr⟩ := s.takeTrap_record (Claims.slotTrap s { cause := 0x0A, aux := t }) (.inr rfl) hm (.inl hhandler)
    rw [State.trapEarly_core, hr]
    exact ⟨rfl, rfl⟩
  · obtain ⟨-, hr⟩ := s.takeTrap_record
      (stamp s s.core { cause := 0x0A, slots := BitVec.ofNat 8 (2 ^ k), aux := t }) (.inr rfl) hm (.inl hhandler)
    refine ⟨_, s.frameOverrun_one k t hs ((overrun_iff _ _ _).2 ⟨harm, hlt⟩), ?_⟩
    rw [hr]
    exact ⟨rfl, rfl, rfl, rfl⟩

/-! Tokens (R21, R229). -/

theorem token_setTok (x : BitVec 32) (k j v : Nat) (hk : k < 8) (hj : j < 8) :
    tok (setTok x k v) j = if j = k then v % 16 else tok x j := by
  unfold tok setTok fld
  split
  · next h =>
    subst h
    rw [extractLsb'_setFld_same _ _ _ _ (by omega), BitVec.toNat_ofNat]
  · next h => rw [extractLsb'_setFld_disjoint _ _ _ _ _ _ (by omega) (by omega)]

/-- A change of the tokens of a list, one by one. -/
theorem tok_foldl (g : Nat → Nat) (l : List Nat) (x : BitVec 32) (j : Nat) (hl : ∀ k ∈ l, k < 8) (hn : l.Nodup)
    (hj : j < 8) : tok (l.foldl (fun y k => setTok y k (g (tok y k))) x) j =
      if j ∈ l then g (tok x j) % 16 else tok x j := by
  induction l generalizing x with
  | nil => rfl
  | cons k l ih =>
    obtain ⟨hk, hl⟩ := List.forall_mem_cons.1 hl
    obtain ⟨hkl, hn⟩ := List.nodup_cons.1 hn
    rw [List.foldl_cons, ih _ hl hn, token_setTok _ _ _ _ hk hj]
    by_cases h : j = k
    · subst h
      simp [hkl]
    · simp [h]

theorem mem_tokList (mask : BitVec 8) (k : Nat) : k ∈ tokList mask ↔ k < 8 ∧ mask.getLsbD k = true := by
  rw [tokList, List.mem_filter, List.mem_range]

theorem tok_change (g : Nat → Nat) (mask : BitVec 8) (x : BitVec 32) (j : Nat) (hj : j < 8) :
    tok ((tokList mask).foldl (fun y k => setTok y k (g (tok y k))) x) j =
      if mask.getLsbD j = true then g (tok x j) % 16 else tok x j := by
  rw [tok_foldl g _ x j (fun k hk => ((mem_tokList mask k).1 hk).1) (List.Nodup.filter _ List.nodup_range) hj]
  simp [mem_tokList, hj]

theorem tok_lt (x : BitVec 32) (k : Nat) : tok x k < 16 := (x.extractLsb' (4 * k) 4).isLt

theorem tokOver_eq_zero (x ceil : BitVec 32) (mask : BitVec 8) :
    tokOver x ceil mask = 0 ↔ ∀ k, k < 8 → mask.getLsbD k = true → tok x k < tok ceil k := by
  have hfold : ∀ (l : List Nat) (n : Nat), l.foldl (fun n k => if tok x k ≥ tok ceil k then n + 2 ^ k else n) n = 0 ↔
      n = 0 ∧ ∀ k ∈ l, tok x k < tok ceil k := by
    intro l
    induction l with
    | nil => simp
    | cons k l ih =>
      intro n
      have hpos : 0 < 2 ^ k := Nat.two_pow_pos k
      rw [List.foldl_cons, ih, List.forall_mem_cons]
      split
      · constructor <;> intro h <;> omega
      · constructor
        · exact fun h => ⟨h.1, by omega, h.2⟩
        · exact fun h => ⟨h.1, h.2.2⟩
  rw [tokOver, hfold]
  simp only [mem_tokList, true_and]
  exact ⟨fun h k hk hm => h k ⟨hk, hm⟩, fun h k hk => h k hk.1 hk.2⟩

theorem tokReady_iff (x : BitVec 32) (mask : BitVec 8) :
    tokReady x mask = true ↔ ∀ k, k < 8 → mask.getLsbD k = true → 1 ≤ tok x k := by
  simp only [tokReady, List.all_eq_true, mem_tokList, decide_eq_true_eq]
  exact ⟨fun h k hk hm => h k ⟨hk, hm⟩, fun h k hk => h k hk.1 hk.2⟩

theorem tokenWords : Claims.TokenWords := by
  intro o s hg
  have hfault (hq : s.core.cq = []) : s.core.tokenFault o.mask = none := by rw [Core.tokenFault, hq]; rfl
  rw [exec_twait, exec_tsig, execTwait, execTsig]
  refine ⟨fun hq hall => ⟨tokDec s.core.r.tkval o.mask, ?_, fun k hk => ?_⟩,
    fun k hq hk hm h0 => ⟨s.hold, ?_, rfl, rfl, fun _ => rfl⟩,
    fun hall => ⟨tokInc s.core.r.tkval o.mask, ?_, fun k hk => ?_⟩, fun k hmg hk hm hle => ?_⟩
  · refine runChecked_none _ _ _ _ hg ?_
    rw [hfault hq]
    exact if_pos ((tokReady_iff _ _).2 hall)
  · have hlt := tok_lt s.core.r.tkval k
    have h1 := hall k hk
    refine (tok_change (· - 1) o.mask _ k hk).trans ?_
    split
    · exact Nat.mod_eq_of_lt (show tok s.core.r.tkval k - 1 < 16 by omega)
    · rfl
  · refine runChecked_some _ _ _ _ _ hg ?_
    rw [hfault hq]
    refine if_neg fun h => ?_
    have h1 : 1 ≤ Claims.token s.core.r.tkval k := (tokReady_iff _ _).1 h k hk hm
    omega
  · exact runChecked_none _ _ _ _ hg (if_pos ((tokOver_eq_zero _ _ _).2 hall))
  · have hlt := tok_lt s.core.r.tkceil k
    have h1 := hall k hk
    refine (tok_change (· + 1) o.mask _ k hk).trans ?_
    split
    · next hm => exact Nat.mod_eq_of_lt (show tok s.core.r.tkval k + 1 < 16 from lt_of_le_of_lt (h1 hm) hlt)
    · rfl
  · have hover : ¬ tokOver s.core.r.tkval s.core.r.tkceil o.mask = 0 := fun h =>
      absurd ((tokOver_eq_zero _ _ _).1 h k hk hm) (Nat.not_lt.2 hle)
    refine ⟨_, runChecked_some _ _ _ _ _ hg (if_neg hover), ?_⟩
    obtain ⟨hnote, hr⟩ := s.takeTrap_record (Claims.slotTrap s
      { cause := 0x09, aux := BitVec.ofNat 64 (tokOver s.core.r.tkval s.core.r.tkceil o.mask) }) (.inr rfl) hmg (.inl rfl)
    rw [State.trapSlot_eq, hr]
    exact ⟨hnote, rfl, rfl⟩

/-! Timelines (R23, R230, R382). -/

theorem raiseTimeline_get (s : State) (n : Nat) (v : Word) :
    (Sparse.get 0 (s.raiseTimeline n v.toNat).timelines n : Word).toNat =
      max (Sparse.get 0 s.timelines n : Word).toNat v.toNat := by
  unfold State.raiseTimeline
  split
  · next h =>
    dsimp only
    rw [Sparse.get_set_same, BitVec.ofNat_toNat, BitVec.setWidth_eq]
    omega
  · omega

theorem timelines : Claims.Timelines := by
  intro o s hg
  rw [exec_tlwait, execTlwait]
  refine ⟨fun hb hq hle hlt => ?_, fun hb hq hlt => ⟨s.holdOn (64 + 4096), ?_, rfl, rfl, fun _ => rfl⟩,
    fun n hb => ⟨fun hle => ?_, fun hlt => ⟨s.holdOn (64 + n.toNat), ?_, rfl, rfl, fun _ => rfl⟩⟩, fun hb hm => ?_,
    fun n v => ⟨_, rfl, raiseTimeline_get s n.toNat v, sameMemory_of_mem (State.raiseTimeline_mem _ _ _)⟩⟩
  · refine runChecked_none _ _ _ _ hg ?_
    simp only [hb, hq, List.findSome?_nil, if_true]
    refine if_pos ?_
    rw [State.counter, BitVec.toNat_ofNat, Nat.mod_eq_of_lt hlt]
    exact hle
  · refine runChecked_some _ _ _ _ _ hg ?_
    simp only [hb, hq, List.findSome?_nil, if_true]
    refine if_neg ?_
    have hv := (s.rdS o.ra).isLt
    rw [State.counter, BitVec.toNat_ofNat, Nat.mod_eq_of_lt (by omega)]
    omega
  · refine runChecked_none _ _ _ _ hg ?_
    simp only [hb, reduceCtorEq, if_false]
    exact if_pos hle
  · refine runChecked_some _ _ _ _ _ hg ?_
    simp only [hb, reduceCtorEq, if_false]
    exact if_neg (Nat.not_le.2 hlt)
  · refine ⟨s.trapSlot { cause := 0x08, aux := s.rdS o.ra }, runChecked_some _ _ _ _ _ hg (by simp only [hb]), ?_⟩
    obtain ⟨hnote, hr⟩ := s.takeTrap_record (Claims.slotTrap s { cause := 0x08, aux := s.rdS o.ra }) (.inr rfl) hm (.inr rfl)
    rw [State.trapSlot_eq, hr]
    exact ⟨hnote, rfl, rfl⟩

/-- Settles O14: what the check of each wait answers, case by case. -/
theorem waits : Obligations.Waits := ⟨stampWindow, tokenWords, timelines⟩

end Sys2Proof.Machine
end

section
/-! PROOFS. Barriers: their instances, arrivals, waits and releases (R22, R231 to R236). -/

namespace Sys2Proof.Machine

theorem exec_binit (o : BinitOp) (s : State) : exec (.binit o) s = execBinit o s := rfl
theorem exec_barr (o : BarOp) (s : State) : exec (.barr o) s = execBarr o s := rfl
theorem exec_bwait (o : BarOp) (s : State) : exec (.bwait o) s = execBwait o s := rfl
theorem exec_bsync (o : BarOp) (s : State) : exec (.bsync o) s = execBsync o s := rfl

/-! The barrier that a core finds (R231). -/

theorem State.barrier_eq_find (s : State) (b : BitVec 5) (k : Task) (hk : s.core.task = some k) :
    s.barrier b = s.barriers.find? fun x => x.serial == k.serial && x.b == b && x.dom == barInst b s.core.id := by
  rw [State.barrier, hk]

theorem State.barrier_congr (s u : State) (b : BitVec 5) (hb : u.barriers = s.barriers)
    (ht : u.core.task = s.core.task) (hi : u.core.id = s.core.id) : u.barrier b = s.barrier b := by
  rw [State.barrier, State.barrier, hb, ht, hi]

/-- `x` is kept under the key of barrier `b` of the task `k` of core `n`. -/
def Barrier.isOf (x : Barrier) (b : BitVec 5) (k : Task) (n : Nat) : Prop :=
  x.serial = k.serial ∧ x.b = b ∧ x.dom = barInst b n

theorem State.barrier_isOf (s : State) (b : BitVec 5) (x : Barrier) (k : Task) (hk : s.core.task = some k)
    (hx : s.barrier b = some x) : x.isOf b k s.core.id := by
  rw [s.barrier_eq_find b k hk] at hx
  simpa [Barrier.isOf, and_assoc] using List.find?_some hx

/-- The barrier just set is the one the core finds. -/
theorem State.barrier_setBarrier (s : State) (b : BitVec 5) (y : Barrier) (k : Task) (hk : s.core.task = some k)
    (hy : y.isOf b k s.core.id) : (s.setBarrier y).barrier b = some y := by
  obtain ⟨h1, rfl, h3⟩ := hy
  have hid : (s.setBarrier y).core.id = s.core.id := rfl
  have hgone : (s.barriers.filter fun z => !(z.serial == y.serial && z.b == y.b && z.dom == y.dom)).find?
      (fun z => z.serial == y.serial && z.b == y.b && z.dom == y.dom) = none :=
    List.find?_eq_none.2 fun z hz hp => by simpa [hp] using (List.mem_filter.1 hz).2
  rw [(s.setBarrier y).barrier_eq_find y.b k hk, hid, ← h1, ← h3, State.setBarrier, List.find?_append, hgone]
  simp

/-- The break test changes nothing but the mark (R235). -/
theorem Barrier.test_eq (x : Barrier) : ∃ w, x.test = { x with broken := w } := by
  unfold Barrier.test
  split
  · exact ⟨true, rfl⟩
  · exact ⟨x.broken, rfl⟩

/-! One arrival of the core in focus (R233). -/

/-- What an arrival at the barrier `x` leaves: the record, the count or the next phase, and for the last arrival the
release (R233, R236). -/
structure Arrives (s : State) (b : BitVec 5) (x : Barrier) (u : State) (y : Barrier) : Prop where
  found : u.barrier b = some y
  record : u.core.arr[b.toNat] = some x.p
  regs : u.core.r = s.core.r
  st : u.core.st = s.core.st
  mem : u.mem = s.mem
  count : x.arrived + 1 ≠ x.e → y.arrived = x.arrived + 1 ∧ y.p = x.p
  last : x.arrived + 1 = x.e → y.arrived = 0 ∧ y.p = x.p + 1
  release : x.arrived + 1 = x.e → s.core.st ≠ .free → s.core.waitOn.contains b.toNat = true →
    (b.toNat, s.relLeft s.core.id (barDom b)) ∈ u.core.relWait

/-- The release of a barrier as the core in focus hears of it. -/
theorem State.release_core (s : State) (serial : BitVec 32) (b : BitVec 5) (dom : Nat) :
    ∃ l, (s.release serial b dom).core = { s.core with relWait := l } ∧
      (isMember serial b dom s.core = true → s.core.waitOn.contains b.toNat = true →
        (b.toNat, s.relLeft s.core.id (barDom b)) ∈ l) := by
  by_cases h : (isMember serial b dom s.core && s.core.waitOn.contains b.toNat) = true
  · exact ⟨_, if_pos h, fun _ _ => List.mem_append_right _ (List.mem_singleton.2 rfl)⟩
  · exact ⟨s.core.relWait, if_neg h, fun hm hw => absurd (Bool.and_eq_true_iff.2 ⟨hm, hw⟩) h⟩

theorem State.arriveOn_self (s : State) (b : BitVec 5) (x : Barrier) (k : Task) (hk : s.core.task = some k)
    (hx : s.barrier b = some x) (hb : x.broken = false) :
    ∃ u y, s.arriveOn s.core.id b = some u ∧ Arrives s b x u y := by
  obtain ⟨h1, h2, h3⟩ := s.barrier_isOf b x k hk hx
  have hfind := (s.barrier_eq_find b k hk).symm.trans hx
  have harr : s.arriveOn s.core.id b =
      let s1 := s.onCore fun c => { c with arr := c.arr.set b.toNat (some x.p) b.isLt }
      let x1 := { x with arrived := x.arrived + 1 }
      if x1.arrived = x1.e then
        some ((s1.setBarrier { x1 with arrived := 0, p := x1.p + 1 }.test).release k.serial b x.dom)
      else some (s1.setBarrier x1.test) := by
    simp only [State.arriveOn, State.coreAt_self, hk, hfind, hb, State.onCoreAt_self, Bool.false_eq_true, if_false]
  extract_lets s1 x1 at harr
  have hrec : s1.core.arr[b.toNat] = some x.p := Vector.getElem_set_self _
  by_cases he : x.arrived + 1 = x.e
  · obtain ⟨w, hw⟩ := Barrier.test_eq { x1 with arrived := 0, p := x1.p + 1 }
    rw [if_pos he, hw] at harr
    generalize hy : ({ x1 with arrived := 0, p := x1.p + 1, broken := w } : Barrier) = y at harr
    obtain ⟨l, hl, hmem⟩ := State.release_core (s1.setBarrier y) k.serial b x.dom
    have hfound : (s1.setBarrier y).barrier b = some y :=
      s1.barrier_setBarrier b y k hk (hy ▸ ⟨h1, h2, h3⟩)
    refine ⟨_, y, harr, ?_, ?_, ?_, ?_, State.arriveOn_mem _ _ _ _ harr, fun h => absurd he h, fun _ => hy ▸ ⟨rfl, rfl⟩,
      fun _ hst hwait => ?_⟩
    · rw [← hfound]
      exact State.barrier_congr _ _ b rfl (by rw [hl]) (by rw [hl])
    · simp only [hl]; exact hrec
    · rw [hl]; rfl
    · rw [hl]; rfl
    · rw [hl]
      refine hmem ?_ hwait
      simp [isMember, State.setBarrier, s1, State.onCore, hk, hst, h3]
  · obtain ⟨w, hw⟩ := Barrier.test_eq x1
    rw [if_neg he, hw] at harr
    exact ⟨_, _, harr, s1.barrier_setBarrier b _ k hk ⟨h1, h2, h3⟩, hrec, rfl, rfl, rfl, fun _ => ⟨rfl, rfl⟩,
      fun h => absurd h he, fun h => absurd h he⟩

theorem State.arriveOn_none (s : State) (b : BitVec 5) (k : Task) (hk : s.core.task = some k) (hx : s.barrier b = none) :
    s.arriveOn s.core.id b = none := by
  rw [s.barrier_eq_find b k hk] at hx
  simp only [State.arriveOn, State.coreAt_self, hk, hx]

/-! Initialisation (R232). -/

theorem State.initBarrier_spec (s : State) (b : BitVec 5) (e : BitVec 16) (q : BitVec 8) (k : Task)
    (hk : s.core.task = some k) : ∃ x, (s.initBarrier b e q).barrier b = some x ∧ x.e = e ∧ x.q = q ∧ x.arrived = 0 ∧
      x.p = 0 ∧ (s.initBarrier b e q).core.r = s.core.r ∧ (s.initBarrier b e q).mem = s.mem := by
  generalize hu : s.initBarrier b e q = u
  unfold State.initBarrier at hu
  split at hu
  · next h => exact nomatch h.symm.trans hk
  next t ht =>
  obtain rfl : t = k := Option.some.inj (ht.symm.trans hk)
  extract_lets dom x clear s1 at hu
  obtain ⟨w, hw⟩ := x.test_eq
  have hfound : s1.barrier b = some x.test := by
    rw [show s1 = s.setBarrier x.test from rfl, hw]
    exact s.barrier_setBarrier b _ t hk ⟨rfl, rfl, rfl⟩
  have hcore (c : Core) : (if isMember t.serial b dom c then clear c else c).task = c.task ∧
      (if isMember t.serial b dom c then clear c else c).id = c.id ∧
      (if isMember t.serial b dom c then clear c else c).r = c.r := by
    split
    · exact ⟨rfl, rfl, rfl⟩
    · exact ⟨rfl, rfl, rfl⟩
  obtain ⟨htask, hid, hr⟩ := hcore s1.core
  subst hu
  refine ⟨x.test, ?_, ?_, ?_, ?_, ?_, hr, rfl⟩
  · rw [← hfound]
    exact State.barrier_congr _ _ b rfl htask hid
  all_goals rw [hw]

/-! Waits (R234 to R236). -/

theorem State.orphanTrap_none (s : State) (n : Nat) (h : s.core.orphan = []) : s.orphanTrap n = none := by
  rw [State.orphanTrap, h]
  rfl

theorem State.phaseWait_passed (s : State) (b : BitVec 5) (p : BitVec 16) (x : Barrier) (hx : s.barrier b = some x)
    (hp : x.p ≠ p) (hr : s.core.relWait = []) : s.phaseWait b p = none := by
  simp [State.phaseWait, hx, hp, hr]

theorem State.phaseWait_stands (s : State) (b : BitVec 5) (x : Barrier) (hx : s.barrier b = some x)
    (hb : x.broken = false) : s.phaseWait b x.p = some (s.holdOn b.toNat) := by
  simp [State.phaseWait, hx, hb]

/-- A slot that traps BARRIER_ORPHANED: what the record holds. -/
theorem State.trapSlot_orphaned (s : State) (n : Nat) (hm : s.mgmt = false) :
    (s.trapSlot (orphaned n)).core.note = .trap false ∧ (s.trapSlot (orphaned n)).core.r.trc[0] = 0x0B := by
  obtain ⟨hnote, hr⟩ := s.takeTrap_record (Claims.slotTrap s (orphaned n)) (.inr rfl) hm (.inl rfl)
  rw [State.trapSlot_eq, hr]
  exact ⟨hnote, rfl⟩

theorem barrier_binit (s : State) (b : BitVec 5) (h : Hdr) (ra : BitVec 6)
    (hg : s.rdP h.g = true) (hu : s.barrierUsable b = true) (hb : s.barrier b = none) (hv : (s.rdS ra).toNat < 2 ^ 24)
    (he : (s.rdS ra).toNat % 2 ^ 16 ≠ 0) :
    exec (.binit { h := h, b := b, ra := ra }) s =
      .next ((s.initBarrier b (BitVec.ofNat 16 (fld (s.rdS ra) 0 16)) (BitVec.ofNat 8 (fld (s.rdS ra) 16 8))).arriveNow
        h.a) := by
  rw [exec_binit, execBinit]
  refine (runChecked_none _ _ _ _ hg (if_neg ?_)).trans (by simp only [hb])
  have hhigh : fld (s.rdS ra) 24 40 = 0 := by simp only [fld, BitVec.extractLsb'_toNat]; omega
  have hlow : fld (s.rdS ra) 0 16 ≠ 0 := by simp only [fld, BitVec.extractLsb'_toNat]; omega
  simp [hhigh, hlow, hu]

/-- BARR at a barrier that is not broken (R233). -/
theorem barrier_barr (s : State) (k : Task) (b : BitVec 5) (h : Hdr) (x : Barrier) (hk : s.core.task = some k)
    (hg : s.rdP h.g = true) (hx : s.barrier b = some x) (hb : x.broken = false) :
    ∃ u y, exec (.barr { h := h, b := b }) s = .next (u.arriveNow h.a) ∧ Arrives s b x u y := by
  obtain ⟨u, y, hu, ha⟩ := s.arriveOn_self b x k hk hx hb
  refine ⟨u, y, ?_, ha⟩
  rw [exec_barr, execBarr]
  exact (runChecked_none _ _ _ _ hg (by simp only [hu])).trans (by simp only [hu])

/-- BSYNC without a record arrives and waits (R233, R234). -/
theorem barrier_bsync (s : State) (k : Task) (b : BitVec 5) (h : Hdr) (x : Barrier) (hk : s.core.task = some k)
    (hg : s.rdP h.g = true) (hx : s.barrier b = some x) (ho : s.core.orphan = []) (hr : s.core.arr[b.toNat] = none)
    (hb : x.broken = false) : ∃ u y, exec (.bsync { h := h, b := b }) s = .next u ∧
      Arrives ((s.markReady b x.p).holdOn b.toNat) b x u y := by
  obtain ⟨u, y, hu, ha⟩ := State.arriveOn_self ((s.markReady b x.p).holdOn b.toNat) b x k hk
    ((s.barrier_congr _ b rfl rfl rfl).trans hx) hb
  refine ⟨u, y, ?_, ha⟩
  have harr : ((s.markReady b x.p).holdOn b.toNat).arriveOn s.core.id b = some u := hu
  rw [exec_bsync, execBsync]
  exact runChecked_some _ _ _ _ _ hg (by simp [s.orphanTrap_none _ ho, hx, hr, harr])

/-- An uninitialised barrier traps BARRIER_ORPHANED (R233, R234). -/
theorem barrier_uninitialised (s : State) (k : Task) (b : BitVec 5) (h : Hdr) (hk : s.core.task = some k)
    (hg : s.rdP h.g = true) (hx : s.barrier b = none) (ho : s.core.orphan = []) :
    exec (.barr { h := h, b := b }) s = .next (s.trapSlot (orphaned b.toNat)) ∧
      exec (.bwait { h := h, b := b }) s = .next (s.trapSlot (orphaned b.toNat)) ∧
      exec (.bsync { h := h, b := b }) s = .next (s.trapSlot (orphaned b.toNat)) := by
  have hn := s.arriveOn_none b k hk hx
  have hw := s.orphanTrap_none b.toNat ho
  rw [exec_barr, exec_bwait, exec_bsync, execBarr, execBwait, execBsync]
  exact ⟨runChecked_some _ _ _ _ _ hg (by simp only [hn]), runChecked_some _ _ _ _ _ hg (by simp only [hw, hx]),
    runChecked_some _ _ _ _ _ hg (by simp only [hw, hx])⟩

theorem State.relLeft_barrier (s : State) (n : Nat) (b : BitVec 5) :
    ∃ k, k ≤ 1 ∧ s.relLeft n (barDom b) = [2, 4, 12, 40].getD (b.toNat / 8) 0 + k := by
  refine ⟨bit (s.turn.contains n), ?_, congrArg (· + _) ?_⟩
  · unfold bit
    split <;> omega
  · revert b
    decide

/-- Settles O15: one arrival is described once, for BARR and BSYNC; the waits are the answers of the phase test. -/
theorem barriers : Obligations.Barriers := by
  intro s k b h hk hg
  refine ⟨fun ra hu hb hv he => ?_, fun x hx hb => ?_,
    fun x p (hx : s.barrier b = some x) ho hr ha hp => ?_, fun x (hx : s.barrier b = some x) ho ha hb => ?_,
    fun x p q (hx : s.barrier b = some x) ho hr ha hf hp => ?_,
    fun x hx ho ha hb he => ?_, fun x hx ho ha hb he => ?_, fun hx ho hm => ?_, ?_⟩
  · obtain ⟨x, hx, hxe, hxq, hxa, hxp, hr, hmem⟩ := s.initBarrier_spec b (BitVec.ofNat 16 (fld (s.rdS ra) 0 16))
      (BitVec.ofNat 8 (fld (s.rdS ra) 16 8)) k hk
    refine ⟨_, x, barrier_binit s b h ra hg hu hb hv he, hx, ?_, ?_, hxa, hxp, hr, sameMemory_of_mem hmem⟩
    · simp only [hxe, fld, BitVec.extractLsb'_toNat, BitVec.toNat_ofNat]; omega
    · simp only [hxq, fld, BitVec.extractLsb'_toNat, BitVec.toNat_ofNat]; omega
  · obtain ⟨u, y, he, ha⟩ := barrier_barr s k b h x hk hg hx hb
    refine ⟨u, y, he, ha.found, ha.record, ha.regs, sameMemory_of_mem ha.mem, ?_⟩
    split
    · exact ha.last ‹_›
    · exact ha.count ‹_›
  · rw [exec_bwait, execBwait]
    exact runChecked_none _ _ _ _ hg (by simp only [s.orphanTrap_none _ ho, hx, ha, s.phaseWait_passed b p x hx hp hr])
  · rw [exec_bwait, execBwait]
    exact ⟨s.holdOn b.toNat, runChecked_some _ _ _ _ _ hg
      (by simp only [s.orphanTrap_none _ ho, hx, ha, s.phaseWait_stands b x hx hb]),
      rfl, rfl, fun _ => rfl⟩
  · have hmark : s.readyMark b = some q := by simp [State.readyMark, hf]
    rw [exec_bsync, execBsync]
    exact runChecked_none _ _ _ _ hg
      (by simp only [s.orphanTrap_none _ ho, hx, ha, hmark, s.phaseWait_passed b p x hx hp hr])
  · obtain ⟨u, y, hu, hA⟩ := barrier_bsync s k b h x hk hg hx ho ha hb
    exact ⟨u, y, hu, hA.st, hA.found, (hA.count he).1, hA.record⟩
  · obtain ⟨u, y, hu, hA⟩ := barrier_bsync s k b h x hk hg hx ho ha hb
    obtain ⟨n, hn, hl⟩ := ((s.markReady b x.p).holdOn b.toNat).relLeft_barrier s.core.id b
    refine ⟨u, y, n, hu, hA.st, hA.found, (hA.last he).1, (hA.last he).2, hA.record, hn, ?_⟩
    rw [← hl]
    exact hA.release he (fun h => nomatch h) (by simp [State.holdOn, State.onCore])
  · obtain ⟨h1, h2, h3⟩ := barrier_uninitialised s k b h hk hg hx ho
    obtain ⟨hnote, hcause⟩ := s.trapSlot_orphaned b.toNat hm
    exact ⟨_, _, _, h1, hnote, hcause, h2, hnote, hcause, h3, hnote, hcause⟩
  · have hne (p : Nat × Nat) : (p.2 != 0) = decide (p.2 ≠ 0) := by simp [bne, Bool.beq_eq_decide_eq]
    exact congrArg (fun f => Host.Outcome.next (s.onCore fun c => { c with relWait := c.relWait.filter f })) (funext hne)

end Sys2Proof.Machine
end

section
/-! PROOFS. What the caches' marks are apart from: a read of memory sees none of them (R335, R336, R354, R355). -/

namespace Sys2Proof.Machine

/-- A core without the lines of its L1. -/
def Core.sansL1 (c : Core) : Core := { c with l1 := [] }

/-- A state without the marks of its caches: the lines of the L1s and of the LLC, their counts and homes, and what is
counted and logged of them (R335, R336, R340, R342, R355, R358). -/
def State.sansCache (s : State) : State :=
  { s with
    llc := [], readCounts := [], localHome := [], misses := [], errLog := [], core := s.core.sansL1
    others := s.others.map Core.sansL1 }

/-- `s` and `t` differ at most in the marks of their caches. -/
def OnlyCache (s t : State) : Prop := t.sansCache = s.sansCache

theorem OnlyCache.refl (s : State) : OnlyCache s s := rfl

theorem OnlyCache.trans {s t u : State} (h : OnlyCache s t) (k : OnlyCache t u) : OnlyCache s u := Eq.trans k h

theorem OnlyCache.ite {s t u : State} {c : Prop} [Decidable c] (ht : OnlyCache s t) (hu : OnlyCache s u) :
    OnlyCache s (if c then t else u) := by
  split
  · exact ht
  · exact hu

theorem OnlyCache.foldl {α : Type} {f : State → α → State} (hf : ∀ t a, OnlyCache t (f t a)) (l : List α) (s : State) :
    OnlyCache s (l.foldl f s) := foldl_keeps (OnlyCache s) f (fun t a h => h.trans (hf t a)) l s (.refl s)

/-- Whatever a state answers that its caches' marks have no part in, stays. -/
theorem OnlyCache.same {α : Type} {s t : State} (h : OnlyCache s t) (f : State → α) (hf : ∀ u : State, f u.sansCache = f u) :
    f t = f s := by
  rw [← hf t, ← hf s, h]

theorem OnlyCache.sansL1 {s t : State} (h : OnlyCache s t) : t.core.sansL1 = s.core.sansL1 := congrArg State.core h

theorem OnlyCache.onlyL1 {s t : State} (h : OnlyCache s t) : OnlyL1 s t := by
  refine ⟨t.core.l1, ?_⟩
  have hl : t.core = { t.core.sansL1 with l1 := t.core.l1 } := rfl
  rw [hl, h.sansL1]
  rfl

theorem OnlyCache.mem {s t : State} (h : OnlyCache s t) : t.mem = s.mem := h.same State.mem fun _ => rfl

theorem OnlyCache.mapL1 (s : State) (f : List Nat → List Nat) : OnlyCache s (s.mapCores fun c => { c with l1 := f c.l1 }) := by
  have h : (s.others.map fun c => { c with l1 := f c.l1 }).map Core.sansL1 = s.others.map Core.sansL1 := List.map_map
  exact congrArg (fun o => { s.sansCache with others := o }) h

theorem State.evictLine_onlyCache (s : State) (line : Nat) : OnlyCache s (s.evictLine line) :=
  OnlyCache.trans (t := { s with llc := Sparse.del s.llc line, readCounts := Sparse.del s.readCounts line }) rfl
    (.mapL1 _ fun l => l.filter (· != line))

theorem State.llcPut_onlyCache (s : State) (line : Nat) (dirty : Bool) : OnlyCache s (s.llcPut line dirty) := by
  unfold State.llcPut
  dsimp only
  refine .ite rfl (.ite rfl ?_)
  split
  · exact (s.evictLine_onlyCache _).trans rfl
  · exact .refl s

theorem State.loupeMiss_onlyCache (s : State) (line : Nat) : OnlyCache s (s.loupeMiss line) := by
  unfold State.loupeMiss
  exact .ite rfl (.refl s)

theorem State.sliceLook_onlyCache (s : State) (line : Nat) (dirty : Bool) : OnlyCache s (s.sliceLook line dirty) := by
  unfold State.sliceLook
  refine .ite (.refl s) ?_
  split
  · exact rfl
  · exact (s.loupeMiss_onlyCache line).trans (State.llcPut_onlyCache _ _ _)

theorem State.sliceRead_onlyCache (s : State) (line : Nat) : OnlyCache s (s.sliceRead line) := by
  refine (s.sliceLook_onlyCache line false).trans ?_
  unfold State.sliceRead
  dsimp only
  split
  · exact .ite (State.evictLine_onlyCache _ _) rfl
  · exact .refl _

theorem State.fillLine_onlyCache (s : State) (line : Nat) (dirty : Bool) : OnlyCache s (s.fillLine line dirty) := by
  have hread (l : List Nat) : OnlyCache s ((s.onCore fun c => { c with l1 := l }).sliceRead line) :=
    OnlyCache.trans (t := s.onCore fun c => { c with l1 := l }) rfl (State.sliceRead_onlyCache _ line)
  unfold State.fillLine
  refine .ite (.refl s) (.ite (.ite (s.sliceLook_onlyCache _ _) (.refl s)) ?_)
  dsimp only
  split
  · exact .ite ((hread _).trans (State.sliceLook_onlyCache _ _ _)) (hread _)
  · exact (hread _).trans rfl

theorem State.homeLine_onlyCache (s : State) (die line : Nat) : OnlyCache s (s.homeLine die line) := by
  unfold State.homeLine
  split
  · exact .ite (.refl s) ((s.evictLine_onlyCache line).trans rfl)
  · exact rfl

theorem State.home_onlyCache (s : State) (die : Option Nat) (p : Piece) : OnlyCache s (s.home die p) := by
  unfold State.home
  split
  · exact .ite (.foldl (fun t l => t.homeLine_onlyCache _ l) _ s) (.refl s)
  · exact .foldl (fun t l => .ite (t.homeLine_onlyCache _ l) (.refl t)) _ s

theorem State.logBad_onlyCache (s : State) (pa n : Nat) (key : BitVec 16) : OnlyCache s (s.logBad pa n key) := by
  unfold State.logBad
  split
  · exact rfl
  · exact .refl s

theorem State.fill_onlyCache (s : State) (p : Piece) (dirty : Bool) : OnlyCache s (s.fill p dirty) := by
  have hlog : OnlyCache s (if dirty then s else s.logBad p.pa p.n p.key) := .ite (.refl s) (s.logBad_onlyCache _ _ _)
  unfold State.fill
  exact .ite ((hlog.trans (State.home_onlyCache _ _ p)).trans
    (.foldl (fun t l => t.fillLine_onlyCache l dirty) _ _)) (.refl s)

theorem State.engineRead_onlyCache (s : State) (die : Option Nat) (p : Piece) : OnlyCache s (s.engineRead die p) := by
  unfold State.engineRead
  exact .ite (((s.logBad_onlyCache _ _ _).trans (State.home_onlyCache _ _ p)).trans
    (.foldl (fun t l => t.sliceRead_onlyCache l) _ _)) (.refl s)

theorem State.agentLook_onlyCache (s : State) (pa n : Nat) : OnlyCache s (s.agentLook pa n) := s.engineRead_onlyCache _ _

theorem State.engineWrote_onlyCache (s : State) (die : Option Nat) (p : Piece) : OnlyCache s (s.engineWrote die p) := by
  unfold State.engineWrote
  exact .ite ((s.home_onlyCache _ p).trans (.foldl (fun t l => t.sliceLook_onlyCache l true) _ _)) (.refl s)

/-! What a read of memory by an agent depends on (R52, R354, R355). -/

/-- The bytes, how their lines were written, the keys and the registers, and what indeterminate bytes are drawn from. -/
def State.memView (s : State) : List Host.Cell × List (Nat × LineInfo) × List Nat × List (Nat × Nat) × List (Nat × Word) ×
    Nat × Nat := (s.mem, s.lines, s.sealed, s.keyGen, s.regs, s.slot, s.ctr)

theorem State.physKind_of_regs (s t : State) (h : t.regs = s.regs) (pa : Nat) : t.physKind pa = s.physKind pa := by
  unfold State.physKind State.pos State.rfld
  rw [State.reg_congr h]

theorem State.canon_of_regs (s t : State) (h : t.regs = s.regs) (pa : Nat) : t.canon pa = s.canon pa := by
  unfold State.canon
  rw [s.physKind_of_regs t h]

theorem State.lineBad_of_memView (s t : State) (h : t.memView = s.memView) (line : Nat) (key : BitVec 16) :
    t.lineBad line key = s.lineBad line key := by
  have hl : t.lines = s.lines := congrArg (fun v => v.2.1) h
  have hs : t.sealed = s.sealed := congrArg (fun v => v.2.2.1) h
  have hk : t.keyGen = s.keyGen := congrArg (fun v => v.2.2.2.1) h
  unfold State.lineBad State.lineInfo State.gen
  rw [hl, hs, hk]

theorem State.free_of_memView (s t : State) (h : t.memView = s.memView) (n : Nat) : t.free n = s.free n := by
  have hs : t.slot = s.slot := congrArg (fun v => v.2.2.2.2.2.1) h
  have hc : t.ctr = s.ctr := congrArg (fun v => v.2.2.2.2.2.2) h
  unfold State.free
  rw [hs, hc]

theorem State.physRead_of_memView (s t : State) (pa n : Nat) (key : BitVec 16) (h : t.memView = s.memView) :
    t.physRead pa n key = s.physRead pa n key := by
  have hm : t.mem = s.mem := congrArg (fun v => v.1) h
  have hr : t.regs = s.regs := congrArg (fun v => v.2.2.2.2.1) h
  simp only [State.physRead, s.canon_of_regs t hr, s.lineBad_of_memView t h, s.free_of_memView t h, hm]

theorem State.agentRead_of_memView (s t : State) (pa n : Nat) (h : t.memView = s.memView) :
    t.agentRead pa n = s.agentRead pa n := by
  have hr : t.regs = s.regs := congrArg (fun v => v.2.2.2.2.1) h
  simp only [State.agentRead, s.physRead_of_memView t pa n 0 h, s.free_of_memView t h, s.physKind_of_regs t hr]

theorem State.groups_of_memView (s t : State) (h : t.memView = s.memView) : t.groups = s.groups := by
  have hr : t.regs = s.regs := congrArg (fun v => v.2.2.2.2.1) h
  simp only [State.groups, State.groupAt, State.reg_congr hr, State.agentRead_of_memView s t _ _ h]

theorem OnlyCache.memView {s t : State} (h : OnlyCache s t) : t.memView = s.memView := h.same State.memView fun _ => rfl

end Sys2Proof.Machine
end

section
/-! PROOFS. Supersteps: SSTEP, the end of waits and freezes, and the release (R46, R237, R238). -/

namespace Sys2Proof.Machine

theorem exec_sstep (o : LvOp) (s : State) : exec (.sstep o) s = execSstep o s := rfl

/-- The communication step that a full arrival begins changes the instances alone (R237). -/
theorem State.stepCheck_core (s : State) (key : StepKey) : (s.stepCheck key).core = s.core := by
  unfold State.stepCheck
  dsimp only
  split <;> rfl

theorem State.stepArrive_core (s : State) (key : StepKey) (index : Nat) : (s.stepArrive key index).core =
    { s.core with ssArr := s.core.ssArr.filter (fun a => a.1 != key.level) ++
        [(key.level, (s.stepInst key).steps, s.core.pc)] } := State.stepCheck_core _ key

theorem supersteps : Claims.Supersteps := by
  intro o s k l key hg hk hl hn hcores hsstep ho hkey
  have hno : ¬ (l.count ≤ o.n.toNat ∨ l.cores o.n.toNat = false ∨ l.sstep o.n.toNat = false) := by
    simp [hcores, hsstep, hn]
  have horphan := s.orphanTrap_none (32 + o.n.toNat) ho
  rw [exec_sstep, execSstep]
  refine ⟨fun p hfind hp hrel => ?_, fun hfind => ⟨(s.holdOn (32 + o.n.toNat)).stepArrive key k.index, ?_, ?_, ?_, ?_, ?_⟩⟩
  · refine runChecked_none _ _ _ _ hg ?_
    simp only [hk, hl, if_neg hno, horphan, hfind, ← hkey, if_neg hp, hrel]
    simp
  · refine runChecked_some _ _ _ _ _ hg ?_
    simp only [hk, hl, if_neg hno, horphan, hfind, ← hkey]
  · rw [State.stepArrive_core]; rfl
  · rw [State.stepArrive_core, hkey]
    exact List.mem_append_right _ (List.mem_singleton.2 rfl)
  · rw [State.stepArrive_core]; rfl
  · exact sameMemory_of_mem (State.stepArrive_mem _ _ _)

theorem waitsEnd : Claims.WaitsEnd := by
  intro s
  refine ⟨fun h => congrArg _ (if_pos h), fun h => congrArg _ (if_neg h), fun h hl hp => congrArg _ (if_pos ⟨h, hl, hp⟩),
    fun h => congrArg _ (if_neg ?_)⟩
  rintro ⟨hst, hlate, hpf⟩
  rcases h with h | h | h
  · exact h hst
  · exact Bool.false_ne_true (hlate.symm.trans h)
  · exact h hpf

/-! The release (R237). -/

theorem State.stepInst_key (s : State) (key : StepKey) : (s.stepInst key).key = key := by
  unfold State.stepInst
  split
  · next h => simpa using List.find?_some h
  · rfl

/-- The superstep just set is the one found under its key. -/
theorem State.stepInst_of_steps (s u : State) (x : StepInst) (h : u.steps = (s.setStep x).steps) :
    u.stepInst x.key = x := by
  have hgone : (s.steps.filter fun y => y.key != x.key).find? (fun y => y.key == x.key) = none :=
    List.find?_eq_none.2 fun y hy hp => absurd (eq_of_beq hp) (by simpa using (List.mem_filter.1 hy).2)
  have hfind : u.steps.find? (fun y => y.key == x.key) = some x := by
    rw [h, State.setStep, List.find?_append, hgone]
    simp
  rw [State.stepInst, hfind]

/-- The highest SSN of a launch is no part of a core, of memory or of the instances (R264). -/
theorem State.raiseTop_frame (s : State) (serial : BitVec 32) : (s.raiseTop serial).core = s.core ∧
    (s.raiseTop serial).memView = s.memView ∧ (s.raiseTop serial).steps = s.steps := by
  unfold State.raiseTop
  dsimp only
  split
  · split
    · exact ⟨rfl, rfl, rfl⟩
    · exact ⟨rfl, rfl, rfl⟩
  · exact ⟨rfl, rfl, rfl⟩

/-- Without a collective group nothing is announced: the table is read, and no more (R405). -/
theorem State.collective_of_no_groups (s : State) (serial : BitVec 32) (level : Nat) (h : s.groups = []) :
    s.collective serial level = s.sawGroups := by
  have hg : s.sawGroups.groups = [] :=
    (State.groups_of_memView _ _ (s.agentLook_onlyCache _ _).memView).trans h
  simp only [State.collective, hg, List.filter_nil, List.foldl_nil, List.isEmpty_nil, if_true]

/-- The superstep once its communication step has ended (R237). -/
def State.nextStep (s : State) (key : StepKey) : StepInst :=
  { s.stepInst key with arrived := [], comm := false, steps := (s.stepInst key).steps + 1 }

theorem State.nextStep_key (s : State) (key : StepKey) : (s.nextStep key).key = key := s.stepInst_key key

/-- The release as a change of the superstep's members, then of the superstep, of its launch and of the groups. -/
theorem exec_superstepRelease (s : State) (key : StepKey) (h : s.commDone key = true) :
    ∃ (f : Core → Core) (u : State), exec (.superstepRelease key) s = .next (u.collective key.serial key.level) ∧
      u = ((s.onMembers key f).setStep (s.nextStep key)).raiseTop key.serial ∧
      ∀ c, (f c).r = { c.r with ssn := c.r.ssn + 1 } :=
  ⟨_, _, congrArg _ (if_pos h), rfl, fun _ => rfl⟩

theorem superstepRelease : Claims.SuperstepRelease := by
  intro s key hdone hgroups
  obtain ⟨f, u, he, hu, hf⟩ := exec_superstepRelease s key hdone
  obtain ⟨hcore, hview, hsteps⟩ := State.raiseTop_frame ((s.onMembers key f).setStep (s.nextStep key)) key.serial
  rw [← hu] at hcore hview hsteps
  have hmap : u.core = if (s.inStep key s.core && s.core.st != .free) = true then f s.core else s.core := hcore
  have hnone : u.groups = [] := (State.groups_of_memView s u hview).trans hgroups
  have hlook : OnlyCache u (u.collective key.serial key.level) := by
    rw [State.collective_of_no_groups u _ _ hnone]
    exact u.agentLook_onlyCache _ _
  have hinst : (u.collective key.serial key.level).stepInst key = s.nextStep key := by
    have h := State.stepInst_of_steps (s.onMembers key f) (u.collective key.serial key.level) (s.nextStep key)
      ((hlook.same State.steps fun _ => rfl).trans hsteps)
    rwa [s.nextStep_key key] at h
  refine ⟨_, he, sameMemory_of_mem (hlook.mem.trans (congrArg (·.1) hview)), ?_, ?_, fun hin hst => ?_, fun hin => ?_⟩
  · rw [hinst]; rfl
  · rw [hinst]; rfl
  · rw [hlook.onlyL1.r, hmap, if_pos (by simp [hin, hst]), hf]
  · obtain ⟨l, hl⟩ := hlook.onlyL1
    rw [hl, hmap, if_neg (by simp [hin])]

/-- Settles O16: the release changes the members and the superstep, and with no group the table is only read. -/
theorem superstepWords : Obligations.SuperstepWords := ⟨supersteps, waitsEnd, superstepRelease⟩

end Sys2Proof.Machine
end

section
/-! PROOFS. What an arrival and a scalar or vector word leave unchanged (R19, R36, R57, R60, R155, R156, R233). -/

namespace Sys2Proof.Machine

/-! Arrivals (R36, R233). -/

theorem State.refault_onlyStop (s : State) (n : Nat) (old t : Trap) : OnlyStop s (s.refault n old t) := by
  unfold State.refault
  split
  · exact .refl s
  · split
    · dsimp only
      split
      · exact OnlyStop.trans rfl (State.unstage_onlyStop _ n)
      · exact OnlyStop.trans rfl (State.stopFor_onlyStop _ _)
    · exact .refl s

/-- A core without what an arrival touches: what the stop of a launch does, the barrier records, and what waits at the
boundary or is the status of a draining task (R142, R233, R306). -/
def Core.unarrived (c : Core) : Core :=
  { c.unstaged with arr := Vector.replicate 32 none, relWait := [], pend := [], status := none }

/-- A state without what an arrival touches. -/
def State.unarrived (s : State) : State := { s.unstopped with core := s.core.unarrived, barriers := [] }

/-- `s` and `t` differ at most in what an arrival touches. -/
def OnlyArrival (s t : State) : Prop := t.unarrived = s.unarrived

theorem OnlyArrival.refl (s : State) : OnlyArrival s s := rfl

theorem OnlyArrival.trans {s t u : State} (h : OnlyArrival s t) (k : OnlyArrival t u) : OnlyArrival s u := Eq.trans k h

theorem OnlyStop.onlyArrival {s t : State} (h : OnlyStop s t) : OnlyArrival s t :=
  congrArg (fun u : State => ({ u with core := u.core.unarrived, barriers := [] } : State)) h

/-- Whatever a state answers that an arrival has no part in, stays. -/
theorem OnlyArrival.same {α : Type} {s t : State} (h : OnlyArrival s t) (f : State → α) (hf : ∀ u : State, f u.unarrived = f u) :
    f t = f s := by
  rw [← hf t, ← hf s, h]

theorem OnlyArrival.mapCores (s : State) (f : Core → Core) (hf : ∀ c, (f c).unarrived = c.unarrived) :
    OnlyArrival s (s.mapCores f) := congrArg (fun c : Core => ({ s.unarrived with core := c } : State)) (hf s.core)

theorem OnlyArrival.onCoreAt (s : State) (n : Nat) (f : Core → Core) (hf : ∀ c, (f c).unarrived = c.unarrived) :
    OnlyArrival s (s.onCoreAt n f) := by
  obtain ⟨l, h⟩ := s.onCoreAt_cases n f
  rw [h]
  split
  · exact congrArg (fun c : Core => ({ s.unarrived with core := c } : State)) (hf s.core)
  · exact rfl

theorem State.raiseB_onlyArrival (s : State) (n : Nat) (t : Trap) : OnlyArrival s (s.raiseB n t) := by
  unfold State.raiseB State.drainCause
  dsimp only
  split
  · exact .refl s
  · split
    · split
      · exact .refl s
      · refine OnlyArrival.trans (OnlyStop.onlyArrival ?_) (.onCoreAt _ n _ fun _ => rfl)
        split
        · exact s.faultArises_onlyStop n _
        · exact s.refault_onlyStop n _ _
    · exact .onCoreAt s n _ fun _ => rfl

theorem State.release_onlyArrival (s : State) (serial : BitVec 32) (b : BitVec 5) (dom : Nat) :
    OnlyArrival s (s.release serial b dom) := by
  refine .mapCores s _ fun c => ?_
  split
  · exact rfl
  · exact rfl

theorem State.setBarrier_onlyArrival (s : State) (x : Barrier) : OnlyArrival s (s.setBarrier x) := rfl

theorem State.arriveOn_onlyArrival (s u : State) (n : Nat) (b : BitVec 5) (h : s.arriveOn n b = some u) :
    OnlyArrival s u := by
  unfold State.arriveOn at h
  dsimp only at h
  split at h
  · cases h
  · split at h
    · cases h
    · next x hx =>
      have hrec : OnlyArrival s (s.onCoreAt n fun c => { c with arr := c.arr.set b.toNat (some x.p) b.isLt }) :=
        .onCoreAt s n _ fun _ => rfl
      split_ifs at h
      · cases h
        exact (hrec.trans (State.setBarrier_onlyArrival _ _)).trans (State.release_onlyArrival _ _ _ _)
      · cases h
        exact hrec.trans (State.setBarrier_onlyArrival _ _)

theorem State.arriveA_onlyArrival (s : State) (n : Nat) (b : BitVec 5) (e : Option (Bool × BitVec 6)) :
    OnlyArrival s (s.arriveA n b e) := by
  unfold State.arriveA
  split
  · next h => exact s.arriveOn_onlyArrival _ n b h
  · exact s.raiseB_onlyArrival n _

/-- What an A bit does: nothing, an arrival, or the mark of a dropped one (R36, R60). -/
theorem State.arriveNow_cases (s : State) (a : Bool) :
    OnlyArrival s (s.arriveNow a) ∨ s.arriveNow a = s.setFstat 2 := by
  unfold State.arriveNow State.abar
  cases a
  · exact .inl (.refl s)
  · by_cases h : s.core.iss.abar.getLsbD 7 = true
    · rw [if_pos rfl, if_pos h]
      exact .inl (s.arriveA_onlyArrival _ _ none)
    · rw [if_pos rfl, if_neg h]
      exact .inr rfl

theorem quiet_trans {s t u : State} (h : Claims.Quiet s t) (k : Claims.Quiet t u) : Claims.Quiet s u := by
  obtain ⟨h1, h2, h3, h4, h5, h6, h7, h8, h9, h10, h11, h12⟩ := h
  obtain ⟨k1, k2, k3, k4, k5, k6, k7, k8, k9, k10, k11, k12⟩ := k
  exact ⟨fun a => (k1 a).trans (h1 a), k2.trans h2, k3.trans h3, k4.trans h4, k5.trans h5, k6.trans h6, k7.trans h7,
    k8.trans h8, k9.trans h9, k10.trans h10, k11.trans h11, k12.trans h12⟩

theorem OnlyArrival.quiet {s t : State} (h : OnlyArrival s t) : Claims.Quiet s t :=
  ⟨sameMemory_of_mem (h.same State.mem fun _ => rfl), h.same State.lines fun _ => rfl, h.same State.regs fun _ => rfl,
    h.same State.timelines fun _ => rfl, h.same State.mcc fun _ => rfl, h.same State.ptp fun _ => rfl,
    h.same State.arrays fun _ => rfl, h.same (fun u => u.core.rows) fun _ => rfl, h.same (fun u => u.core.mq) fun _ => rfl,
    h.same (fun u => u.core.cq) fun _ => rfl, h.same (fun u => u.core.fifo) fun _ => rfl,
    h.same (fun u => u.core.pc) fun _ => rfl⟩

theorem State.setFstat_quiet (s : State) (x : BitVec 128) : Claims.Quiet s (s.setFstat x) :=
  ⟨fun _ => rfl, rfl, rfl, rfl, rfl, rfl, rfl, rfl, rfl, rfl, rfl, rfl⟩

/-- An arrival's frame (R36, R60). -/
theorem State.arriveNow_frame (s : State) (a : Bool) : Claims.Quiet s (s.arriveNow a) ∧
    Claims.RegsAre (s.arriveNow a) s.core.r ∧ (s.arriveNow a).core.lands = s.core.lands := by
  rcases s.arriveNow_cases a with h | h
  · exact ⟨h.quiet, .inl (h.same (fun u => u.core.r) fun _ => rfl), h.same (fun u => u.core.lands) fun _ => rfl⟩
  · rw [h]
    exact ⟨s.setFstat_quiet 2, .inr rfl, rfl⟩

/-- An enabled arrival is one at the barrier that ABAR names. -/
theorem State.arriveNow_enabled (s : State) (h : s.core.iss.abar.getLsbD 7 = true) :
    s.arriveNow true = s.arriveA s.core.id (s.core.iss.abar.setWidth 5) none := by
  rw [State.arriveNow, State.abar, if_pos rfl, if_pos h]

theorem State.arriveNow_dropped (s : State) (h : s.core.iss.abar.getLsbD 7 = false) : s.arriveNow true = s.setFstat 2 := by
  rw [State.arriveNow, State.abar, if_pos rfl, if_neg (by rw [h]; exact Bool.false_ne_true)]

theorem arrivals : Claims.Arrivals := by
  refine ⟨State.arriveNow_frame, State.arriveNow_false, fun s h => ?_, fun s k x b hen hk hb hx hbr => ?_⟩
  · rw [s.arriveNow_dropped h]
    rfl
  · obtain ⟨u, y, hu, ha⟩ := s.arriveOn_self b x k hk hx hbr
    have hnow : s.arriveNow true = u := by
      rw [s.arriveNow_enabled hen, ← hb]
      simp only [State.arriveA, hu]
    rw [hnow]
    exact ⟨ha.record, y, ha.found, ha.count, ha.last⟩

/-! Scalar words: the write of one register, and an arrival (R19, R57). -/

theorem Regs.setS_getS (r : Regs) (i : BitVec 6) : r.setS i (r.getS i) = r := by
  unfold Regs.setS Regs.getS
  split
  · rfl
  · rw [Vector.set_getElem_self]

/-- The write of a register, given by what the register reads afterwards. -/
theorem Regs.setS_getS_setS (r : Regs) (i : BitVec 6) (x : Word) : r.setS i ((r.setS i x).getS i) = r.setS i x := by
  by_cases hi : i = 0
  · simp only [Regs.setS, if_pos hi]
  · rw [Regs.getS_setS r i i x hi, if_pos rfl]

theorem Regs.setP_getP (r : Regs) (i : BitVec 6) : r.setP i (r.getP i) = r := by
  by_cases hi : i = 0
  · exact if_pos hi
  · have hget : r.getP i = r.p.getLsbD i.toNat := by
      rw [Regs.getP, beq_eq_false_iff_ne.2 hi, Bool.false_or]
    have hfld : setFld r.p i.toNat 1 (bit (r.getP i)) = r.p := by
      refine BitVec.eq_of_getLsbD_eq fun j hj => ?_
      rw [getLsbD_setFld_one _ _ _ _ hj]
      split
      · next h => rw [h, hget]
      · rfl
    rw [Regs.setP, if_neg hi, hfld]

theorem Regs.setP_getP_setP (r : Regs) (i : BitVec 6) (b : Bool) (hn : i.toNat < 48) :
    r.setP i ((r.setP i b).getP i) = r.setP i b := by
  by_cases hi : i = 0
  · simp only [Regs.setP, if_pos hi]
  · rw [Regs.getP_setP r i i b hi hn, if_pos rfl]

/-- A word whose only effect is to write s[rd], or to leave it, and to arrive. -/
theorem keepsS_of_write {α : Type} (mk : α → Instr) (rd : α → BitVec 6)
    (h : ∀ o s, ∃ (g a : Bool) (x : Word), exec (mk o) s = .next ((if g then s.wrS (rd o) x else s).arriveNow a)) :
    Claims.keepsS mk rd := by
  intro o s t ht
  obtain ⟨g, a, x, he⟩ := h o s
  obtain rfl := Host.Outcome.next.inj (he.symm.trans ht)
  generalize hu : (if g then s.wrS (rd o) x else s) = u
  have hquiet : Claims.Quiet s u := by
    subst hu
    split <;> exact ⟨fun _ => rfl, rfl, rfl, rfl, rfl, rfl, rfl, rfl, rfl, rfl, rfl, rfl⟩
  have hr : s.core.r.setS (rd o) (u.core.r.getS (rd o)) = u.core.r := by
    subst hu
    split
    · exact Regs.setS_getS_setS _ _ _
    · exact Regs.setS_getS _ _
  obtain ⟨hq, hregs, -⟩ := u.arriveNow_frame a
  refine ⟨quiet_trans hquiet hq, ?_⟩
  rcases hregs with h | h
  · rw [h, hr]
    exact .inl h
  · have hget : (u.arriveNow a).core.r.getS (rd o) = u.core.r.getS (rd o) := by rw [h]; rfl
    rw [hget, hr]
    exact .inr h

/-- The same for a word that writes p[pd]. -/
theorem keepsP_of_write {α : Type} (mk : α → Instr) (pd : α → BitVec 6)
    (h : ∀ o s, ∃ (g a : Bool) (x : Bool), exec (mk o) s = .next ((if g then s.wrP (pd o) x else s).arriveNow a)) :
    Claims.keepsP mk pd := by
  intro o s t hn ht
  obtain ⟨g, a, x, he⟩ := h o s
  obtain rfl := Host.Outcome.next.inj (he.symm.trans ht)
  generalize hu : (if g then s.wrP (pd o) x else s) = u
  have hquiet : Claims.Quiet s u := by
    subst hu
    split <;> exact ⟨fun _ => rfl, rfl, rfl, rfl, rfl, rfl, rfl, rfl, rfl, rfl, rfl, rfl⟩
  have hr : s.core.r.setP (pd o) (u.core.r.getP (pd o)) = u.core.r := by
    subst hu
    split
    · exact Regs.setP_getP_setP _ _ _ hn
    · exact Regs.setP_getP _ _
  obtain ⟨hq, hregs, -⟩ := u.arriveNow_frame a
  refine ⟨quiet_trans hquiet hq, ?_⟩
  rcases hregs with h | h
  · rw [h, hr]
    exact .inl h
  · have hget : (u.arriveNow a).core.r.getP (pd o) = u.core.r.getP (pd o) := by rw [h]; rfl
    rw [hget, hr]
    exact .inr h

/-- SEL writes whatever its guard reads (R133). -/
theorem keepsS_sel : Claims.keepsS Instr.sel SROp.rd :=
  keepsS_of_write _ _ fun o s => ⟨true, o.h.a, if s.guard o.h then s.rdS o.ra else s.rdS o.rb, rfl⟩

theorem scalarFrames : Claims.ScalarFrames := by
  unfold Claims.ScalarFrames
  simp only [List.forall_mem_cons, List.not_mem_nil, false_imp_iff, implies_true, and_true, keepsS_sel, true_and]
  refine ⟨?_, ?_, ?_, ?_, ?_, ?_, ?_, ?_⟩
  case refine_6 | refine_7 | refine_8 =>
    constructorm* _ ∧ _
    all_goals exact keepsP_of_write _ _ fun o s => ⟨_, _, _, rfl⟩
  all_goals
    constructorm* _ ∧ _
    all_goals exact keepsS_of_write _ _ fun o s => ⟨_, _, _, rfl⟩

/-! Vector words: one landing, with the arrival of the A bit behind it (R155, R156). -/

theorem lands_of_landV (mk : VOp → Instr)
    (h : ∀ o s, ∃ cycles d data wm rsig, exec (mk o) s = .next (s.landV o.a cycles d data wm rsig)) : Claims.lands mk := by
  intro o s t ht
  obtain ⟨cycles, d, data, wm, rsig, he⟩ := h o s
  obtain rfl := Host.Outcome.next.inj (he.symm.trans ht)
  unfold State.landV State.abar
  dsimp only
  split
  · split
    · exact ⟨⟨fun _ => rfl, rfl, rfl, rfl, rfl, rfl, rfl, rfl, rfl, rfl, rfl, rfl⟩, .inl rfl, _, rfl⟩
    · exact ⟨⟨fun _ => rfl, rfl, rfl, rfl, rfl, rfl, rfl, rfl, rfl, rfl, rfl, rfl⟩, .inr rfl, _, rfl⟩
  · exact ⟨⟨fun _ => rfl, rfl, rfl, rfl, rfl, rfl, rfl, rfl, rfl, rfl, rfl, rfl⟩, .inl rfl, _, rfl⟩

theorem vectorFrames : Claims.VectorFrames := by
  unfold Claims.VectorFrames
  simp only [List.forall_mem_cons, List.not_mem_nil, false_imp_iff, implies_true, and_true]
  constructorm* _ ∧ _
  all_goals exact lands_of_landV _ fun o s => ⟨_, _, _, _, _, rfl⟩

/-- Settles O57: a scalar word is one write and an arrival, a vector word one landing, and an arrival's frame is shown
once. -/
theorem frames : Obligations.Frames := ⟨scalarFrames, vectorFrames, arrivals⟩

end Sys2Proof.Machine
end

section
/-! PROOFS. Caches and link FIFOs: where the statement about PF fails (R214, R336, R342). -/

namespace Sys2Proof.Machine

/-- The management core beside an LLC that lists line 0 twice, with one counted read of it left. No run from reset makes
such a list, whose keys do not rise; but the statement is about every state. -/
def twiceListed : State := { core := { id := 640 }, llc := [(0, false), (0, false)], readCounts := [(0, 1)] }

/-- PF of line 0. -/
def prefetchLineZero : RaOp := { h := { g := 0, a := false }, ra := 0 }

/-- The line that PF of address 0 reaches. -/
def lineZero : Piece := { va := 0, pa := 0, n := 64, key := 0 }

theorem prefetchPiece_twiceListed : twiceListed.prefetchPiece (twiceListed.rdS prefetchLineZero.ra) = some lineZero := by
  decide

theorem exec_pf_twiceListed : exec (.pf prefetchLineZero) twiceListed = .next (twiceListed.fill lineZero false) := rfl

/-- The last counted read removes one of the two entries of the line, and the line from the L1 (R342). -/
theorem fill_twiceListed : Sparse.find (twiceListed.fill lineZero false).llc 0 = some false ∧
    0 ∉ (twiceListed.fill lineZero false).core.l1 := by
  decide

/-- Refutes O29: in a state whose LLC lists a line twice the last counted read takes one entry away and the line from the
L1, so that PF leaves a line in the LLC that is not in the L1. -/
theorem not_cachesAndFifos : ¬ Obligations.CachesAndFifos := by
  rintro ⟨⟨hwords, -⟩, -⟩
  obtain ⟨⟨t, ht, -, -, hline⟩, -⟩ := hwords prefetchLineZero twiceListed rfl rfl
  obtain rfl := Host.Outcome.next.inj (exec_pf_twiceListed.symm.trans ht)
  obtain ⟨hllc, hl1⟩ := fill_twiceListed
  exact hl1 (hline lineZero 0 prefetchPiece_twiceListed rfl (by decide) rfl (by rw [hllc]; exact fun h => nomatch h))

end Sys2Proof.Machine
end

section
/-! PROOFS. The matrix words at issue: what enters the queue, and what each check refuses (R112 to R116, R183, R190 to
R195). -/

namespace Sys2Proof.Machine

theorem exec_mma (o : MmaOp) (s : State) : exec (.mma o) s = execMma o s := rfl
theorem exec_mzero (o : MzeroOp) (s : State) : exec (.mzero o) s = execMzero o s := rfl
theorem exec_mrsum (o : MrsumOp) (s : State) : exec (.mrsum o) s = execMrsum o s := rfl
theorem exec_mmode (o : MmodeOp) (s : State) : exec (.mmode o) s = execMmode o s := rfl
theorem exec_mldt (o : MldtOp) (s : State) : exec (.mldt o) s = execMldt o s := rfl
theorem exec_mstt (o : MsttOp) (s : State) : exec (.mstt o) s = execMstt o s := rfl
theorem exec_mdrain (o : MdrainOp) (s : State) : exec (.mdrain o) s = execMdrain o s := rfl

/-! A queued word and a direct word, by what their check answers (R183, R190, R194). -/

theorem queued_full (h : Hdr) (s : State) (chk : Option Trap) (e : MEntry) (f : State → State) (hg : s.rdP h.g = true)
    (hfull : 32 ≤ s.core.mq.length) : queued h s chk e f = .next s.freeze :=
  (if_pos hg).trans (if_pos hfull)

theorem queued_trap (h : Hdr) (s : State) (t : Trap) (e : MEntry) (f : State → State) (hg : s.rdP h.g = true)
    (hroom : s.core.mq.length < 32) : queued h s (some t) e f = Claims.traps s t :=
  (if_pos hg).trans (if_neg (Nat.not_le.2 hroom))

theorem queued_none (h : Hdr) (s : State) (e : MEntry) (f : State → State) (hg : s.rdP h.g = true) (ha : h.a = false)
    (hroom : s.core.mq.length < 32) (harr : e.arrive = none) : queued h s none e f = .next (f (s.enqueue e)) := by
  have he : { e with arrive := none } = e := by rw [← harr]
  refine ((if_pos hg).trans (if_neg (Nat.not_le.2 hroom))).trans ?_
  rw [ha, State.abar_false]
  exact congrArg (fun x => Host.Outcome.next (f (s.enqueue x))) he

theorem direct_trap (h : Hdr) (s : State) (tile : BitVec 7) (t : Trap) (rows : List Nat) (f : State → State)
    (hg : s.rdP h.g = true) (hport : s.core.tilePort = 0) (hbusy : s.core.tileBusy tile.toNat = 0) :
    direct h s tile (some t) rows f = Claims.traps s t :=
  (if_pos hg).trans (if_neg fun h => h.elim (fun h => h hbusy) fun h => h hport)

/-! Declared rows (R281, R305). -/

theorem rowFault_natCast (r kind : Nat) : rowFault (r : Int) kind = Claims.rowRange r kind := by
  have haddr : BitVec.ofInt 64 (64 * (r : Int)) = BitVec.ofNat 64 (64 * r) := by
    rw [← BitVec.ofInt_natCast]
    push_cast
    rfl
  rw [rowFault, haddr]
  rfl

theorem Core.rowsFault_cons (c : Core) (x : Int × Nat × Nat) (l : List (Int × Nat × Nat)) : c.rowsFault (x :: l) =
    ((c.badRange x.1 x.2.1).map fun r => rowFault r x.2.2).or (c.rowsFault l) := by
  rw [Core.rowsFault, List.findSome?_cons]
  cases c.badRange x.1 x.2.1 <;> rfl

theorem Core.badRange_natCast (s : State) (r n : Nat) : s.core.badRange (r : Int) n =
    (Claims.undeclared s ((List.range n).map fun i => r + i)).map fun (q : Nat) => (q : Int) := by
  rw [Core.badRange, Claims.undeclared, List.find?_map, List.find?_map, Option.map_map]
  rfl

theorem Core.rowsFault_cons_natCast (s : State) (r n kind : Nat) (l : List (Int × Nat × Nat)) :
    s.core.rowsFault (((r : Int), n, kind) :: l) =
      ((Claims.undeclared s ((List.range n).map fun i => r + i)).map (Claims.rowRange · kind)).or (s.core.rowsFault l) := by
  rw [Core.rowsFault_cons, Core.badRange_natCast, Option.map_map]
  exact congrArg (fun f => (Option.map f _).or _) (funext fun q => rowFault_natCast q kind)

/-- The rows of some ranges, in their order. -/
def rowsOf (l : List (Nat × Nat)) : List Nat := l.flatMap fun x => (List.range x.2).map fun i => x.1 + i

/-- Ranges of rows under one access kind: the first row that offends is the first of them all, in their order. -/
theorem Core.rowsFault_ranges (s : State) (kind : Nat) (l : List (Nat × Nat)) :
    s.core.rowsFault (l.map fun x => ((x.1 : Int), x.2, kind)) =
      (Claims.undeclared s (rowsOf l)).map (Claims.rowRange · kind) := by
  induction l with
  | nil => rfl
  | cons x l ih =>
    have hsplit : Claims.undeclared s (rowsOf (x :: l)) =
        (Claims.undeclared s ((List.range x.2).map fun i => x.1 + i)).or (Claims.undeclared s (rowsOf l)) := List.find?_append
    rw [List.map_cons, Core.rowsFault_cons_natCast, ih, hsplit, Option.map_or]

/-! The pairs of formats (R96, R112, R113, R180). -/

theorem mBits_eq_codeBits (f : Nat) : mBits f = Claims.codeBits f := by
  by_cases hf : f < 11
  · revert f
    decide
  · rw [mBits, Claims.codeBits, List.getD_eq_default _ _ (by simp; omega)]
    simp only [show ¬ f = 0 by omega, show ¬ (f = 1 ∨ f = 2) by omega, show ¬ (f = 6 ∨ f = 8) by omega,
      show ¬ f = 9 by omega, show ¬ f = 10 by omega, if_false]

theorem rows_exact (n d w r : Nat) (h : 32 * d * w = 512 * r) : 32 * (d * n) * w / 512 = n * r := by
  have hmul : 32 * (d * n) * w = 512 * (n * r) := by
    calc 32 * (d * n) * w = 32 * d * w * n := by ring
      _ = 512 * (n * r) := by rw [h]; ring
  rw [hmul, Nat.mul_div_cancel_left _ (by decide)]

/-- The depth of a pair, and the rows that each operand takes, block by block, as widths give them. -/
theorem pairOf_rows (a b n : Nat) (p : Pair) (h : pairOf a b = some p) : p.d = Claims.depth a ∧
    32 * (Claims.depth a * n) * Claims.codeBits a / 512 = n * p.ra ∧
    32 * (Claims.depth a * n) * Claims.codeBits b / 512 = n * p.rb := by
  unfold pairOf at h
  split_ifs at h with h1 h2 h3 h4 h5 h6 h7 h8 h9 <;> obtain rfl := Option.some.inj h
  case pos => obtain ⟨rfl, rfl⟩ := h1; exact ⟨rfl, rows_exact n _ _ _ rfl, rows_exact n _ _ _ rfl⟩
  case pos => rcases h2 with ⟨rfl, rfl⟩ | ⟨rfl, rfl⟩ <;> exact ⟨rfl, rows_exact n _ _ _ rfl, rows_exact n _ _ _ rfl⟩
  case pos => obtain ⟨rfl, rfl⟩ := h3; exact ⟨rfl, rows_exact n _ _ _ rfl, rows_exact n _ _ _ rfl⟩
  case pos => obtain ⟨rfl, rfl⟩ := h4; exact ⟨rfl, rows_exact n _ _ _ rfl, rows_exact n _ _ _ rfl⟩
  case pos =>
    rcases h5 with ⟨rfl | rfl, rfl | rfl⟩ <;> exact ⟨rfl, rows_exact n _ _ _ rfl, rows_exact n _ _ _ rfl⟩
  case pos => obtain ⟨rfl, rfl⟩ := h6; exact ⟨rfl, rows_exact n _ _ _ rfl, rows_exact n _ _ _ rfl⟩
  case pos => obtain ⟨rfl, rfl⟩ := h7; exact ⟨rfl, rows_exact n _ _ _ rfl, rows_exact n _ _ _ rfl⟩
  case pos => obtain ⟨rfl, rfl⟩ := h8; exact ⟨rfl, rows_exact n _ _ _ rfl, rows_exact n _ _ _ rfl⟩
  case pos => obtain ⟨rfl, rfl⟩ := h9; exact ⟨rfl, rows_exact n _ _ _ rfl, rows_exact n _ _ _ rfl⟩

theorem admits_iff (ft : BitVec 32) (ss : BitVec 2) (sa sb : Bool) :
    Claims.Admits (ftA ft) (ftB ft) (ftAcc ft) (ftGroup ft) ss sa sb ↔ ∃ p, mmaOk ft ss sa sb = some p := by
  unfold mmaOk Claims.Admits
  generalize ftA ft = a
  generalize ftB ft = b
  unfold pairOf
  split_ifs with h1 h2 h3 h4 h5 h6 h7 h8 h9
  case pos => obtain ⟨rfl, rfl⟩ := h1; simp [and_assoc]
  case pos => rcases h2 with ⟨rfl, rfl⟩ | ⟨rfl, rfl⟩ <;> simp [and_assoc]
  case pos => obtain ⟨rfl, rfl⟩ := h3; simp [and_assoc]
  case pos => obtain ⟨rfl, rfl⟩ := h4; simp [and_assoc]
  case pos => rcases h5 with ⟨rfl | rfl, rfl | rfl⟩ <;> simp [and_assoc]
  case pos => obtain ⟨rfl, rfl⟩ := h6; simp [and_assoc]
  case pos => obtain ⟨rfl, rfl⟩ := h7; simp [and_assoc]
  case pos => obtain ⟨rfl, rfl⟩ := h8; simp [and_assoc]
  case pos => obtain ⟨rfl, rfl⟩ := h9; simp [and_assoc]
  case neg =>
    simp only [List.mem_cons, List.not_mem_nil, Prod.mk.injEq, or_false, exists_false, iff_false]
    omega

/-! The checks of MMA (R190). -/

theorem fld_eq_zero_iff {n : Nat} (x : BitVec n) (lo w : Nat) : fld x lo w = 0 ↔ x.extractLsb' lo w = 0 := by
  rw [fld, BitVec.toNat_eq]
  rfl

theorem mmaCheck_reserved (o : MmaOp) (s : State) (x : Word) (h : x.extractLsb' 52 12 ≠ 0) :
    mmaCheck o s x = some { cause := 8, aux := x } :=
  if_pos fun h0 => h ((fld_eq_zero_iff x 52 12).1 h0)

theorem mmaCheck_format (o : MmaOp) (s : State) (x : Word) (h : x.extractLsb' 52 12 = 0)
    (hok : mmaOk s.ftInUse o.ss o.sa o.sb = none) : mmaCheck o s x = some { cause := 7, aux := x } := by
  refine (if_neg fun h0 => h0 ((fld_eq_zero_iff x 52 12).2 h)).trans ?_
  rw [show mmaOk (mmaArgs o s x).ft (mmaArgs o s x).ss (mmaArgs o s x).sa (mmaArgs o s x).sb = none from hok]
  rfl

/-- The checks of MMA past its formats, by its fields. -/
theorem mmaCheck_pair (o : MmaOp) (s : State) (x : Word) (p : Pair) (h : x.extractLsb' 52 12 = 0)
    (hok : mmaOk s.ftInUse o.ss o.sa o.sb = some p) : mmaCheck o s x =
      if ftGroup s.ftInUse ≠ 0 ∧ (p.d * (fld x 30 10 + 1) % groupSize s.ftInUse ≠ 0 ∨
          24576 < ftSide s.ftInUse + 2 * groupsOf (mmaArgs o s x) p) then some { cause := 8, aux := x }
      else if !inGroup 0 (fld x 0 15) ((fld x 30 10 + 1) * p.ra) || !inGroup 1 (fld x 15 15) ((fld x 30 10 + 1) * p.rb) then
        some { cause := 6, aux := x }
      else s.core.rowsFault [(fld x 0 15, (fld x 30 10 + 1) * p.ra, 0), (fld x 15 15, (fld x 30 10 + 1) * p.rb, 0),
        (ftSide s.ftInUse, 2 * groupsOf (mmaArgs o s x) p, 0)] := by
  refine (if_neg fun h0 => h0 ((fld_eq_zero_iff x 52 12).2 h)).trans ?_
  rw [show mmaOk (mmaArgs o s x).ft (mmaArgs o s x).ss (mmaArgs o s x).sa (mmaArgs o s x).sb = some p from hok]
  rfl

theorem mmaOk_pairOf (ft : BitVec 32) (ss : BitVec 2) (sa sb : Bool) (p : Pair) (h : mmaOk ft ss sa sb = some p) :
    pairOf (ftA ft) (ftB ft) = some p := by
  unfold mmaOk at h
  split at h
  · exact nomatch h
  · next q hq =>
    dsimp only at h
    split at h
    all_goals
      split at h
      · rw [hq, h]
      · exact nomatch h

theorem exec_mma_some (o : MmaOp) (s : State) (t : Trap) (hg : s.rdP o.h.g = true) (hroom : s.core.mq.length < 32)
    (hc : mmaCheck o s (s.rdS o.sd) = some t) : exec (.mma o) s = Claims.traps s t := by
  rw [exec_mma, execMma, hc]
  exact queued_trap _ _ _ _ _ hg hroom

/-- A trap that ends the task leaves its matrix queue (R311). -/
theorem State.takeTrap_ends_mq (s : State) (t : Trap) (hp : t.plain) (hm : s.mgmt = false)
    (hc : trapClass t.cause = .ends) : (s.takeTrap t).core.mq = s.core.mq := by
  have hdrop (c : Core) : c.dropFaults.mq = c.mq := by
    obtain ⟨q, n, ds, h⟩ := c.dropFaults_eq
    rw [h]
  rw [s.takeTrap_ends t hp hm (.inl hc)]
  exact (hdrop _).trans ((State.faultArises_onlyStop _ s.core.id t).onlyArrival.same (fun u => u.core.mq) fun _ => rfl)

theorem queueEntries : Claims.QueueEntries := by
  intro s h hg ha hroom
  refine ⟨?_, ?_, ?_, ?_, ?_, ?_⟩
  · rintro o rfl hc
    refine ⟨{ idx := s.core.mqNext, op := .mma (mmaArgs o s (s.rdS o.sd)), tile := o.tile, after := s.core.nextId
              wait := BitVec.ofNat 8 (fld (s.rdS o.sd) 40 8)
              sig := if (s.rdS o.sd).getLsbD 51 then some (BitVec.ofNat 3 (fld (s.rdS o.sd) 48 3)) else none },
      ?_, rfl, rfl, rfl, ?_, ?_⟩
    · rw [exec_mma, execMma, hc]
      exact queued_none _ _ _ _ hg ha hroom rfl
    · exact BitVec.ofNat_toNat 8 _
    · exact congrArg (fun k => if (s.rdS o.sd).getLsbD 51 = true then some k else none) (BitVec.ofNat_toNat 3 _)
  · rintro o rfl hm hx
    refine ⟨_, exec_mma_some o s _ hg hroom (mmaCheck_reserved o s _ hx), ?_⟩
    obtain ⟨hnote, hr⟩ := s.takeTrap_record (Claims.slotTrap s { cause := 8, aux := s.rdS o.sd }) (.inr rfl) hm (.inr rfl)
    refine ⟨hnote, ?_, ?_, ?_⟩
    · rw [hr]; rfl
    · rw [hr]; rfl
    · exact State.takeTrap_ends_mq _ _ (.inr rfl) hm rfl
  · rintro o rfl hacc
    rw [exec_mzero, execMzero, if_neg hacc]
    exact queued_none _ _ _ _ hg ha hroom rfl
  · rintro o g p rfl hcomp hp hkind hrows
    rw [exec_mrsum, execMrsum]
    simp only [hcomp, hp, hkind, if_true, hrows]
    exact queued_none _ _ _ _ hg ha hroom rfl
  · rintro o rfl hm hcomp
    rw [exec_mrsum, execMrsum]
    simp only [hcomp]
    refine ⟨_, queued_trap _ _ _ _ _ hg hroom, ?_⟩
    obtain ⟨hnote, hr⟩ := s.takeTrap_record (Claims.slotTrap s { cause := causeFormat }) (.inr rfl) hm (.inr rfl)
    rw [hr]
    exact ⟨hnote, rfl⟩
  · rintro o rfl
    rw [exec_mmode, execMmode]
    exact queued_none _ _ _ _ hg ha hroom rfl

/-- The rows of A, of B and of the side table that an MMA reads (R180, R190). -/
theorem rowsOf_mma (arow na brow nb side g grp : Nat) :
    rowsOf [(arow, na), (brow, nb), (side, 2 * if grp = 0 then 0 else g)] =
      (List.range na).map (fun i => arow + i) ++ (List.range nb).map (fun i => brow + i) ++
        (if grp = 0 then [] else (List.range (2 * g)).map fun i => side + i) := by
  by_cases h : grp = 0
  · simp [rowsOf, h]
  · simp [rowsOf, h]

/-- An operand of A or of B leaves its bank group (R182). -/
theorem offBank_iff (arow na brow nb : Nat) : (!inGroup 0 arow na || !inGroup 1 brow nb) = true ↔
    12288 < arow + na ∨ brow < 12288 ∨ 24576 < brow + nb := by
  simp only [inGroup, Bool.or_eq_true, Bool.not_eq_true', Bool.and_eq_false_iff, decide_eq_false_iff_not]
  omega

/-- What the checks of MMA answer once its formats are admitted, in the terms of R112 to R116 and R182. -/
theorem mmaCheck_admitted (o : MmaOp) (s : State) (x : Word) (a b grp side K na nb ng : Nat) (h : x.extractLsb' 52 12 = 0)
    (ha : a = ftA s.ftInUse) (hb : b = ftB s.ftInUse) (hgrp : grp = ftGroup s.ftInUse) (hside : side = ftSide s.ftInUse)
    (hK : K = Claims.depth a * (fld x 30 10 + 1)) (hna : na = 32 * K * Claims.codeBits a / 512)
    (hnb : nb = 32 * K * Claims.codeBits b / 512) (hng : ng = if grp = 0 then 0 else K / (16 * 2 ^ grp))
    (hok : Claims.Admits a b (ftAcc s.ftInUse) grp o.ss o.sa o.sb) : mmaCheck o s x =
      if grp ≠ 0 ∧ (K % (16 * 2 ^ grp) ≠ 0 ∨ 24576 < side + 2 * ng) then some { cause := 8, aux := x }
      else if !inGroup 0 (fld x 0 15) na || !inGroup 1 (fld x 15 15) nb then some { cause := 6, aux := x }
      else (Claims.undeclared s (rowsOf [(fld x 0 15, na), (fld x 15 15, nb), (side, 2 * ng)])).map
        (Claims.rowRange · 0) := by
  subst ha hb hgrp hside
  obtain ⟨p, hp⟩ := (admits_iff _ _ _ _).1 hok
  obtain ⟨hd, hra, hrb⟩ := pairOf_rows _ _ (fld x 30 10 + 1) p (mmaOk_pairOf _ _ _ _ p hp)
  rw [← hK] at hra hrb
  rw [← hd] at hK
  have hgroups : groupsOf (mmaArgs o s x) p = ng := by
    rw [hng, hK]
    rfl
  rw [mmaCheck_pair o s x p h hp, hgroups, ← hK, ← hra, ← hrb, ← hna, ← hnb, ← Core.rowsFault_ranges]
  rfl

theorem matrixChecks : Claims.MatrixChecks := by
  intro o s x ft a b acc grp side K na nb hg hx hft ha hb hacc hgrp hside hK hna hnb
  refine ⟨fun hfull => ?_, fun hsel => ?_, fun n m hsel hn hm => ?_, fun hroom hres => ?_, fun hroom hres => ⟨fun hbad => ?_,
    fun hok => ?_⟩⟩
  · rw [exec_mma, execMma]
    exact queued_full _ _ _ _ _ hg hfull
  · rw [hft]
    exact if_neg (by rw [hsel]; exact Bool.false_ne_true)
  · have hlc : s.core.iss.lc.getD (fld s.core.iss.ftsel 0 2) ⟨0, 0, 0⟩ = s.core.iss.lc[n] := by
      rw [show fld s.core.iss.ftsel 0 2 = n from hn.symm]
      exact vector_getD_fin _ n _
    rw [hft, State.ftInUse, if_pos hsel, hlc, ← hm]
    exact vector_getD_fin _ m 0
  · rw [hx] at hres ⊢
    exact exec_mma_some o s _ hg hroom (mmaCheck_reserved o s _ hres)
  · rw [hx] at hres ⊢
    refine exec_mma_some o s _ hg hroom (mmaCheck_format o s _ hres (Option.eq_none_iff_forall_ne_some.2 fun p hp => hbad ?_))
    subst hft ha hb hacc hgrp
    exact (admits_iff _ _ _ _).2 ⟨p, hp⟩
  · subst hft hacc
    have hcheck := mmaCheck_admitted o s x a b grp side K na nb _ hres ha hb hgrp hside hK hna hnb rfl hok
    subst hx
    refine ⟨fun hne hbad => ?_, fun hgood => ⟨fun hbank => ?_, fun harow hbrow hbend rows hrows => ?_⟩⟩
    · rw [if_neg hne] at hcheck
      exact exec_mma_some o s _ hg hroom (hcheck.trans (if_pos ⟨hne, hbad⟩))
    all_goals
      have hng : ¬ (grp ≠ 0 ∧ (K % (16 * 2 ^ grp) ≠ 0 ∨
          24576 < side + 2 * if grp = 0 then 0 else K / (16 * 2 ^ grp))) := by
        rintro ⟨hne, h⟩
        rw [if_neg hne] at h
        obtain ⟨h1, h2⟩ := hgood hne
        omega
      rw [if_neg hng] at hcheck
    · exact exec_mma_some o s _ hg hroom (hcheck.trans (if_pos ((offBank_iff _ _ _ _).2 hbank)))
    · have hbank : ¬ (!inGroup 0 (fld (s.rdS o.sd) 0 15) na || !inGroup 1 (fld (s.rdS o.sd) 15 15) nb) = true := by
        rw [offBank_iff]
        simp only [fld]
        omega
      have hall : rows = rowsOf [(fld (s.rdS o.sd) 0 15, na), (fld (s.rdS o.sd) 15 15, nb),
          (side, 2 * if grp = 0 then 0 else K / (16 * 2 ^ grp))] := hrows.trans (rowsOf_mma _ _ _ _ _ _ _).symm
      rw [if_neg hbank, ← hall] at hcheck
      refine ⟨fun r hr => ?_, fun hr => ?_⟩
      · rw [hr] at hcheck
        exact exec_mma_some o s _ hg hroom hcheck
      · rw [hcheck, hr]
        rfl

/-! The checks of the words on a tile (R190, R194, R195). -/

theorem tileRowsCheck_descriptor (s : State) (x : Word) (acc : BitVec 2) (kind : Nat)
    (h : x.extractLsb' 15 49 ≠ 0 ∨ (acc ≠ 3 ∧ 24576 < (x.extractLsb' 0 15).toNat + 64)) :
    tileRowsCheck s x acc kind = some { cause := 8, aux := x } := by
  by_cases hres : x.extractLsb' 15 49 = 0
  · obtain ⟨hacc, hrange⟩ := h.resolve_left fun h => h hres
    exact (if_neg fun h0 => h0 ((fld_eq_zero_iff x 15 49).2 hres)).trans ((if_neg hacc).trans (if_pos hrange))
  · exact if_pos fun h0 => hres ((fld_eq_zero_iff x 15 49).1 h0)

theorem tileRowsCheck_format (s : State) (x : Word) (acc : BitVec 2) (kind : Nat) (h : x.extractLsb' 15 49 = 0)
    (hacc : acc = 3) : tileRowsCheck s x acc kind = some { cause := 7, aux := x } :=
  (if_neg fun h0 => h0 ((fld_eq_zero_iff x 15 49).2 h)).trans (if_pos hacc)

theorem tileRowsCheck_row (s : State) (x : Word) (acc : BitVec 2) (kind q : Nat) (h : x.extractLsb' 15 49 = 0)
    (hacc : acc ≠ 3) (hrange : (x.extractLsb' 0 15).toNat + 64 ≤ 24576)
    (hq : Claims.undeclared s ((List.range 64).map fun i => (x.extractLsb' 0 15).toNat + i) = some q) :
    tileRowsCheck s x acc kind = some (Claims.rowRange q kind) := by
  refine (if_neg fun h0 => h0 ((fld_eq_zero_iff x 15 49).2 h)).trans
    ((if_neg hacc).trans ((if_neg (Nat.not_lt.2 hrange)).trans ?_))
  have hq' : Claims.undeclared s ((List.range 64).map fun i => fld x 0 15 + i) = some q := hq
  rw [Core.rowsFault_cons_natCast, hq']
  rfl

/-- What MDRAIN refuses before it looks at rows (R195). -/
def DrainRefused (o : MdrainOp) (s : State) (x : Word) : Prop :=
  x.extractLsb' 50 14 ≠ 0 ∨ fld x 46 4 ∈ [6, 7, 8] ∨ 11 ≤ fld x 46 4 ∨
    (o.req = true ∧ ((s.tile o.tile.toNat).acc = 0 ∨ fld x 46 4 ≤ 4)) ∨ (o.uns = true ∧ fld x 46 4 ≤ 4) ∨
    24576 < fld x 0 15 + 2 * Claims.codeBits (fld x 46 4) ∨ (o.req = true ∧ 24576 ≤ fld x 15 15 + 3)

theorem drainFmtOk_eq_false_iff (f : Nat) : drainFmtOk f = false ↔ f ∈ [6, 7, 8] ∨ 11 ≤ f := by
  simp only [drainFmtOk, Bool.or_eq_false_iff, decide_eq_false_iff_not, beq_eq_false_iff_ne, List.mem_cons, List.not_mem_nil,
    or_false]
  omega

theorem drainRefused_iff (o : MdrainOp) (s : State) (x : Word) : DrainRefused o s x ↔
    (fld x 50 14 ≠ 0 ∨ drainFmtOk (fld x 46 4) = false) ∨
    (o.req && ((s.tile o.tile.toNat).acc == 0 || drainFloat (fld x 46 4))) = true ∨
    (o.uns && drainFloat (fld x 46 4)) = true ∨
    (24576 < fld x 0 15 + 2 * mBits (fld x 46 4) ∨ o.req = true ∧ 24576 < fld x 15 15 + 4) := by
  have hlt : 24576 < fld x 15 15 + 4 ↔ 24576 ≤ fld x 15 15 + 3 := Nat.lt_succ_iff
  simp only [DrainRefused, drainFmtOk_eq_false_iff, fld_eq_zero_iff, Bool.and_eq_true, Bool.or_eq_true, beq_iff_eq,
    drainFloat, decide_eq_true_eq, or_assoc, ne_eq, mBits_eq_codeBits, hlt]

theorem drainCheck_refused (o : MdrainOp) (s : State) (x : Word) (h : DrainRefused o s x) :
    drainCheck o s x = some { cause := 8, aux := x } := by
  rw [drainRefused_iff] at h
  by_cases h1 : fld x 50 14 ≠ 0 ∨ drainFmtOk (fld x 46 4) = false
  · exact if_pos h1
  by_cases h2 : (o.req && ((s.tile o.tile.toNat).acc == 0 || drainFloat (fld x 46 4))) = true
  · exact (if_neg h1).trans (if_pos h2)
  by_cases h3 : (o.uns && drainFloat (fld x 46 4)) = true
  · exact (if_neg h1).trans ((if_neg h2).trans (if_pos h3))
  · exact (if_neg h1).trans ((if_neg h2).trans ((if_neg h3).trans
      (if_pos (((h.resolve_left h1).resolve_left h2).resolve_left h3))))

theorem drainCheck_rows (o : MdrainOp) (s : State) (x : Word) (h : ¬ DrainRefused o s x) :
    drainCheck o s x = s.core.rowsFault ((((fld x 0 15 : Nat) : Int), 2 * Claims.codeBits (fld x 46 4), 1) ::
      if o.req then [(((fld x 15 15 : Nat) : Int), 4, 0)] else []) := by
  rw [drainRefused_iff] at h
  obtain ⟨h1, h⟩ := not_or.1 h
  obtain ⟨h2, h⟩ := not_or.1 h
  obtain ⟨h3, h4⟩ := not_or.1 h
  rw [← mBits_eq_codeBits]
  exact (if_neg h1).trans ((if_neg h2).trans ((if_neg h3).trans (if_neg h4)))

theorem pairOf_int (a b : Nat) (h : (a, b) ∈ [(5, 5), (6, 6)]) : ∃ p, pairOf a b = some p ∧ p.kind = .int ∧ p.ra = 4 ∧
    p.rb = 4 := by
  simp only [List.mem_cons, List.not_mem_nil, Prod.mk.injEq, or_false] at h
  rcases h with ⟨rfl, rfl⟩ | ⟨rfl, rfl⟩
  · exact ⟨_, rfl, rfl, rfl, rfl⟩
  · exact ⟨_, rfl, rfl, rfl, rfl⟩

theorem pairOf_kind_int (a b : Nat) (p : Pair) (h : pairOf a b = some p) (hk : p.kind = .int) :
    (a, b) ∈ [(5, 5), (6, 6)] := by
  unfold pairOf at h
  split_ifs at h with h1 h2 h3 h4 h5 h6 h7 h8 h9 <;> obtain rfl := Option.some.inj h
  case pos => exact nomatch hk
  case pos => exact nomatch hk
  case pos => exact nomatch hk
  case pos => exact nomatch hk
  case pos => exact nomatch hk
  case pos => simp [h6]
  case pos => exact nomatch hk
  case pos => exact nomatch hk
  case pos => simp [h9]

theorem transferChecks : Claims.TransferChecks := by
  intro s h tile sd x r p f w hg hx hr hp hf hw
  subst hr hp hf hw
  refine ⟨fun hport hbusy => ⟨fun acc => ⟨fun hbad => ?_, fun hres hacc => ?_, fun q hres hacc hrange hq => ?_⟩, fun hbad => ?_,
    fun q hres hrange hq => ?_, fun uns req bad hbad => ⟨fun hb => ?_, fun q hb hq => ?_, fun q hb hnone hreq hq => ?_⟩⟩,
    fun hroom => ⟨?_, ?_⟩, fun hfull => ⟨?_, ?_, ?_⟩⟩
  · rw [exec_mldt, execMldt, ← hx, tileRowsCheck_descriptor s x acc 0 hbad]
    exact direct_trap _ _ _ _ _ _ hg hport hbusy
  · rw [exec_mldt, execMldt, ← hx, tileRowsCheck_format s x acc 0 hres hacc]
    exact direct_trap _ _ _ _ _ _ hg hport hbusy
  · rw [exec_mldt, execMldt, ← hx, tileRowsCheck_row s x acc 0 q hres hacc hrange hq]
    exact direct_trap _ _ _ _ _ _ hg hport hbusy
  · rw [exec_mstt, execMstt, ← hx, tileRowsCheck_descriptor s x 0 1 (hbad.imp_right fun h => ⟨by decide, h⟩)]
    exact direct_trap _ _ _ _ _ _ hg hport hbusy
  · rw [exec_mstt, execMstt, ← hx, tileRowsCheck_row s x 0 1 q hres (by decide) hrange hq]
    exact direct_trap _ _ _ _ _ _ hg hport hbusy
  · rw [exec_mdrain, execMdrain, ← hx, drainCheck_refused { h := h, tile := tile, sd := sd, uns := uns, req := req } s x
      (hbad.1 hb)]
    exact direct_trap _ _ _ _ _ _ hg hport hbusy
  · have hq' : Claims.undeclared s ((List.range (2 * Claims.codeBits (fld x 46 4))).map fun i => fld x 0 15 + i) = some q := hq
    rw [exec_mdrain, execMdrain, ← hx, drainCheck_rows { h := h, tile := tile, sd := sd, uns := uns, req := req } s x
      fun h => hb (hbad.2 h), Core.rowsFault_cons_natCast, hq']
    exact direct_trap _ _ _ _ _ _ hg hport hbusy
  · have hnone' : Claims.undeclared s ((List.range (2 * Claims.codeBits (fld x 46 4))).map fun i => fld x 0 15 + i) = none :=
      hnone
    have hq' : Claims.undeclared s ((List.range 4).map fun i => fld x 15 15 + i) = some q := hq
    subst hreq
    rw [exec_mdrain, execMdrain, ← hx, drainCheck_rows { h := h, tile := tile, sd := sd, uns := uns, req := true } s x
      fun h => hb (hbad.2 h), Core.rowsFault_cons_natCast, hnone', if_pos rfl, Core.rowsFault_cons_natCast, hq']
    exact direct_trap _ _ _ _ _ _ hg hport hbusy
  · rintro o rfl hacc
    rw [exec_mzero, execMzero, if_pos hacc]
    exact queued_trap _ _ _ _ _ hg hroom
  · rintro o rfl
    rw [exec_mrsum, execMrsum]
    refine ⟨fun hcomp => ?_, fun g a b hcomp ha hb => ⟨fun hab => ?_, fun q hab hq => ?_⟩⟩
    · simp only [hcomp]
      exact queued_trap _ _ _ _ _ hg hroom
    · simp only [hcomp]
      cases hp : pairOf (ftA g.ft) (ftB g.ft) with
      | none => exact queued_trap _ _ _ _ _ hg hroom
      | some p =>
        have hkind : p.kind ≠ .int := fun hk => hab (by rw [ha, hb]; exact pairOf_kind_int _ _ p hp hk)
        simp only [if_neg hkind]
        exact queued_trap _ _ _ _ _ hg hroom
    · obtain ⟨p, hp, hkind, hra, hrb⟩ := pairOf_int a b hab
      have hp' : pairOf (ftA g.ft) (ftB g.ft) = some p := by rw [← hp, ha, hb]; rfl
      have hrows : s.core.rowsFault [((g.arow : Int), (g.kb + 1) * p.ra, 0), ((g.brow : Int), (g.kb + 1) * p.rb, 0)] =
          some (Claims.rowRange q 0) := by
        refine (Core.rowsFault_ranges s 0 [(g.arow, (g.kb + 1) * p.ra), (g.brow, (g.kb + 1) * p.rb)]).trans ?_
        simp only [rowsOf, List.flatMap_cons, List.flatMap_nil, List.append_nil, hra, hrb, Nat.mul_comm (g.kb + 1) 4, hq,
          Option.map_some]
      simp only [hcomp, hp', if_pos hkind, hrows]
      exact queued_trap _ _ _ _ _ hg hroom
  · rintro o rfl
    rw [exec_mzero, execMzero]
    exact queued_full _ _ _ _ _ hg hfull
  · rintro o rfl
    rw [exec_mrsum, execMrsum]
    split
    · exact queued_full _ _ _ _ _ hg hfull
    · exact queued_full _ _ _ _ _ hg hfull
  · rintro o rfl
    rw [exec_mmode, execMmode]
    exact queued_full _ _ _ _ _ hg hfull

/-- Settles O21: each check is one equation of the word's check; rows are sought through the ranges in their order. -/
theorem matrixIssue : Obligations.MatrixIssue := ⟨queueEntries, matrixChecks, transferChecks⟩

end Sys2Proof.Machine
end

section
/-! PROOFS. Copies: what a translation depends on, what the scratchpad and memory hold after a write, and the steps of the
copy queue (R215 to R225, R253, R331). -/

namespace Sys2Proof.Machine

/-! What a translation depends on (R322 to R326): memory and registers, the TLBs and the peers. -/

theorem State.badLine_of_memView (s t : State) (h : t.memView = s.memView) (pa n : Nat) (key : BitVec 16) :
    t.badLine pa n key = s.badLine pa n key := by
  have hr : t.regs = s.regs := congrArg (fun v => v.2.2.2.2.1) h
  unfold State.badLine
  simp only [s.canon_of_regs t hr, s.lineBad_of_memView t h]

theorem State.entry_of_memView (s t : State) (h : t.memView = s.memView) (pa : Nat) (outside : Trap) (va : Word) :
    t.entry pa outside va = s.entry pa outside va := by
  unfold State.entry State.physWord
  rw [s.badLine_of_memView t h, State.agentRead_of_memView s t _ _ h]

theorem State.walkFrom_of_memView (s t : State) (h : t.memView = s.memView) (va : Word) (kind : BitVec 3)
    (fuel level table : Nat) : t.walkFrom va kind fuel level table = s.walkFrom va kind fuel level table := by
  have hr : t.regs = s.regs := congrArg (fun v => v.2.2.2.2.1) h
  induction fuel generalizing level table with
  | zero => rfl
  | succ fuel ih =>
    simp only [State.walkFrom, s.entry_of_memView t h, s.physKind_of_regs t hr, ih]

/-- A function of the state alone answers alike where what a read of memory depends on is alike. -/
def ReadsMemView {α : Type} (f : State → α) : Prop := ∀ s t : State, t.memView = s.memView → f t = f s

/-- The walk is unfolded as a function, not at an argument: so its reads of memory are compared as they stand. -/
theorem State.walk_readsMemView : ReadsMemView State.walk := by
  delta State.walk
  intro s t h
  have hr : t.regs = s.regs := congrArg (fun v => v.2.2.2.2.1) h
  have hentry : t.entry = s.entry := by
    funext pa outside va
    exact s.entry_of_memView t h pa outside va
  have hfrom : t.walkFrom = s.walkFrom := by
    funext va kind fuel level table
    exact s.walkFrom_of_memView t h va kind fuel level table
  beta_reduce
  rw [hentry, State.reg_congr hr, hfrom]

theorem State.walk_of_memView (s t : State) (h : t.memView = s.memView) (ctx : BitVec 16) (va : Word) (kind : BitVec 3) :
    t.walk ctx va kind = s.walk ctx va kind :=
  congrFun (congrFun (congrFun (State.walk_readsMemView s t h) ctx) va) kind

/-- `s` and `t` agree on what the translations of a core's copy engine depend on. -/
structure SameXlate (s t : State) : Prop where
  view : t.memView = s.memView
  peers : t.peers = s.peers
  dtlb : t.dtlb = s.dtlb
  ctlb : t.core.ctlb = s.core.ctlb
  id : t.core.id = s.core.id

theorem SameXlate.regs {s t : State} (h : SameXlate s t) : t.regs = s.regs := congrArg (fun v => v.2.2.2.2.1) h.view
theorem SameXlate.ctr {s t : State} (h : SameXlate s t) : t.ctr = s.ctr := congrArg (fun v => v.2.2.2.2.2.2) h.view

theorem State.leafUse_of_sameXlate (s t : State) (h : SameXlate s t) (va : Word) (kind : BitVec 3) (leaf : Word)
    (size : Nat) : t.leafUse va kind leaf size = s.leafUse va kind leaf size := by
  unfold State.leafUse State.leafCheck State.rfld
  simp only [s.physKind_of_regs t h.regs, s.canon_of_regs t h.regs, State.reg_congr h.regs, h.peers]

theorem State.engineXlate_of_sameXlate (s t : State) (h : SameXlate s t) (ctx : BitVec 16) (va : Word)
    (kind : BitVec 3) : t.engineXlate ctx va kind = s.engineXlate ctx va kind := by
  have hdeep (a : Word) : t.tlbDeep ctx a = s.tlbDeep ctx a := by rw [State.tlbDeep, State.tlbDeep, h.ctlb, h.dtlb, h.id]
  have hheld : t.stillHeld ctx va kind = s.stillHeld ctx va kind := by
    funext e
    rw [State.stillHeld, State.stillHeld, s.walk_of_memView t h.view, h.ctr]
  simp only [State.engineXlate, State.sysXlate, hdeep, hheld, s.walk_of_memView t h.view, s.leafUse_of_sameXlate t h]

theorem State.vparts_of_sameXlate (s t : State) (h : SameXlate s t) (ctx keyid : BitVec 16) (kind : BitVec 3)
    (va : Word) (n : Nat) : t.vparts ctx keyid kind va n = s.vparts ctx keyid kind va n := by
  simp only [State.vparts, s.engineXlate_of_sameXlate t h]

theorem State.vread_of_sameXlate (s t : State) (h : SameXlate s t) (hf : t.core.fetched = s.core.fetched)
    (ctx keyid : BitVec 16) (into : Nat) (va : Word) (n : Nat) :
    t.vread ctx keyid into va n = s.vread ctx keyid into va n := by
  have hbytes (l : List Piece) : t.partsBytes into l = s.partsBytes into l := by
    induction l with
    | nil => rfl
    | cons p l ih =>
      simp only [State.partsBytes, State.partBytes, State.peerAt, s.physKind_of_regs t h.regs, s.canon_of_regs t h.regs, hf,
        s.badLine_of_memView t h.view, s.physRead_of_memView t _ _ _ h.view, ih]
  simp only [State.vread, s.vparts_of_sameXlate t h, hbytes]

/-! What the engine's looks at memory leave: all but the marks of caches and the TLBs behind the µTLB (R326, R335). -/

/-- A state without the core TLB of the core in focus and those of the dies. -/
def State.sansTlb (s : State) : State := { s with core := { s.core with ctlb := [] }, dtlb := [] }

/-- A state without the marks of its caches, and without those TLBs. -/
def State.sansLook (s : State) : State := s.sansCache.sansTlb

/-- `s` and `t` differ at most in the marks of their caches and in the TLBs that the copy engine fills. -/
def OnlyLook (s t : State) : Prop := t.sansLook = s.sansLook

theorem OnlyLook.refl (s : State) : OnlyLook s s := rfl

theorem OnlyLook.trans {s t u : State} (h : OnlyLook s t) (k : OnlyLook t u) : OnlyLook s u := Eq.trans k h

theorem OnlyCache.onlyLook {s t : State} (h : OnlyCache s t) : OnlyLook s t :=
  congrArg State.sansTlb h

/-- Whatever a state answers that those have no part in, stays. -/
theorem OnlyLook.same {α : Type} {s t : State} (h : OnlyLook s t) (f : State → α) (hf : ∀ u : State, f u.sansLook = f u) :
    f t = f s := by
  rw [← hf t, ← hf s, h]

theorem OnlyLook.foldl {α : Type} {f : State → α → State} (hf : ∀ t a, OnlyLook t (f t a)) (l : List α) (s : State) :
    OnlyLook s (l.foldl f s) := foldl_keeps (OnlyLook s) f (fun t a h => h.trans (hf t a)) l s (.refl s)

theorem State.walked_onlyCache (s : State) (ctx : BitVec 16) (va : Word) : OnlyCache s (s.walked ctx va) :=
  .foldl (fun t a => .ite ((t.logBad_onlyCache a 8 0).trans (State.sliceRead_onlyCache _ _)) (.refl t)) _ s

theorem State.cacheDeep_onlyLook (s : State) (e : TlbEntry) : OnlyLook s (s.cacheDeep e) := by
  unfold State.cacheDeep
  split
  · exact .refl s
  · exact rfl

theorem State.engineWalked_onlyLook (s : State) (ctx : BitVec 16) (va : Word) (kind : BitVec 3) :
    OnlyLook s (s.engineWalked ctx va kind) := by
  unfold State.engineWalked
  split
  · exact .refl s
  · exact (s.walked_onlyCache ctx va).onlyLook.trans (State.cacheDeep_onlyLook _ _)
  · exact (s.walked_onlyCache ctx va).onlyLook

theorem State.sawRead_onlyLook (s : State) (ctx : BitVec 16) (l : List Piece) : OnlyLook s (s.sawRead ctx l) := by
  unfold State.sawRead
  refine OnlyLook.foldl (fun t p => ?_) l s
  have hread := State.engineRead_onlyCache (t.engineWalked ctx p.va 6) (some (t.core.id / 80)) p
  exact (t.engineWalked_onlyLook ctx p.va 6).trans hread.onlyLook

/-! Bytes in memory and in the scratchpad. -/

/-- Lines that pass their check are not merged (R355). -/
theorem State.physWrite_mem_of_ok (s : State) (pa : Nat) (bs : List Byte) (key : BitVec 16)
    (h : s.badLine pa bs.length key = none) : (s.physWrite pa bs key).mem = memWrite s.mem (s.canon pa) bs := by
  unfold State.physWrite
  extract_lets a n lines s1 s2
  have hok : ∀ l ∈ lines, s.lineBad l key = false := by
    intro l hl
    by_cases hn : n = 0
    · simp [lines, hn] at hl
    · obtain ⟨i, hi, rfl⟩ := List.mem_map.1 hl
      rw [if_neg hn] at hi
      have hnone := List.findSome?_eq_none_iff.1 h i hi
      by_contra hbad
      rw [if_pos (by simpa using hbad)] at hnone
      exact nomatch hnone
  have h1 : s1 = s := by
    refine List.foldlRecOn lines _ (motive := fun t => t = s) rfl fun t ht l hl => ?_
    subst ht
    rw [State.mergeLine, hok l hl]
    rfl
  rw [foldl_mem _ (fun t l => t.touchLine_mem l key), show s2.mem = memWrite s1.mem a bs from rfl, h1]

theorem stored_of_mem (s t : State) (a : Nat) (bs : List Byte) (hc : s.canonical = true)
    (h : t.mem = memWrite s.mem a bs) : Claims.Stored s t a bs := by
  refine ⟨List.ext_getElem (by simp [Claims.bytesAt]) fun i hi hi' => ?_, fun x hx => ?_⟩
  · simp only [Claims.bytesAt, List.getElem_map, List.getElem_range, h]
    exact memGet_memWrite_same _ _ _ _ hi' hc
  · rw [h]
    exact memGet_memWrite_other _ _ _ _ hx hc

theorem Sparse.find_set_same {α : Type} (l : List (Nat × α)) (a : Nat) (x : α) :
    Sparse.find (Sparse.set l a x) a = some x := by
  induction l with
  | nil => simp [Sparse.set, Sparse.find]
  | cons p l ih =>
    obtain ⟨k, v⟩ := p
    simp only [Sparse.set]
    split_ifs with h1 h2
    · simp [Sparse.find, h1]
    · simp [Sparse.find]
    · simp [Sparse.find, h1, h2, ih]

theorem Sparse.find_set_other {α : Type} (l : List (Nat × α)) (a b : Nat) (x : α) (h : b ≠ a) :
    Sparse.find (Sparse.set l a x) b = Sparse.find l b := by
  induction l with
  | nil => simp [Sparse.set, Sparse.find, h]
  | cons p l ih =>
    obtain ⟨k, v⟩ := p
    simp only [Sparse.set]
    split_ifs with h1 h2
    · subst h1
      simp [Sparse.find, h]
    · rw [Sparse.find, if_neg h]
      split_ifs with h3
      · rw [Sparse.find, if_neg (by omega), if_pos (by omega)]
      · rfl
    · simp only [Sparse.find, ih]

theorem physRow_inj (half r q : Nat) (h : physRow half r = physRow half q) : r = q := by
  unfold physRow at h
  split at h <;> omega

/-- A core with one byte of its task's scratchpad written. -/
def Core.setSpByte (c : Core) (a : Nat) (v : Byte) : Core :=
  { c with rows := Sparse.set c.rows (physRow c.half (a / 64)) (setByte (c.row (a / 64)) (a % 64) v) }

theorem Core.spWrite_cons (c : Core) (a : Nat) (v : Byte) (bs : List Byte) :
    c.spWrite a (v :: bs) = (c.setSpByte a v).spWrite (a + 1) bs := rfl

theorem Core.row_setSpByte (c : Core) (a r : Nat) (v : Byte) : (c.setSpByte a v).row r =
    if r = a / 64 then setByte (c.row (a / 64)) (a % 64) v else c.row r := by
  have hrow (d : Core) (q : Nat) : d.row q = d.prow (physRow d.half q) := rfl
  rw [hrow, show (c.setSpByte a v).half = c.half from rfl]
  by_cases h : r = a / 64
  · rw [if_pos h, h, Core.prow, Core.setSpByte, Sparse.find_set_same]
  · rw [if_neg h, hrow, Core.prow, Core.prow, Core.setSpByte,
      Sparse.find_set_other _ _ _ _ fun hp => h (physRow_inj _ _ _ hp)]

theorem Core.spByte_setSpByte (c : Core) (a x : Nat) (v : Byte) :
    (c.setSpByte a v).spByte x = if x = a then v else c.spByte x := by
  rw [Core.spByte, Core.row_setSpByte]
  by_cases h : x = a
  · rw [if_pos h, h, if_pos rfl, setByte, fld, extractLsb'_setFld_same _ _ _ _ (by omega)]
    simp
  · rw [if_neg h]
    by_cases hrow : x / 64 = a / 64
    · rw [if_pos hrow, Core.spByte, hrow, setByte, fld, extractLsb'_setFld_disjoint _ _ _ _ _ _ (by omega) (by omega)]
      rfl
    · rw [if_neg hrow, Core.spByte]

theorem Core.spByte_spWrite_other (c : Core) (a x : Nat) (bs : List Byte) (hx : x < a ∨ a + bs.length ≤ x) :
    (c.spWrite a bs).spByte x = c.spByte x := by
  induction bs generalizing c a with
  | nil => rfl
  | cons v bs ih =>
    rw [List.length_cons] at hx
    rw [Core.spWrite_cons, ih _ _ (by omega), Core.spByte_setSpByte, if_neg (by omega)]

theorem Core.spByte_spWrite_same (c : Core) (a i : Nat) (bs : List Byte) (hi : i < bs.length) :
    (c.spWrite a bs).spByte (a + i) = bs[i] := by
  induction bs generalizing c a i with
  | nil => exact absurd hi (Nat.not_lt_zero i)
  | cons v bs ih =>
    rw [Core.spWrite_cons]
    cases i with
    | zero => rw [Core.spByte_spWrite_other _ _ _ _ (by omega), Core.spByte_setSpByte]; exact if_pos rfl
    | succ i =>
      rw [List.length_cons] at hi
      rw [show a + (i + 1) = a + 1 + i by omega, ih _ _ i (by omega)]
      rfl

theorem Core.spWrite_eq (c : Core) (a : Nat) (bs : List Byte) : ∃ rows, c.spWrite a bs = { c with rows := rows } := by
  induction bs generalizing c a with
  | nil => exact ⟨c.rows, rfl⟩
  | cons v bs ih =>
    obtain ⟨rows, h⟩ := ih (c.setSpByte a v) (a + 1)
    exact ⟨rows, h⟩

end Sys2Proof.Machine
end

section
/-! PROOFS. Copies: the words, and the steps of the copy queue (R34, R215 to R225, R253, R331). -/

namespace Sys2Proof.Machine

theorem exec_cpy (o : CpyOp) (s : State) : exec (.cpy o) s = copyInstr .cpy o s := rfl
theorem exec_cpyf (o : CpyOp) (s : State) : exec (.cpyf o) s = copyInstr .cpyf o s := rfl
theorem exec_cpyt (o : CpyOp) (s : State) : exec (.cpyt o) s = copyInstr .cpyt o s := rfl
theorem exec_seqrun (o : CpyOp) (s : State) : exec (.seqrun o) s = execSeqrun o s := rfl
theorem exec_copyComplete (s : State) : exec .copyComplete s = execCopyComplete s := rfl
theorem exec_copyEntryStart (s : State) : exec .copyEntryStart s = execCopyEntryStart s := rfl
theorem exec_copyFault (addr aux : Word) (s : State) : exec (.copyFault addr aux) s = execCopyFault addr aux s := rfl
theorem exec_seqrunComplete (num : Nat) (s : State) : exec (.seqrunComplete num) s = execSeqrunComplete num s := rfl

/-! The copy words at issue (R216, R223). -/

theorem copyCheck_none (kind : CopyKind) (a : Word) (u : State) (k : Task) (hk : u.core.task = some k)
    (hroom : u.core.cq.length < 64) (hrow : declared k (a.toNat / 64) = true)
    (hdesc : u.descOk k kind (u.core.row (a.toNat / 64)) = true) (htree : kind = .cpyt → u.reg Key.treebase ≠ 0) :
    copyCheck kind a u = none := by
  simp only [copyCheck, hk]
  rw [if_neg (Nat.not_le.2 hroom), if_neg (by simp [hrow, hdesc]), if_neg fun h => htree h.1 h.2]

/-- A copy word with a descriptor that passes, in the state of its checks. -/
theorem copyInstr_enqueues (kind : CopyKind) (o : CpyOp) (u : State) (hg : u.rdP o.h.g = true)
    (ha : o.h.a = false) (hc : copyCheck kind (u.rdS o.ra) u = none) : copyInstr kind o u = .next (u.onCore fun c =>
      { c with cq := c.cq ++ [{ pos := c.nextPos, num := c.cqNum, kind := kind,
                                desc := c.row ((u.rdS o.ra).toNat / 64), sig := if o.sen = true then some o.k else none,
                                wait := o.wait, arrive := none, after := c.nextId }],
               cqNext := c.nextPos + 1, cqNum := c.cqNum + 1 }) := by
  unfold copyInstr State.guard
  dsimp only
  rw [if_pos hg, hc, State.enqueueCopy, ha, State.abar_false]

theorem enqueues_of_copyInstr (mk : CpyOp → Instr) (kind : CopyKind) (h : ∀ o s, exec (mk o) s = copyInstr kind o s) :
    Claims.enqueues mk kind fun s _ => s := by
  rintro o s u k hg ha hk rfl hroom hrow hdesc htree
  rw [h]
  exact copyInstr_enqueues kind o u hg ha (copyCheck_none kind _ u k hk hroom hrow hdesc htree)

theorem enqueues_seqrun : Claims.enqueues .seqrun .seqrun fun s k =>
    s.agentLook (((s.reg Key.enlgt).extractLsb' 19 33).toNat * 524288 + 8 * k.context.toNat) 8 := by
  rintro o s u k hg ha hk hu hroom hrow hdesc -
  have hlook : OnlyCache s u := hu ▸ s.agentLook_onlyCache _ _
  have hS : u.rdS o.ra = s.rdS o.ra := hlook.same (fun v => v.rdS o.ra) fun _ => rfl
  have hP : u.rdP o.h.g = s.rdP o.h.g := hlook.same (fun v => v.rdP o.h.g) fun _ => rfl
  have htask : u.core.task = s.core.task := hlook.same (fun v => v.core.task) fun _ => rfl
  have hcq : u.core.cq = s.core.cq := hlook.same (fun v => v.core.cq) fun _ => rfl
  have hrows : u.core.row = s.core.row := hlook.same (fun v => v.core.row) fun _ => rfl
  have hexec : exec (.seqrun o) s = copyInstr .seqrun o u := by
    rw [exec_seqrun, execSeqrun, hu]
    simp only [hk, State.guard, hg, if_true]
    rfl
  rw [hexec, ← hS]
  refine copyInstr_enqueues .seqrun o u (hP.trans hg) ha (copyCheck_none _ _ u k (htask.trans hk) (hcq ▸ hroom)
    (hS ▸ hrow) ?_ fun h => nomatch h)
  rw [hS, hrows]
  exact hdesc

theorem copyIssue : Claims.CopyIssue :=
  ⟨enqueues_of_copyInstr _ _ exec_cpy, enqueues_of_copyInstr _ _ exec_cpyf, enqueues_of_copyInstr _ _ exec_cpyt,
    enqueues_seqrun⟩

/-! The start of an entry (R222, R224). -/

theorem copyStarts (s : State) (e : CopyEntry) (k : Task) (hq : s.core.cq = [e]) (hk : s.core.task = some k)
    (hdue : s.copyDue = true) (hphase : e.phase = .waiting) (hkind : e.kind = .cpy) (hdetm : s.core.r.detm = 0) : ∃ n,
    exec .copyEntryStart s = .next (s.onCore fun c =>
      { c with cq := [{ e with phase := .flying n, toMove := e.rows }], cqPast := max c.cqPast e.num,
               r := { c.r with tkval := tokDec c.r.tkval e.wait } }) := by
  have hfirst : s.core.firstCopy = some e := by simp [Core.firstCopy, hq, hphase]
  refine ⟨if e.len = 0 then 0 else max 1 (Config.copyTicks s.ctr), ?_⟩
  rw [exec_copyEntryStart, execCopyEntryStart]
  simp only [hfirst, hk, hdue, hkind, hdetm]
  simp [State.onEntry, State.onCore, State.onRegs, hq, hkind]

/-! The shared ports (R331). -/

theorem Core.portRoom_iff (c : Core) (b : Nat) : c.portRoom b = true ↔ c.port.count (b, 0) < 2 := by
  rw [Core.portRoom, decide_eq_true_eq, List.count_eq_length_filter]

theorem Core.serve_one (c : Core) (row : Nat) : c.serve [row] =
    if c.portRoom (rowBank row) = true then (c.takePort row, []) else (c, [row]) := by
  unfold Core.serve
  simp only [List.take, List.foldl_cons, List.foldl_nil]
  split <;> rfl

theorem Core.servePorts_one (c : Core) (e : CopyEntry) (row : Nat) (hq : c.cq = [e]) (hm : e.moves c = true)
    (htile : c.tileRows = []) (hpre : c.preloading = none) (hrow : e.toMove = [row]) : c.servePorts =
      if c.portRoom (rowBank row) = true then
        { c with port := c.port ++ [(rowBank row, 0)], cq := [{ e with toMove := [] }] }
      else c := by
  have hserve : c.serve c.tileRows = (c, []) := by
    rw [htile]
    rfl
  have htiles : ({ (c.serve c.tileRows).1 with tileRows := (c.serve c.tileRows).2 } : Core) = c := by
    rw [hserve]
    exact congrArg (fun r => ({ c with tileRows := r } : Core)) htile.symm
  have hfind : (c.serve c.tileRows).1.cq.find? (fun e => e.moves c) = some e := by rw [hserve, hq, List.find?_cons, hm]
  by_cases hroom : c.portRoom (rowBank row) = true
  · have hmove : c.serve e.toMove = (c.takePort row, []) := by rw [hrow, Core.serve_one, if_pos hroom]
    have hpre' : Core.preloading { c.takePort row with cq := [{ e with toMove := [] }] } = none := hpre
    have hmap : (c.takePort row).cq.map (fun x => if x.num = e.num then { x with toMove := [] } else x) =
        [{ e with toMove := [] }] := by simp [Core.takePort, hq]
    rw [if_pos hroom]
    unfold Core.servePorts
    dsimp only
    rw [htiles, hfind]
    dsimp only
    rw [hmove]
    dsimp only
    rw [hmap, hpre']
    rfl
  · have hmove : c.serve e.toMove = (c, [row]) := by rw [hrow, Core.serve_one, if_neg hroom]
    have hmap : c.cq.map (fun x => if x.num = e.num then { x with toMove := [row] } else x) = c.cq := by
      rw [hq, ← hrow]
      simp
    rw [if_neg hroom]
    unfold Core.servePorts
    dsimp only
    rw [htiles, hfind]
    dsimp only
    rw [hmove]
    dsimp only
    rw [hmap, hpre]

theorem copyPorts (s : State) (e : CopyEntry) (row : Nat) (hq : s.core.cq = [e]) (hphase : e.phase = .flying 0)
    (hlen : e.len ≠ 0) (hperf : s.core.unperformed e.after = false) (htile : s.core.tileRows = [])
    (hpre : s.core.preloading = none) (hrow : e.toMove = [row]) :
    (s.core.port.count (rowBank row, 0) < 2 → s.core.servePorts =
      { s.core with port := s.core.port ++ [(rowBank row, 0)], cq := [{ e with toMove := [] }] }) ∧
    (2 ≤ s.core.port.count (rowBank row, 0) → s.core.servePorts = s.core) := by
  have hm : e.moves s.core = true := by simp [CopyEntry.moves, hphase, hlen, hperf]
  have hports := s.core.servePorts_one e row hq hm htile hpre hrow
  exact ⟨fun h => hports.trans (if_pos ((Core.portRoom_iff _ _).2 h)),
    fun h => hports.trans (if_neg fun hr => absurd ((Core.portRoom_iff _ _).1 hr) (Nat.not_lt.2 h))⟩

/-! Faults, and a segment's end (R221, R225). -/

theorem State.raiseB_active (s : State) (t : Trap) (h : s.core.st = .active) :
    s.raiseB s.core.id t = s.onCore fun c => { c with pend := c.pend ++ [stamp s s.core t] } := by
  unfold State.raiseB
  dsimp only
  rw [s.coreAt_self, h, if_neg (by decide), if_neg (by decide), State.onCoreAt, if_pos rfl]
  rfl

theorem State.onEntry_one (s : State) (e : CopyEntry) (f : CopyEntry → CopyEntry) (hq : s.core.cq = [e]) :
    s.onEntry e.pos f = s.onCore fun c => { c with cq := [f e] } := by
  simp only [State.onEntry, State.onCore, hq, List.map_cons, List.map_nil, if_true]

/-- A state whose one copy entry has stopped with a fault, and what was brought for it forgotten (R225). -/
def State.faultEntry (s : State) (e : CopyEntry) (x : Trap) : State :=
  (s.onCore fun c => c.forget e.num).onCore fun c => { c with cq := [{ e with phase := .faulted x }] }

theorem copyFaults (s : State) (e : CopyEntry) (n : Nat) (addr aux : Word) (hq : s.core.cq = [e])
    (hphase : e.phase = .flying n) (hsig : e.sig = none) (hst : s.core.st = .active) :
    ∃ t x, exec (.copyFault addr aux) s = .next t ∧ t.core.cq = [{ e with phase := .faulted x }] ∧
      t.core.pend = s.core.pend ++ [x] ∧ x.cause = 0x0D ∧ x.addr = addr ∧ x.aux = aux ∧
      x.entry = some (false, e.pos) ∧ Claims.SameMemory s t := by
  have hexec : exec (.copyFault addr aux) s = .next (s.holdFault e addr aux) := by
    rw [exec_copyFault]
    unfold execCopyFault
    rw [hq, List.find?_cons_of_pos (by simp only [hphase])]
  let x := stamp s s.core { cause := 0x0D, addr := addr, aux := aux, entry := some (false, e.pos) }
  have hhold : s.holdFault e addr aux = (s.faultEntry e x).onCore fun c => { c with pend := c.pend ++ [x] } := by
    have hcq : (s.onCore fun c => c.forget e.num).core.cq = [e] := hq
    have hdrain : ¬s.core.st = .draining := by
      rw [hst]
      decide
    have hsen : ¬e.sig.isSome = true := by simp [hsig]
    unfold State.holdFault
    dsimp only
    rw [State.onEntry_one _ e _ hcq]
    exact ((if_neg hdrain).trans (if_neg hsen)).trans (State.raiseB_active (s.faultEntry e x) x hst)
  refine ⟨_, x, hexec, ?_⟩
  rw [hhold]
  exact ⟨rfl, rfl, rfl, rfl, rfl, rfl, fun _ => rfl⟩

theorem seqrunCompletes (s : State) (e : CopyEntry) (hq : s.core.cq = [e]) (hphase : e.phase = .held) :
    exec (.seqrunComplete e.num) s = .next (s.onCore fun c => { c with cq := [{ e with phase := .landed }] }) := by
  rw [exec_seqrunComplete]
  unfold execSeqrunComplete
  rw [hq, List.find?_cons_of_pos (by simp [hphase])]
  dsimp only
  rw [s.onEntry_one e _ hq]

/-! The end of a copy (R218, R223). -/

/-- The state in which the copy engine turns to its one entry: no word's token is left to signal (R34, R348). -/
def State.turnTo (s : State) (e : CopyEntry) : State :=
  s.onCore fun c => { c with wordSigs := [], cqPast := max c.cqPast e.num }

theorem State.wordTokens_none (s : State) (p : Option (BitVec 6)) (h : s.core.wordSigs = []) :
    s.wordTokens p = s.onCore fun c => { c with wordSigs := [] } := by
  simp [State.wordTokens, State.onCore, h]

theorem CopyEntry.ready_turnTo (s : State) (e : CopyEntry) : e.ready (s.turnTo e).core = e.ready s.core := rfl

/-- What the engine does with an entry whose turn has come. -/
def State.copyTurn (s : State) (t : Task) (e : CopyEntry) : State :=
  match e.phase with
  | .landed => s.finishEntry e
  | .sending m a => if m = 0 then s.finishEntry e else s.holdFault e a (BitVec.ofNat 64 m)
  | _ =>
    if e.len = 0 then s.finishEntry e
    else
      let parts := (s.copyParts t e e.lines).1
      let ask := s.toFetch e.num parts
      if ask.isEmpty then s.moveCopy t e parts
      else (s.askFor e.num ask).onEntry e.pos fun x => { x with phase := .asking }

theorem exec_copyComplete_one (s : State) (e : CopyEntry) (k : Task) (hq : s.core.cq = [e])
    (hk : s.core.task = some k) (hw : s.core.wordSigs = []) (hr : e.ready s.core = true) :
    exec .copyComplete s = .next ((s.turnTo e).copyTurn k e) := by
  have hfirst : s.core.cq.find? (fun e => e.due s.core) = some e := by simp [hq, CopyEntry.due, hr]
  have hturn : (s.wordTokens (some e.pos)).onCore (fun c => { c with cqPast := max c.cqPast e.num }) = s.turnTo e := by
    rw [State.wordTokens_none s _ hw]
    rfl
  rw [exec_copyComplete]
  unfold execCopyComplete
  rw [hfirst]
  simp only [Option.map_some, Option.getD_some, hturn, Option.filter_some, e.ready_turnTo, hr, if_true]
  rw [show (s.turnTo e).core.task = some k from hk]
  rfl

/-- The one entry of a core's queue, the next of its timeline, has left it (R223). -/
def State.entryDone (s : State) (e : CopyEntry) : State := s.onCore fun c =>
  { c with cq := [], ctl := e.num, cqDone := [], fetched := c.fetched.filter fun f => f.into != e.num }

theorem Core.finishCopy_next (c : Core) (num : Nat) (hdone : c.cqDone = []) (hnum : num = c.ctl + 1) :
    c.finishCopy num = { c with ctl := num, cqDone := [] } := by
  subst hnum
  simp [Core.finishCopy, hdone, List.range_succ]

theorem State.finishEntry_last (s : State) (e : CopyEntry) (hq : s.core.cq = [e]) (harr : e.arrive = none)
    (hsig : e.sig = none) (hdone : s.core.cqDone = []) (hnum : e.num = s.core.ctl + 1) :
    s.finishEntry e = s.entryDone e := by
  have hleft : s.core.cq.filter (fun x => x.num != e.num) = [] := by simp [hq]
  have hcore := Core.finishCopy_next { s.core with cq := [] } e.num hdone hnum
  unfold State.finishEntry
  simp only [harr, hsig, State.onCore, hleft, hcore]
  rfl

/-- What the completion of a queue's one entry needs of the state beside the entry's phase. -/
structure LastEntry (s : State) (e : CopyEntry) (k : Task) : Prop where
  queue : s.core.cq = [e]
  task : s.core.task = some k
  arrive : e.arrive = none
  sig : e.sig = none
  done : s.core.cqDone = []
  words : s.core.wordSigs = []
  num : e.num = s.core.ctl + 1

theorem copyComplete_landed (s : State) (e : CopyEntry) (k : Task) (h : LastEntry s e k) (hphase : e.phase = .landed) :
    exec .copyComplete s = .next ((s.turnTo e).entryDone e) := by
  have hr : e.ready s.core = true := by simp [CopyEntry.ready, hphase]
  rw [exec_copyComplete_one s e k h.queue h.task h.words hr, State.copyTurn]
  simp only [hphase]
  rw [State.finishEntry_last (s.turnTo e) e h.queue h.arrive h.sig h.done h.num]

theorem copyComplete_empty (s : State) (e : CopyEntry) (k : Task) (h : LastEntry s e k) (hphase : e.phase = .flying 0)
    (hlen : e.len = 0) : exec .copyComplete s = .next ((s.turnTo e).entryDone e) := by
  have hr : e.ready s.core = true := by simp [CopyEntry.ready, hphase, hlen]
  rw [exec_copyComplete_one s e k h.queue h.task h.words hr, State.copyTurn]
  simp only [hphase, hlen, if_true]
  rw [State.finishEntry_last (s.turnTo e) e h.queue h.arrive h.sig h.done h.num]

/-- An entry that moves its bytes: the accesses before it performed, its rows served, nothing of it awaited, one line. -/
structure Moving (s : State) (e : CopyEntry) : Prop where
  phase : e.phase = .flying 0
  kind : e.kind = .cpy
  len : e.len ≠ 0
  nl : e.nl = 0
  performed : s.core.unperformed e.after = false
  served : e.toMove = []
  answered : ∀ r ∈ s.core.remotes, r.into ≠ some e.num

theorem CopyEntry.srcLine_zero (e : CopyEntry) : e.srcLine 0 = e.src := by simp [CopyEntry.srcLine]
theorem CopyEntry.dstLine_zero (e : CopyEntry) : e.dstLine 0 = e.dst := by simp [CopyEntry.dstLine]

/-- What the end of a copy's move depends on, and the registers. -/
def State.copyView (s : State) : List CopyEntry × List Nat × Nat × List Remote × Regs :=
  (s.core.cq, s.core.cqDone, s.core.ctl, s.core.remotes, s.core.r)

/-- A copy whose line `bs` is read from parts that are here, and written to `t` without a trap, completes in `t`. -/
theorem copyComplete_moves (s t : State) (e : CopyEntry) (k : Task) (bs : List Byte) (parts : List Piece)
    (h : LastEntry s e k) (hm : Moving s e)
    (hparts : ((s.turnTo e).copyParts k e 1).1 = parts) (hhere : (s.turnTo e).toFetch e.num parts = [])
    (hsrc : (s.turnTo e).copySource k e 1 = ([bs], none))
    (hdst : ((s.turnTo e).sawRead k.context parts).copyLines k e parts 0 [bs] = (t, none))
    (hview : t.copyView = s.copyView) : exec .copyComplete s = .next (t.entryDone e) := by
  have hcq : t.core.cq = s.core.cq := congrArg (fun v => v.1) hview
  have hdone : t.core.cqDone = s.core.cqDone := congrArg (fun v => v.2.1) hview
  have hctl : t.core.ctl = s.core.ctl := congrArg (fun v => v.2.2.1) hview
  have hrem : t.core.remotes = s.core.remotes := congrArg (fun v => v.2.2.2.1) hview
  have hmoves : e.moves s.core = true := by simp [CopyEntry.moves, hm.phase, hm.len, hm.performed]
  have hr : e.ready s.core = true := by simp [CopyEntry.ready, hm.phase, hmoves, hm.served]
  have hlines : e.lines = 1 := by simp [CopyEntry.lines, hm.len, hm.nl]
  have hawaits : t.core.awaits e.num = false := by
    rw [Core.awaits, hrem, List.any_eq_false]
    intro r hmem
    simpa using hm.answered r hmem
  rw [exec_copyComplete_one s e k h.queue h.task h.words hr, State.copyTurn]
  simp only [hm.phase, if_neg hm.len, hlines, hparts, hhere, List.isEmpty_nil, if_true]
  unfold State.moveCopy
  simp only [hm.kind, hlines, hsrc, hdst, Option.or_none, hawaits, Bool.false_eq_true, if_false, if_true]
  rw [State.finishEntry_last t e (hcq.trans h.queue) h.arrive h.sig (hdone.trans h.done) (h.num.trans (by rw [hctl]))]

/-! To the scratchpad. -/

theorem State.turnTo_sameXlate (s : State) (e : CopyEntry) : SameXlate s (s.turnTo e) := ⟨rfl, rfl, rfl, rfl, rfl⟩

theorem State.copyParts_one_memory (s : State) (k : Task) (e : CopyEntry) (hsk : e.sk = false) :
    s.copyParts k e 1 = s.vparts k.context k.keyid 6 e.src e.len := by
  simp [State.copyParts, hsk, e.srcLine_zero]

theorem State.copySource_one_memory (s : State) (k : Task) (e : CopyEntry) (bs : List Byte) (hsk : e.sk = false)
    (h : s.vread k.context k.keyid e.num e.src e.len = (bs, none)) : s.copySource k e 1 = ([bs], none) := by
  simp [State.copySource, hsk, e.srcLine_zero, h]

theorem State.toFetch_of_hbm (s : State) (into : Nat) (l : List Piece) (h : ∀ p ∈ l, s.physKind p.pa = .hbm) :
    s.toFetch into l = [] := by
  refine List.filter_eq_nil_iff.2 fun p hp => ?_
  simp [State.peerAt, h p hp]

theorem State.blurRows_of_memory (s : State) (e : CopyEntry) (a : Word) (bs : List Byte) (hsk : e.sk = false) :
    s.blurRows e a bs = bs := by
  simp only [State.blurRows, hsk, Bool.false_and, Bool.false_eq_true, if_false]
  exact List.zipIdx_map_fst 0 bs

theorem State.copyLines_one_rows (s : State) (k : Task) (e : CopyEntry) (src : List Piece) (bs : List Byte)
    (hdk : e.dk = true) (hsk : e.sk = false) : s.copyLines k e src 0 [bs] =
      (s.onCore fun c => c.spStore e.sig.isSome e.dst.toNat bs, none) := by
  simp only [State.copyLines, hdk, if_true, e.dstLine_zero, s.blurRows_of_memory e e.dst bs hsk]

theorem Core.spStore_eq (c : Core) (signals : Bool) (a : Nat) (bs : List Byte) : ∃ bad was,
    c.spStore signals a bs = { c.spWrite a bs with badWords := bad, rowsWas := was } := ⟨_, _, rfl⟩

/-- A state in which the copy of an entry has stored its bytes in the scratchpad. -/
def State.storeRows (s : State) (e : CopyEntry) (bs : List Byte) : State :=
  s.onCore fun c => c.spStore e.sig.isSome e.dst.toNat bs

theorem State.storeRows_copyView (s : State) (e : CopyEntry) (bs : List Byte) :
    (s.storeRows e bs).copyView = s.copyView := by
  obtain ⟨bad, was, h⟩ := s.core.spStore_eq e.sig.isSome e.dst.toNat bs
  obtain ⟨rows, hrows⟩ := s.core.spWrite_eq e.dst.toNat bs
  have hcore : (s.storeRows e bs).core = { s.core with rows := rows, badWords := bad, rowsWas := was } := by
    rw [show (s.storeRows e bs).core = s.core.spStore e.sig.isSome e.dst.toNat bs from rfl, h, hrows]
  rw [State.copyView, hcore]
  rfl

theorem State.storeRows_mem (s : State) (e : CopyEntry) (bs : List Byte) : (s.storeRows e bs).mem = s.mem := rfl

theorem State.entryDone_frame (s : State) (e : CopyEntry) : (s.entryDone e).core.cq = [] ∧
    (s.entryDone e).core.ctl = e.num ∧ (s.entryDone e).core.r = s.core.r ∧ (s.entryDone e).core.rows = s.core.rows ∧
    (s.entryDone e).mem = s.mem := ⟨rfl, rfl, rfl, rfl, rfl⟩

theorem State.entryDone_spByte (s : State) (e : CopyEntry) (a : Nat) :
    (s.entryDone e).core.spByte a = s.core.spByte a := rfl

theorem State.storeRows_spByte (s : State) (e : CopyEntry) (bs : List Byte) (a : Nat) :
    (s.storeRows e bs).core.spByte a = (s.core.spWrite e.dst.toNat bs).spByte a := rfl

theorem State.turnTo_copyView (s : State) (e : CopyEntry) : (s.turnTo e).copyView = s.copyView := rfl

theorem State.entryDone_r (s t : State) (e : CopyEntry) (h : t.copyView = s.copyView) : (t.entryDone e).core.r = s.core.r :=
  congrArg (fun v => v.2.2.2.2) h

theorem OnlyLook.copyView {s u : State} (h : OnlyLook s u) : u.copyView = s.copyView := h.same State.copyView fun _ => rfl

theorem OnlyLook.spByte {s u : State} (h : OnlyLook s u) (a : Nat) : u.core.spByte a = s.core.spByte a :=
  h.same (fun v => v.core.spByte a) fun _ => rfl

theorem copyToRows (s : State) (e : CopyEntry) (k : Task) (bs : List Byte) (h : LastEntry s e k) (hm : Moving s e)
    (hsk : e.sk = false) (hdk : e.dk = true)
    (hhbm : ∀ p ∈ (s.vparts k.context k.keyid 6 e.src e.len).1, s.physKind p.pa = .hbm)
    (hread : s.vread k.context k.keyid e.num e.src e.len = (bs, none)) : ∃ u, OnlyLook (s.turnTo e) u ∧
    exec .copyComplete s = .next ((u.storeRows e bs).entryDone e) := by
  have hsame := s.turnTo_sameXlate e
  have hlook := (s.turnTo e).sawRead_onlyLook k.context (s.vparts k.context k.keyid 6 e.src e.len).1
  generalize hu : (s.turnTo e).sawRead k.context (s.vparts k.context k.keyid 6 e.src e.len).1 = u at hlook
  have hparts : ((s.turnTo e).copyParts k e 1).1 = (s.vparts k.context k.keyid 6 e.src e.len).1 := by
    rw [State.copyParts_one_memory _ _ _ hsk, s.vparts_of_sameXlate _ hsame]
  have hhere := (s.turnTo e).toFetch_of_hbm e.num _ fun p hp => (State.physKind_of_regs s _ rfl p.pa).trans (hhbm p hp)
  have hsrc := (s.turnTo e).copySource_one_memory k e bs hsk ((s.vread_of_sameXlate _ hsame rfl _ _ _ _ _).trans hread)
  have hdst : ((s.turnTo e).sawRead k.context (s.vparts k.context k.keyid 6 e.src e.len).1).copyLines k e
      (s.vparts k.context k.keyid 6 e.src e.len).1 0 [bs] = (u.storeRows e bs, none) := by
    rw [hu]
    exact u.copyLines_one_rows k e _ bs hdk hsk
  exact ⟨u, hlook, copyComplete_moves s (u.storeRows e bs) e k bs _ h hm hparts hhere hsrc hdst
    ((u.storeRows_copyView e bs).trans (hlook.copyView.trans (s.turnTo_copyView e)))⟩

theorem State.storeRows_spec (s u : State) (e : CopyEntry) (bs : List Byte) (h : OnlyLook (s.turnTo e) u) :
    (∀ (i : Nat) (h : i < bs.length), ((u.storeRows e bs).entryDone e).core.spByte (e.dst.toNat + i) = bs[i]) ∧
    (∀ a, (a < e.dst.toNat ∨ e.dst.toNat + bs.length ≤ a) →
      ((u.storeRows e bs).entryDone e).core.spByte a = s.core.spByte a) ∧
    ((u.storeRows e bs).entryDone e).core.r = s.core.r ∧ Claims.SameMemory s ((u.storeRows e bs).entryDone e) := by
  have hview := (u.storeRows_copyView e bs).trans (h.copyView.trans (s.turnTo_copyView e))
  have hmem : u.mem = s.mem := h.same State.mem fun _ => rfl
  refine ⟨fun i hi => ?_, fun a ha => ?_, s.entryDone_r _ e hview, fun a => congrArg (fun m => memGet m a) hmem⟩
  · rw [State.entryDone_spByte, State.storeRows_spByte, Core.spByte_spWrite_same _ _ _ _ hi]
  · rw [State.entryDone_spByte, State.storeRows_spByte, Core.spByte_spWrite_other _ _ _ _ ha, h.spByte]
    rfl

/-! To memory. -/

theorem State.copyParts_one_rows (s : State) (k : Task) (e : CopyEntry) (hsk : e.sk = true) :
    s.copyParts k e 1 = ([], none) := by
  simp [State.copyParts, hsk]

theorem Core.byteBad_of_rowBad (c : Core) (a : Nat) (h : c.rowBad (a / 64) = false) : c.byteBad a = false := by
  by_contra hbad
  have hmem : 8 * physRow c.half (a / 64) + a % 64 / 8 ∈ c.badWords := by simpa [Core.byteBad] using hbad
  have hrow := List.any_eq_false.1 h _ hmem
  exact hrow (by rw [beq_iff_eq]; omega)

theorem Core.spRead_of_clean (c : Core) (a n : Nat) (h : ∀ i, i < n → c.rowBad ((a + i) / 64) = false) :
    c.spRead a n = ((List.range n).map fun i => c.spByte (a + i), none) := by
  have hnone : (List.range n).find? (fun i => c.byteBad (a + i)) = none := by
    refine List.find?_eq_none.2 fun i hi => ?_
    rw [c.byteBad_of_rowBad _ (h i (List.mem_range.1 hi))]
    decide
  rw [Core.spRead, hnone]

theorem State.copySource_one_rows (s : State) (k : Task) (e : CopyEntry) (hsk : e.sk = true)
    (h : ∀ i, i < e.len → s.core.rowBad ((e.src.toNat + i) / 64) = false) :
    s.copySource k e 1 = ([(List.range e.len).map fun i => s.core.spByte (e.src.toNat + i)], none) := by
  simp [State.copySource, hsk, e.srcLine_zero, s.core.spRead_of_clean _ _ h]

/-- Bytes that a leaf's part holds whole are one part (R218). -/
theorem State.vparts_one (s : State) (ctx keyid : BitVec 16) (kind : BitVec 3) (va : Word) (n pa size : Nat) (leaf : Word)
    (hn : n ≠ 0) (h : s.engineXlate ctx va kind = .ok (pa, leaf, size)) (hfit : va.toNat % size + n ≤ size) :
    s.vparts ctx keyid kind va n = ([mkPiece va pa n leaf keyid], none) := by
  have hmin : min n (size - va.toNat % size) = n := by omega
  rw [State.vparts, show n / 65536 + 2 = n / 65536 + 1 + 1 from rfl, partsBy, if_neg hn, h]
  simp only [hmin, Nat.sub_self, partsBy, if_true]

theorem State.blurParts_of_rows (s : State) (p : Piece) (bs : List Byte) (hn : p.n = bs.length) :
    s.blurParts [] [p] bs = bs := by
  simp [State.blurParts, hn]

/-- A state in which the copy engine has written a part's bytes. -/
def State.writePiece (s : State) (ctx : BitVec 16) (p : Piece) (bs : List Byte) : State :=
  ((s.engineWalked ctx p.va 7).physWrite p.pa bs p.key).engineWrote (some ((s.engineWalked ctx p.va 7).core.id / 80)) p

theorem State.copyLines_one_memory (s : State) (k : Task) (e : CopyEntry) (bs : List Byte) (p : Piece)
    (hdk : e.dk = false) (hp : s.vparts k.context k.keyid 7 e.dst bs.length = ([p], none)) (hn : p.n = bs.length)
    (hhbm : s.physKind p.pa = .hbm) : s.copyLines k e [] 0 [bs] = (s.writePiece k.context p bs, none) := by
  have hpeer : s.peerAt p.pa = none := by simp [State.peerAt, hhbm]
  simp only [State.copyLines, hdk, Bool.false_eq_true, if_false, e.dstLine_zero, hp, s.blurParts_of_rows p bs hn,
    State.writePieces, hpeer, hn, List.take_length]
  rfl

theorem State.physWrite_copyView (s : State) (pa : Nat) (bs : List Byte) (key : BitVec 16) :
    (s.physWrite pa bs key).copyView = s.copyView ∧ (s.physWrite pa bs key).core.rows = s.core.rows := by
  obtain ⟨l, hl⟩ := (s.physWrite_onlyMemory pa bs key).onlyL1
  rw [State.copyView, hl]
  exact ⟨rfl, rfl⟩

theorem OnlyLook.rows {s u : State} (h : OnlyLook s u) : u.core.rows = s.core.rows :=
  h.same (fun v => v.core.rows) fun _ => rfl

theorem State.writePiece_copyView (s : State) (ctx : BitVec 16) (p : Piece) (bs : List Byte) :
    (s.writePiece ctx p bs).copyView = s.copyView ∧ (s.writePiece ctx p bs).core.rows = s.core.rows := by
  have hwalk := s.engineWalked_onlyLook ctx p.va 7
  obtain ⟨hview, hrows⟩ := (s.engineWalked ctx p.va 7).physWrite_copyView p.pa bs p.key
  have hwrote : OnlyLook _ (s.writePiece ctx p bs) := (State.engineWrote_onlyCache _ _ _).onlyLook
  exact ⟨hwrote.copyView.trans (hview.trans hwalk.copyView), hwrote.rows.trans (hrows.trans hwalk.rows)⟩

theorem State.writePiece_mem (s : State) (ctx : BitVec 16) (p : Piece) (bs : List Byte)
    (h : s.badLine p.pa bs.length p.key = none) : (s.writePiece ctx p bs).mem = memWrite s.mem (s.canon p.pa) bs := by
  have hwalk := s.engineWalked_onlyLook ctx p.va 7
  have hview : (s.engineWalked ctx p.va 7).memView = s.memView := hwalk.same State.memView fun _ => rfl
  have hregs : (s.engineWalked ctx p.va 7).regs = s.regs := hwalk.same State.regs fun _ => rfl
  have hmem : (s.engineWalked ctx p.va 7).mem = s.mem := hwalk.same State.mem fun _ => rfl
  rw [State.writePiece, (State.engineWrote_onlyCache _ _ _).mem,
    State.physWrite_mem_of_ok _ _ _ _ ((s.badLine_of_memView _ hview _ _ _).trans h), hmem, s.canon_of_regs _ hregs]

theorem copyToMemory (s : State) (e : CopyEntry) (k : Task) (bs : List Byte) (pa : Nat) (leaf : Word) (size : Nat)
    (h : LastEntry s e k) (hm : Moving s e) (hlen : bs.length = e.len) (hsk : e.sk = true) (hdk : e.dk = false)
    (hclean : ∀ i, i < e.len → s.core.rowBad ((e.src.toNat + i) / 64) = false)
    (hbs : bs = (List.range e.len).map fun i => s.core.spByte (e.src.toNat + i))
    (hx : s.engineXlate k.context e.dst 7 = .ok (pa, leaf, size)) (hfit : e.dst.toNat % size + e.len ≤ size)
    (hhbm : s.physKind pa = .hbm) : exec .copyComplete s =
      .next (((s.turnTo e).writePiece k.context (mkPiece e.dst pa bs.length leaf k.keyid) bs).entryDone e) := by
  have hsame := s.turnTo_sameXlate e
  have hparts : ((s.turnTo e).copyParts k e 1).1 = [] := by rw [State.copyParts_one_rows _ _ _ hsk]
  have hsrc : (s.turnTo e).copySource k e 1 = ([bs], none) := by
    rw [hbs]
    exact (s.turnTo e).copySource_one_rows k e hsk hclean
  have hone := (s.turnTo e).vparts_one k.context k.keyid 7 e.dst bs.length pa size leaf (hlen ▸ hm.len)
    ((s.engineXlate_of_sameXlate _ hsame _ _ _).trans hx) (hlen ▸ hfit)
  have hdst := (s.turnTo e).copyLines_one_memory k e bs _ hdk hone rfl ((State.physKind_of_regs s _ rfl pa).trans hhbm)
  exact copyComplete_moves s _ e k bs [] h hm hparts rfl hsrc hdst
    ((State.writePiece_copyView _ _ _ _).1.trans (s.turnTo_copyView e))

theorem State.writePiece_spec (s : State) (e : CopyEntry) (ctx : BitVec 16) (p : Piece) (bs : List Byte)
    (hok : s.badLine p.pa bs.length p.key = none) (hc : s.canonical = true) :
    Claims.Stored s (((s.turnTo e).writePiece ctx p bs).entryDone e) (s.canon p.pa) bs ∧
      (((s.turnTo e).writePiece ctx p bs).entryDone e).core.rows = s.core.rows ∧
      (((s.turnTo e).writePiece ctx p bs).entryDone e).core.r = s.core.r := by
  obtain ⟨hview, hrows⟩ := (s.turnTo e).writePiece_copyView ctx p bs
  have hbad : (s.turnTo e).badLine p.pa bs.length p.key = none := (State.badLine_of_memView s _ rfl _ _ _).trans hok
  have hmem := (s.turnTo e).writePiece_mem ctx p bs hbad
  rw [State.canon_of_regs s (s.turnTo e) rfl] at hmem
  exact ⟨stored_of_mem s _ _ bs hc hmem, hrows, s.entryDone_r _ e (hview.trans (s.turnTo_copyView e))⟩

theorem copyQueueSteps : Claims.CopyQueueSteps := by
  intro s e k hq hk
  refine ⟨fun hdue hphase hkind hdetm => copyStarts s e k hq hk hdue hphase hkind hdetm,
    fun row hphase hlen hperf htile hpre hrow => copyPorts s e row hq hphase hlen hperf htile hpre hrow, ?_, ?_,
    fun n addr aux hphase hsig hst => copyFaults s e n addr aux hq hphase hsig hst,
    fun hphase => seqrunCompletes s e hq hphase, ?_⟩
  case refine_1 =>
    intro hphase _ hlen harr hsig hdone hw hnum
    exact ⟨_, copyComplete_empty s e k ⟨hq, hk, harr, hsig, hdone, hw, hnum⟩ hphase hlen, rfl, rfl, rfl, fun _ => rfl⟩
  case refine_2 =>
    intro bs hphase hkind hlen hnl harr hsig hdone hw hnum hbs hperf hmove hrem
    have hlast : LastEntry s e k := ⟨hq, hk, harr, hsig, hdone, hw, hnum⟩
    have hmoving : Moving s e := ⟨hphase, hkind, hlen, hnl, hperf, hmove, hrem⟩
    constructor
    · intro hsk hdk hhbm hread
      obtain ⟨u, hlook, hexec⟩ := copyToRows s e k bs hlast hmoving hsk hdk hhbm hread
      exact ⟨_, hexec, rfl, rfl, State.storeRows_spec s u e bs hlook⟩
    · intro pa leaf size hsk hdk hclean hbytes hx hfit hkind' hok hcanon
      exact ⟨_, copyToMemory s e k bs pa leaf size hlast hmoving hbs hsk hdk hclean hbytes hx hfit hkind', rfl, rfl,
        State.writePiece_spec s e k.context (mkPiece e.dst pa bs.length leaf k.keyid) bs (hbs ▸ hok) hcanon⟩
  case refine_3 =>
    intro hphase harr hsig hdone hw hnum
    exact ⟨_, copyComplete_landed s e k ⟨hq, hk, harr, hsig, hdone, hw, hnum⟩ hphase, rfl, rfl, rfl, fun _ => rfl⟩

/-- Settles O31: the words by the checks of their descriptors; the queue's steps by the turn of its one entry, whose move is
followed from the source's parts to the rows or the line of memory that it writes. -/
theorem copies : Obligations.Copies := ⟨copyIssue, copyQueueSteps⟩

end Sys2Proof.Machine
end

section
/-! PROOFS. Retirement and cancellation (R46, R282, R288, R295, R296, R301, R318). -/

namespace Sys2Proof.Machine

theorem exec_taskRetire (s : State) : exec .taskRetire s = execTaskRetire s := rfl
theorem exec_cancel (wr : Writer) (v : Word) (s : State) : exec (.cancel wr v) s = .next (s.cancel wr v) := rfl
theorem exec_cancelAtDie (die : Nat) (n : BitVec 32) (s : State) :
    exec (.cancelAtDie die n) s = execCancelAtDie die n s := rfl

/-! Launches of a state (R277). -/

theorem State.launch_serial {s : State} {n : BitVec 32} {l : Launch} (h : s.launch n = some l) : l.serial = n :=
  beq_iff_eq.1 (List.find?_some (p := fun l : Launch => l.serial == n) h)

theorem State.launch_congr {s t : State} (h : t.launches = s.launches) (n : BitVec 32) : t.launch n = s.launch n := by
  rw [State.launch, State.launch, h]

theorem State.launch_onLaunch_self (s : State) (n : BitVec 32) (f : Launch → Launch) (l : Launch)
    (h : s.launch n = some l) (hf : ∀ l, (f l).serial = l.serial) : (s.onLaunch n f).launch n = some (f l) := by
  have hsame : ((fun l : Launch => l.serial == n) ∘ fun l => if l.serial = n then f l else l) = fun l => l.serial == n := by
    funext m
    simp only [Function.comp_apply]
    split <;> simp [hf]
  have hl : s.launches.find? (fun l => l.serial == n) = some l := h
  rw [State.launch, State.onLaunch, List.find?_map, hsame, hl, Option.map_some, if_pos (State.launch_serial h)]

/-! A launch ends (R288). -/

theorem State.putRq_noTable (s : State) (n k : Nat) (next ackt : BitVec 32) (st : Nat) (h : s.reg Key.rqbase = 0) :
    s.putRq n k next ackt st = s := by
  rw [State.putRq, if_pos h]

theorem State.freeKept_noTable (s : State) (l : Launch) (h : s.reg Key.rqbase = 0) : s.freeKept l = s :=
  foldl_keeps (fun t => t = s) _ (fun t x ht => by rw [ht, s.putRq_noTable _ _ _ _ _ h]) l.rqKept s rfl

theorem State.freeKept_nil (s : State) (l : Launch) (h : l.rqKept = []) : s.freeKept l = s := by
  rw [State.freeKept, h, List.foldl_nil]

theorem State.writeRecord_none (s : State) (l : Launch) (rej : Option (Nat × Nat)) (h : l.f 0x60 8 = 0) :
    s.writeRecord l rej = s := by
  simp [State.writeRecord, h]

theorem State.raiseTimeline_eq (s : State) (t v : Nat) : ∃ x, s.raiseTimeline t v = { s with timelines := x } := by
  unfold State.raiseTimeline
  split
  · exact ⟨_, rfl⟩
  · exact ⟨s.timelines, rfl⟩

theorem State.msix_eq (s : State) (p v : Nat) : s.send (.msix p v) = { s with outbox := s.outbox ++ [.msix p v] } := rfl

/-- A launch without a completion record leaves the module's launches, the cores and memory as they are. -/
theorem State.complete_frame (s : State) (l : Launch) (rej : Option (Nat × Nat)) (hrec : l.f 0x60 8 = 0)
    (hrq : s.reg Key.rqbase = 0 ∨ l.rqKept = []) : (s.complete l rej).core = s.core ∧ (s.complete l rej).mem = s.mem ∧
      (s.complete l rej).launches = s.launches.filter fun x => x.serial != l.serial := by
  unfold State.complete
  extract_lets s1 s2 s3 s4
  have h2 : s2 = s1 := by
    have hkept : s1.freeKept l = s1 := hrq.elim (s1.freeKept_noTable l) (s1.freeKept_nil l)
    exact (State.writeRecord_none _ l rej hrec).trans hkept
  have h3 : ∃ x, s3 = { s1 with timelines := x } := by
    simp only [s3, h2]
    split
    · exact s1.raiseTimeline_eq _ _
    · exact ⟨s1.timelines, rfl⟩
  obtain ⟨x, h3⟩ := h3
  have h4 : ∃ o, s4 = { s1 with timelines := x, outbox := o } := by
    simp only [s4, h3, State.msix_eq]
    split
    · exact ⟨_, rfl⟩
    · exact ⟨s1.outbox, rfl⟩
  obtain ⟨o, h4⟩ := h4
  rw [h4]
  exact ⟨rfl, rfl, rfl⟩

theorem State.completeIfEnded_live (s : State) (n : BitVec 32) (l : Launch) (h : s.launch n = some l) (hl : l.live ≠ []) :
    s.completeIfEnded n = s := by
  simp [State.completeIfEnded, h, Launch.ended, hl]

theorem State.completeIfEnded_ended (s : State) (n : BitVec 32) (l : Launch) (h : s.launch n = some l)
    (hl : l.ended = true) : s.completeIfEnded n = s.complete l none := by
  simp [State.completeIfEnded, h, hl]

/-! A context leaves its launch (R46, R231, R238, R375). -/

theorem State.dropFifos_none (s : State) (c : Core) (h : ∀ (n : Nat) (h : n < 16), (c.fifo[n]).peer = none) :
    s.dropFifos c = s := by
  refine List.foldlRecOn c.fifo.toList _ (motive := fun t => t = s) rfl fun t ht f hf => ?_
  obtain ⟨n, hn, rfl⟩ := List.getElem_of_mem hf
  have hpeer : (c.fifo.toList[n]).peer = none := by
    rw [Vector.getElem_toList]
    exact h n (by simpa using hn)
  rw [ht, State.tellGone, hpeer]

theorem State.leaveSteps_none (s : State) (l : Launch) (i : Nat) (h : ∀ n, l.sstep n = false) : s.leaveSteps l i = s :=
  foldl_keeps (fun t => t = s) _ (fun t n ht => by rw [ht, h n]; rfl) _ s rfl

theorem Launch.account_sstep (l : Launch) (c : Core) (i n : Nat) : (l.account c i).sstep n = l.sstep n := rfl

/-- A context with no requester record, no FIFO bound and no superstep leaves its launch's accounts and its barriers. -/
theorem State.leave_eq (s : State) (c : Core) (k : Task) (l : Launch) (hl : s.launch k.serial = some l)
    (hrq : s.reg Key.rqbase = 0) (hf : ∀ (n : Nat) (h : n < 16), (c.fifo[n]).peer = none) (hss : ∀ n, l.sstep n = false) :
    s.leave c k = (s.onLaunch k.serial fun l => l.account c k.index).leaveBarriers k.serial c.id := by
  have hacc : ((s.onLaunch k.serial fun l => l.account c k.index).leaveBarriers k.serial c.id).launch k.serial =
      some (l.account c k.index) := s.launch_onLaunch_self _ _ l hl fun _ => rfl
  unfold State.leave
  dsimp only
  rw [State.writeRq, s.putRq_noTable _ _ _ _ _ hrq, s.dropFifos_none c hf, hacc]
  exact State.leaveSteps_none _ _ _ fun n => (l.account_sstep c k.index n).trans (hss n)

/-- The state that a task with no ending cause leaves when it retires, before its launch may end. -/
def State.retired (s : State) (k : Task) : State :=
  ((s.onCore Core.vacated).onLaunch k.serial fun l => l.account s.core k.index).leaveBarriers k.serial s.core.id

theorem State.retired_frame (s : State) (k : Task) : (s.retired k).core = s.core.vacated ∧ (s.retired k).mem = s.mem ∧
    (s.retired k).regs = s.regs ∧
    (s.retired k).launches = s.launches.map fun l => if l.serial = k.serial then l.account s.core k.index else l :=
  ⟨rfl, rfl, rfl, rfl⟩

theorem exec_taskRetire_plain (s : State) (k : Task) (l : Launch) (hk : s.core.task = some k)
    (hd : s.core.drained = true) (hst : s.core.status = none) (hstg : s.core.staged = none)
    (hl : s.launch k.serial = some l) (hrq : s.reg Key.rqbase = 0)
    (hf : ∀ (n : Nat) (h : n < 16), (s.core.fifo[n]).peer = none) (hss : ∀ n, l.sstep n = false) :
    exec .taskRetire s = .next ((s.retired k).completeIfEnded k.serial) := by
  have hleave : (s.onCore Core.vacated).leave s.core k = s.retired k := State.leave_eq _ _ _ l hl hrq hf hss
  have hlaunch : (s.retired k).launch k.serial = some (l.account s.core k.index) :=
    (s.onCore Core.vacated).launch_onLaunch_self _ _ l hl fun _ => rfl
  have hstaged : (s.retired k).core.staged = none := hstg
  rw [exec_taskRetire]
  unfold execTaskRetire
  simp only [hk, hd, hst, Option.any_none, Bool.false_eq_true, Bool.true_eq_false, if_false, hleave, hlaunch,
    Bool.false_and, State.activateStaged, hstaged]

theorem retire_oneOfMany (s : State) (k : Task) (l : Launch) (j : Nat) (hl : s.launch k.serial = some l)
    (hj : j ≠ k.index) (hlive : j ∈ l.live) : (s.retired k).completeIfEnded k.serial = s.retired k := by
  have hlaunch : (s.retired k).launch k.serial = some (l.account s.core k.index) :=
    (s.onCore Core.vacated).launch_onLaunch_self _ _ l hl fun _ => rfl
  refine State.completeIfEnded_live _ _ _ hlaunch (List.ne_nil_of_mem (a := j) ?_)
  exact List.mem_filter.2 ⟨hlive, by simpa using hj⟩

theorem retire_last (s : State) (k : Task) (l : Launch) (hl : s.launch k.serial = some l) (hphase : l.phase = .accepted)
    (hlive : l.live = [k.index]) (hback : l.back = []) (hpast : l.past ≤ l.cursor) :
    (s.retired k).completeIfEnded k.serial = (s.retired k).complete (l.account s.core k.index) none := by
  have hlaunch : (s.retired k).launch k.serial = some (l.account s.core k.index) :=
    (s.onCore Core.vacated).launch_onLaunch_self _ _ l hl fun _ => rfl
  have hnone : (l.account s.core k.index).live = [] := by simp [Launch.account, hlive]
  have hpast' : (l.account s.core k.index).past ≤ (l.account s.core k.index).cursor := hpast
  refine State.completeIfEnded_ended _ _ _ hlaunch ?_
  rw [Launch.ended, hnone, show (l.account s.core k.index).phase = .accepted from hphase,
    show (l.account s.core k.index).back = [] from hback, decide_eq_true hpast']
  simp

theorem retirement (s : State) (k : Task) (l : Launch) (hk : s.core.task = some k) (hd : s.core.drained = true)
    (hst : s.core.status = none) (hstg : s.core.staged = none) (hl : s.launch k.serial = some l) (hone : s.launches = [l])
    (hrq : s.reg Key.rqbase = 0) (hf : ∀ (n : Nat) (h : n < 16), (s.core.fifo[n]).peer = none)
    (hss : ∀ n, l.sstep n = false) (hphase : l.phase = .accepted) :
    (∀ j, j ≠ k.index → j ∈ l.live → ∃ t x, exec .taskRetire s = .next t ∧ t.core.st = .free ∧ t.core.task = none ∧
      t.launch k.serial = some x ∧ x.retired = l.retired + 1 ∧ x.cycles = l.cycles + s.core.cyc ∧ Claims.SameMemory s t) ∧
    (l.live = [k.index] → l.back = [] → l.past ≤ l.cursor → l.f 0x60 8 = 0 →
      ∃ t, exec .taskRetire s = .next t ∧ t.core.st = .free ∧ t.core.task = none ∧ t.launches = [] ∧
        Claims.SameMemory s t) := by
  have hexec := exec_taskRetire_plain s k l hk hd hst hstg hl hrq hf hss
  have hlaunch : (s.retired k).launch k.serial = some (l.account s.core k.index) :=
    (s.onCore Core.vacated).launch_onLaunch_self _ _ l hl fun _ => rfl
  obtain ⟨hcore, hmem, hregs, hlaunches⟩ := s.retired_frame k
  have hserial := State.launch_serial hl
  constructor
  · intro j hj hlive
    rw [retire_oneOfMany s k l j hl hj hlive] at hexec
    exact ⟨_, _, hexec, by rw [hcore]; rfl, by rw [hcore]; rfl, hlaunch, rfl, rfl,
      fun a => congrArg (fun m => memGet m a) hmem⟩
  · intro hlive hback hpast hrec
    rw [retire_last s k l hl hphase hlive hback hpast] at hexec
    have hbase : (s.retired k).reg Key.rqbase = 0 := (State.reg_congr hregs _).trans hrq
    obtain ⟨hcore', hmem', hleft⟩ := (s.retired k).complete_frame (l.account s.core k.index) none hrec (.inl hbase)
    refine ⟨_, hexec, by rw [hcore', hcore]; rfl, by rw [hcore', hcore]; rfl, ?_,
      fun a => congrArg (fun m => memGet m a) (hmem'.trans hmem)⟩
    rw [hleft, hlaunches, hone, List.map_cons, List.map_nil, if_pos hserial]
    simp

theorem taskRetire_undrained (s : State) (h : s.core.drained = false) : exec .taskRetire s = .next s := by
  rw [exec_taskRetire]
  unfold execTaskRetire
  split
  · rfl
  · rw [if_pos h]

/-! Cancellation. -/

theorem fld_launchid (v : Word) : BitVec.ofNat 32 (fld v 0 32) = v.setWidth 32 := by
  apply BitVec.eq_of_toNat_eq
  simp [fld]

theorem State.cancel_denied (s : State) (wr : Writer) (v : Word) (l : Launch) (h : s.launch (v.setWidth 32) = some l)
    (hw : cancelAllowed wr l = false) : s.cancel wr v = s := by
  simp only [State.cancel, fld_launchid, h, hw, Bool.not_false, if_true]

theorem cancels (s : State) (v : Word) (l : Launch) (h : s.launch (v.setWidth 32) = some l) :
    (l.live = [] → l.bound = 0 → l.rqKept = [] → l.f 0x60 8 = 0 → ∃ t, exec (.cancel .mgmt v) s = .next t ∧
      t.launch (v.setWidth 32) = none ∧ t.core = s.core ∧ Claims.SameMemory s t) ∧
    (l.live ≠ [] → ∃ x, exec (.cancel .mgmt v) s = .next { s with cancels := s.cancels ++ [x] } ∧
      x.serial = v.setWidth 32) ∧
    (l.parent ≠ none → exec (.cancel .hp0 v) s = .next s ∧ exec (.cancel .hp1 v) s = .next s) ∧
    (l.queue.toNat < 32 → exec (.cancel .hp1 v) s = .next s) ∧
    (32 ≤ l.queue.toNat → exec (.cancel .hp0 v) s = .next s) := by
  have hdenied (wr : Writer) (hw : cancelAllowed wr l = false) : exec (.cancel wr v) s = .next s := by
    rw [exec_cancel, s.cancel_denied wr v l h hw]
  refine ⟨fun hlive hbound hkept hrec => ?_, fun hlive => ?_, fun hparent => ?_, fun hq => hdenied _ ?_,
    fun hq => hdenied _ ?_⟩
  · have hend : s.cancel .mgmt v = s.complete { l with cancelled := true, phase := .accepted } none := by
      simp [State.cancel, fld_launchid, h, cancelAllowed, hlive, hbound]
    obtain ⟨hcore, hmem, hleft⟩ :=
      s.complete_frame { l with cancelled := true, phase := .accepted } none hrec (.inr hkept)
    rw [← hend] at hcore hmem hleft
    refine ⟨_, exec_cancel .mgmt v s, ?_, hcore, fun a => congrArg (fun m => memGet m a) hmem⟩
    rw [State.launch, hleft, List.find?_eq_none]
    intro x hx
    have hne := (List.mem_filter.1 hx).2
    simpa [State.launch_serial h] using hne
  · refine ⟨{ serial := v.setWidth 32, left := 32, dies := List.range 8 }, ?_, rfl⟩
    rw [exec_cancel]
    simp only [State.cancel, fld_launchid, h, cancelAllowed, Bool.not_true, Bool.false_eq_true, if_false,
      List.isEmpty_iff, hlive, false_and]
  · have hnone : l.parent.isNone = false := by simpa [Option.isSome_iff_ne_none] using hparent
    exact ⟨hdenied _ (by simp [cancelAllowed, hnone]), hdenied _ (by simp [cancelAllowed, hnone])⟩
  · simp only [cancelAllowed, Bool.and_eq_false_iff, decide_eq_false_iff_not]
    omega
  · simp only [cancelAllowed, Bool.and_eq_false_iff, decide_eq_false_iff_not]
    omega

theorem State.onLaunch_id (s : State) (n : BitVec 32) (f : Launch → Launch) (hf : ∀ l, f l = l) : s.onLaunch n f = s := by
  have hmap : s.launches.map (fun l => if l.serial = n then f l else l) = s.launches := by simp [hf]
  rw [State.onLaunch, hmap]

theorem State.dropHandOffs_nil (s : State) (n : BitVec 32) (on : HandOff → Bool) (h : s.handoffs = []) :
    s.dropHandOffs n on = s := by
  have hself : ({ s with handoffs := [] } : State) = s := congrArg (fun l => ({ s with handoffs := l } : State)) h.symm
  simp only [State.dropHandOffs, h, List.filter_nil, List.flatMap_nil, List.contains_nil, Bool.not_false, hself]
  exact s.onLaunch_id n _ fun l => by simp

/-- A launch that has been cancelled (R296). -/
def Launch.called (l : Launch) : Launch := { l with cancelled := true }

/-- The launch of a task, cancelled at a die, whose only task in the module runs on the core in focus. -/
theorem cancelAtDie_one (s : State) (n : BitVec 32) (l : Launch) (k : Task) (ho : s.others = []) (hs : s.slots = [])
    (hk : s.core.task = some k) (hn : k.serial = n) (hst : s.core.st = .active) (hstg : s.core.staged = none)
    (hh : s.handoffs = []) (hl : s.launch n = some l) (hlive : l.live ≠ []) : ∃ t,
      exec (.cancelAtDie (s.core.id / 80) n) s = .next t ∧ t.core.kill = some 0x01 ∧ t.core.r = s.core.r ∧
        Claims.SameMemory s t := by
  rw [exec_cancelAtDie]
  unfold execCancelAtDie
  extract_lets s1 s2 s3 drop s4 hear s5
  have h1 : s1 = s.onLaunch n Launch.called := State.dropHandOffs_nil _ _ _ hh
  have h2 : s2 = s.onLaunch n Launch.called := by
    have hcores : (s.onLaunch n Launch.called).cores = [s.core] := congrArg (s.core :: ·) ho
    simp only [s2, h1, hcores, List.foldl_cons, List.foldl_nil, hstg]
  have h3 : s3.core = { s.core with kill := some 0x01 } := by
    have hrun : k.serial = n ∧ True ∧ s.core.st ≠ .free ∧ s.core.st ≠ .draining :=
      ⟨hn, trivial, by rw [hst]; decide, by rw [hst]; decide⟩
    have hcore : s2.core = s.core := by
      rw [h2]
      rfl
    simp only [s3, State.mapCores, hcore, hk]
    exact if_pos hrun
  have hmem2 : s2.mem = (s.onLaunch n Launch.called).mem := congrArg State.mem h2
  have hmem3 : s3.mem = s.mem := hmem2
  have hlaunches3 : s3.launches = (s.onLaunch n Launch.called).launches := (congrArg State.launches h2 : s2.launches = _)
  have h4 : s4 = s3 := by
    have hslots : s3.slots = [] := (congrArg State.slots h2).trans hs
    simp only [s4, drop, hslots, List.filter_nil, List.map_nil, List.foldl_nil]
  have hl5 : s5.launch n = some l.called := by
    have hlaunches : s5.launches = (s.onLaunch n Launch.called).launches :=
      (congrArg State.launches h4).trans hlaunches3
    rw [State.launch_congr hlaunches]
    exact s.launch_onLaunch_self n _ l hl fun _ => rfl
  have hcore5 : s5.core = { s.core with kill := some 0x01 } := (congrArg State.core h4).trans h3
  have hmem5 : s5.mem = s.mem := (congrArg State.mem h4).trans hmem3
  refine ⟨s5, by rw [State.completeIfEnded_live s5 n l.called hl5 hlive], by rw [hcore5], by rw [hcore5],
    fun a => congrArg (fun m => memGet m a) hmem5⟩

/-- Settles O48: a drained task's launch counts it and, with its last one, leaves no launch; a cancel by the branches of its
checks, and at a die by its one task there. -/
theorem retirementAndCancel : Obligations.RetirementAndCancel :=
  ⟨fun s k l hk hd hst hstg hl hone hrq hf hss hphase => retirement s k l hk hd hst hstg hl hone hrq hf hss hphase,
    taskRetire_undrained, fun s v l h _ => cancels s v l h,
    fun s n l k ho hs hk hn hst hstg hh hl hlive => cancelAtDie_one s n l k ho hs hk hn hst hstg hh hl hlive⟩

end Sys2Proof.Machine
end

section
/-! PROOFS. Selection, binding, the preload and first issue (R20, R25, R281, R287, R289, R294, R402). -/

namespace Sys2Proof.Machine

theorem exec_schedulerSelection (die : Nat) (s : State) :
    exec (.schedulerSelection die) s = execSchedulerSelection die s := rfl
theorem exec_taskBinding (h : Nat) (s : State) : exec (.taskBinding h) s = execTaskBinding h s := rfl
theorem exec_preloadComplete (s : State) : exec .preloadComplete s = execPreloadComplete s := rfl
theorem exec_firstIssue (s : State) : exec .firstIssue s = execFirstIssue s := rfl

/-! Selection (R287). -/

theorem least_eq_min? (l : List Nat) : least l = l.min? := by cases l <;> rfl

theorem State.refreshVt_eq (s : State) (os : List (Nat × Pick × Nat)) : ∃ vt el,
    s.refreshVt os = { s with vt := vt, eligible := el } := ⟨_, _, rfl⟩

theorem State.bestOn_one (s : State) (o : Nat × Pick × Nat) (die : Nat) :
    s.bestOn [o] die = if onDie die o = true then some o else none := by
  unfold State.bestOn
  by_cases h : onDie die o = true <;> simp [h]

/-- The dies that an offer binds on. -/
def diesOf (o : Nat × Pick × Nat) : List Nat := (List.range 8).filter fun d => onDie d o

theorem onDie_iff (die : Nat) (o : Nat × Pick × Nat) : onDie die o = true ↔ ∃ x ∈ o.2.1.tasks, x.2 / 80 = die := by
  simp [onDie]

theorem mem_diesOf (o : Nat × Pick × Nat) (d : Nat) : d ∈ diesOf o ↔ d < 8 ∧ ∃ x ∈ o.2.1.tasks, x.2 / 80 = d := by
  rw [diesOf, List.mem_filter, List.mem_range, onDie_iff]

theorem least_diesOf (o : Nat × Pick × Nat) (die : Nat) : least (diesOf o) = some die ↔
    die ∈ diesOf o ∧ ∀ d ∈ diesOf o, die ≤ d := by
  rw [least_eq_min?, List.min?_eq_some_iff]

theorem State.dieTaken_none (s : State) (die : Nat) (h : ∀ h ∈ s.handoffs, h.at_ ≠ s.mcc) : s.dieTaken die = false := by
  rw [State.dieTaken, List.any_eq_false]
  intro x hx
  simp [h x hx]

/-- The state of a selection with the virtual times of the queues as this die sees them. -/
def State.timed (s : State) (die : Nat) : State := if die = 0 then s.refreshVt s.offers else s

theorem State.timed_eq (s : State) (die : Nat) : ∃ vt el, s.timed die = { s with vt := vt, eligible := el } := by
  unfold State.timed
  split
  · exact s.refreshVt_eq _
  · exact ⟨s.vt, s.eligible, rfl⟩

/-- With one offer, its lowest die hands it over, and the other dies nothing (log entry 68). -/
theorem exec_selection_one (s : State) (o : Nat × Pick × Nat) (die : Nat) (hhib : s.supply.hib = false)
    (ho : s.offers = [o]) (hat : ∀ h ∈ s.handoffs, h.at_ ≠ s.mcc) : exec (.schedulerSelection die) s =
      .next (if least (diesOf o) = some die then (s.timed die).handOver o.1 o.2.1 else s.timed die) := by
  have hall : ((diesOf o).all fun d => !(s.timed die).dieTaken d && (s.timed die).bestOn [o] d == some o) = true := by
    rw [List.all_eq_true]
    intro d hd
    have hon : onDie d o = true := (List.mem_filter.1 hd).2
    obtain ⟨vt, el, ht⟩ := s.timed_eq die
    have hfree : (s.timed die).dieTaken d = false := State.dieTaken_none _ d (by rw [ht]; exact hat)
    simp [hfree, State.bestOn_one, hon]
  have htimed : (if die = 0 then s.refreshVt s.offers else s) = s.timed die := rfl
  rw [exec_schedulerSelection]
  unfold execSchedulerSelection
  simp only [htimed]
  rw [ho, State.bestOn_one]
  by_cases hon : onDie die o = true
  · rw [if_pos hon]
    by_cases hleast : least (diesOf o) = some die
    · rw [if_pos hleast]
      exact congrArg Host.Outcome.next (if_pos ⟨hhib, hleast, hall⟩)
    · rw [if_neg hleast]
      exact congrArg Host.Outcome.next (if_neg fun h => hleast h.2.1)
  · have hleast : ¬least (diesOf o) = some die := fun h => hon (List.mem_filter.1 ((least_diesOf o die).1 h).1).2
    rw [if_neg hon, if_neg hleast]

theorem State.handOver_frame (s : State) (q : Nat) (p : Pick) : ∃ x, (s.handOver q p).handoffs = s.handoffs ++ [x] ∧
    x.serial = p.serial ∧ x.tasks = p.tasks ∧ x.stage = p.stage ∧ (s.handOver q p).core = s.core ∧
    (s.handOver q p).mem = s.mem := ⟨_, rfl, rfl, rfl, rfl, rfl, rfl⟩

theorem selection (s : State) (q die prio : Nat) (p : Pick) (hdie : die < 8) (hhib : s.supply.hib = false)
    (ho : s.offers = [(q, p, prio)]) (hat : ∀ h ∈ s.handoffs, h.at_ ≠ s.mcc) :
    ((∃ x ∈ p.tasks, x.2 / 80 = die) → (∀ x ∈ p.tasks, die ≤ x.2 / 80) →
      ∃ t x, exec (.schedulerSelection die) s = .next t ∧
      t.handoffs = s.handoffs ++ [x] ∧ x.serial = p.serial ∧ x.tasks = p.tasks ∧ x.stage = p.stage ∧ t.core = s.core ∧
      Claims.SameMemory s t) ∧
    ((∀ x ∈ p.tasks, x.2 / 80 ≠ die) ∨ (∃ x ∈ p.tasks, x.2 / 80 < die) →
      ∃ t, exec (.schedulerSelection die) s = .next t ∧ (die ≠ 0 → t = s) ∧ t.handoffs = s.handoffs ∧
        t.launches = s.launches ∧ t.core = s.core ∧ Claims.SameMemory s t) := by
  have hexec := exec_selection_one s (q, p, prio) die hhib ho hat
  obtain ⟨vt, el, ht⟩ := s.timed_eq die
  constructor
  · intro hon hlow
    have hleast : least (diesOf (q, p, prio)) = some die := by
      refine (least_diesOf _ die).2 ⟨(mem_diesOf _ die).2 ⟨hdie, hon⟩, fun d hd => ?_⟩
      obtain ⟨-, x, hx, rfl⟩ := (mem_diesOf _ d).1 hd
      exact hlow x hx
    rw [if_pos hleast] at hexec
    obtain ⟨x, hx, hserial, htasks, hstage, hcore, hmem⟩ := (s.timed die).handOver_frame q p
    refine ⟨_, x, hexec, hx.trans ?_, hserial, htasks, hstage, hcore.trans ?_,
      fun a => congrArg (fun m => memGet m a) (hmem.trans ?_)⟩ <;> rw [ht]
  · intro hnot
    have hleast : ¬least (diesOf (q, p, prio)) = some die := by
      intro h
      obtain ⟨hmem, hmin⟩ := (least_diesOf _ die).1 h
      obtain ⟨-, y, hy, hyd⟩ := (mem_diesOf _ die).1 hmem
      obtain hnone | ⟨x, hx, hlt⟩ := hnot
      · exact hnone y hy hyd
      · exact absurd (hmin _ ((mem_diesOf _ _).2 ⟨by omega, x, hx, rfl⟩)) (by omega)
    rw [if_neg hleast] at hexec
    refine ⟨_, hexec, fun hd => if_neg hd, ?_, ?_, ?_, fun a => ?_⟩ <;> rw [ht]

/-! First issue (R18, R20, R25, R289). -/

/-- What a task's first issue keeps of its context: its registers and its PC. -/
def State.regsPc (s : State) : Regs × Word := (s.core.r, s.core.pc)

theorem OnlyLook.regsPc {s t : State} (h : OnlyLook s t) : t.regsPc = s.regsPc := h.same State.regsPc fun _ => rfl

theorem State.cacheLeaf_regsPc (s : State) (ctx : BitVec 16) (va leaf : Word) (size : Nat) :
    (s.cacheLeaf ctx va leaf size).regsPc = s.regsPc := by
  unfold State.cacheLeaf
  extract_lets e t
  split
  · rfl
  · exact (s.cacheDeep_onlyLook e).regsPc

theorem State.fillLeaf_regsPc (s : State) (ctx : BitVec 16) (va : Word) (kind : BitVec 3) :
    (s.fillLeaf ctx va kind).regsPc = s.regsPc := by
  have hwalk : (s.walked ctx va).regsPc = s.regsPc := (s.walked_onlyCache ctx va).onlyLook.regsPc
  delta State.fillLeaf
  cases (s.tlbDeep ctx va).filter (s.stillHeld ctx va kind) with
  | some e => exact s.cacheLeaf_regsPc ctx va _ _
  | none =>
    cases s.walk ctx va kind with
    | ok leaf => exact (State.cacheLeaf_regsPc _ ctx va _ _).trans hwalk
    | error t => exact hwalk

theorem State.acquire_regsPc (s : State) : s.acquire.regsPc = s.regsPc := by
  unfold State.acquire
  extract_lets past
  split <;> rfl

theorem State.onArray_regsPc (s : State) (n : Nat) (f : ArraySt → ArraySt) : (s.onArray n f).regsPc = s.regsPc := rfl

/-- A task that makes its first issue in the state `s`, as its context then stands (R18, R25, R289). -/
def State.startTask (u : State) (k : Task) (s : State) : State := u.onCore fun c =>
  { c with st := .active, cyc := 0, codeMem := s.mem, task := some { k with issued := true, landed := [] },
           r := { c.r with fbase := s.mcc &&& ~~~15#64, fepStep := (s.cluster (c.id / 8)).step, fepCount := 0 } }

theorem exec_firstIssue_ready (s : State) (k : Task) (hk : s.core.task = some k) (hst : s.core.st = .bound)
    (hpre : k.preloaded = true) (hleft : k.left = 0) : ∃ f : ArraySt → ArraySt, exec .firstIssue s = .next
      ((((s.onArray s.core.id f).fillLeaf k.context s.core.pc 3).acquire).startTask k s) := by
  have hready : ¬(s.core.st ≠ .bound ∨ k.preloaded = false ∨ k.left ≠ 0) := by simp [hst, hpre, hleft]
  rw [exec_firstIssue]
  unfold execFirstIssue
  rw [hk]
  dsimp only
  rw [if_neg hready]
  exact ⟨_, rfl⟩

theorem State.startTask_frame (u : State) (k : Task) (s : State) : (u.startTask k s).core.st = .active ∧
    (u.startTask k s).core.cyc = 0 ∧ (u.startTask k s).core.r.fbase = s.mcc &&& ~~~15#64 ∧
    (u.startTask k s).core.r.fepCount = 0 ∧ (u.startTask k s).core.r.s = u.core.r.s ∧
    (u.startTask k s).core.pc = u.core.pc ∧ (u.startTask k s).mem = u.mem := ⟨rfl, rfl, rfl, rfl, rfl, rfl, rfl⟩

theorem firstIssue (s : State) (k : Task) (hk : s.core.task = some k) (hst : s.core.st = .bound)
    (hpre : k.preloaded = true) (hleft : k.left = 0) :
    ∃ t, exec .firstIssue s = .next t ∧ t.core.st = .active ∧ t.core.cyc = 0 ∧
      t.core.r.fbase = s.mcc &&& ~~~15#64 ∧ t.core.r.fepCount = 0 ∧ t.core.r.s = s.core.r.s ∧ t.core.pc = s.core.pc ∧
      Claims.SameMemory s t := by
  obtain ⟨f, hexec⟩ := exec_firstIssue_ready s k hk hst hpre hleft
  have hview : ((s.onArray s.core.id f).fillLeaf k.context s.core.pc 3).acquire.regsPc = s.regsPc :=
    (State.acquire_regsPc _).trans ((State.fillLeaf_regsPc _ _ _ _).trans (State.onArray_regsPc _ _ _))
  have hmem : ((s.onArray s.core.id f).fillLeaf k.context s.core.pc 3).acquire.mem = s.mem := by
    rw [State.acquire_mem, State.fillLeaf_mem, State.onArray_mem]
  generalize ((s.onArray s.core.id f).fillLeaf k.context s.core.pc 3).acquire = u at hexec hview hmem
  have hs : u.core.r.s = s.core.r.s := congrArg (fun v => v.1.s) hview
  have hpc : u.core.pc = s.core.pc := congrArg Prod.snd hview
  obtain ⟨h1, h2, h3, h4, h5, h6, h7⟩ := u.startTask_frame k s
  exact ⟨_, hexec, h1, h2, h3, h4, h5.trans hs, h6.trans hpc, fun a => congrArg (fun m => memGet m a) (h7.trans hmem)⟩

/-! The preload (R281, R331). -/

theorem Core.prow_setProw_same (c : Core) (r : Nat) (x : Row) : (c.setProw r x).prow r = x := by
  rw [Core.prow, Core.setProw, Sparse.find_set_same]

theorem Core.prow_setProw_other (c : Core) (r q : Nat) (x : Row) (h : q ≠ r) : (c.setProw r x).prow q = c.prow q := by
  rw [Core.prow, Core.prow, Core.setProw, Sparse.find_set_other _ _ _ _ h]

/-- A state with `n` logical rows from `r` on, in a placement, holding what `v` gives. -/
def State.fillRows (s : State) (half r : Nat) (v : Nat → Row) (n : Nat) : State :=
  (List.range n).foldl (fun u k => u.onCore fun c => c.setProw (physRow half (r + k)) (v k)) s

theorem State.fillRows_succ (s : State) (half r : Nat) (v : Nat → Row) (n : Nat) : s.fillRows half r v (n + 1) =
    (s.fillRows half r v n).onCore fun c => c.setProw (physRow half (r + n)) (v n) := by
  rw [State.fillRows, List.range_succ, List.foldl_append]
  rfl

theorem State.fillRows_prow (s : State) (half r : Nat) (v : Nat → Row) (n k : Nat) (hk : k < n) :
    (s.fillRows half r v n).core.prow (physRow half (r + k)) = v k := by
  induction n with
  | zero => exact absurd hk (Nat.not_lt_zero k)
  | succ n ih =>
    rw [State.fillRows_succ, State.onCore_core]
    by_cases hn : k = n
    · rw [hn, Core.prow_setProw_same]
    · rw [Core.prow_setProw_other _ _ _ _ fun h => hn (Nat.add_left_cancel (physRow_inj _ _ _ h)), ih (by omega)]

/-- What a fill of rows keeps: the task, its registers, and memory. -/
def State.fillView (s : State) : Option Task × Regs × List Host.Cell := (s.core.task, s.core.r, s.mem)

theorem State.fillRows_view (s : State) (half r : Nat) (v : Nat → Row) (n : Nat) :
    (s.fillRows half r v n).fillView = s.fillView := by
  induction n with
  | zero => rfl
  | succ n ih =>
    rw [State.fillRows_succ]
    exact ih

theorem Core.preloading_bound (c : Core) (k : Task) (hk : c.task = some k) (hst : c.st = .bound)
    (hpre : k.preloaded = false) : c.preloading = some (k, false) := by
  simp [Core.preloading, hk, hst, hpre, Option.filter_some]

/-- The rows of a preload as its bytes give them (R281). -/
def preloadRow (bs : List Byte) (n : Nat) : Row := BitVec.ofNat 512 (leNat ((bs.drop (64 * n)).take 64))

/-- A task whose preload is complete. -/
def Task.filled (k : Task) : Task := { k with preloaded := true }

theorem preloadComplete (s : State) (k : Task) (l : Launch) (bs : List Byte) (hk : s.core.task = some k)
    (hst : s.core.st = .bound) (hpre : k.preloaded = false) (hl : s.launch k.serial = some l)
    (hans : ∀ r ∈ s.core.remotes, r.into ≠ some 0) (hland : k.landed = [])
    (hhbm : ∀ p ∈ (s.vparts l.context l.keyid 6 (l.preload k.index).1 (l.preload k.index).2).1, s.physKind p.pa = .hbm)
    (hread : s.vread l.context l.keyid 0 (l.preload k.index).1 (l.preload k.index).2 = (bs, none)) :
    (k.toFill ≠ [] → exec .preloadComplete s = .next s) ∧
    (k.toFill = [] → ∃ u, OnlyLook s u ∧ exec .preloadComplete s = .next
      (((u.onCore fun c => c.forget 0).onCore fun c => c.onPreload false Task.filled).fillRows k.half (l.f 0x78 2)
        (preloadRow bs) (l.f 0x7A 2))) := by
  have hawaits : s.core.awaits 0 = false := by
    rw [Core.awaits, List.any_eq_false]
    intro r hr
    simpa using hans r hr
  rw [exec_preloadComplete]
  unfold execPreloadComplete
  rw [s.core.preloading_bound k hk hst hpre]
  dsimp only
  rw [hl]
  dsimp only
  rw [s.toFetch_of_hbm 0 _ hhbm, hread, hawaits, hland]
  constructor
  · intro hfill
    simp [hfill]
  · intro hfill
    refine ⟨s.sawRead l.context (s.vparts l.context l.keyid 6 (l.preload k.index).1 (l.preload k.index).2).1,
      s.sawRead_onlyLook _ _, ?_⟩
    rw [hfill]
    rfl

theorem preload_fills (s u : State) (k : Task) (r n : Nat) (v : Nat → Row) (hk : s.core.task = some k)
    (hlook : OnlyLook s u) (t : State)
    (ht : t = ((u.onCore fun c => c.forget 0).onCore fun c => c.onPreload false Task.filled).fillRows k.half r v n) :
    t.core.task = some k.filled ∧ (∀ j, j < n → t.core.row (r + j) = v j) ∧ t.core.r = s.core.r ∧
      Claims.SameMemory s t := by
  have hview : t.fillView = (some k.filled, s.core.r, s.mem) := by
    have hu : u.fillView = s.fillView := hlook.same State.fillView fun _ => rfl
    have hutask : u.core.task = some k := (congrArg Prod.fst hu).trans hk
    have hur : u.core.r = s.core.r := congrArg (fun v => v.2.1) hu
    have humem : u.mem = s.mem := congrArg (fun v => v.2.2) hu
    rw [ht, State.fillRows_view, ← hur, ← humem]
    refine Prod.ext ?_ rfl
    exact congrArg (Option.map Task.filled) hutask
  have htask : t.core.task = some k.filled := congrArg Prod.fst hview
  refine ⟨htask, fun j hj => ?_, congrArg (fun v => v.2.1) hview,
    fun a => congrArg (fun v => memGet v.2.2 a) hview⟩
  have hhalf : t.core.half = k.half := by
    rw [Core.half, htask]
    rfl
  rw [Core.row, hhalf, ht, State.fillRows_prow _ _ _ _ _ _ hj]

end Sys2Proof.Machine
end

section
/-! PROOFS. Binding: a hand-off's binding cycle (R18, R25, R280, R281, R289, R384, R402). -/

namespace Sys2Proof.Machine

/-! What landing windows bring to the rows of a bound task (R384). -/

/-- A task without what landing windows have written to its rows. -/
def Task.unlanded (t : Task) : Task := { t with landed := [] }

/-- A core without its rows, and without what landing windows have written for its tasks. -/
def Core.unlanded (c : Core) : Core :=
  { c with rows := [], badWords := [], task := c.task.map Task.unlanded, staged := c.staged.map Task.unlanded }

/-- A state without the marks of landed rows and the rows of the core in focus. -/
def State.sansRows (s : State) : State := { s with landMarks := [], core := s.core.unlanded }

/-- The same without the marks of the caches. -/
def State.unlanded (s : State) : State := s.sansCache.sansRows

/-- `s` and `t` differ at most in the marks of their caches, and in what landing windows bring to the core in focus. -/
def OnlyLanded (s t : State) : Prop := t.unlanded = s.unlanded

theorem OnlyLanded.refl (s : State) : OnlyLanded s s := rfl

theorem OnlyLanded.trans {s t u : State} (h : OnlyLanded s t) (k : OnlyLanded t u) : OnlyLanded s u := Eq.trans k h

theorem OnlyCache.onlyLanded {s t : State} (h : OnlyCache s t) : OnlyLanded s t := congrArg State.sansRows h

/-- Whatever a state answers that those have no part in, stays. -/
theorem OnlyLanded.same {α : Type} {s t : State} (h : OnlyLanded s t) (f : State → α)
    (hf : ∀ u : State, f u.unlanded = f u) : f t = f s := by
  rw [← hf t, ← hf s, h]

theorem Task.unlanded_noteLanded (t : Task) (serial index : Nat) (xs : List Landed) :
    (t.noteLanded serial index xs).unlanded = t.unlanded := by
  unfold Task.noteLanded
  split <;> rfl

theorem Core.unlanded_landRow (c : Core) (half : Nat) (x : Landed) : (c.landRow half x).unlanded = c.unlanded := rfl

theorem Core.unlanded_noteLanded (c : Core) (serial index : Nat) (xs : List Landed) :
    (c.noteLanded serial index xs).unlanded = c.unlanded := by
  have hmap (o : Option Task) : (o.map fun t => t.noteLanded serial index xs).map Task.unlanded = o.map Task.unlanded := by
    cases o with
    | none => rfl
    | some t => exact congrArg some (t.unlanded_noteLanded serial index xs)
  simp only [Core.unlanded, Core.noteLanded, hmap]

theorem OnlyLanded.onCore (s : State) (f : Core → Core) (hf : ∀ c, (f c).unlanded = c.unlanded) :
    OnlyLanded s (s.onCore f) := by
  have hcore : (f s.core).unlanded = s.core.unlanded := hf s.core
  exact congrArg (fun c => ({ s.unlanded with core := { c with l1 := [] } } : State)) hcore

theorem OnlyLanded.id {s t : State} (h : OnlyLanded s t) : t.core.id = s.core.id := h.same (fun v => v.core.id) fun _ => rfl

theorem State.landed_onlyLanded (s : State) (a n : Nat) (marks : List (Nat × Nat)) (f : Core → Core) (hn : s.core.id = n)
    (hf : ∀ c, (f c).unlanded = c.unlanded) :
    OnlyLanded s (({ s.agentLook a 64 with landMarks := marks } : State).onCoreAt n f) := by
  have hlook : OnlyLanded s { s.agentLook a 64 with landMarks := marks } := (s.agentLook_onlyCache a 64).onlyLanded
  have hid : ({ s.agentLook a 64 with landMarks := marks } : State).core.id = n := hlook.id.trans hn
  rw [← hid, State.onCoreAt_self]
  exact hlook.trans (.onCore _ f hf)

theorem State.landBacked_onlyLanded (s : State) (t : Task) : OnlyLanded s (s.landBacked s.core.id t) := by
  unfold State.landBacked
  refine foldl_keeps (OnlyLanded s) _ (fun u w hu => ?_) _ s (.refl s)
  split
  · refine foldl_keeps (OnlyLanded s) _ (fun v k hv => ?_) _ u hu
    split
    · exact hv.trans (v.landed_onlyLanded _ _ _ _ hv.id fun c => (Core.unlanded_noteLanded _ _ _ _).trans rfl)
    · exact hv
  · exact hu

/-! The context of a task at its binding (R18, R25, R280, R281). -/

/-- What a binding makes of a core, but for what landing windows bring: its state, its task, its PC and its registers. -/
def Core.boundAs (c : Core) : CtxSt × Option Task × Word × Regs := (c.st, c.task.map Task.unlanded, c.pc, c.r)

theorem Core.landRows_boundAs (half : Nat) (xs : List Landed) (c : Core) :
    (xs.foldl (fun c x => c.landRow half x) c).boundAs = c.boundAs :=
  foldl_keeps (fun d : Core => d.boundAs = c.boundAs) (fun (c : Core) x => c.landRow half x) (fun _ _ h => h) xs c rfl

theorem Core.landRows_id (half : Nat) (xs : List Landed) (c : Core) :
    (xs.foldl (fun c x => c.landRow half x) c).id = c.id :=
  foldl_keeps (fun d : Core => d.id = c.id) (fun (c : Core) x => c.landRow half x) (fun _ _ h => h) xs c rfl

/-- What a binding leaves of the state outside its core and its launch: the hand-offs, memory and the sheet. -/
def State.aroundBinding (s : State) : List HandOff × List Host.Cell × Sheet := (s.handoffs, s.mem, s.sheet)

theorem State.newRq_noTable (s : State) (n : Nat) (h : s.reg Key.rqbase = 0) : (s.newRq n).1 = s :=
  s.putRq_noTable _ _ _ _ _ h

theorem State.takeRq_noTable (s : State) (serial : BitVec 32) (i n : Nat) (h : s.reg Key.rqbase = 0) : ∃ ls,
    (s.takeRq serial i n).1 = { s with launches := ls } := by
  unfold State.takeRq
  split
  · exact ⟨_, rfl⟩
  · rw [if_pos h, s.newRq_noTable n h]
    exact ⟨s.launches, rfl⟩

theorem State.seat_boundAs (s : State) (l : Launch) (c : Core) (t : Task) : (s.seat l c t).boundAs = (.bound,
    some t.unlanded, BitVec.ofNat 64 (l.f 0 8), l.regs c.id t.index (s.cluster (c.id / 8)).step) := rfl

theorem OnlyLanded.boundAs {s t : State} (h : OnlyLanded s t) : t.core.boundAs = s.core.boundAs :=
  h.same (fun v => v.core.boundAs) fun u => by
    have htask : (u.core.task.map Task.unlanded).map Task.unlanded = u.core.task.map Task.unlanded := by
      rw [Option.map_map]
      rfl
    exact congrArg (fun o => (u.core.st, o, u.core.pc, u.core.r)) htask

theorem OnlyLanded.aroundBinding {s t : State} (h : OnlyLanded s t) : t.aroundBinding = s.aroundBinding :=
  h.same State.aroundBinding fun _ => rfl

/-- A state whose core in focus holds a seated task, which has joined its barriers. -/
theorem State.seated_spec (s : State) (l : Launch) (t : Task) (half ctr : Nat)
    (u : State) (hu : u = (s.onCoreAt s.core.id fun c => t.landed.foldl (fun c x => c.landRow half x)
      (s.seat l (c.cleared.freshRows half c.prevCtx l.context ctr) t)).joinBarriers l.serial s.core.id) :
    u.aroundBinding = s.aroundBinding ∧ u.core.id = s.core.id ∧ u.core.boundAs = (.bound, some t.unlanded,
      BitVec.ofNat 64 (l.f 0 8), l.regs s.core.id t.index (s.cluster (s.core.id / 8)).step) := by
  rw [State.onCoreAt_self] at hu
  have hcore : u.core = t.landed.foldl (fun c x => c.landRow half x)
      (s.seat l (s.core.cleared.freshRows half s.core.prevCtx l.context ctr) t) := congrArg State.core hu
  refine ⟨?_, ?_, ?_⟩
  · rw [hu]
    rfl
  · rw [hcore, Core.landRows_id]
    rfl
  · rw [hcore, Core.landRows_boundAs, State.seat_boundAs]
    rfl

theorem bindTask_spec (s : State) (l : Launch) (i : Nat) (rerun : Bool) (hrq : s.reg Key.rqbase = 0) :
    (s.bindTask l i s.core.id rerun).aroundBinding = s.aroundBinding ∧ ∃ half rq step,
      (s.bindTask l i s.core.id rerun).core.boundAs = (.bound,
        some { l.mkTask i half with boundAt := s.mcc, rq := rq }, BitVec.ofNat 64 (l.f 0 8), l.regs s.core.id i step) := by
  obtain ⟨ls, hq⟩ := (s.setMode l s.core.id).takeRq_noTable l.serial i s.core.id hrq
  unfold State.bindTask
  extract_lets q half t t'
  have hid : q.1.core.id = s.core.id := by rw [hq]; rfl
  have haround : q.1.aroundBinding = s.aroundBinding := by rw [hq]; rfl
  rw [← hid]
  generalize hu : (q.1.onCoreAt q.1.core.id fun c => t'.landed.foldl (fun c x => c.landRow half x)
    (q.1.seat l (c.cleared.freshRows half c.prevCtx l.context s.ctr) t')).joinBarriers l.serial q.1.core.id = u
  obtain ⟨hu1, hu2, hu3⟩ := q.1.seated_spec l t' half s.ctr u hu.symm
  have hland := u.landBacked_onlyLanded t'
  rw [hu2] at hland
  exact ⟨hland.aroundBinding.trans (hu1.trans haround), half, q.2, _, hland.boundAs.trans hu3⟩

theorem Launch.regs_getS (l : Launch) (core i : Nat) (step : BitVec 3) (j : BitVec 6) :
    (l.regs core i step).getS j = 0 := by
  have hs : (l.regs core i step).s = Vector.replicate 64 0 := rfl
  simp [Regs.getS, hs]

theorem Launch.regs_getP (l : Launch) (core i : Nat) (step : BitVec 3) (j : BitVec 6) (hj : j ≠ 0) :
    (l.regs core i step).getP j = false := by
  have hp : (l.regs core i step).p = 1 := rfl
  have hne : ¬j = 0#6 := hj
  have hnat : j.toNat ≠ 0 := fun h => hj (BitVec.eq_of_toNat_eq h)
  simp [Regs.getP, hp, hne, hnat]

/-- The state of a hand-off's binding cycle: it is on its way no more, and a sheet that was restored from is spent (R402). -/
def State.binding (s : State) : State :=
  if s.sheet.usable = true then ({ s with handoffs := [] } : State).spendSheet else { s with handoffs := [] }

theorem State.binding_frame (s : State) : s.binding.handoffs = [] ∧ s.binding.core = s.core ∧
    s.binding.launches = s.launches ∧ s.binding.regs = s.regs ∧ s.binding.sheet.usable = false ∧
    (s.sheet.usable = false → s.binding.mem = s.mem) := by
  unfold State.binding
  by_cases h : s.sheet.usable = true
  · rw [if_pos h]
    refine ⟨rfl, rfl, rfl, rfl, ?_, fun hn => absurd (h.symm.trans hn) (by decide)⟩
    simp [State.spendSheet, Sheet.usable]
  · rw [if_neg h]
    exact ⟨rfl, rfl, rfl, rfl, by simpa using h, fun _ => rfl⟩

/-- A hand-off of one task, that is neither staged nor captured, to the core in focus. -/
structure HandsOver (s : State) (x : HandOff) (l : Launch) (i : Nat) : Prop where
  handoffs : s.handoffs = [x]
  launch : s.launch x.serial = some l
  slots : x.slots = []
  stage : x.stage = false
  tasks : x.tasks = [(i, s.core.id)]
  stopped : l.stopped = false
  cancelled : l.cancelled = false

theorem HandsOver.exec_binding {s : State} {x : HandOff} {l : Launch} {i : Nat} (h : HandsOver s x l i) :
    exec (.taskBinding 0) s = .next (if s.clusterUp (s.core.id / 8) = true then s.binding.bindTask l i s.core.id false
      else ({ s with handoffs := [] } : State).handBack x) := by
  have hlaunch : ({ s with handoffs := [] } : State).launch x.serial = some l := h.launch
  have hstale : ({ s with handoffs := [] } : State).handOffStale x = !s.clusterUp (s.core.id / 8) := by
    simp only [State.handOffStale, h.tasks, h.stage, List.any_cons, List.any_nil, Bool.false_and, Bool.or_false]
    rfl
  obtain ⟨-, -, hlaunches, -, -, -⟩ := s.binding_frame
  have hone : s.binding.bindOne x 0 (i, s.core.id) = s.binding.bindTask l i s.core.id false := by
    have hlaunch' : s.binding.launch x.serial = some l := (State.launch_congr hlaunches _).trans h.launch
    simp [State.bindOne, hlaunch', h.slots, h.stage]
  rw [exec_taskBinding]
  unfold execTaskBinding
  have hgo : ¬(l.stopped || l.cancelled) = true := by simp [h.stopped, h.cancelled]
  have herase : ({ s with handoffs := s.handoffs.eraseIdx 0 } : State) = { s with handoffs := [] } := by
    rw [h.handoffs]
    rfl
  rw [herase, h.handoffs, List.getElem?_cons_zero]
  dsimp only
  rw [hlaunch]
  dsimp only
  rw [if_neg hgo, hstale, h.tasks, List.zipIdx_cons, List.zipIdx_nil, List.foldl_cons, List.foldl_nil]
  by_cases hup : s.clusterUp (s.core.id / 8) = true
  · rw [if_neg (by simp [hup]), if_pos hup, ← hone]
    rfl
  · rw [if_pos (by simpa using hup), if_neg hup]

theorem HandsOver.goes_back {s : State} {x : HandOff} {l : Launch} {i : Nat} (h : HandsOver s x l i)
    (hup : s.clusterUp (s.core.id / 8) = false) : ∃ t y, exec (.taskBinding 0) s = .next t ∧ t.handoffs = [] ∧
      t.core = s.core ∧ t.launch x.serial = some y ∧ i ∈ y.back ∧ i ∉ y.live ∧ Claims.SameMemory s t := by
  have hexec := h.exec_binding
  rw [if_neg (by simp [hup])] at hexec
  have hback : ({ s with handoffs := [] } : State).handBack x =
      ({ s with handoffs := [] } : State).onLaunch x.serial fun l => l.giveBack i := by
    simp [State.handBack, h.tasks, h.slots]
  rw [hback] at hexec
  refine ⟨_, l.giveBack i, hexec, rfl, rfl, ?_, by simp [Launch.giveBack], by simp [Launch.giveBack], fun _ => rfl⟩
  exact State.launch_onLaunch_self _ _ _ l h.launch fun _ => rfl

theorem HandsOver.binds {s : State} {x : HandOff} {l : Launch} {i : Nat} (h : HandsOver s x l i)
    (hrq : s.reg Key.rqbase = 0) (hup : s.clusterUp (s.core.id / 8) = true) : ∃ t k, exec (.taskBinding 0) s = .next t ∧
      t.handoffs = [] ∧ t.core.st = .bound ∧
      t.core.task = some k ∧ k.serial = l.serial ∧ k.index = i ∧ k.context = l.context ∧ k.scratch = l.f 0x14 2 ∧
      t.core.pc = BitVec.ofNat 64 (l.f 0 8) ∧ (∀ j, t.core.r.getS j = 0) ∧ (∀ j, j ≠ 0 → t.core.r.getP j = false) ∧
      t.core.r.taskid = BitVec.ofNat 64 (l.context.toNat * 2 ^ 48 + s.core.id * 2 ^ 32 + i) ∧
      t.core.r.launchid = BitVec.ofNat 64 (l.queue.toNat * 2 ^ 32 + l.serial.toNat) ∧
      t.core.r.thnd = BitVec.ofNat 64 (l.f 0x20 8) ∧ (s.sheet.usable = false → Claims.SameMemory s t) ∧
      t.sheet.usable = false := by
  obtain ⟨hhand, hcore, -, hregs, husable, hmem⟩ := s.binding_frame
  have hexec := h.exec_binding
  rw [if_pos hup, ← congrArg Core.id hcore] at hexec
  have hrq' : s.binding.reg Key.rqbase = 0 := (State.reg_congr hregs _).trans hrq
  obtain ⟨haround, half, rq, step, hbound⟩ := bindTask_spec s.binding l i false hrq'
  generalize s.binding.bindTask l i s.binding.core.id false = t at hexec haround hbound
  have hst : t.core.st = .bound := congrArg (fun v => v.1) hbound
  have hpc : t.core.pc = BitVec.ofNat 64 (l.f 0 8) := congrArg (fun v => v.2.2.1) hbound
  have hr : t.core.r = l.regs s.core.id i step := (congrArg (fun v => v.2.2.2) hbound).trans (by rw [hcore])
  obtain ⟨k, hk, hkt⟩ := Option.map_eq_some_iff.1 (congrArg (fun v => v.2.1) hbound)
  refine ⟨t, k, hexec, (congrArg (fun v => v.1) haround).trans hhand, hst, hk, congrArg Task.serial hkt,
    congrArg Task.index hkt, congrArg Task.context hkt, congrArg Task.scratch hkt, hpc, ?_⟩
  rw [hr]
  exact ⟨l.regs_getS _ _ _, l.regs_getP _ _ _, rfl, rfl, rfl,
    fun hn a => congrArg (fun m => memGet m a) ((congrArg (fun v => v.2.1) haround).trans (hmem hn)),
    (congrArg (fun v => v.2.2.usable) haround).trans husable⟩

/-- Settles O47: a selection by its one offer; a binding by what it makes of the core, but for what landing windows bring; the
preload by the fill of its rows; first issue by what its fetch and its acquire leave. -/
theorem binding : Obligations.Binding := by
  refine ⟨selection, ?_, ?_, firstIssue⟩
  · intro s x l i hh hl hslots hstage htasks hstop hcancel hrq
    have h : HandsOver s x l i := ⟨hh, hl, hslots, hstage, htasks, hstop, hcancel⟩
    exact ⟨h.goes_back, h.binds hrq⟩
  · intro s k l bs hk hst hpre hl hans hland hhbm hread
    obtain ⟨hwait, hfill⟩ := preloadComplete s k l bs hk hst hpre hl hans hland hhbm hread
    refine ⟨hwait, fun h => ?_⟩
    obtain ⟨u, hlook, hexec⟩ := hfill h
    exact ⟨_, hexec, preload_fills s u k _ _ _ hk hlook _ rfl⟩

end Sys2Proof.Machine
end

section
/-! PROOFS. The word formats: each reads back what it writes, and writes back what it reads (R54, R58, R62 to R70,
R189). -/

namespace Sys2Proof

theorem field_toNat (w lo n : Nat) : (field w lo n).toNat = w / 2 ^ lo % 2 ^ n := BitVec.toNat_ofNat _ _

theorem field_eq_iff {w lo n : Nat} {x : BitVec n} : field w lo n = x ↔ w / 2 ^ lo % 2 ^ n = x.toNat := by
  rw [← BitVec.toNat_inj, field_toNat]

theorem bit_flag (w lo : Nat) : bit (flag w lo) = w / 2 ^ lo % 2 := by
  unfold flag bit
  split <;> simp_all

theorem flag_eq_iff {w lo : Nat} {b : Bool} : flag w lo = b ↔ w / 2 ^ lo % 2 = bit b := by
  cases b <;> simp [flag, bit]

theorem hdr_eq_iff {w : Nat} {h : Hdr} : hdr w = h ↔ w / 2 ^ 31 % 2 = bit h.a ∧ w / 2 ^ 25 % 2 ^ 6 = h.g.toNat := by
  obtain ⟨a, g⟩ := h
  simp only [hdr, Hdr.mk.injEq, flag_eq_iff, field_eq_iff]

theorem hdr_enc (w op : Nat) :
    (hdr w).enc op = w / 2 ^ 31 % 2 * 2147483648 + w / 2 ^ 25 % 2 ^ 6 * 33554432 + op * 262144 := by
  simp only [Hdr.enc, hdr, bit_flag, field_toNat]

theorem zeroAt_nil (w : Nat) : zeroAt w [] = true := rfl

theorem zeroAt_cons (w lo n : Nat) (fs : List (Nat × Nat)) :
    zeroAt w ((lo, n) :: fs) = true ↔ w / 2 ^ lo % 2 ^ n = 0 ∧ zeroAt w fs = true := by
  simp [zeroAt]

/-- A format loses nothing: the words it writes, whose opcode stands at `unit`, are of 32 bits, show their opcode, have
their unused bits zero and are read back; and a word whose unused bits are zero is written back from what is read. -/
structure Lossless {α : Type} (read : Nat → α) (enc : α → Nat → Nat) (unused : List (Nat × Nat)) (unit : Nat) :
    Prop where
  read_enc : ∀ o op, op < 128 →
    enc o op < 2 ^ 32 ∧ enc o op / unit % 128 = op ∧ zeroAt (enc o op) unused = true ∧ read (enc o op) = o
  enc_read : ∀ w, w < 2 ^ 32 → zeroAt w unused = true → enc (read w) (w / unit % 128) = w

/-- A format with the bits of another under other names loses nothing either. -/
theorem Lossless.rename {α β : Type} {read : Nat → α} {enc : α → Nat → Nat} {read' : Nat → β} {enc' : β → Nat → Nat}
    {unused : List (Nat × Nat)} {unit : Nat} (hl : Lossless read enc unused unit) (f : α → β)
    (hf : ∀ o', ∃ o, f o = o') (hread : ∀ w, read' w = f (read w)) (henc : ∀ o op, enc' (f o) op = enc o op) :
    Lossless read' enc' unused unit where
  read_enc o' op hop := by
    obtain ⟨o, rfl⟩ := hf o'
    obtain ⟨hlt, hat, hzero, hback⟩ := hl.read_enc o op hop
    rw [henc, hread, hback]
    exact ⟨hlt, hat, hzero, rfl⟩
  enc_read w hw hz := by rw [hread, henc, hl.enc_read w hw hz]

/-- A field below bit n sees nothing of what lies above it. -/
theorem mod_two_pow_div_mod (x n lo w : Nat) (h : lo + w ≤ n) : x % 2 ^ n / 2 ^ lo % 2 ^ w = x / 2 ^ lo % 2 ^ w := by
  rw [show n = lo + (n - lo) by omega, Nat.pow_add, Nat.mod_mul_right_div_self,
    Nat.mod_mod_of_dvd _ (Nat.pow_dvd_pow 2 (by omega))]

theorem zeroAt_low {w : Nat} {fs : List (Nat × Nat)} (hfs : ∀ f ∈ fs, f.1 + f.2 ≤ 18) :
    zeroAt w fs = zeroAt (w % 2 ^ 18) fs := by
  rw [Bool.eq_iff_iff, zeroAt, zeroAt, List.all_eq_true, List.all_eq_true]
  exact forall₂_congr fun f hf => by rw [mod_two_pow_div_mod _ _ _ _ (hfs f hf)]

/-- Where the operands stand in bits [17:0], below the opcode of R58, a format loses nothing if their body does. -/
theorem Lossless.of_body {α : Type} {read : Nat → α} {enc : α → Nat → Nat} {unused : List (Nat × Nat)} (hd : α → Hdr)
    (body : α → Nat) (henc : ∀ o op, enc o op = (hd o).enc op + body o) (hunused : ∀ f ∈ unused, f.1 + f.2 ≤ 18)
    (hbody : ∀ o, body o < 2 ^ 18 ∧ zeroAt (body o) unused = true)
    (hread : ∀ o w, hdr w = hd o → w % 2 ^ 18 = body o → read w = o)
    (hback : ∀ w, zeroAt w unused = true → hd (read w) = hdr w ∧ body (read w) = w % 2 ^ 18) :
    Lossless read enc unused 262144 where
  read_enc o op hop := by
    obtain ⟨hlt, hzero⟩ := hbody o
    have ha := Laws.bit_le (hd o).a
    have hlow : enc o op = bit (hd o).a * 2147483648 + (hd o).g.toNat * 33554432 + op * 262144 + body o := henc o op
    have hh : hdr (enc o op) = hd o := hdr_eq_iff.2 (by omega)
    rw [zeroAt_low hunused, show enc o op % 2 ^ 18 = body o by omega]
    exact ⟨by omega, by omega, hzero, hread _ _ hh (by omega)⟩
  enc_read w hw hz := by
    obtain ⟨hh, hb⟩ := hback w hz
    rw [henc, hh, hb, hdr_enc]
    omega

theorem hdr_lossless : Lossless hdr Hdr.enc [(0, 18)] 262144 :=
  .of_body id (fun _ => 0) (fun _ _ => (Nat.add_zero _).symm) (by decide) (fun _ => by decide)
    (fun _ _ hh _ => hh) fun w hz => by
    simp only [zeroAt_nil, zeroAt_cons, and_true] at hz
    exact ⟨rfl, by omega⟩

/-- The word of the V class's NOP, by its opcode, which is 0 (R61). -/
def nopVEnc (o : NopVOp) (op : Nat) : Nat := bit o.a * 2147483648 + op * 16777216

theorem nopVOp_lossless : Lossless nopVOp nopVEnc [(0, 24)] 16777216 where
  read_enc := by
    rintro ⟨a⟩ op hop
    have := Laws.bit_le a
    simp only [nopVOp, nopVEnc, flag_eq_iff, zeroAt_nil, zeroAt_cons, and_true, NopVOp.mk.injEq]
    omega
  enc_read w hw hz := by
    simp only [nopVOp, nopVEnc, bit_flag, zeroAt_nil, zeroAt_cons, and_true] at hz ⊢
    omega

theorem vOp_lossless : Lossless vOp VOp.enc [] 16777216 where
  read_enc := by
    rintro ⟨a, w, t, m, vd, va, vb⟩ op hop
    have := Laws.bit_le a
    simp only [vOp, VOp.enc, flag_eq_iff, field_eq_iff, zeroAt_nil, VOp.mk.injEq, true_and]
    omega
  enc_read w hw _ := by
    simp only [vOp, VOp.enc, bit_flag, field_toNat]
    omega

theorem sROp_lossless : Lossless sROp SROp.enc [] 262144 :=
  .of_body SROp.h (fun o => o.rd.toNat * 4096 + o.ra.toNat * 64 + o.rb.toNat)
    (fun _ _ => by simp only [SROp.enc, Nat.add_assoc]) (by decide)
    (fun o => by simp only [zeroAt_nil, and_true]; omega)
    (fun o w hh hw => by cases o; simp only [sROp, SROp.mk.injEq, hh, true_and, field_eq_iff] at hw ⊢; omega)
    fun w _ => by simp only [sROp, true_and, field_toNat]; omega

theorem sR2Op_lossless : Lossless sR2Op SR2Op.enc [(0, 6)] 262144 :=
  .of_body SR2Op.h (fun o => o.rd.toNat * 4096 + o.ra.toNat * 64)
    (fun _ _ => by simp only [SR2Op.enc, Nat.add_assoc]) (by decide)
    (fun o => by simp only [zeroAt_nil, zeroAt_cons, and_true]; omega)
    (fun o w hh hw => by cases o; simp only [sR2Op, SR2Op.mk.injEq, hh, true_and, field_eq_iff] at hw ⊢; omega)
    fun w hz => by simp only [sR2Op, true_and, field_toNat, zeroAt_nil, zeroAt_cons, and_true] at hz ⊢; omega

theorem sIOp_lossless : Lossless sIOp SIOp.enc [] 262144 :=
  sROp_lossless.rename (fun o => ⟨o.h, o.rd, o.ra, o.rb⟩) (fun ⟨h, rd, ra, imm⟩ => ⟨⟨h, rd, ra, imm⟩, rfl⟩)
    (fun _ => rfl) fun _ _ => rfl

theorem sKOp_lossless : Lossless sKOp SKOp.enc [] 262144 :=
  .of_body SKOp.h (fun o => o.rd.toNat * 4096 + o.imm.toNat)
    (fun _ _ => by simp only [SKOp.enc, Nat.add_assoc]) (by decide)
    (fun o => by simp only [zeroAt_nil, and_true]; omega)
    (fun o w hh hw => by cases o; simp only [sKOp, SKOp.mk.injEq, hh, true_and, field_eq_iff] at hw ⊢; omega)
    fun w _ => by simp only [sKOp, true_and, field_toNat]; omega

theorem cmpOp_lossless : Lossless cmpOp CmpOp.enc [] 262144 :=
  sROp_lossless.rename (fun o => ⟨o.h, o.rd, o.ra, o.rb⟩) (fun ⟨h, pd, ra, rb⟩ => ⟨⟨h, pd, ra, rb⟩, rfl⟩)
    (fun _ => rfl) fun _ _ => rfl

theorem cmpIOp_lossless : Lossless cmpIOp CmpIOp.enc [] 262144 :=
  sROp_lossless.rename (fun o => ⟨o.h, o.rd, o.ra, o.rb⟩) (fun ⟨h, pd, ra, imm⟩ => ⟨⟨h, pd, ra, imm⟩, rfl⟩)
    (fun _ => rfl) fun _ _ => rfl

theorem predOp_lossless : Lossless predOp PredOp.enc [] 262144 :=
  sROp_lossless.rename (fun o => ⟨o.h, o.rd, o.ra, o.rb⟩) (fun ⟨h, pd, pa, pb⟩ => ⟨⟨h, pd, pa, pb⟩, rfl⟩)
    (fun _ => rfl) fun _ _ => rfl

theorem rdOp_lossless : Lossless rdOp RdOp.enc [(0, 12)] 262144 :=
  .of_body RdOp.h (fun o => o.rd.toNat * 4096)
    (fun _ _ => rfl) (by decide)
    (fun o => by simp only [zeroAt_nil, zeroAt_cons, and_true]; omega)
    (fun o w hh hw => by cases o; simp only [rdOp, RdOp.mk.injEq, hh, true_and, field_eq_iff] at hw ⊢; omega)
    fun w hz => by simp only [rdOp, true_and, field_toNat, zeroAt_nil, zeroAt_cons, and_true] at hz ⊢; omega

theorem raOp_lossless : Lossless raOp RaOp.enc [(0, 6), (12, 6)] 262144 :=
  .of_body RaOp.h (fun o => o.ra.toNat * 64)
    (fun _ _ => rfl) (by decide)
    (fun o => by simp only [zeroAt_nil, zeroAt_cons, and_true]; omega)
    (fun o w hh hw => by cases o; simp only [raOp, RaOp.mk.injEq, hh, true_and, field_eq_iff] at hw ⊢; omega)
    fun w hz => by simp only [raOp, true_and, field_toNat, zeroAt_nil, zeroAt_cons, and_true] at hz ⊢; omega

theorem brOp_lossless : Lossless brOp BrOp.enc [] 262144 :=
  .of_body BrOp.h (fun o => o.disp.toNat)
    (fun _ _ => rfl) (by decide)
    (fun o => by simp only [zeroAt_nil, and_true]; omega)
    (fun o w hh hw => by cases o; simp only [brOp, BrOp.mk.injEq, hh, true_and, field_eq_iff] at hw ⊢; omega)
    fun w _ => by simp only [brOp, true_and, field_toNat]; omega

theorem loopOp_lossless : Lossless loopOp LoopOp.enc [] 262144 :=
  .of_body LoopOp.h (fun o => o.lc.toNat * 65536 + o.ra.toNat * 1024 + o.len.toNat)
    (fun _ _ => by simp only [LoopOp.enc, Nat.add_assoc]) (by decide)
    (fun o => by simp only [zeroAt_nil, and_true]; omega)
    (fun o w hh hw => by cases o; simp only [loopOp, LoopOp.mk.injEq, hh, true_and, field_eq_iff] at hw ⊢; omega)
    fun w _ => by simp only [loopOp, true_and, field_toNat]; omega

theorem loopIOp_lossless : Lossless loopIOp LoopIOp.enc [] 262144 :=
  loopOp_lossless.rename (fun o => ⟨o.h, o.lc, o.ra, o.len⟩) (fun ⟨h, lc, imm, len⟩ => ⟨⟨h, lc, imm, len⟩, rfl⟩)
    (fun _ => rfl) fun _ _ => rfl

theorem lcOp_lossless : Lossless lcOp LcOp.enc [(0, 16)] 262144 :=
  .of_body LcOp.h (fun o => o.lc.toNat * 65536)
    (fun _ _ => rfl) (by decide)
    (fun o => by simp only [zeroAt_nil, zeroAt_cons, and_true]; omega)
    (fun o w hh hw => by cases o; simp only [lcOp, LcOp.mk.injEq, hh, true_and, field_eq_iff] at hw ⊢; omega)
    fun w hz => by simp only [lcOp, true_and, field_toNat, zeroAt_nil, zeroAt_cons, and_true] at hz ⊢; omega

theorem immOp_lossless : Lossless immOp ImmOp.enc [(12, 6)] 262144 :=
  .of_body ImmOp.h (fun o => o.imm.toNat)
    (fun _ _ => rfl) (by decide)
    (fun o => by simp only [zeroAt_nil, zeroAt_cons, and_true]; omega)
    (fun o w hh hw => by cases o; simp only [immOp, ImmOp.mk.injEq, hh, true_and, field_eq_iff] at hw ⊢; omega)
    fun w hz => by simp only [immOp, true_and, field_toNat, zeroAt_nil, zeroAt_cons, and_true] at hz ⊢; omega

theorem tokOp_lossless : Lossless tokOp TokOp.enc [(8, 10)] 262144 :=
  .of_body TokOp.h (fun o => o.mask.toNat)
    (fun _ _ => rfl) (by decide)
    (fun o => by simp only [zeroAt_nil, zeroAt_cons, and_true]; omega)
    (fun o w hh hw => by cases o; simp only [tokOp, TokOp.mk.injEq, hh, true_and, field_eq_iff] at hw ⊢; omega)
    fun w hz => by simp only [tokOp, true_and, field_toNat, zeroAt_nil, zeroAt_cons, and_true] at hz ⊢; omega

theorem tlOp_lossless : Lossless tlOp TlOp.enc [(0, 6), (12, 2)] 262144 :=
  .of_body TlOp.h (fun o => o.tl.toNat * 16384 + o.ra.toNat * 64)
    (fun _ _ => by simp only [TlOp.enc, Nat.add_assoc]) (by decide)
    (fun o => by simp only [zeroAt_nil, zeroAt_cons, and_true]; omega)
    (fun o w hh hw => by cases o; simp only [tlOp, TlOp.mk.injEq, hh, true_and, field_eq_iff] at hw ⊢; omega)
    fun w hz => by simp only [tlOp, true_and, field_toNat, zeroAt_nil, zeroAt_cons, and_true] at hz ⊢; omega

theorem binitOp_lossless : Lossless binitOp BinitOp.enc [(0, 6), (17, 1)] 262144 :=
  .of_body BinitOp.h (fun o => o.b.toNat * 4096 + o.ra.toNat * 64)
    (fun _ _ => by simp only [BinitOp.enc, Nat.add_assoc]) (by decide)
    (fun o => by simp only [zeroAt_nil, zeroAt_cons, and_true]; omega)
    (fun o w hh hw => by cases o; simp only [binitOp, BinitOp.mk.injEq, hh, true_and, field_eq_iff] at hw ⊢; omega)
    fun w hz => by simp only [binitOp, true_and, field_toNat, zeroAt_nil, zeroAt_cons, and_true] at hz ⊢; omega

theorem barOp_lossless : Lossless barOp BarOp.enc [(0, 12), (17, 1)] 262144 :=
  .of_body BarOp.h (fun o => o.b.toNat * 4096)
    (fun _ _ => rfl) (by decide)
    (fun o => by simp only [zeroAt_nil, zeroAt_cons, and_true]; omega)
    (fun o w hh hw => by cases o; simp only [barOp, BarOp.mk.injEq, hh, true_and, field_eq_iff] at hw ⊢; omega)
    fun w hz => by simp only [barOp, true_and, field_toNat, zeroAt_nil, zeroAt_cons, and_true] at hz ⊢; omega

theorem lvOp_lossless : Lossless lvOp LvOp.enc [(0, 12), (15, 3)] 262144 :=
  .of_body LvOp.h (fun o => o.n.toNat * 4096)
    (fun _ _ => rfl) (by decide)
    (fun o => by simp only [zeroAt_nil, zeroAt_cons, and_true]; omega)
    (fun o w hh hw => by cases o; simp only [lvOp, LvOp.mk.injEq, hh, true_and, field_eq_iff] at hw ⊢; omega)
    fun w hz => by simp only [lvOp, true_and, field_toNat, zeroAt_nil, zeroAt_cons, and_true] at hz ⊢; omega

theorem xFOp_lossless : Lossless xFOp XFOp.enc [(0, 1)] 262144 :=
  .of_body XFOp.h (fun o => o.vd.toNat * 8192 + o.va.toNat * 256 + o.t.toNat * 32 + o.m.toNat * 2)
    (fun _ _ => by simp only [XFOp.enc, Nat.add_assoc]) (by decide)
    (fun o => by simp only [zeroAt_nil, zeroAt_cons, and_true]; omega)
    (fun o w hh hw => by cases o; simp only [xFOp, XFOp.mk.injEq, hh, true_and, field_eq_iff] at hw ⊢; omega)
    fun w hz => by simp only [xFOp, true_and, field_toNat, zeroAt_nil, zeroAt_cons, and_true] at hz ⊢; omega

theorem mmaOp_lossless : Lossless mmaOp MmaOp.enc [] 262144 :=
  .of_body MmaOp.h
    (fun o => o.tile.toNat * 2048 + o.sd.toNat * 32 + o.ss.toNat * 8 + bit o.sa * 4 + bit o.sb * 2 + bit o.z)
    (fun _ _ => by simp only [MmaOp.enc, Nat.add_assoc]) (by decide)
    (fun o => by
      have := Laws.bit_le o.sa; have := Laws.bit_le o.sb; have := Laws.bit_le o.z
      simp only [zeroAt_nil, and_true]
      omega)
    (fun o w hh hw => by
      obtain ⟨_, _, _, _, sa, sb, z⟩ := o
      have := Laws.bit_le sa; have := Laws.bit_le sb; have := Laws.bit_le z
      simp only [mmaOp, MmaOp.mk.injEq, hh, true_and, flag_eq_iff, field_eq_iff] at hw ⊢
      omega)
    fun w _ => by simp only [mmaOp, true_and, bit_flag, field_toNat]; omega

theorem mzeroOp_lossless : Lossless mzeroOp MzeroOp.enc [(2, 9)] 262144 :=
  .of_body MzeroOp.h (fun o => o.tile.toNat * 2048 + o.acc.toNat)
    (fun _ _ => by simp only [MzeroOp.enc, Nat.add_assoc]) (by decide)
    (fun o => by simp only [zeroAt_nil, zeroAt_cons, and_true]; omega)
    (fun o w hh hw => by cases o; simp only [mzeroOp, MzeroOp.mk.injEq, hh, true_and, field_eq_iff] at hw ⊢; omega)
    fun w hz => by simp only [mzeroOp, true_and, field_toNat, zeroAt_nil, zeroAt_cons, and_true] at hz ⊢; omega

theorem mldtOp_lossless : Lossless mldtOp MldtOp.enc [(2, 3)] 262144 :=
  .of_body MldtOp.h (fun o => o.tile.toNat * 2048 + o.sd.toNat * 32 + o.acc.toNat)
    (fun _ _ => by simp only [MldtOp.enc, Nat.add_assoc]) (by decide)
    (fun o => by simp only [zeroAt_nil, zeroAt_cons, and_true]; omega)
    (fun o w hh hw => by cases o; simp only [mldtOp, MldtOp.mk.injEq, hh, true_and, field_eq_iff] at hw ⊢; omega)
    fun w hz => by simp only [mldtOp, true_and, field_toNat, zeroAt_nil, zeroAt_cons, and_true] at hz ⊢; omega

theorem msttOp_lossless : Lossless msttOp MsttOp.enc [(0, 5)] 262144 :=
  .of_body MsttOp.h (fun o => o.tile.toNat * 2048 + o.sd.toNat * 32)
    (fun _ _ => by simp only [MsttOp.enc, Nat.add_assoc]) (by decide)
    (fun o => by simp only [zeroAt_nil, zeroAt_cons, and_true]; omega)
    (fun o w hh hw => by cases o; simp only [msttOp, MsttOp.mk.injEq, hh, true_and, field_eq_iff] at hw ⊢; omega)
    fun w hz => by simp only [msttOp, true_and, field_toNat, zeroAt_nil, zeroAt_cons, and_true] at hz ⊢; omega

theorem mdrainOp_lossless : Lossless mdrainOp MdrainOp.enc [(2, 3)] 262144 :=
  .of_body MdrainOp.h (fun o => o.tile.toNat * 2048 + o.sd.toNat * 32 + bit o.uns * 2 + bit o.req)
    (fun _ _ => by simp only [MdrainOp.enc, Nat.add_assoc]) (by decide)
    (fun o => by
      have := Laws.bit_le o.uns; have := Laws.bit_le o.req
      simp only [zeroAt_nil, zeroAt_cons, and_true]
      omega)
    (fun o w hh hw => by
      obtain ⟨_, _, _, uns, req⟩ := o
      have := Laws.bit_le uns; have := Laws.bit_le req
      simp only [mdrainOp, MdrainOp.mk.injEq, hh, true_and, flag_eq_iff, field_eq_iff] at hw ⊢
      omega)
    fun w hz => by
      simp only [mdrainOp, true_and, bit_flag, field_toNat, zeroAt_nil, zeroAt_cons, and_true] at hz ⊢; omega

theorem mrsumOp_lossless : Lossless mrsumOp MrsumOp.enc [(5, 6)] 262144 :=
  .of_body MrsumOp.h (fun o => o.tile.toNat * 2048 + o.sh.toNat * 4 + bit o.neg * 2 + bit o.row)
    (fun _ _ => by simp only [MrsumOp.enc, Nat.add_assoc]) (by decide)
    (fun o => by
      have := Laws.bit_le o.neg; have := Laws.bit_le o.row
      simp only [zeroAt_nil, zeroAt_cons, and_true]
      omega)
    (fun o w hh hw => by
      obtain ⟨_, _, _, neg, row⟩ := o
      have := Laws.bit_le neg; have := Laws.bit_le row
      simp only [mrsumOp, MrsumOp.mk.injEq, hh, true_and, flag_eq_iff, field_eq_iff] at hw ⊢
      omega)
    fun w hz => by
      simp only [mrsumOp, true_and, bit_flag, field_toNat, zeroAt_nil, zeroAt_cons, and_true] at hz ⊢; omega

theorem mmodeOp_lossless : Lossless mmodeOp MmodeOp.enc [(0, 14), (17, 1)] 262144 :=
  .of_body MmodeOp.h (fun o => o.rnd.toNat * 32768 + bit o.sat * 16384)
    (fun _ _ => by simp only [MmodeOp.enc, Nat.add_assoc]) (by decide)
    (fun o => by
      have := Laws.bit_le o.sat
      simp only [zeroAt_nil, zeroAt_cons, and_true]
      omega)
    (fun o w hh hw => by
      obtain ⟨_, _, sat⟩ := o
      have := Laws.bit_le sat
      simp only [mmodeOp, MmodeOp.mk.injEq, hh, true_and, flag_eq_iff, field_eq_iff] at hw ⊢
      omega)
    fun w hz => by
      simp only [mmodeOp, true_and, bit_flag, field_toNat, zeroAt_nil, zeroAt_cons, and_true] at hz ⊢; omega

theorem mstatOp_lossless : Lossless mstatOp MstatOp.enc [(0, 5)] 262144 :=
  msttOp_lossless.rename (fun o => ⟨o.h, o.tile, o.sd⟩) (fun ⟨h, tile, rd⟩ => ⟨⟨h, tile, rd⟩, rfl⟩)
    (fun _ => rfl) fun _ _ => rfl

theorem ldOp_lossless : Lossless ldOp LdOp.enc [] 262144 :=
  sROp_lossless.rename (fun o => ⟨o.h, o.rd, o.ra, o.rb⟩) (fun ⟨h, rd, ra, l⟩ => ⟨⟨h, rd, ra, l⟩, rfl⟩)
    (fun _ => rfl) fun _ _ => rfl

theorem stOp_lossless : Lossless stOp StOp.enc [] 262144 :=
  sROp_lossless.rename (fun o => ⟨o.h, o.rd, o.ra, o.rb⟩) (fun ⟨h, src, ra, imm⟩ => ⟨⟨h, src, ra, imm⟩, rfl⟩)
    (fun _ => rfl) fun _ _ => rfl

theorem vLdOp_lossless : Lossless vLdOp VLdOp.enc [(17, 1)] 262144 :=
  .of_body VLdOp.h (fun o => o.v.toNat * 4096 + o.ra.toNat * 64 + o.l.toNat)
    (fun _ _ => by simp only [VLdOp.enc, Nat.add_assoc]) (by decide)
    (fun o => by simp only [zeroAt_nil, zeroAt_cons, and_true]; omega)
    (fun o w hh hw => by cases o; simp only [vLdOp, VLdOp.mk.injEq, hh, true_and, field_eq_iff] at hw ⊢; omega)
    fun w hz => by simp only [vLdOp, true_and, field_toNat, zeroAt_nil, zeroAt_cons, and_true] at hz ⊢; omega

theorem vStOp_lossless : Lossless vStOp VStOp.enc [(17, 1)] 262144 :=
  vLdOp_lossless.rename (fun o => ⟨o.h, o.v, o.ra, o.l⟩) (fun ⟨h, v, ra, imm⟩ => ⟨⟨h, v, ra, imm⟩, rfl⟩)
    (fun _ => rfl) fun _ _ => rfl

theorem fenceOp_lossless : Lossless fenceOp FenceOp.enc [(0, 12), (14, 1)] 262144 :=
  .of_body FenceOp.h (fun o => o.scope.toNat * 32768 + o.kind.toNat * 4096)
    (fun _ _ => by simp only [FenceOp.enc, Nat.add_assoc]) (by decide)
    (fun o => by simp only [zeroAt_nil, zeroAt_cons, and_true]; omega)
    (fun o w hh hw => by cases o; simp only [fenceOp, FenceOp.mk.injEq, hh, true_and, field_eq_iff] at hw ⊢; omega)
    fun w hz => by simp only [fenceOp, true_and, field_toNat, zeroAt_nil, zeroAt_cons, and_true] at hz ⊢; omega

theorem pfcOp_lossless : Lossless pfcOp PfcOp.enc [(0, 6)] 262144 :=
  sR2Op_lossless.rename (fun o => ⟨o.h, o.rd, o.ra⟩) (fun ⟨h, n, ra⟩ => ⟨⟨h, n, ra⟩, rfl⟩)
    (fun _ => rfl) fun _ _ => rfl

theorem cpyOp_lossless : Lossless cpyOp CpyOp.enc [] 262144 :=
  .of_body CpyOp.h (fun o => o.ra.toNat * 4096 + o.k.toNat * 512 + bit o.sen * 256 + o.wait.toNat)
    (fun _ _ => by simp only [CpyOp.enc, Nat.add_assoc]) (by decide)
    (fun o => by
      have := Laws.bit_le o.sen
      simp only [zeroAt_nil, and_true]
      omega)
    (fun o w hh hw => by
      obtain ⟨_, _, _, sen, _⟩ := o
      have := Laws.bit_le sen
      simp only [cpyOp, CpyOp.mk.injEq, hh, true_and, flag_eq_iff, field_eq_iff] at hw ⊢
      omega)
    fun w _ => by simp only [cpyOp, true_and, bit_flag, field_toNat]; omega

theorem qpopOp_lossless : Lossless qpopOp QpopOp.enc [(0, 8)] 262144 :=
  .of_body QpopOp.h (fun o => o.rd.toNat * 4096 + o.q.toNat * 256)
    (fun _ _ => by simp only [QpopOp.enc, Nat.add_assoc]) (by decide)
    (fun o => by simp only [zeroAt_nil, zeroAt_cons, and_true]; omega)
    (fun o w hh hw => by cases o; simp only [qpopOp, QpopOp.mk.injEq, hh, true_and, field_eq_iff] at hw ⊢; omega)
    fun w hz => by simp only [qpopOp, true_and, field_toNat, zeroAt_nil, zeroAt_cons, and_true] at hz ⊢; omega

theorem qpushOp_lossless : Lossless qpushOp QpushOp.enc [(0, 8)] 262144 :=
  qpopOp_lossless.rename (fun o => ⟨o.h, o.rd, o.q⟩) (fun ⟨h, ra, q⟩ => ⟨⟨h, ra, q⟩, rfl⟩)
    (fun _ => rfl) fun _ _ => rfl

end Sys2Proof
end

section
/-! PROOFS. Decoding and encoding: each instruction that has a word stands at one opcode of its class, in a format that
loses nothing (R54, R75, R77). -/

namespace Sys2Proof

/-- What one step of a word's opcode is worth: bit 18, and bit 24 in the V class (R58, R65). -/
def Cls.opUnit : Cls → Nat
  | .v => 16777216
  | _ => 262144

/-- The opcode maps of the four classes (R77). -/
def rawOp : Cls → Nat → Nat → Option Instr
  | .s => rawS
  | .v => rawV
  | .x => rawX
  | .m => rawM

theorem rawInstr_eq (c : Cls) (w : Nat) : rawInstr c w = rawOp c (w / c.opUnit % 128) w := by cases c <;> rfl

/-- The instruction stands at opcode `op` of class `c`, in a format that loses nothing. -/
def StandsAt (c : Cls) (op : Nat) (i : Instr) : Prop :=
  ∃ (α : Type) (k : α → Instr) (o : α) (read : Nat → α) (enc : α → Nat → Nat) (unused : List (Nat × Nat)),
    i = k o ∧ Lossless read enc unused c.opUnit ∧ (∀ o, encode (k o) = enc o op) ∧
    (∀ w, rawOp c op w = some (k (read w))) ∧ ∀ o, (k o).reserved = unused

/-- Where an instruction stands, its word shows that opcode and is read back. -/
theorem StandsAt.rawOp_encode {c : Cls} {op : Nat} {i : Instr} (h : StandsAt c op i) (hop : op < 128) :
    encode i < 2 ^ 32 ∧ encode i / c.opUnit % 128 = op ∧ rawOp c op (encode i) = some i ∧
    zeroAt (encode i) i.reserved = true := by
  obtain ⟨α, k, o, read, enc, unused, rfl, hl, henc, hraw, hres⟩ := h
  obtain ⟨hlt, hat, hzero, hback⟩ := hl.read_enc o op hop
  rw [henc, hres, hraw, hback]
  exact ⟨hlt, hat, rfl, hzero⟩

/-- A word read at the opcode where its instruction stands is that instruction's word. -/
theorem StandsAt.encode_eq {c : Cls} {w : Nat} {i : Instr} (h : StandsAt c (w / c.opUnit % 128) i) (hw : w < 2 ^ 32)
    (hi : rawInstr c w = some i) (hz : zeroAt w i.reserved = true) : encode i = w := by
  obtain ⟨α, k, o, read, enc, unused, rfl, hl, henc, hraw, hres⟩ := h
  rw [hres] at hz
  rw [rawInstr_eq, hraw, Option.some_inj] at hi
  rw [← hi, henc, hl.enc_read w hw hz]

theorem exists_standsAt_of {α : Type} {k : α → Instr} {o : α} {read : Nat → α} {enc : α → Nat → Nat}
    {unused : List (Nat × Nat)} {c : Cls} {op : Nat} (hl : Lossless read enc unused c.opUnit)
    (henc : ∀ o, encode (k o) = enc o op) (hraw : ∀ w, rawOp c op w = some (k (read w)))
    (hres : ∀ o, (k o).reserved = unused) (hop : op < 128) : ∃ op < 128, StandsAt c op (k o) :=
  ⟨op, hop, α, k, o, read, enc, unused, rfl, hl, henc, hraw, hres⟩

/-- Each instruction that has a word stands at an opcode of its class (R77). -/
theorem exists_standsAt (i : Instr) (c : Cls) (hc : i.cls = some c) (hf : i.fieldsOk = true) :
    ∃ op < 128, StandsAt c op i := by
  cases i with
  | nop o =>
    obtain ⟨c', h⟩ := o
    cases hc
    cases c' with
    | v => cases hf
    | s | x | m =>
      exact exists_standsAt_of (k := fun h => .nop ⟨_, h⟩) hdr_lossless (fun _ => rfl) (fun _ => rfl) (fun _ => rfl)
        (by decide)
  | nopV o =>
    cases hc
    exact exists_standsAt_of (op := 0) nopVOp_lossless (fun _ => (Nat.add_zero _).symm) (fun _ => rfl) (fun _ => rfl)
      (by decide)
  | add o | sub o | mul o | mulh o | mulhu o | divs o | divu o | remu o | and o | or o | xor o | andn o | shl o
  | shr o | sar o | rol o | min o | max o | minn o | maxn o | sel o | bext o | bins o | aadd o | amin o
  | amax o | aminn o | amaxn o | aand o | aor o | axor o | axchg o | acas o | afadd o =>
    cases hc
    exact exists_standsAt_of sROp_lossless (fun _ => rfl) (fun _ => rfl) (fun _ => rfl) (by decide)
  | clz o | popc o | spawn o =>
    cases hc
    exact exists_standsAt_of sR2Op_lossless (fun _ => rfl) (fun _ => rfl) (fun _ => rfl) (by decide)
  | addi o | shli o | shri o | sari o | andi o | ori o | xori o | roli o =>
    cases hc
    exact exists_standsAt_of sIOp_lossless (fun _ => rfl) (fun _ => rfl) (fun _ => rfl) (by decide)
  | movi o | movk o | addk o | srd o | swr o =>
    cases hc
    exact exists_standsAt_of sKOp_lossless (fun _ => rfl) (fun _ => rfl) (fun _ => rfl) (by decide)
  | cmpeq o | cmpne o | cmplt o | cmple o | cmpltn o | cmplen o =>
    cases hc
    exact exists_standsAt_of cmpOp_lossless (fun _ => rfl) (fun _ => rfl) (fun _ => rfl) (by decide)
  | cmpeqi o | cmpnei o | cmplti o | cmpgei o | cmpltni o | cmpgeni o =>
    cases hc
    exact exists_standsAt_of cmpIOp_lossless (fun _ => rfl) (fun _ => rfl) (fun _ => rfl) (by decide)
  | pand o | por o | pxor o | pandn o =>
    cases hc
    exact exists_standsAt_of predOp_lossless (fun _ => rfl) (fun _ => rfl) (fun _ => rfl) (by decide)
  | pget o | rdcyc o | rdmcc o | rdptp o =>
    cases hc
    exact exists_standsAt_of rdOp_lossless (fun _ => rfl) (fun _ => rfl) (fun _ => rfl) (by decide)
  | pset o | jr o | callr o | pf o | clwb o | clinv o =>
    cases hc
    exact exists_standsAt_of raOp_lossless (fun _ => rfl) (fun _ => rfl) (fun _ => rfl) (by decide)
  | br o | call o =>
    cases hc
    exact exists_standsAt_of brOp_lossless (fun _ => rfl) (fun _ => rfl) (fun _ => rfl) (by decide)
  | loop o =>
    cases hc
    exact exists_standsAt_of loopOp_lossless (fun _ => rfl) (fun _ => rfl) (fun _ => rfl) (by decide)
  | loopi o =>
    cases hc
    exact exists_standsAt_of loopIOp_lossless (fun _ => rfl) (fun _ => rfl) (fun _ => rfl) (by decide)
  | lbrk o =>
    cases hc
    exact exists_standsAt_of lcOp_lossless (fun _ => rfl) (fun _ => rfl) (fun _ => rfl) (by decide)
  | exit o | rett o | wfi o =>
    cases hc
    exact exists_standsAt_of hdr_lossless (fun _ => rfl) (fun _ => rfl) (fun _ => rfl) (by decide)
  | trap o | stamp o | hint o =>
    cases hc
    exact exists_standsAt_of immOp_lossless (fun _ => rfl) (fun _ => rfl) (fun _ => rfl) (by decide)
  | twait o | tsig o =>
    cases hc
    exact exists_standsAt_of tokOp_lossless (fun _ => rfl) (fun _ => rfl) (fun _ => rfl) (by decide)
  | tlwait o =>
    cases hc
    exact exists_standsAt_of tlOp_lossless (fun _ => rfl) (fun _ => rfl) (fun _ => rfl) (by decide)
  | binit o =>
    cases hc
    exact exists_standsAt_of binitOp_lossless (fun _ => rfl) (fun _ => rfl) (fun _ => rfl) (by decide)
  | barr o | bwait o | bsync o =>
    cases hc
    exact exists_standsAt_of barOp_lossless (fun _ => rfl) (fun _ => rfl) (fun _ => rfl) (by decide)
  | sstep o =>
    cases hc
    exact exists_standsAt_of lvOp_lossless (fun _ => rfl) (fun _ => rfl) (fun _ => rfl) (by decide)
  | vadd o | vsub o | vadds o | vaddsn o | vsubs o | vsubsn o | vmul o | vmulh o | vmac o | vmin o | vmax o
  | vminn o | vmaxn o | vabsd o | vavgn o | vand o | vor o | vxor o | vandn o | vshl o | vshr o | vsar o
  | vshli o | vshri o | vsari o | vclz o | vpopc o | vfadd o | vfsub o | vfmul o | vfma o | vfnma o | vfmin o
  | vfmax o | vfabs o | vfneg o | vcmpeq o | vcmpne o | vcmplt o | vcmple o | vcmpltn o | vcmplen o | vfcmpeq o
  | vfcmplt o | vfcmple o | vfcmpun o | mand o | mor o | mxor o | mandn o | many o | mall o | vpermb o
  | vpermw o | vrmrg o | vrev o | vzip o | vunzip o | vbcs o | vxs o | vmovi o | vmov o | vsel o | vcvt o
  | vcvtsr o | vnarrow o | vwiden o | vrng o | vredadd o | vredmax o | vredmin o | vfredadd o | vfredmax o =>
    cases hc
    exact exists_standsAt_of vOp_lossless (fun _ => rfl) (fun _ => rfl) (fun _ => rfl) (by decide)
  | xrcp o | xrsq o | xsqrt o | xexp2 o | xlog2 o | xsint o | xcost o | xtanh o | xsigm o | xgelu o =>
    cases hc
    exact exists_standsAt_of xFOp_lossless (fun _ => rfl) (fun _ => rfl) (fun _ => rfl) (by decide)
  | mma o =>
    cases hc
    exact exists_standsAt_of mmaOp_lossless (fun _ => rfl) (fun _ => rfl) (fun _ => rfl) (by decide)
  | mzero o =>
    cases hc
    exact exists_standsAt_of mzeroOp_lossless (fun _ => rfl) (fun _ => rfl) (fun _ => rfl) (by decide)
  | mldt o =>
    cases hc
    exact exists_standsAt_of mldtOp_lossless (fun _ => rfl) (fun _ => rfl) (fun _ => rfl) (by decide)
  | mstt o =>
    cases hc
    exact exists_standsAt_of msttOp_lossless (fun _ => rfl) (fun _ => rfl) (fun _ => rfl) (by decide)
  | mdrain o =>
    cases hc
    exact exists_standsAt_of mdrainOp_lossless (fun _ => rfl) (fun _ => rfl) (fun _ => rfl) (by decide)
  | mrsum o =>
    cases hc
    exact exists_standsAt_of mrsumOp_lossless (fun _ => rfl) (fun _ => rfl) (fun _ => rfl) (by decide)
  | mmode o =>
    cases hc
    exact exists_standsAt_of mmodeOp_lossless (fun _ => rfl) (fun _ => rfl) (fun _ => rfl) (by decide)
  | mstat o =>
    cases hc
    exact exists_standsAt_of mstatOp_lossless (fun _ => rfl) (fun _ => rfl) (fun _ => rfl) (by decide)
  | ld8 o | ld16 o | ld32 o | ld64 o | lds8 o | lds16 o | lds32 o =>
    cases hc
    exact exists_standsAt_of ldOp_lossless (fun _ => rfl) (fun _ => rfl) (fun _ => rfl) (by decide)
  | st8 o | st16 o | st32 o | st64 o =>
    cases hc
    exact exists_standsAt_of stOp_lossless (fun _ => rfl) (fun _ => rfl) (fun _ => rfl) (by decide)
  | vld1 o | vld2 o | vld4 o | spld o | spldh o | vgath o =>
    cases hc
    exact exists_standsAt_of vLdOp_lossless (fun _ => rfl) (fun _ => rfl) (fun _ => rfl) (by decide)
  | vst1 o | vst2 o | vst4 o | spst o | spsth o | vscat o =>
    cases hc
    exact exists_standsAt_of vStOp_lossless (fun _ => rfl) (fun _ => rfl) (fun _ => rfl) (by decide)
  | fence o =>
    cases hc
    exact exists_standsAt_of fenceOp_lossless (fun _ => rfl) (fun _ => rfl) (fun _ => rfl) (by decide)
  | pfc o =>
    cases hc
    exact exists_standsAt_of pfcOp_lossless (fun _ => rfl) (fun _ => rfl) (fun _ => rfl) (by decide)
  | cpy o | cpyf o | cpyt o | seqrun o =>
    cases hc
    exact exists_standsAt_of cpyOp_lossless (fun _ => rfl) (fun _ => rfl) (fun _ => rfl) (by decide)
  | qpop o =>
    cases hc
    exact exists_standsAt_of qpopOp_lossless (fun _ => rfl) (fun _ => rfl) (fun _ => rfl) (by decide)
  | qpush o =>
    cases hc
    exact exists_standsAt_of qpushOp_lossless (fun _ => rfl) (fun _ => rfl) (fun _ => rfl) (by decide)
  | _ => cases hc

/-- The constructor's number, by its opcode. -/
def ctorAt (c : Cls) (op : Nat) : Option Nat := (rawOp c op 0).map Instr.ctorIdx

/-- The opcode alone decides which constructor the maps answer. -/
theorem ctorAt_of_rawOp {c : Cls} {op w : Nat} {i : Instr} (h : rawOp c op w = some i) :
    ctorAt c op = some i.ctorIdx := by
  have hc : (rawOp c op w).map Instr.ctorIdx = ctorAt c op := by
    unfold ctorAt
    cases c <;> simp only [rawOp]
    case s => unfold rawS; split <;> rfl
    case v => unfold rawV; split <;> rfl
    case x => unfold rawX; split <;> rfl
    case m => unfold rawM; split <;> rfl
  rw [← hc, h]
  rfl

/-- No constructor stands at two opcodes of one class (R77). -/
theorem ctorAt_nodup (c : Cls) : (((List.range 128).filter fun op => (ctorAt c op).isSome).map (ctorAt c)).Nodup := by
  cases c <;> decide +kernel

/-- An instruction is read at the opcode where it stands, and nowhere else. -/
theorem StandsAt.opcode_eq {c : Cls} {op w : Nat} {i : Instr} (h : StandsAt c op i) (hop : op < 128)
    (hi : rawInstr c w = some i) : w / c.opUnit % 128 = op := by
  obtain ⟨-, -, hraw, -⟩ := h.rawOp_encode hop
  have hi' := ctorAt_of_rawOp (rawInstr_eq c w ▸ hi)
  have hat := ctorAt_of_rawOp hraw
  have hlt : w / c.opUnit % 128 < 128 := Nat.mod_lt _ (by decide)
  exact List.inj_on_of_nodup_map (ctorAt_nodup c) (by simp [hlt, hi']) (by simp [hop, hat]) (hi'.trans hat.symm)

/-- The pool header stands at no instruction's opcode (R77, R78). -/
theorem isPlh_eq_false_of_rawInstr {c : Cls} {w : Nat} {i : Instr} (h : rawInstr c w = some i) : isPlh c w = false := by
  rw [Bool.eq_false_iff]
  intro hp
  simp only [isPlh, Bool.and_eq_true, beq_iff_eq] at hp
  obtain ⟨rfl, hop⟩ := hp
  rw [rawInstr, hop] at h
  cases h

/-- What a slot decodes: a word its opcode map assigns, with zero reserved bits and admitted values (R75). -/
theorem decodeSlot_eq_ok_iff {c : Cls} {w : Nat} {i : Instr} :
    decodeSlot c w = .ok i ↔ rawInstr c w = some i ∧ zeroAt w i.reserved = true ∧ i.fieldsOk = true := by
  constructor
  · intro h
    unfold decodeSlot at h
    split at h
    · cases h
    · split at h
      · cases h
      · split at h
        · split at h
          · cases h
            exact ⟨‹_›, ‹_›, ‹_›⟩
          · cases h
        · cases h
  · rintro ⟨hraw, hz, hf⟩
    simp only [decodeSlot, isPlh_eq_false_of_rawInstr hraw, hraw, hz, hf, if_true, Bool.false_eq_true, if_false]

theorem decodeWord_eq_some_iff {c : Cls} {w : Nat} {i : Instr} :
    decodeWord c w = some i ↔ decodeSlot c w = .ok i ∧ i.predsOk = true := by
  unfold decodeWord
  split
  · next j hj =>
    rw [hj, Except.ok.injEq, Option.ite_none_right_eq_some, Option.some_inj]
    exact ⟨fun ⟨hp, h⟩ => ⟨h, h ▸ hp⟩, fun ⟨h, hp⟩ => ⟨h ▸ hp, h⟩⟩
  · next x hx => rw [hx]; simp

/-- The bounds on what an event names concern no instruction that has a word. -/
theorem argsOk_of_cls {i : Instr} {c : Cls} (h : i.cls = some c) : i.argsOk = true := by
  cases i with
  | arrayWindowSwitch | schedulerSelection | cancelAtDie | switchPoint | clockPauseEnd | clctlStep | clctlThr
  | clctlForcewa | throttleApply | sensorSample | tripOverheatWarning | correctedError | flitReceive | replayRequest
  | flitAck | retireMarker | landingWindowWrite | linkUp | keyRotation => cases h
  | _ => rfl

/-- Settles O53: an instruction stands at one opcode of its class, in a format that loses nothing. -/
theorem decodeOfEncode : Obligations.DecodeOfEncode := by
  intro i c hc
  refine ⟨fun hwf => ?_, fun w hw hdec => ?_⟩
  · simp only [Instr.wf, Bool.and_eq_true] at hwf
    obtain ⟨⟨hf, hp⟩, -⟩ := hwf
    obtain ⟨op, hop, hstand⟩ := exists_standsAt i c hc hf
    obtain ⟨hlt, hat, hraw, hzero⟩ := hstand.rawOp_encode hop
    exact ⟨hlt, decodeWord_eq_some_iff.2 ⟨decodeSlot_eq_ok_iff.2 ⟨by rw [rawInstr_eq, hat, hraw], hzero, hf⟩, hp⟩⟩
  · obtain ⟨hslot, hp⟩ := decodeWord_eq_some_iff.1 hdec
    obtain ⟨hraw, hzero, hf⟩ := decodeSlot_eq_ok_iff.1 hslot
    obtain ⟨op, hop, hstand⟩ := exists_standsAt i c hc hf
    obtain rfl := hstand.opcode_eq hop hraw
    exact ⟨hstand.encode_eq hw hraw hzero, by rw [Instr.wf, hf, hp, argsOk_of_cls hc]; rfl⟩

/-- Settles O52: the decoder runs on each of the words. -/
theorem decodedWords : Obligations.DecodedWords := by
  unfold Obligations.DecodedWords
  refine ⟨?_, ?_, ?_, ?_, ?_, ?_, ?_, ?_, ?_, ?_, ?_, ?_, ?_⟩ <;> decide

end Sys2Proof
end

section
/-! PROOFS. Tile transfers: MLDT, MSTT, MDRAIN and MSTAT (R59, R190, R194 to R197). -/

namespace Sys2Proof.Machine

theorem exec_mstat (o : MstatOp) (s : State) : exec (.mstat o) s = execMstat o s := rfl

/-! A direct word, by the tile port and its check (R190, R194). -/

/-- The tile port is taken for 16 cycles, with the rows that go to the shared ports (R194, R331). -/
def State.takeTilePort (s : State) (rows : List Nat) : State :=
  s.onCore fun c => { c with tilePort := 16, tileRows := c.tileRows ++ rows }

theorem direct_none (h : Hdr) (s : State) (tile : BitVec 7) (rows : List Nat) (f : State → State)
    (hg : s.rdP h.g = true) (hport : s.core.tilePort = 0) (hbusy : s.core.tileBusy tile.toNat = 0) :
    direct h s tile none rows f = .next (((f s).takeTilePort rows).arriveNow h.a) :=
  (if_pos hg).trans (if_neg fun h => h.elim (fun h => h hbusy) fun h => h hport)

theorem direct_held (h : Hdr) (s : State) (tile : BitVec 7) (chk : Option Trap) (rows : List Nat) (f : State → State)
    (hg : s.rdP h.g = true) (hheld : s.core.tileBusy tile.toNat ≠ 0 ∨ s.core.tilePort ≠ 0) :
    direct h s tile chk rows f = .next s.freeze :=
  (if_pos hg).trans (if_pos hheld)

theorem direct_suppressed (h : Hdr) (s : State) (tile : BitVec 7) (chk : Option Trap) (rows : List Nat)
    (f : State → State) (hg : s.rdP h.g = false) : direct h s tile chk rows f = .next (s.arriveNow h.a) :=
  if_neg (by rw [State.guard, hg]; exact Bool.false_ne_true)

/-! Numbers held digit by digit: rows of a tile, elements of a row (R15). -/

theorem digit_foldr {α : Type} (B : Nat) (l : List α) (f : α → Nat) (hf : ∀ x ∈ l, f x < B) (k : Nat) (hk : k < l.length) :
    l.foldr (fun x acc => f x + B * acc) 0 / B ^ k % B = f l[k] := by
  induction l generalizing k with
  | nil => exact absurd hk (Nat.not_lt_zero k)
  | cons x l ih =>
    have hx : f x < B := hf x List.mem_cons_self
    have hB : 0 < B := Nat.zero_lt_of_lt hx
    rw [List.foldr_cons]
    cases k with
    | zero => rw [pow_zero, Nat.div_one, Nat.add_mul_mod_self_left, Nat.mod_eq_of_lt hx, List.getElem_cons_zero]
    | succ k =>
      rw [pow_succ', ← Nat.div_div_eq_div_mul, Nat.add_mul_div_left _ _ hB, Nat.div_eq_of_lt hx, Nat.zero_add,
        ih (fun y hy => hf y (List.mem_cons_of_mem x hy)) k (Nat.lt_of_succ_lt_succ hk), List.getElem_cons_succ]

theorem toNat_extractLsb'_ofNat_of_le (x n lo w : Nat) (h : lo + w ≤ n) :
    ((BitVec.ofNat n x).extractLsb' lo w).toNat = x / 2 ^ lo % 2 ^ w := by
  rw [BitVec.extractLsb'_toNat, BitVec.toNat_ofNat, Nat.shiftRight_eq_div_pow, mod_two_pow_div_mod _ _ _ _ h]

/-- Element q of elements held as one number. -/
theorem extractLsb'_foldr {w : Nat} (l : List (BitVec w)) (n q : Nat) (hq : q < l.length) (hn : w * q + w ≤ n) :
    (BitVec.ofNat n (l.foldr (fun x acc => x.toNat + 2 ^ w * acc) 0)).extractLsb' (w * q) w = l[q] := by
  apply BitVec.eq_of_toNat_eq
  rw [toNat_extractLsb'_ofNat_of_le _ _ _ _ hn, pow_mul, digit_foldr _ l BitVec.toNat (fun x _ => x.isLt) q hq]

/-! Rows written in a run (R194, R195). -/

theorem Core.row_setRow_same (c : Core) (r : Nat) (x : Row) : (c.setRow r x).row r = x :=
  c.prow_setProw_same (physRow c.half r) x

theorem Core.row_setRow_other (c : Core) (r q : Nat) (x : Row) (h : q ≠ r) : (c.setRow r x).row q = c.row q :=
  c.prow_setProw_other (physRow c.half r) (physRow c.half q) x fun hp => h (physRow_inj _ _ _ hp)

theorem Core.setRows_cons (c : Core) (r : Nat) (x : Row) (l : List Row) :
    c.setRows r (x :: l) = (c.setRow r x).setRows (r + 1) l := by
  simp only [Core.setRows, List.zipIdx_cons, List.zipIdx_succ, List.foldl_cons, List.foldl_map, Nat.add_zero,
    Nat.add_comm 1, Nat.zero_add, Nat.add_assoc]

theorem Core.row_setRows_other (c : Core) (r : Nat) (l : List Row) (q : Nat) (hq : q < r ∨ r + l.length ≤ q) :
    (c.setRows r l).row q = c.row q := by
  induction l generalizing c r with
  | nil => rfl
  | cons x l ih =>
    rw [List.length_cons] at hq
    rw [Core.setRows_cons, ih _ _ (by omega), Core.row_setRow_other _ _ _ _ (by omega)]

theorem Core.row_setRows_same (c : Core) (r : Nat) (l : List Row) (i : Nat) (hi : i < l.length) :
    (c.setRows r l).row (r + i) = l[i] := by
  induction l generalizing c r i with
  | nil => exact absurd hi (Nat.not_lt_zero i)
  | cons x l ih =>
    rw [Core.setRows_cons]
    cases i with
    | zero =>
      rw [Core.row_setRows_other _ _ _ _ (.inl (by omega)), Nat.add_zero, Core.row_setRow_same, List.getElem_cons_zero]
    | succ i => rw [show r + (i + 1) = r + 1 + i by omega, ih _ _ _ (Nat.lt_of_succ_lt_succ hi), List.getElem_cons_succ]

theorem Core.setRows_eq (c : Core) (r : Nat) (l : List Row) :
    ∃ rows bad, c.setRows r l = { c with rows := rows, badWords := bad } := by
  induction l generalizing c r with
  | nil => exact ⟨c.rows, c.badWords, rfl⟩
  | cons x l ih =>
    obtain ⟨rows, bad, h⟩ := ih (c.setRow r x) (r + 1)
    exact ⟨rows, bad, (c.setRows_cons r x l).trans h⟩

theorem Core.setRows_r (c : Core) (r : Nat) (l : List Row) : (c.setRows r l).r = c.r := by
  obtain ⟨rows, bad, h⟩ := c.setRows_eq r l
  rw [h]

/-! Tiles (R177, R178). -/

theorem State.tile_setTile (s : State) (n : Nat) (t : Tile) : (s.setTile n t).tile n = t := by
  have harr : (s.setTile n t).arrayOf s.core.id =
      { s.arrayOf s.core.id with
        tiles := Sparse.set (s.arrayOf s.core.id).tiles (physTile (s.arrayOf s.core.id) s.core.id n) t } :=
    Sparse.get_set_same _ _ _ _
  change ((s.setTile n t).arrayOf s.core.id).tile (physTile ((s.setTile n t).arrayOf s.core.id) s.core.id n) = t
  rw [harr, ArraySt.tile]
  change (match Sparse.find (Sparse.set _ (physTile _ _ _) t) (physTile (s.arrayOf s.core.id) s.core.id n) with
    | some t => t
    | none => _) = t
  rw [Sparse.find_set_same]

/-! Declared rows that a word may name (R190, R281). -/

theorem rowsFault_cons_declared (s : State) (r n kind : Nat) (l : List (Int × Nat × Nat))
    (h : ∀ q : Nat, q < n → s.core.rowOk ((r + q : Nat) : Int) = true) :
    s.core.rowsFault (((r : Int), n, kind) :: l) = s.core.rowsFault l := by
  have hnone : Claims.undeclared s ((List.range n).map fun i => r + i) = none := by
    refine List.find?_eq_none.2 fun x hx => ?_
    obtain ⟨q, hq, rfl⟩ := List.mem_map.1 hx
    rw [h q (List.mem_range.1 hq)]
    exact Bool.false_ne_true
  rw [Core.rowsFault_cons_natCast, hnone, Option.map_none, Option.none_or]

theorem tileRowsCheck_none (s : State) (x : Word) (acc : BitVec 2) (kind : Nat) (h : x.extractLsb' 15 49 = 0)
    (hacc : acc ≠ 3) (hrange : (x.extractLsb' 0 15).toNat + 64 ≤ 24576)
    (hrows : ∀ q : Nat, q < 64 → s.core.rowOk (((x.extractLsb' 0 15).toNat + q : Nat) : Int) = true) :
    tileRowsCheck s x acc kind = none := by
  refine (if_neg fun h0 => h0 ((fld_eq_zero_iff x 15 49).2 h)).trans
    ((if_neg hacc).trans ((if_neg (Nat.not_lt.2 hrange)).trans ?_))
  exact rowsFault_cons_declared s (fld x 0 15) 64 kind [] hrows

/-! MLDT (R194). -/

theorem Core.firstBad_eq_none_iff (c : Core) (r n : Nat) :
    c.firstBad r n = none ↔ ∀ q, q < n → c.rowBad (r + q) = false := by
  simp [Core.firstBad]

theorem Core.firstBad_eq_some (c : Core) (r n q : Nat) (hq : q < n) (hbad : c.rowBad (r + q) = true)
    (hclean : ∀ i, i < q → c.rowBad (r + i) = false) : c.firstBad r n = some (r + q) := by
  rw [Core.firstBad, List.find?_map, Option.map_eq_some_iff]
  exact ⟨q, List.find?_range_eq_some.2 ⟨hbad, List.mem_range.2 hq, fun i hi => by simp [hclean i hi]⟩, rfl⟩

/-- The MEMORY_ERROR of an uncorrectable scratchpad row or tile cell, at a scratchpad byte address (R194). -/
def State.rowError (s : State) (addr : Word) : Trap := { cause := 0x10, addr := addr, aux := s.core.pc }

/-- What MLDT brings to its tile from 64 rows (R194). -/
def loadedTile (o : MldtOp) (c : Core) (r : Nat) : Tile :=
  { cells := BitVec.ofNat 32768 (rowsNat (c.rowsAt r 64)), sat := false, acc := o.acc }

/-- What MLDT brings to its tile where one of its rows is uncorrectable: any cells (R194). -/
def lostTile (o : MldtOp) (s : State) : Tile :=
  { cells := BitVec.ofNat 32768 (s.free 20000), sat := false, acc := o.acc }

section
variable (o : MldtOp) (s : State) (r : Nat)

/-- MLDT with its tile idle and the tile port free, past its check. -/
theorem exec_mldt_admitted (hg : s.rdP o.h.g = true) (hport : s.core.tilePort = 0)
    (hbusy : s.core.tileBusy o.tile.toNat = 0) (hchk : tileRowsCheck s (s.rdS o.sd) o.acc 0 = none)
    (hr : fld (s.rdS o.sd) 0 15 = r) : exec (.mldt o) s = .next ((State.takeTilePort
      (match s.core.firstBad r 64 with
        | none => s.setTile o.tile.toNat (loadedTile o s.core r)
        | some q => (s.setTile o.tile.toNat (lostTile o s)).raiseB s.core.id (s.rowError (BitVec.ofNat 64 (64 * q))))
      (rowRun r 64)).arriveNow o.h.a) := by
  rw [exec_mldt, execMldt, hchk, hr]
  exact direct_none _ _ _ _ _ hg hport hbusy

theorem loadedTile_cells (c : Core) (q : Nat) (hq : q < 64) :
    (loadedTile o c r).cells.extractLsb' (512 * q) 512 = c.row (r + q) := by
  have hlen : q < (c.rowsAt r 64).length := by simpa [Core.rowsAt] using hq
  refine (extractLsb'_foldr (c.rowsAt r 64) 32768 q hlen (by omega)).trans ?_
  simp [Core.rowsAt]

/-- MLDT sets SAT and ACC and takes the port whatever its rows hold; clean rows are the cells, and the first uncorrectable
one is the MEMORY_ERROR's. -/
theorem mldt_completes (hg : s.rdP o.h.g = true) (hport : s.core.tilePort = 0)
    (hbusy : s.core.tileBusy o.tile.toNat = 0) (hchk : tileRowsCheck s (s.rdS o.sd) o.acc 0 = none)
    (hr : fld (s.rdS o.sd) 0 15 = r) :
    ∃ u, exec (.mldt o) s = .next (u.arriveNow o.h.a) ∧
      (u.tile o.tile.toNat).sat = false ∧ (u.tile o.tile.toNat).acc = o.acc ∧ u.core.tilePort = 16 ∧
      u.core.r = s.core.r ∧ u.core.rows = s.core.rows ∧ Claims.SameMemory s u ∧
      ((∀ q, q < 64 → s.core.rowBad (r + q) = false) → u.core.pend = s.core.pend ∧
        ∀ q, q < 64 → (u.tile o.tile.toNat).cells.extractLsb' (512 * q) 512 = s.core.row (r + q)) ∧
      ∀ q, q < 64 → s.core.rowBad (r + q) = true → (∀ i, i < q → s.core.rowBad (r + i) = false) →
        s.core.st = .active → ∃ t, u.core.pend = s.core.pend ++ [t] ∧ t.cause = 0x10 ∧
          t.addr = BitVec.ofNat 64 (64 * (r + q)) ∧ t.aux = s.core.pc := by
  refine ⟨_, exec_mldt_admitted o s r hg hport hbusy hchk hr, ?_⟩
  cases hbad : s.core.firstBad r 64 with
  | none =>
    have hclean := (s.core.firstBad_eq_none_iff r 64).1 hbad
    have htile : ((s.setTile o.tile.toNat (loadedTile o s.core r)).takeTilePort (rowRun r 64)).tile o.tile.toNat =
        loadedTile o s.core r := s.tile_setTile _ _
    dsimp only
    rw [htile]
    refine ⟨rfl, rfl, rfl, rfl, rfl, fun _ => rfl, fun _ => ⟨rfl, loadedTile_cells o r s.core⟩, fun q hq h => ?_⟩
    rw [hclean q hq] at h
    cases h
  | some x =>
    have hframe := (s.setTile o.tile.toNat (lostTile o s)).raiseB_onlyArrival s.core.id
      (s.rowError (BitVec.ofNat 64 (64 * x)))
    have hpend := (s.setTile o.tile.toNat (lostTile o s)).raiseB_active (s.rowError (BitVec.ofNat 64 (64 * x)))
    dsimp only
    generalize hu : (s.setTile o.tile.toNat (lostTile o s)).raiseB s.core.id _ = u at hframe hpend
    have htile : (u.takeTilePort (rowRun r 64)).tile o.tile.toNat = lostTile o s :=
      (hframe.same (fun u => u.tile o.tile.toNat) fun _ => rfl).trans (s.tile_setTile _ _)
    have hr : u.core.r = s.core.r := hframe.same (fun u => u.core.r) fun _ => rfl
    have hrows : u.core.rows = s.core.rows := hframe.same (fun u => u.core.rows) fun _ => rfl
    have hmem : u.mem = s.mem := hframe.same State.mem fun _ => rfl
    rw [htile]
    refine ⟨rfl, rfl, rfl, hr, hrows, fun a => congrArg (fun m => memGet m a) hmem, fun hclean => ?_,
      fun q hq h hclean hst => ?_⟩
    · rw [(s.core.firstBad_eq_none_iff r 64).2 hclean] at hbad
      cases hbad
    · rw [s.core.firstBad_eq_some r 64 q hq h hclean, Option.some_inj] at hbad
      subst hbad
      exact ⟨_, congrArg (fun u => u.core.pend) (hu.symm.trans (hpend hst)), rfl, rfl, rfl⟩

end

/-! MSTT (R194). -/

/-- Where cells are uncorrectable a transfer raises a cause, and makes no other change. -/
theorem raiseBad_onlyArrival (v : State) (n : Nat) (bad : List Nat) (t : Nat → List Nat → Trap) :
    OnlyArrival v (match bad with
      | [] => v
      | b :: bs => v.raiseB n (t b bs)) := by
  cases bad with
  | nil => exact .refl v
  | cons b bs => exact v.raiseB_onlyArrival n _

theorem rowOf_toNat {n : Nat} (x : BitVec n) (i : Nat) : rowOf x.toNat i = x.extractLsb' (512 * i) 512 := by
  rw [rowOf, BitVec.extractLsb', Nat.shiftRight_eq_div_pow]

theorem Core.row_setRows_range (c : Core) (r n q : Nat) (f : Nat → Row) (hq : q < n) :
    (c.setRows r ((List.range n).map f)).row (r + q) = f q := by
  rw [c.row_setRows_same r _ q (by simpa using hq)]
  simp

/-- The rows that MSTT writes (R194). -/
def storedRows (s : State) (t : Tile) : List Row := (List.range 64).map (rowOf (t.shown (s.free 20001)).toNat)

/-- A state with the rows of an MSTT. -/
def State.storeTile (s : State) (r : Nat) (t : Tile) : State := s.onCore fun c => c.setRows r (storedRows s t)

/-- MSTT with its tile idle and the tile port free, past its check. -/
theorem exec_mstt_admitted (o : MsttOp) (s : State) (r : Nat) (hg : s.rdP o.h.g = true) (hport : s.core.tilePort = 0)
    (hbusy : s.core.tileBusy o.tile.toNat = 0) (hchk : tileRowsCheck s (s.rdS o.sd) 0 1 = none)
    (hr : fld (s.rdS o.sd) 0 15 = r) : ∃ u, OnlyArrival (s.storeTile r (s.tile o.tile.toNat)) u ∧
      exec (.mstt o) s = .next ((u.takeTilePort (rowRun r 64)).arriveNow o.h.a) := by
  refine ⟨_, raiseBad_onlyArrival _ s.core.id (s.tile o.tile.toNat).bad
    fun b bs => s.rowError (drainErrAddr r (bs.foldl min b) 32), ?_⟩
  rw [exec_mstt, execMstt, hchk, hr]
  exact direct_none _ _ _ _ _ hg hport hbusy

/-- MSTT writes 64 rows and no others, and takes the port; it changes no tile. -/
theorem mstt_completes (o : MsttOp) (s : State) (r : Nat) (hg : s.rdP o.h.g = true) (hport : s.core.tilePort = 0)
    (hbusy : s.core.tileBusy o.tile.toNat = 0) (hchk : tileRowsCheck s (s.rdS o.sd) 0 1 = none)
    (hr : fld (s.rdS o.sd) 0 15 = r) :
    ∃ u, exec (.mstt o) s = .next (u.arriveNow o.h.a) ∧ u.arrays = s.arrays ∧ u.core.tilePort = 16 ∧
      u.core.r = s.core.r ∧ Claims.SameMemory s u ∧ (∀ q, q < r ∨ r + 64 ≤ q → u.core.row q = s.core.row q) ∧
      ((s.tile o.tile.toNat).bad = [] → ∀ q, q < 64 → u.core.row (r + q) =
        (s.tile o.tile.toNat).cells.extractLsb' (512 * q) 512) := by
  obtain ⟨u, hframe, hexec⟩ := exec_mstt_admitted o s r hg hport hbusy hchk hr
  have hrow (q : Nat) : (u.takeTilePort (rowRun r 64)).core.row q =
      (s.core.setRows r (storedRows s (s.tile o.tile.toNat))).row q := hframe.same (fun u => u.core.row q) fun _ => rfl
  have hr' : u.core.r = s.core.r := (hframe.same (fun u => u.core.r) fun _ => rfl).trans (s.core.setRows_r r _)
  have hmem : u.mem = s.mem := (hframe.same State.mem fun _ => rfl).trans (s.onCore_mem _)
  have harr : u.arrays = s.arrays := (hframe.same State.arrays fun _ => rfl).trans (s.onCore_arrays _)
  refine ⟨_, hexec, harr, rfl, hr', fun a => congrArg (fun m => memGet m a) hmem,
    fun q hq => ?_, fun hbad q hq => ?_⟩
  · rw [hrow, Core.row_setRows_other _ _ _ _ (by simpa [storedRows] using hq)]
  · rw [hrow, storedRows, Core.row_setRows_range _ _ _ _ _ hq, rowOf_toNat, Tile.shown, hbad, List.foldl_nil]

/-! MDRAIN (R195, R196). -/

/-- Element i of what MDRAIN writes: the cell converted, or any bits where a cell of its bytes is uncorrectable. -/
def drained (o : MdrainOp) (s : State) (x : Word) (i : Nat) : Nat :=
  if (s.tile o.tile.toNat).bad.any fun b => b * mBits (fld x 46 4) / 8 == i * mBits (fld x 46 4) / 8 then
    bits (s.free 20002) (mBits (fld x 46 4) * i) (mBits (fld x 46 4))
  else
    drainCell (s.tile o.tile.toNat).acc (fld x 46 4) s.core.mqRnd s.core.mqSat o.req o.uns
      (BitVec.ofNat 16 (fld x 30 16)).toInt (rowsNat (s.core.rowsAt (fld x 15 15) 4))
      (cellAt (s.tile o.tile.toNat).cells (i / 32) (i % 32)) (i % 32) % 2 ^ mBits (fld x 46 4)

/-- What MDRAIN writes, element by element, as one number. -/
def drainedAll (o : MdrainOp) (s : State) (x : Word) : Nat :=
  (List.range 1024).foldr (fun i acc => drained o s x i + 2 ^ mBits (fld x 46 4) * acc) 0

/-- A state with the rows and the RSIG word of an MDRAIN. -/
def State.drainTo (s : State) (o : MdrainOp) (x : Word) : State :=
  s.onCore fun c =>
    { c.setRows (fld x 0 15) ((List.range (2 * mBits (fld x 46 4))).map (rowOf (drainedAll o s x))) with
      rsigD := c.rsigD ++ [rsigWord c.iss.nbv 4 (fld x 46 4) 0 (s.tile o.tile.toNat).acc.toNat] }

/-- MDRAIN with its tile idle and the tile port free, past its check. -/
theorem exec_mdrain_admitted (o : MdrainOp) (s : State) (x : Word) (hg : s.rdP o.h.g = true)
    (hport : s.core.tilePort = 0) (hbusy : s.core.tileBusy o.tile.toNat = 0) (hx : s.rdS o.sd = x)
    (hchk : drainCheck o s x = none) : ∃ u, OnlyArrival (s.drainTo o x) u ∧
      exec (.mdrain o) s = .next ((u.takeTilePort (drainRows o x)).arriveNow o.h.a) := by
  refine ⟨_, raiseBad_onlyArrival _ s.core.id (s.tile o.tile.toNat).bad
    fun b bs => s.rowError (drainErrAddr (fld x 0 15) (bs.foldl min b) (mBits (fld x 46 4))), ?_⟩
  rw [exec_mdrain, execMdrain, hx, hchk]
  exact direct_none _ _ _ _ _ hg hport hbusy

theorem mBits_dvd (f : Nat) : mBits f ∣ 512 := by
  unfold mBits
  split_ifs <;> decide

theorem drained_lt (o : MdrainOp) (s : State) (x : Word) (i : Nat) : drained o s x i < 2 ^ mBits (fld x 46 4) := by
  unfold drained
  split
  · exact Nat.mod_lt _ (Nat.two_pow_pos _)
  · exact Nat.mod_lt _ (Nat.two_pow_pos _)

/-- Element n of the rows that MDRAIN writes, which hold a whole number of elements each. -/
theorem extractLsb'_drained (o : MdrainOp) (s : State) (x : Word) (n w : Nat) (hn : n < 1024)
    (hw : mBits (fld x 46 4) = w) :
    ((rowOf (drainedAll o s x) (w * n / 512)).extractLsb' (w * n % 512) w).toNat = drained o s x n := by
  have hfit : w * n % 512 + w ≤ 512 := by
    obtain ⟨k, hk⟩ := hw ▸ mBits_dvd (fld x 46 4)
    have hlt : w * n % 512 < 512 := Nat.mod_lt _ (by decide)
    rw [hk, Nat.mul_mod_mul_left] at hlt ⊢
    exact Nat.mul_le_mul_left w (Nat.lt_of_mul_lt_mul_left hlt)
  subst hw
  rw [rowOf, toNat_extractLsb'_ofNat_of_le _ _ _ _ hfit, Nat.div_div_eq_div_mul, ← pow_add, Nat.div_add_mod, pow_mul,
    drainedAll, digit_foldr _ (List.range 1024) (drained o s x) (fun i _ => drained_lt o s x i) n (by simpa using hn),
    List.getElem_range]

/-- MDRAIN writes its rows and no others, appends its RSIG word and takes the port; it changes no tile. -/
theorem mdrain_completes (o : MdrainOp) (s : State) (x : Word) (r f w : Nat) (hg : s.rdP o.h.g = true)
    (hport : s.core.tilePort = 0) (hbusy : s.core.tileBusy o.tile.toNat = 0) (hx : s.rdS o.sd = x)
    (hchk : drainCheck o s x = none) (hr : fld x 0 15 = r) (hf : fld x 46 4 = f) (hw : mBits f = w) :
    ∃ u, exec (.mdrain o) s = .next (u.arriveNow o.h.a) ∧ u.arrays = s.arrays ∧ u.core.tilePort = 16 ∧
      u.core.r = s.core.r ∧ Claims.SameMemory s u ∧ (∀ q, q < r ∨ r + 2 * w ≤ q → u.core.row q = s.core.row q) ∧
      u.core.rsigD = s.core.rsigD ++ [rsigWord s.core.iss.nbv 4 f 0 (s.tile o.tile.toNat).acc.toNat] ∧
      ∀ n, n < 1024 →
        ((u.core.row (r + w * n / 512)).extractLsb' (w * n % 512) w).toNat = drained o s x n := by
  obtain ⟨u, hframe, hexec⟩ := exec_mdrain_admitted o s x hg hport hbusy hx hchk
  subst hr hf hw
  have hrow (q : Nat) : (u.takeTilePort (drainRows o x)).core.row q = (s.core.setRows (fld x 0 15)
      ((List.range (2 * mBits (fld x 46 4))).map (rowOf (drainedAll o s x)))).row q :=
    hframe.same (fun u => u.core.row q) fun _ => rfl
  have hr' : u.core.r = s.core.r := (hframe.same (fun u => u.core.r) fun _ => rfl).trans (s.core.setRows_r _ _)
  have hmem : u.mem = s.mem := hframe.same State.mem fun _ => rfl
  refine ⟨_, hexec, hframe.same State.arrays fun _ => rfl, rfl, hr', fun a => congrArg (fun m => memGet m a) hmem,
    fun q hq => ?_, hframe.same (fun u => u.core.rsigD) fun _ => rfl, fun n hn => ?_⟩
  · rw [hrow, Core.row_setRows_other _ _ _ _ (by simpa using hq)]
  · have hin : mBits (fld x 46 4) * n / 512 < 2 * mBits (fld x 46 4) := by
      rw [Nat.div_lt_iff_lt_mul (by decide), Nat.mul_comm 2, Nat.mul_assoc]
      exact Nat.mul_lt_mul_of_pos_left hn (Nat.pos_of_dvd_of_pos (mBits_dvd _) (by decide))
    rw [hrow, Core.row_setRows_range _ _ _ _ _ hin, extractLsb'_drained o s x n _ hn rfl]

/-- Element n of a drain of a tile without uncorrectable cells (R196). -/
theorem drained_of_clean (o : MdrainOp) (s : State) (x : Word) (n : Nat) (hbad : (s.tile o.tile.toNat).bad = []) :
    drained o s x n = drainCell (s.tile o.tile.toNat).acc (fld x 46 4) s.core.mqRnd s.core.mqSat o.req o.uns
      (x.extractLsb' 30 16).toInt (rowsNat (s.core.rowsAt (fld x 15 15) 4))
      ((s.tile o.tile.toNat).cells.extractLsb' (32 * n) 32).toNat (n % 32) % 2 ^ mBits (fld x 46 4) := by
  have hcell : cellAt (s.tile o.tile.toNat).cells (n / 32) (n % 32) =
      ((s.tile o.tile.toNat).cells.extractLsb' (32 * n) 32).toNat := by
    rw [cellAt, Nat.div_add_mod]
    rfl
  have hzo : BitVec.ofNat 16 (fld x 30 16) = x.extractLsb' 30 16 := BitVec.ofNat_toNat 16 _
  rw [drained, hbad, if_neg (by simp), hcell, hzo]

theorem drainCheck_none (o : MdrainOp) (s : State) (x : Word) (hres : x.extractLsb' 50 14 = 0)
    (hf : fld x 46 4 ∈ [0, 1, 2, 3, 4, 5, 9, 10])
    (hreq : o.req = true → (s.tile o.tile.toNat).acc ≠ 0 ∧ 5 ≤ fld x 46 4) (huns : o.uns = true → 5 ≤ fld x 46 4)
    (hrange : fld x 0 15 + 2 * mBits (fld x 46 4) ≤ 24576)
    (hrows : ∀ q : Nat, q < 2 * mBits (fld x 46 4) → s.core.rowOk ((fld x 0 15 + q : Nat) : Int) = true)
    (hpar : o.req = true → fld x 15 15 + 3 < 24576 ∧
      ∀ q : Nat, q < 4 → s.core.rowOk ((fld x 15 15 + q : Nat) : Int) = true) : drainCheck o s x = none := by
  have hok : ¬ DrainRefused o s x := by
    rintro (h | h | h | ⟨hr, h⟩ | ⟨hu, h⟩ | h | ⟨hr, h⟩)
    · exact h hres
    · revert h hf
      generalize fld x 46 4 = f
      simp only [List.mem_cons, List.not_mem_nil, or_false]
      omega
    · revert h hf
      generalize fld x 46 4 = f
      simp only [List.mem_cons, List.not_mem_nil, or_false]
      omega
    · obtain ⟨hacc, h5⟩ := hreq hr
      exact h.elim hacc fun h => absurd h5 (by omega)
    · exact absurd (huns hu) (by omega)
    · rw [← mBits_eq_codeBits] at h
      omega
    · exact absurd (hpar hr).1 (by omega)
  rw [drainCheck_rows o s x hok, ← mBits_eq_codeBits, rowsFault_cons_declared s _ _ _ _ hrows]
  by_cases hr : o.req = true
  · rw [if_pos hr]
    exact rowsFault_cons_declared s _ _ _ [] (hpar hr).2
  · rw [if_neg hr]
    rfl

/-! MSTAT (R197). -/

/-- What MSTAT reads (R197). -/
def statusNat (s : State) (n : Nat) : Nat :=
  bit (s.tile n).sat + 2 * (s.tile n).acc.toNat + 64 * s.core.tileBusy n + 4096 * s.core.mq.length +
    262144 * (if (s.arrayOf s.core.id).solo then 0 else (s.arrayOf s.core.id).win.toNat) +
    1048576 * bit (s.arrayOf s.core.id).solo + 2097152 * s.core.mqRnd.toNat + 8388608 * bit s.core.mqSat

theorem exec_mstat_true (o : MstatOp) (s : State) (hg : s.rdP o.h.g = true) :
    exec (.mstat o) s = .next ((s.wrS o.rd (BitVec.ofNat 64 (statusNat s o.tile.toNat))).arriveNow o.h.a) := by
  rw [exec_mstat, execMstat, runSlot_true o.h s _ hg]
  rfl

theorem extractLsb'_ofNat_eq_iff (x lo w : Nat) (v : BitVec w) (h : lo + w ≤ 64) :
    (BitVec.ofNat 64 x).extractLsb' lo w = v ↔ x / 2 ^ lo % 2 ^ w = v.toNat := by
  rw [← BitVec.toNat_inj, toNat_extractLsb'_ofNat_of_le _ _ _ _ h]

theorem getLsbD_ofNat_eq_iff (x i : Nat) (b : Bool) (h : i < 64) :
    (BitVec.ofNat 64 x).getLsbD i = b ↔ x / 2 ^ i % 2 = bit b := by
  rw [BitVec.getLsbD_ofNat, Nat.testBit_eq_decide_div_mod_eq]
  cases b <;> simp [h, bit]

theorem status_fields (s : State) (n : Nat) (y : Word) (hy : y = BitVec.ofNat 64 (statusNat s n)) :
    y.getLsbD 0 = (s.tile n).sat ∧ y.extractLsb' 1 2 = (s.tile n).acc ∧ y.extractLsb' 3 3 = 0 ∧
    (s.core.mq.length ≤ 32 → (y.extractLsb' 6 6).toNat = s.core.tileBusy n ∧
      (y.extractLsb' 12 6).toNat = s.core.mq.length) ∧
    (s.core.mq.length ≤ 32 →
      y.extractLsb' 18 2 = (if (s.arrayOf s.core.id).solo = true then 0 else (s.arrayOf s.core.id).win) ∧
      y.getLsbD 20 = (s.arrayOf s.core.id).solo ∧ y.extractLsb' 21 2 = s.core.mqRnd ∧ y.getLsbD 23 = s.core.mqSat ∧
      y.extractLsb' 24 40 = 0) := by
  have hbusy : s.core.tileBusy n ≤ s.core.mq.length := List.length_filter_le _ _
  have hsat := Laws.bit_le (s.tile n).sat
  have hsolo := Laws.bit_le (s.arrayOf s.core.id).solo
  have hmqSat := Laws.bit_le s.core.mqSat
  have hwin : (if (s.arrayOf s.core.id).solo = true then 0 else (s.arrayOf s.core.id).win.toNat) =
      (if (s.arrayOf s.core.id).solo = true then 0 else (s.arrayOf s.core.id).win).toNat := by
    split <;> rfl
  rw [hy, getLsbD_ofNat_eq_iff _ _ _ (by decide), getLsbD_ofNat_eq_iff _ _ _ (by decide),
    getLsbD_ofNat_eq_iff _ _ _ (by decide)]
  simp only [extractLsb'_ofNat_eq_iff _ _ _ _ (show 1 + 2 ≤ 64 by decide),
    extractLsb'_ofNat_eq_iff _ _ _ _ (show 3 + 3 ≤ 64 by decide),
    extractLsb'_ofNat_eq_iff _ _ _ _ (show 18 + 2 ≤ 64 by decide),
    extractLsb'_ofNat_eq_iff _ _ _ _ (show 21 + 2 ≤ 64 by decide),
    extractLsb'_ofNat_eq_iff _ _ _ _ (show 24 + 40 ≤ 64 by decide),
    toNat_extractLsb'_ofNat_of_le _ 64 6 6 (by decide), toNat_extractLsb'_ofNat_of_le _ 64 12 6 (by decide),
    statusNat, hwin]
  generalize (if (s.arrayOf s.core.id).solo = true then 0 else (s.arrayOf s.core.id).win) = win
  exact ⟨by omega, by omega, by simp; omega, fun h => ⟨by omega, by omega⟩,
    fun h => ⟨by omega, by omega, by omega, by omega, by simp; omega⟩⟩

/-! The words, held, suppressed and completed. -/

theorem tileTransfers : Claims.TileTransfers := by
  intro s h tile sd hg ha hport
  refine ⟨fun hbusy => ⟨fun acc hchk hclean => ?_, fun hchk hbad => ?_, fun uns req hchk hbad => ?_⟩, fun rd => ?_⟩
  · obtain ⟨u, hexec, hsat, hacc, hport', hr, hrows, hmem, hok, -⟩ :=
      mldt_completes { h := h, tile := tile, sd := sd, acc := acc } s _ hg hport hbusy hchk rfl
    rw [ha, State.arriveNow_false] at hexec
    exact ⟨u, hexec, hsat, hacc, (hok hclean).2, hport', hr, hrows, hmem⟩
  · obtain ⟨u, hexec, harr, hport', hr, hmem, hother, hrow⟩ :=
      mstt_completes { h := h, tile := tile, sd := sd } s _ hg hport hbusy hchk rfl
    rw [ha, State.arriveNow_false] at hexec
    exact ⟨u, hexec, hrow hbad, hother, harr, hport', hr, hmem⟩
  · obtain ⟨u, hexec, harr, hport', hr, hmem, hother, hrsig, hrow⟩ :=
      mdrain_completes { h := h, tile := tile, sd := sd, uns := uns, req := req } s _ _ _ _ hg hport hbusy rfl hchk rfl rfl
        rfl
    rw [ha, State.arriveNow_false] at hexec
    refine ⟨u, hexec, hrsig, ?_, hother, harr, hport', hr, hmem⟩
    rintro n hn f w rfl rfl
    exact (hrow n hn).trans (drained_of_clean _ s _ n hbad)
  · obtain ⟨hsat, hacc, -⟩ := status_fields s tile.toNat _ rfl
    have hexec := exec_mstat_true { h := h, tile := tile, rd := rd } s hg
    rw [ha, State.arriveNow_false] at hexec
    exact ⟨_, hexec, hsat, hacc⟩

theorem tileHolds : Claims.TileHolds := by
  intro s h tile sd acc uns req hg
  refine ⟨fun hheld => ⟨?_, ?_, ?_⟩, rfl, rfl, rfl, fun _ => rfl, rfl⟩
  · rw [exec_mldt, execMldt]
    exact direct_held _ _ _ _ _ _ hg hheld
  · rw [exec_mstt, execMstt]
    exact direct_held _ _ _ _ _ _ hg hheld
  · rw [exec_mdrain, execMdrain]
    exact direct_held _ _ _ _ _ _ hg hheld

theorem matrixTransferCompletion : Claims.MatrixTransferCompletion := by
  intro s h tile sd rd x r p f w hx hr hp hf hw
  subst hr hp hf hw
  refine ⟨fun hg hport hbusy => ⟨fun hres hrange hrows => ⟨fun acc hacc => ?_, ?_⟩,
    fun uns req hres hfmt hreq huns hrange hrows hpar => ?_⟩, fun hg => ?_,
    fun hg => ⟨fun acc => ?_, ?_, fun uns req => ?_, ?_⟩⟩
  · have hchk := tileRowsCheck_none s x acc 0 hres hacc hrange hrows
    rw [hx] at hchk ⊢
    exact mldt_completes { h := h, tile := tile, sd := sd, acc := acc } s _ hg hport hbusy hchk rfl
  · have hchk := tileRowsCheck_none s x 0 1 hres (by decide) hrange hrows
    rw [hx] at hchk ⊢
    exact mstt_completes { h := h, tile := tile, sd := sd } s _ hg hport hbusy hchk rfl
  · have hchk := drainCheck_none { h := h, tile := tile, sd := sd, uns := uns, req := req } s x hres hfmt hreq huns hrange
      hrows hpar
    obtain ⟨u, hexec, harr, hport', hr, hmem, hother, hrsig, -⟩ :=
      mdrain_completes _ s x _ _ _ hg hport hbusy hx.symm hchk rfl rfl rfl
    exact ⟨u, hexec, harr, hport', hr, hmem, hother, hrsig⟩
  · exact ⟨_, exec_mstat_true { h := h, tile := tile, rd := rd } s hg, status_fields s tile.toNat _ rfl⟩
  · rw [exec_mldt, execMldt]
    exact direct_suppressed _ _ _ _ _ _ hg
  · rw [exec_mstt, execMstt]
    exact direct_suppressed _ _ _ _ _ _ hg
  · rw [exec_mdrain, execMdrain]
    exact direct_suppressed _ _ _ _ _ _ hg
  · rw [exec_mstat, execMstat]
    exact runSlot_false h s _ hg

/-- Settles O24: each word is its check, its tile or rows, and the port; an uncorrectable row or cell adds only a cause. -/
theorem matrixTransfers : Obligations.MatrixTransfers := ⟨tileTransfers, tileHolds, matrixTransferCompletion⟩

end Sys2Proof.Machine
end

section
/-! PROOFS. Stores and atomics of one piece of this module's memory that nothing holds (R199, R202, R203, R210 to R213). -/

namespace Sys2Proof.Machine

/-! The bytes they write, where every line passes its check (R71, R355). -/

@[simp] theorem leBytes_length (n v : Nat) : (leBytes n v).length = n := by simp [leBytes]

theorem leBytes_mod (n v : Nat) : leBytes n (v % 256 ^ n) = leBytes n v := by
  refine List.map_congr_left fun i hi => BitVec.eq_of_toNat_eq ?_
  have hi : i < n := List.mem_range.1 hi
  obtain ⟨k, rfl⟩ : ∃ k, n = i + (1 + k) := ⟨n - i - 1, by omega⟩
  rw [BitVec.toNat_ofNat, BitVec.toNat_ofNat, Nat.pow_add, Nat.mod_mul_right_div_self, Nat.pow_add,
    show (2 : Nat) ^ 8 = 256 ^ 1 from rfl, Nat.mod_mul_right_mod]

theorem leBytes_getElem {w : Nat} (n : Nat) (x : BitVec w) (i : Nat) (h : i < (leBytes n x.toNat).length) :
    (leBytes n x.toNat)[i] = x.extractLsb' (8 * i) 8 := by
  refine BitVec.eq_of_toNat_eq ?_
  simp only [leBytes, List.getElem_map, List.getElem_range, BitVec.toNat_ofNat, BitVec.extractLsb'_toNat,
    Nat.shiftRight_eq_div_pow, Nat.pow_mul]

theorem State.physWrite_onlyL1 (s : State) (pa : Nat) (bs : List Byte) (key : BitVec 16) :
    OnlyL1 s (s.physWrite pa bs key) := (s.physWrite_onlyMemory pa bs key).onlyL1

theorem State.doStore_hbm (s : State) (p : Piece) (bs : List Byte) (hk : s.physKind p.pa = .hbm) :
    s.doStore p bs = (s.physWrite p.pa bs p.key).fill p true := by
  rw [State.doStore, hk]

/-- The access that `s` names next, performed at its issue and not yet acknowledged. -/
def State.performed (s : State) : Posted :=
  { id := s.core.nextId, acc := s.core.nextId, left := s.memWait, act := .done }

/-- A core at which the access that `s` names next stands performed. -/
def State.stands (s : State) (c : Core) : Core :=
  { c with nextId := s.core.nextId + 1, stores := c.stores ++ [s.performed] }

/-- A store that nothing holds is performed at its issue, and stands until it is acknowledged. -/
theorem State.issueStore_hbm (s : State) (p : Piece) (bs : List Byte) (hk : s.physKind p.pa = .hbm)
    (hf : s.core.fences = []) :
    s.issueStore p bs = ((s.physWrite p.pa bs p.key).fill p true).onCore s.stands := by
  simp only [State.issueStore, Core.holders_nil _ _ hf, List.isEmpty_nil, if_true, hk, s.doStore_hbm p bs hk]
  rfl

/-- What one access left since `s` bears its name; the registers and the landings are as it left them. -/
theorem State.oneAccess_stores (s t : State) (q : Posted) (h : t.core.stores = s.core.stores ++ [q]) :
    (s.oneAccess t).core.stores = s.core.stores ++ [{ q with acc := s.core.nextId }] := by
  have hs : (s.oneAccess t).core.stores = t.core.stores.take s.core.stores.length ++
    (t.core.stores.drop s.core.stores.length).map fun p => { p with acc := s.core.nextId } := rfl
  rw [hs, h, List.take_left, List.drop_left]
  rfl

theorem storeBytes_made (i : Instr) (s : State) (h : Hdr) (va : Word) (bs : List Byte) (n : Nat) (word : Bool) (p : Piece)
    (hlen : bs.length = n) (hg : s.rdP h.g = true) (ha : h.a = false) (hc : s.canonical = true)
    (hr : Claims.Reaches s va n 1 true word p) (hi : exec i s = storeBytes h va bs word s) :
    Claims.StoreMade i s (s.canon p.pa) bs := by
  subst hlen
  obtain ⟨hacc, hpn, -, hk, hok, hfences, -⟩ := hr
  let t := s.issueStore p bs
  have ht : t = ((s.physWrite p.pa bs p.key).fill p true).onCore s.stands := s.issueStore_hbm p bs hk hfences
  have hl1 := (s.physWrite_onlyL1 p.pa bs p.key).trans (State.fill_onlyL1 _ p true)
  have hstores : t.core.stores = s.core.stores ++ [s.performed] := by
    obtain ⟨l, hl⟩ := hl1
    rw [ht, State.onCore_core, hl]
    rfl
  have hr : t.core.r = s.core.r := by
    exact (congrArg (·.core.r) ht).trans hl1.r
  have hmem : t.mem = memWrite s.mem (s.canon p.pa) bs := by
    rw [ht, State.onCore_mem, State.fill_mem, s.physWrite_mem_of_ok _ _ _ hok]
  have hrun : exec i s = .next (s.oneAccess t) := by
    have hp : s.storePieces [p] bs = t := by
      simp only [State.storePieces, hpn, List.take_length, t]
    rw [hi, storeBytes, hacc, runAccess_ok _ _ _ _ hg]
    simp only [hp, ha, State.arriveNow_false]
  exact ⟨_, _, hrun, stored_of_mem _ _ _ _ hc ((State.oneAccess_mem _ _).trans hmem), hr, s.oneAccess_stores t _ hstores,
    rfl, rfl, rfl⟩

theorem scalarStore_stores (mk : StOp → Instr) (n : Nat) (hmk : ∀ o s, exec (mk o) s = scalarStore n o s) :
    Claims.stores mk n := by
  intro o s p hg ha hc hr
  exact ⟨leBytes n (s.rdS o.src).toNat, leBytes_length _ _, leBytes_getElem n (s.rdS o.src),
    storeBytes_made _ s o.h _ _ n _ p (leBytes_length _ _) hg ha hc hr (hmk o s)⟩

theorem vectorStore_stores (mk : VStOp → Instr) (n : Nat) (hmk : ∀ o s, exec (mk o) s = vectorStore n o s) :
    Claims.storesVector mk n := by
  intro o s p hg ha hc hr
  exact ⟨leBytes n (s.rdV o.v).toNat, leBytes_length _ _, leBytes_getElem n (s.rdV o.v),
    storeBytes_made _ s o.h _ _ n _ p (leBytes_length _ _) hg ha hc hr (hmk o s)⟩

theorem storeEffects : Claims.StoreEffects :=
  ⟨scalarStore_stores _ 1 fun _ _ => rfl, scalarStore_stores _ 2 fun _ _ => rfl, scalarStore_stores _ 4 fun _ _ => rfl,
    scalarStore_stores _ 8 fun _ _ => rfl, vectorStore_stores _ 32 fun _ _ => rfl, vectorStore_stores _ 64 fun _ _ => rfl,
    vectorStore_stores _ 128 fun _ _ => rfl⟩

/-! Atomics (R210 to R213). -/

theorem OnlyL1.free {s t : State} (h : OnlyL1 s t) (hf : s.core.Free) : t.core.Free := by
  obtain ⟨l, hl⟩ := h
  rw [hl]
  exact hf

theorem State.stands_free (s : State) (c : Core) (h : c.Free) : (s.stands c).Free := by
  obtain ⟨hfences, hstores, hlands, hspawns⟩ := h
  refine ⟨hfences, fun q hq => ?_, hlands, hspawns⟩
  rcases List.mem_append.1 hq with hq | hq
  · exact hstores q hq
  · rw [List.mem_singleton.1 hq]
    rfl

theorem State.onLanding_free (s : State) (id : Nat) (f : Landing → Landing) (h : s.core.Free)
    (hf : ∀ l, (f l).holds = []) : (s.onLanding id f).core.Free := by
  obtain ⟨hfences, hstores, hlands, hspawns⟩ := h
  refine ⟨hfences, hstores, fun l hl => ?_, hspawns⟩
  obtain ⟨k, hk, rfl⟩ := List.mem_map.1 hl
  split_ifs
  · exact hf k
  · exact hlands k hk

/-- R251, R263: where nothing is held and no peer is to answer, the SC fences of an atomic at MODULE scope hold nothing. -/
theorem State.scModule_free (s : State) (own : Option Nat) (h : s.core.Free) : s.scModule own = s := by
  obtain ⟨-, hstores, hlands, hspawns⟩ := h
  refine if_neg ?_
  simp only [Fence.blocks, State.newFence, Bool.or_eq_true, not_or, List.any_eq_true, Bool.and_eq_true, not_exists, not_and]
  refine ⟨⟨⟨⟨by simp, by simp⟩, fun l hl _ => ?_⟩, fun q hq _ => ?_⟩, fun x hx => ?_⟩
  · simp [hlands l hl]
  · simp [hstores q hq]
  · rw [hspawns] at hx
    exact nomatch hx

/-- The old word of an atomic on a piece. -/
def State.oldWord (s : State) (p : Piece) : Word := BitVec.ofNat 64 (leNat (memRead s.mem (s.canon p.pa) p.n))

/-- A state after the read and the write of an atomic. -/
def State.replaced (s : State) (op : AtomicOp) (p : Piece) (b d : Word) (nbv : BitVec 8) : State :=
  if atomicWrites op (s.oldWord p) d then
    (s.fill p false).physWrite p.pa (leBytes p.n (atomicNew op nbv (s.oldWord p) b d).toNat) p.key
  else s.fill p false

theorem State.replaced_onlyL1 (s : State) (op : AtomicOp) (p : Piece) (b d : Word) (nbv : BitVec 8) :
    OnlyL1 s (s.replaced op p b d nbv) :=
  .ite ((s.fill_onlyL1 p false).trans (State.physWrite_onlyL1 _ _ _ _)) (s.fill_onlyL1 p false)

/-- R210: memory takes the atomic's word, where it writes one. -/
theorem State.replaced_mem (s : State) (op : AtomicOp) (p : Piece) (b d : Word) (nbv : BitVec 8)
    (hok : s.badLine p.pa p.n p.key = none) : (s.replaced op p b d nbv).mem =
      if atomicWrites op (s.oldWord p) d then
        memWrite s.mem (s.canon p.pa) (leBytes p.n (atomicNew op nbv (s.oldWord p) b d).toNat)
      else s.mem := by
  have hview := (s.fill_onlyCache p false).memView
  have hregs : (s.fill p false).regs = s.regs := congrArg (fun v => v.2.2.2.2.1) hview
  unfold State.replaced
  split
  · rw [State.physWrite_mem_of_ok _ _ _ _ (by rw [leBytes_length, s.badLine_of_memView _ hview, hok]), State.fill_mem,
      s.canon_of_regs _ hregs]
  · exact s.fill_mem p false

/-- The landing of an atomic once it is performed. -/
def Landing.returns (l : Landing) (old : Word) (wait : Nat) : Landing :=
  { l with data := old.setWidth 1024, wait := some wait, err := none, holds := [] }

theorem Landing.returns_data (l : Landing) (old : Word) (wait : Nat) : (l.returns old wait).data = old.setWidth 1024 := rfl

theorem State.doAtomic_none (s : State) (op : AtomicOp) (p : Piece) (b d : Word) (nbv : BitVec 8) (pc : Word)
    (hk : s.physKind p.pa = .hbm) (hok : s.badLine p.pa p.n p.key = none) :
    s.doAtomic op p b d nbv none pc = s.replaced op p b d nbv := by
  simp only [State.doAtomic, hk, hok, s.physRead_of_ok _ _ _ hok]
  rfl

theorem State.doAtomic_some (s : State) (op : AtomicOp) (p : Piece) (b d : Word) (nbv : BitVec 8) (id : Nat) (pc : Word)
    (hk : s.physKind p.pa = .hbm) (hok : s.badLine p.pa p.n p.key = none) :
    s.doAtomic op p b d nbv (some id) pc =
      (s.replaced op p b d nbv).onLanding id fun l => l.returns (s.oldWord p) s.memWait := by
  simp only [State.doAtomic, hk, hok, s.physRead_of_ok _ _ _ hok]
  rfl

/-- An atomic that returns nothing, and that nothing holds, is performed at its issue and stands until acknowledged. -/
theorem State.issueAtomic_none (s : State) (op : AtomicOp) (p : Piece) (b d : Word) (nbv : BitVec 8)
    (hf : s.core.Free) (hk : s.physKind p.pa = .hbm) (hok : s.badLine p.pa p.n p.key = none) :
    s.issueAtomic op p b d nbv none = (s.replaced op p b d nbv).onCore s.stands := by
  have hrelaxed : s.issueRelaxed op p b d nbv none = (s.replaced op p b d nbv).onCore s.stands := by
    simp only [State.issueRelaxed, Core.holders_nil _ _ hf.1, List.isEmpty_nil, if_true, hk,
      s.doAtomic_none op p b d nbv _ hk hok]
    rfl
  have hfree := s.stands_free _ ((s.replaced_onlyL1 op p b d nbv).free hf)
  rw [State.issueAtomic, s.scModule_free _ hf, hrelaxed, State.scModule_free _ _ hfree, ite_self]

/-- An atomic that returns its old word, and that nothing holds, is performed at its issue. -/
theorem State.issueAtomic_some (s : State) (op : AtomicOp) (p : Piece) (b d : Word) (nbv : BitVec 8) (id : Nat)
    (hf : s.core.Free) (hk : s.physKind p.pa = .hbm) (hok : s.badLine p.pa p.n p.key = none) :
    s.issueAtomic op p b d nbv (some id) =
      (s.replaced op p b d nbv).onLanding id fun l => l.returns (s.oldWord p) s.memWait := by
  have hrelaxed : s.issueRelaxed op p b d nbv (some id) =
      (s.replaced op p b d nbv).onLanding id fun l => l.returns (s.oldWord p) s.memWait := by
    simp only [State.issueRelaxed, Core.holders_nil _ _ hf.1, List.isEmpty_nil, if_true, hk,
      s.doAtomic_some op p b d nbv id _ hk hok]
  have hfree := State.onLanding_free _ id (fun l => l.returns (s.oldWord p) s.memWait)
    ((s.replaced_onlyL1 op p b d nbv).free hf) fun _ => rfl
  rw [State.issueAtomic, s.scModule_free _ hf, hrelaxed, State.scModule_free _ _ hfree, ite_self]

/-- R211: an aligned atomic on one piece of this module's memory passes its checks. -/
theorem State.atomicReach_hbm (s : State) (op : AtomicOp) (va : Word) (p : Piece)
    (hacc : s.access va (atomicSize op) 2 false false = .ok (.mem [p])) (hk : s.physKind p.pa = .hbm)
    (hal : va.toNat % atomicSize op = 0) : s.atomicReach op va = .ok p := by
  simp only [State.atomicReach, hacc, hk]
  exact if_neg (by simp [hal])

/-- `f` says what an atomic leaves in memory: the bytes of the new word, or nothing where it does not write. -/
def Computes (op : AtomicOp) (f : State → Nat → Nat → Nat → Option Nat) : Prop :=
  ∀ (s : State) (old b d : Word), old.toNat < 256 ^ atomicSize op →
    if atomicWrites op old d then
      ∃ x, f s old.toNat b.toNat d.toNat = some x ∧
        leBytes (atomicSize op) x = leBytes (atomicSize op) (atomicNew op s.core.iss.nbv old b d).toNat
    else f s old.toNat b.toNat d.toNat = none

theorem atomicSize_le (op : AtomicOp) : atomicSize op ≤ 8 := by cases op <;> decide

theorem State.oldWord_toNat (s : State) (p : Piece) (h : p.n ≤ 8) :
    (s.oldWord p).toNat = leNat (Claims.bytesAt s (s.canon p.pa) p.n) := by
  have hlen : 8 * (memRead s.mem (s.canon p.pa) p.n).length ≤ 64 := by
    rw [memRead, List.length_map, List.length_range]
    omega
  rw [State.oldWord, BitVec.toNat_ofNat, Nat.mod_eq_of_lt ((leNat_lt _).trans_le (Nat.pow_le_pow_right Nat.two_pos hlen))]
  rfl

/-- What an atomic leaves in memory, as the statement of O26 says it. -/
theorem replaced_stored (s t : State) (op : AtomicOp) (p : Piece) (b d : Word) (f : State → Nat → Nat → Nat → Option Nat)
    (hf : Computes op f) (hn : p.n = atomicSize op) (hc : s.canonical = true) (hok : s.badLine p.pa p.n p.key = none)
    (ht : t.mem = (s.replaced op p b d s.core.iss.nbv).mem) :
    match f s (leNat (Claims.bytesAt s (s.canon p.pa) p.n)) b.toNat d.toNat with
    | some x => Claims.Stored s t (s.canon p.pa) (leBytes p.n x)
    | none => Claims.SameMemory s t := by
  have hold := s.oldWord_toNat p (hn ▸ atomicSize_le op)
  have hlt : (s.oldWord p).toNat < 256 ^ atomicSize op := by
    have hb := leNat_lt (Claims.bytesAt s (s.canon p.pa) p.n)
    rw [Claims.bytesAt, List.length_map, List.length_range, Nat.pow_mul] at hb
    rw [hold, ← hn]
    exact hb
  have hcomp := hf s (s.oldWord p) b d hlt
  rw [s.replaced_mem op p b d _ hok] at ht
  rw [← hold]
  split_ifs at hcomp ht with hw
  · obtain ⟨x, hx, hbytes⟩ := hcomp
    rw [hx]
    rw [← hn] at hbytes
    exact stored_of_mem _ _ _ _ hc (by rw [ht, hbytes])
  · rw [hcomp]
    exact sameMemory_of_mem ht

theorem atomic_atomics (mk : SROp → Instr) (op : AtomicOp) (n : Nat) (f : State → Nat → Nat → Nat → Option Nat)
    (hn : atomicSize op = n) (hf : Computes op f) (hmk : ∀ o s, exec (mk o) s = atomic op o s) :
    Claims.atomics mk n f := by
  subst hn
  intro o s p hg ha hc hr hal
  obtain ⟨hacc, hpn, -, hk, hok, hfree⟩ := hr
  rw [← hpn] at hok
  have hrun := hmk o s
  rw [atomic, s.atomicReach_hbm op _ p hacc hk hal, runAccess_ok _ _ _ _ hg, ha] at hrun
  by_cases hrd : o.rd = 0
  · rw [if_pos hrd, s.issueAtomic_none op p _ _ _ hfree hk hok] at hrun
    have hl1 := s.replaced_onlyL1 op p (s.rdS o.rb) (s.rdS o.rd) s.core.iss.nbv
    refine ⟨_, hrun, hl1.r, ?_, fun h => absurd hrd h, fun _ => hl1.lands⟩
    rw [← hpn]
    exact replaced_stored s _ op p _ _ f hf hpn hc hok rfl
  · rw [if_neg hrd] at hrun
    set u := s.addLanding _ with hu
    have huok : u.badLine p.pa p.n p.key = none := (s.badLine_of_memView u rfl _ _ _).trans hok
    rw [State.issueAtomic_some u op p _ _ _ _ (s.addLanding_free _ hfree rfl) hk huok] at hrun
    have hl1 := u.replaced_onlyL1 op p (s.rdS o.rb) (s.rdS o.rd) s.core.iss.nbv
    have hland := State.onLanding_lands_mem (u.replaced op p (s.rdS o.rb) (s.rdS o.rd) s.core.iss.nbv) s.core.nextId
      (fun l => l.returns (u.oldWord p) u.memWait) _ (hl1.lands ▸ s.addLanding_last _) rfl
    have hmem : (u.replaced op p (s.rdS o.rb) (s.rdS o.rd) s.core.iss.nbv).mem =
        (s.replaced op p (s.rdS o.rb) (s.rdS o.rd) s.core.iss.nbv).mem := by
      rw [u.replaced_mem _ _ _ _ _ huok, s.replaced_mem _ _ _ _ _ hok]
      rfl
    refine ⟨_, hrun, hl1.r, ?_, fun _ => ⟨_, hland, rfl, rfl, rfl, ?_⟩, fun h => absurd h hrd⟩
    · rw [← hpn]
      exact replaced_stored s _ op p _ _ f hf hpn hc hok hmem
    · have hold := s.oldWord_toNat p (hpn ▸ atomicSize_le op)
      rw [← hpn, ← hold, Landing.returns_data, BitVec.toNat_setWidth_of_le (by decide)]
      rfl

theorem int64_toNat (x : Word) : Claims.int64 x.toNat = x.toInt := by
  rw [Claims.int64, BitVec.ofNat_toNat, BitVec.setWidth_eq]

/-- What `f` says of an atomic that always writes, by its word. -/
theorem computes_of_toNat (op : AtomicOp) (f : State → Nat → Nat → Nat → Option Nat)
    (hw : ∀ old d, atomicWrites op old d = true)
    (hf : ∀ (s : State) (old b d : Word), old.toNat < 256 ^ atomicSize op →
      f s old.toNat b.toNat d.toNat = some (atomicNew op s.core.iss.nbv old b d).toNat) : Computes op f := by
  intro s old b d hlt
  rw [if_pos (hw old d)]
  exact ⟨_, hf s old b d hlt, rfl⟩

theorem computes_cas : Computes .cas fun _ old b d => if old = d then some b else none := by
  intro s old b d _
  by_cases h : old = d
  · subst h
    simp [atomicWrites, atomicNew]
  · simp [atomicWrites, h, BitVec.toNat_inj]

/-- R211: AFADD adds the low words of its operands. -/
theorem computes_fadd : Computes .fadd fun s old b _ => some (add32 s.core.iss.nbv old (b % 2 ^ 32)) := by
  intro s old b d hlt
  have hlow (x : Word) : fld x 0 32 = x.toNat % 2 ^ 32 := by rw [fld, BitVec.extractLsb'_toNat, Nat.shiftRight_zero]
  have hold : fld old 0 32 = old.toNat := (hlow old).trans (Nat.mod_eq_of_lt hlt)
  refine ⟨_, rfl, ?_⟩
  rw [atomicNew, hold, hlow, BitVec.toNat_ofNat, atomicSize, ← leBytes_mod 4 (_ % 2 ^ 64),
    Nat.mod_mod_of_dvd _ (by decide), leBytes_mod]

theorem atomicEffects : Claims.AtomicEffects := by
  refine ⟨atomic_atomics _ .add 8 _ rfl ?_ fun _ _ => rfl, atomic_atomics _ .min 8 _ rfl ?_ fun _ _ => rfl,
    atomic_atomics _ .max 8 _ rfl ?_ fun _ _ => rfl, atomic_atomics _ .minn 8 _ rfl ?_ fun _ _ => rfl,
    atomic_atomics _ .maxn 8 _ rfl ?_ fun _ _ => rfl, atomic_atomics _ .and 8 _ rfl ?_ fun _ _ => rfl,
    atomic_atomics _ .or 8 _ rfl ?_ fun _ _ => rfl, atomic_atomics _ .xor 8 _ rfl ?_ fun _ _ => rfl,
    atomic_atomics _ .xchg 8 _ rfl ?_ fun _ _ => rfl, atomic_atomics _ .cas 8 _ rfl computes_cas fun _ _ => rfl,
    atomic_atomics _ .fadd 4 _ rfl computes_fadd fun _ _ => rfl⟩
  all_goals refine computes_of_toNat _ _ (fun _ _ => rfl) fun s old b d _ => congrArg some ?_
  · exact (BitVec.toNat_add old b).symm
  · simp only [int64_toNat, atomicNew, BitVec.slt, decide_eq_true_eq, apply_ite BitVec.toNat]
  · simp only [int64_toNat, atomicNew, BitVec.slt, decide_eq_true_eq, apply_ite BitVec.toNat]
  · simp only [atomicNew, BitVec.ult, decide_eq_true_eq, apply_ite BitVec.toNat, min_def_lt']
  · simp only [atomicNew, BitVec.ult, decide_eq_true_eq, apply_ite BitVec.toNat, max_def_lt]
  · exact (BitVec.toNat_and old b).symm
  · exact (BitVec.toNat_or old b).symm
  · exact (BitVec.toNat_xor old b).symm
  · rfl

/-- Settles O26: stores and atomics change the bytes they name and no others. -/
theorem storesAndAtomics : Obligations.StoresAndAtomics := ⟨storeEffects, atomicEffects⟩

end Sys2Proof.Machine
end

section
/-! PROOFS. Boundaries: KILL, pending causes, the budget, interrupts, and the ten conditions of R75 (R68, R73 to R76, R145,
R306, R310, R408). -/

namespace Sys2Proof.Machine

/-! Masks of slots. -/

/-- The bits of `m` are the slots of `ws` for which `P` holds. -/
def Marks (ws : List Nat) (m : Nat) (P : Nat → Nat → Prop) : Prop :=
  ∀ k, m.testBit k = true ↔ ∃ w, ws[k]? = some w ∧ P k w

theorem testBit_add_two_pow (m n k : Nat) (hm : m < 2 ^ n) : (m + 2 ^ n).testBit k = (m.testBit k || decide (n = k)) := by
  have h := Nat.two_pow_add_eq_or_of_lt hm 1
  rw [Nat.mul_one] at h
  rw [Nat.add_comm, h, Nat.testBit_or, Nat.testBit_two_pow, Bool.or_comm]

/-- The fold of `slotMask` over the words from slot `n` on, begun with the mask of the slots below. -/
theorem testBit_foldl_zipIdx (f : Nat → Nat → Bool) (ws : List Nat) (n m k : Nat) (hm : m < 2 ^ n) :
    ((ws.zipIdx n).foldl (fun m x => if f x.2 x.1 then m + 2 ^ x.2 else m) m).testBit k = true ↔
      m.testBit k = true ∨ n ≤ k ∧ ∃ w, ws[k - n]? = some w ∧ f k w = true := by
  induction ws generalizing n m with
  | nil => simp
  | cons v ws ih =>
    have hnext : (if f n v then m + 2 ^ n else m) < 2 ^ (n + 1) := by
      rw [Nat.pow_succ]
      split <;> omega
    have hbit : (if f n v then m + 2 ^ n else m).testBit k = true ↔ m.testBit k = true ∨ n = k ∧ f k v = true := by
      by_cases hf : f n v = true
      · rw [if_pos hf, testBit_add_two_pow _ _ _ hm, Bool.or_eq_true, decide_eq_true_eq]
        exact or_congr_right ⟨fun h => ⟨h, h ▸ hf⟩, And.left⟩
      · rw [if_neg hf]
        exact ⟨.inl, fun h => h.resolve_right fun ⟨he, hk⟩ => hf (he ▸ hk)⟩
    rw [List.zipIdx_cons, List.foldl_cons, ih _ _ hnext, hbit, or_assoc]
    refine or_congr_right ?_
    rcases Nat.lt_trichotomy n k with h | rfl | h
    · obtain ⟨j, rfl⟩ : ∃ j, k = n + (j + 1) := ⟨k - n - 1, by omega⟩
      have h1 : n + (j + 1) - n = j + 1 := by omega
      have h2 : n + (j + 1) - (n + 1) = j := by omega
      simp [h1, h2]
    · simp
    · simp
      omega

theorem marks_slotMask {ws : List Nat} {f : Nat → Nat → Bool} {P : Nat → Nat → Prop} (h : ∀ k w, f k w = true ↔ P k w) :
    Marks ws (slotMask f ws) P := by
  intro k
  have hfold := testBit_foldl_zipIdx f ws 0 0 k Nat.one_pos
  simp only [Nat.zero_testBit, Bool.false_eq_true, false_or, Nat.zero_le, true_and, Nat.sub_zero, h] at hfold
  exact hfold

theorem Marks.or {ws : List Nat} {m n : Nat} {P Q : Nat → Nat → Prop} (hm : Marks ws m P) (hn : Marks ws n Q) :
    Marks ws (m ||| n) fun k w => P k w ∨ Q k w := by
  intro k
  rw [Nat.testBit_or, Bool.or_eq_true, hm k, hn k, ← exists_or]
  exact exists_congr fun w => and_or_left.symm

theorem total_eq_foldl (f : Nat → Nat → Nat) (ws : List Nat) :
    ws.zipIdx.foldl (fun n x => n + f x.2 x.1) 0 = Claims.total f ws := by
  rw [Claims.total, List.sum_eq_foldl, List.foldl_map]

theorem marks_portMask (ws : List Nat) (f : Nat → Nat → Nat) (limit : Nat) :
    Marks ws (portMask f limit ws) fun k w => limit < Claims.total f ws ∧ 0 < f k w := by
  rw [portMask, total_eq_foldl]
  split
  next h => exact marks_slotMask fun k w => by simp [h]
  next h => exact fun k => by simp [h]

/-! The conditions of R75, one by one. -/

theorem countOf_eq (f : Instr → Nat) (k w : Nat) : countOf f k w = Claims.count f k w := by
  unfold countOf Claims.count
  cases slotInstr k w <;> rfl

theorem marks_portCount (ws : List Nat) (f : Instr → Nat) (limit : Nat) : Marks ws (portMask (countOf f) limit ws)
    fun k w => limit < Claims.total (Claims.count f) ws ∧ 0 < Claims.count f k w := by
  have hf : countOf f = Claims.count f := funext fun k => funext (countOf_eq f k)
  exact hf ▸ marks_portMask ws (countOf f) limit

theorem slotCls_eq_v_iff (k : Nat) : slotCls k = .v ↔ 2 ≤ k ∧ k < 5 := by
  unfold slotCls
  split_ifs <;> simp <;> omega

theorem cls_of_poolEntry {c : Cls} {w : Nat} (h : decodeSlot c w = .error .poolEntry) : c = .s := by
  unfold decodeSlot at h
  split at h
  next hp =>
    rw [isPlh, Bool.and_eq_true, beq_iff_eq] at hp
    exact hp.1
  next =>
    split at h
    · cases h
    · split_ifs at h <;> cases h

theorem badTile_iff (w : Nat) : badTile w = true ↔
    w / 2 ^ 18 % 2 ^ 7 ∈ [0x40, 0x41, 0x42, 0x43, 0x44, 0x45, 0x47] ∧ 64 ≤ w / 2 ^ 11 % 2 ^ 7 := by
  simp only [badTile, Bool.and_eq_true, decide_eq_true_eq, List.mem_cons, List.not_mem_nil, or_false]
  refine and_congr_left' ?_
  change 64 ≤ w / 2 ^ 18 % 2 ^ 7 ∧ w / 2 ^ 18 % 2 ^ 7 ≤ 69 ∨ w / 2 ^ 18 % 2 ^ 7 = 71 ↔ _
  omega

theorem encodingBad_iff (solo odd mgmt : Bool) (ws : List Nat) (k w : Nat) :
    encodingBad (solo || mgmt) k w = true ↔ Claims.Offends solo odd mgmt ws k w 2 := by
  unfold encodingBad Claims.Offends
  split
  next i h => simp [h, badTile_iff, and_assoc]
  next h =>
    have hx : slotCls k ≠ .x := fun hc => absurd (cls_of_poolEntry h) (by simp [hc])
    simp [h, hx, bits]
  next x hx h => exact iff_of_true rfl (.inl ⟨x, h, fun he => absurd he hx⟩)

theorem predBad_iff (solo odd mgmt : Bool) (ws : List Nat) (k w : Nat) :
    predBad k w = true ↔ Claims.Offends solo odd mgmt ws k w 3 := by
  rw [predBad, Claims.Offends, Bool.or_eq_true]
  refine or_congr ?_ ?_
  · rw [Bool.and_eq_true, bne_iff_ne, decide_eq_true_eq]
    rfl
  · cases slotInstr k w <;> simp

theorem laneGroups_eq (k w : Nat) : laneGroups k w = Claims.groups k w := by
  unfold laneGroups Claims.groups
  have hv : slotCls k ≠ .v ↔ k < 2 ∨ 4 < k := by rw [ne_eq, slotCls_eq_v_iff]; omega
  rw [← ite_or]
  simp only [hv, or_assoc]
  rfl

theorem marks_laneGroups (ws : List Nat) : Marks ws (portMask laneGroups 10 ws)
    fun k w => 10 < Claims.total Claims.groups ws ∧ 0 < Claims.groups k w := by
  have hg : laneGroups = Claims.groups := funext fun k => funext (laneGroups_eq k)
  exact hg ▸ marks_portMask ws laneGroups 10

theorem mem_writesOf_iff (k w : Nat) (t : Written) : t ∈ writesOf k w ↔ Claims.Writes k w t := by
  unfold writesOf Claims.Writes
  cases h : slotInstr k w with
  | none => simp
  | some i =>
    simp only [List.mem_append, List.mem_map, List.mem_filter, bne_iff_ne, Option.some.injEq, exists_eq_left', or_assoc,
      and_assoc, eq_comm (b := t)]

theorem marks_conflictMask (solo odd mgmt : Bool) (ws : List Nat) :
    Marks ws (conflictMask ws) fun k w => Claims.Offends solo odd mgmt ws k w 7 := by
  refine marks_slotMask fun k w => ?_
  simp only [List.any_eq_true, mem_writesOf_iff, Prod.exists, List.mem_zipIdx_iff_getElem?, Bool.and_eq_true, bne_iff_ne,
    List.contains_iff_mem]
  exact ⟨fun ⟨t, hk, v, j, hv, hj, hw⟩ => ⟨j, v, t, hj, hv, hk, hw⟩,
    fun ⟨j, v, t, hj, hv, hk, hw⟩ => ⟨t, hk, v, j, hv, hj, hw⟩⟩

theorem copySlot_iff (solo odd mgmt : Bool) (ws : List Nat) (k w : Nat) :
    (k == 6 && (match slotInstr k w with
      | some (.cpy _) => true
      | some (.cpyf _) => true
      | some (.cpyt _) => true
      | some (.seqrun _) => true
      | _ => false)) = true ↔ Claims.Offends solo odd mgmt ws k w 4 := by
  rw [Bool.and_eq_true, beq_iff_eq, Claims.Offends]
  refine and_congr_right fun _ => ?_
  split
  case h_5 h1 h2 h3 h4 =>
    refine iff_of_false Bool.false_ne_true ?_
    rintro ⟨i, hi, ⟨o, rfl⟩ | ⟨o, rfl⟩ | ⟨o, rfl⟩ | ⟨o, rfl⟩⟩
    · exact h1 o hi
    · exact h2 o hi
    · exact h3 o hi
    · exact h4 o hi
  all_goals next o h => exact iff_of_true rfl ⟨_, h, by simp⟩

theorem ne_zero_filter_eq {n : Nat} (l : List (BitVec n)) : (l.filter fun x => x != 0) = l.filter fun x => decide (x ≠ 0) :=
  List.filter_congr fun x _ => by simp [bne, beq_eq_decide]

/-- R75: the masks of `offences` are those of the ten conditions, in their order. -/
theorem marks_offences (solo odd mgmt : Bool) (ws : List Nat) (i : Nat) (hi : i < (offences solo odd mgmt ws).length) :
    Marks ws (offences solo odd mgmt ws)[i] fun k w => Claims.Offends solo odd mgmt ws k w (i + 1) := by
  unfold offences at hi ⊢
  match i, hi with
  | 0, _ => exact marks_slotMask (f := fun k w => isPlh (slotCls k) w) fun k w => Iff.rfl
  | 1, _ => exact marks_slotMask (f := encodingBad (solo || mgmt)) (encodingBad_iff solo odd mgmt ws)
  | 2, _ => exact marks_slotMask (f := predBad) (predBad_iff solo odd mgmt ws)
  | 3, _ =>
    simp only [List.getElem_cons_succ, List.getElem_cons_zero]
    exact marks_slotMask (copySlot_iff solo odd mgmt ws)
  | 4, _ =>
    simp only [List.getElem_cons_succ, List.getElem_cons_zero]
    refine marks_slotMask fun k w => ?_
    simp only [Claims.Offends, Bool.and_eq_true, beq_iff_eq, decide_eq_true_eq, and_assoc]
    rfl
  | 5, _ =>
    simp only [List.getElem_cons_succ, List.getElem_cons_zero]
    refine marks_slotMask fun k w => ?_
    simp [Claims.Offends, and_assoc]
  | 6, _ => exact marks_conflictMask solo odd mgmt ws
  | 7, _ => exact marks_laneGroups ws
  | 8, _ =>
    simp only [List.getElem_cons_succ, List.getElem_cons_zero, ne_zero_filter_eq]
    exact (marks_portCount ws _ 10).or (marks_portCount ws _ 4)
  | 9, _ => exact (marks_portCount ws _ 12).or (marks_portCount ws _ 6)

/-! The verdict (R75). -/

theorem offences_length (solo odd mgmt : Bool) (ws : List Nat) : (offences solo odd mgmt ws).length = 10 := rfl

theorem offends_detail {solo odd mgmt : Bool} {ws : List Nat} {k w n : Nat} (h : Claims.Offends solo odd mgmt ws k w n) :
    ∃ i, i < (offences solo odd mgmt ws).length ∧ n = i + 1 := by
  rw [offences_length]
  unfold Claims.Offends at h
  split at h
  case h_11 => exact h.elim
  all_goals exact ⟨_, by decide, rfl⟩

theorem testBit_foldl_or (l : List Nat) (m k : Nat) :
    (l.foldl (· ||| ·) m).testBit k = true ↔ m.testBit k = true ∨ ∃ x ∈ l, x.testBit k = true := by
  induction l generalizing m with
  | nil => simp
  | cons x l ih => simp [ih, or_assoc]

/-- The union of the masks is every slot that offends. -/
theorem testBit_offences_union (solo odd mgmt : Bool) (ws : List Nat) (k : Nat) :
    ((offences solo odd mgmt ws).foldl (· ||| ·) 0).testBit k = true ↔
      ∃ w n, ws[k]? = some w ∧ Claims.Offends solo odd mgmt ws k w n := by
  rw [testBit_foldl_or]
  simp only [Nat.zero_testBit, Bool.false_eq_true, false_or, List.mem_iff_getElem]
  constructor
  · rintro ⟨x, ⟨i, hi, rfl⟩, hx⟩
    obtain ⟨w, hw, ho⟩ := (marks_offences solo odd mgmt ws i hi k).1 hx
    exact ⟨w, _, hw, ho⟩
  · rintro ⟨w, n, hw, ho⟩
    obtain ⟨i, hi, rfl⟩ := offends_detail ho
    exact ⟨_, ⟨i, hi, rfl⟩, (marks_offences solo odd mgmt ws i hi k).2 ⟨w, hw, ho⟩⟩

/-- A mask is empty where no slot offends under its condition. -/
theorem offences_eq_zero_iff (solo odd mgmt : Bool) (ws : List Nat) (i : Nat) (hi : i < (offences solo odd mgmt ws).length) :
    (offences solo odd mgmt ws)[i] = 0 ↔ ∀ k w, ws[k]? = some w → ¬ Claims.Offends solo odd mgmt ws k w (i + 1) := by
  have hmarks := marks_offences solo odd mgmt ws i hi
  constructor
  · intro h k w hw ho
    have hbit := (hmarks k).2 ⟨w, hw, ho⟩
    rw [h, Nat.zero_testBit] at hbit
    exact Bool.false_ne_true hbit
  · intro h
    by_contra hne
    obtain ⟨k, hk⟩ := Nat.exists_testBit_of_ne_zero hne
    obtain ⟨w, hw, ho⟩ := (hmarks k).1 hk
    exact h k w hw ho

theorem judgeBundle_eq_none_iff (solo odd mgmt : Bool) (ws : List Nat) : judgeBundle solo odd mgmt ws = none ↔
    ∀ k w n, ws[k]? = some w → ¬ Claims.Offends solo odd mgmt ws k w n := by
  have hnone : judgeBundle solo odd mgmt ws = none ↔ (offences solo odd mgmt ws).findIdx? (· != 0) = none := by
    unfold judgeBundle
    dsimp only
    split
    next h => simp [h]
    next h => simp [h]
  rw [hnone, List.findIdx?_eq_none_iff]
  constructor
  · intro h k w n hw ho
    obtain ⟨i, hi, rfl⟩ := offends_detail ho
    exact (offences_eq_zero_iff solo odd mgmt ws i hi).1 (by simpa using h _ (List.getElem_mem hi)) k w hw ho
  · intro h x hx
    obtain ⟨i, hi, rfl⟩ := List.mem_iff_getElem.1 hx
    simpa using (offences_eq_zero_iff solo odd mgmt ws i hi).2 fun k w hw => h k w _ hw

theorem judgeBundle_eq_some {solo odd mgmt : Bool} {ws : List Nat} {d m : Nat}
    (h : judgeBundle solo odd mgmt ws = some (d, m)) : ∃ i, ∃ hi : i < (offences solo odd mgmt ws).length, d = i + 1 ∧
      m = (offences solo odd mgmt ws).foldl (· ||| ·) 0 ∧ (offences solo odd mgmt ws)[i] ≠ 0 ∧
      ∀ j (hj : j < i), (offences solo odd mgmt ws)[j] = 0 := by
  unfold judgeBundle at h
  dsimp only at h
  split at h
  next i hfind =>
    obtain ⟨rfl, rfl⟩ := Prod.mk.inj (Option.some.inj h)
    obtain ⟨hi, hne, hbefore⟩ := List.findIdx?_eq_some_iff_getElem.1 hfind
    exact ⟨i, hi, rfl, rfl, by simpa using hne, fun j hj => by simpa using hbefore j hj⟩
  next => cases h

theorem illegalConditions : Claims.IllegalConditions := by
  refine ⟨fun solo odd mgmt ws _ _ => ⟨judgeBundle_eq_none_iff solo odd mgmt ws, fun d m h => ?_⟩, fun s ws => rfl⟩
  obtain ⟨i, hi, rfl, rfl, hne, hbefore⟩ := judgeBundle_eq_some h
  refine ⟨?_, fun k w n hn hw ho => ?_, testBit_offences_union solo odd mgmt ws⟩
  · obtain ⟨k, hk⟩ := Nat.exists_testBit_of_ne_zero hne
    obtain ⟨w, hw, ho⟩ := (marks_offences solo odd mgmt ws i hi k).1 hk
    exact ⟨k, w, hw, ho⟩
  · obtain ⟨j, hj, rfl⟩ := offends_detail ho
    exact (offences_eq_zero_iff solo odd mgmt ws j hj).1 (hbefore j (by omega)) k w hw ho

/-! The boundary's own steps (R145, R306, R310, R408). -/

theorem trapDelivery_kill (s : State) (d : BitVec 8) (hk : s.core.kill = some d) (hst : s.core.st ≠ .bound) :
    exec .trapDelivery s = .next ((s.takeTrap (stamp s s.core { cause := 0x13, detail := d })).onCore fun c =>
      { c with kill := none }) := by
  simp only [exec, execTrapDelivery, hk, if_neg hst]

theorem budgetOverrun_active (s : State) (hm : s.mgmt = false) (hst : s.core.st = .active) (hb : s.core.r.tbudget = 0) :
    exec .budgetOverrun s = .next (s.takeTrap (stamp s s.core { cause := 0x0C })) := by
  simp only [exec, execBudgetOverrun, hm, hst, hb, true_or, and_self, if_true]

theorem State.irq_lowest (s : State) (n : Nat) (hn : n < 9) (hset : s.irqs.getLsbD n = true)
    (hlow : ∀ m, m < n → s.irqs.getLsbD m = false) : s.irq = some n :=
  List.find?_range_eq_some.2 ⟨hset, List.mem_range.2 hn, fun m hm => by rw [hlow m hm]; rfl⟩

theorem interrupt_taken (s : State) (n : Nat) (hm : s.mgmt = true) (ha : s.core.accept = true) (hirq : s.irq = some n) :
    exec .interrupt s = .next ((s.enterHandler (stamp s s.core { cause := 0x00, detail := BitVec.ofNat 8 n })).onCore
      fun c => { c with accept := false, wfi := false }) := by
  simp only [exec, execInterrupt, hm, ha, hirq]

theorem boundarySteps : Claims.BoundarySteps := by
  intro s
  refine ⟨fun d hk hst hm => ?_, fun x hk hp hm hc he => ?_, fun hm hst hb => ?_, fun n hn hm ha hset hlow => ?_,
    fun hm hirq => ?_⟩
  · obtain ⟨hdrain, -, htrc, -⟩ := s.takeTrap_ended (stamp s s.core { cause := 0x13, detail := d }) (.inr rfl) hm
      (.inl (show trapClass 0x13 = .ends by decide))
    exact ⟨_, trapDelivery_kill s d hk hst, hdrain, rfl, htrc⟩
  · obtain ⟨hdrain, hstatus, -, -, -, -, -, -, -, hpend, -⟩ := s.unpend.takeTrap_ended x (.inr he) hm (.inl hc)
    exact ⟨_, trapDelivery_one s x hk hp (by simp [State.deliverable, hc]), hdrain, hstatus, hpend⟩
  · obtain ⟨hdrain, -, htrc, -, hpc, -⟩ := s.takeTrap_ended (stamp s s.core { cause := 0x0C }) (.inr rfl) hm
      (.inl (show trapClass 0x0C = .ends by decide))
    exact ⟨_, budgetOverrun_active s hm hst hb, hdrain, htrc, hpc⟩
  · refine ⟨_, interrupt_taken s n hm ha (s.irq_lowest n hn hset hlow), rfl, rfl, ?_, rfl⟩
    have hmod : (BitVec.ofNat 8 n).toNat = n := by rw [BitVec.toNat_ofNat]; omega
    have hcause : 0 + 256 * (BitVec.ofNat 8 n).toNat = 256 * n := by rw [hmod, Nat.zero_add]
    exact congrArg (BitVec.ofNat 64) hcause
  · exact congrArg Host.Outcome.next (if_pos ⟨hm, hirq⟩)

/-! An illegal bundle traps at its issue (R75, R76, R305). -/

theorem illegalBundle_judged (s : State) (bs : List Byte) (d m : Nat) (hf : s.fetch = .ok bs)
    (hj : s.judgeWords (bundleWords bs) = some (d, m)) : exec .illegalBundle s = .next (s.takeTrap
      (stamp s s.core { cause := 0x01, detail := BitVec.ofNat 8 d, slots := BitVec.ofNat 8 m })) := by
  simp only [exec, execIllegalBundle, State.fetchWords, hf, Option.bind_some, hj]

theorem illegalBundle : Claims.IllegalBundle := by
  intro s bs d m hf hm hd hj
  obtain ⟨hdrain, -, htrc0, htrc1, hpc, -, -, -, -, -, hmem⟩ := s.takeTrap_ended
    (stamp s s.core { cause := 0x01, detail := BitVec.ofNat 8 d, slots := BitVec.ofNat 8 m }) (.inr rfl) hm
    (.inl (show trapClass 0x01 = .ends by decide))
  refine ⟨_, illegalBundle_judged s bs d m hf hj, hdrain, htrc0.trans ?_, htrc1, hpc, hmem⟩
  have hmod : (BitVec.ofNat 8 d).toNat = d := by rw [BitVec.toNat_ofNat]; omega
  have hcause : 1 + 256 * (BitVec.ofNat 8 d).toNat = 1 + 256 * d := by rw [hmod]
  exact congrArg (BitVec.ofNat 64) hcause

/-- Settles O13: the boundary's own steps, the ten conditions of R75, and the trap of an illegal bundle. -/
theorem boundaries : Obligations.Boundaries := ⟨boundarySteps, illegalConditions, illegalBundle⟩

end Sys2Proof.Machine
end

section
/-! PROOFS. Vector words: elements held as digits of a vector, and the landings made of them (R152, R153, R155). -/

namespace Sys2Proof.Machine

/-! Elements of a vector (R152). -/

theorem foldr_digits_lt {α : Type} (B : Nat) (l : List α) (f : α → Nat) (hf : ∀ x ∈ l, f x < B) :
    l.foldr (fun x acc => f x + B * acc) 0 < B ^ l.length := by
  induction l with
  | nil => exact Nat.one_pos
  | cons x l ih =>
    have hx := hf x List.mem_cons_self
    have hl := ih fun y hy => hf y (List.mem_cons_of_mem x hy)
    rw [List.foldr_cons, List.length_cons, pow_succ']
    calc f x + B * l.foldr (fun x acc => f x + B * acc) 0
        < B + B * l.foldr (fun x acc => f x + B * acc) 0 := Nat.add_lt_add_right hx _
      _ = B * (l.foldr (fun x acc => f x + B * acc) 0 + 1) := by ring
      _ ≤ B * B ^ l.length := Nat.mul_le_mul_left B hl

theorem buildV_digits_lt (e n : Nat) (f : Nat → Nat) :
    (List.range n).foldr (fun i acc => f i % 2 ^ e + 2 ^ e * acc) 0 < 2 ^ (e * n) := by
  have h := foldr_digits_lt (2 ^ e) (List.range n) (fun i => f i % 2 ^ e) fun i _ => Nat.mod_lt _ (Nat.two_pow_pos e)
  rwa [List.length_range, ← pow_mul] at h

theorem toNat_buildV (e n : Nat) (f : Nat → Nat) (hfit : e * n ≤ 1024) :
    (buildV e n f).toNat = (List.range n).foldr (fun i acc => f i % 2 ^ e + 2 ^ e * acc) 0 := by
  rw [buildV, BitVec.toNat_ofNat,
    Nat.mod_eq_of_lt ((buildV_digits_lt e n f).trans_le (Nat.pow_le_pow_right Nat.two_pos hfit))]

theorem el_buildV (e n : Nat) (f : Nat → Nat) (j : Nat) (hj : j < n) (hfit : e * n ≤ 1024) :
    Claims.el (buildV e n f) e j = f j % 2 ^ e := by
  rw [Claims.el, BitVec.extractLsb'_toNat, toNat_buildV e n f hfit, Nat.shiftRight_eq_div_pow, pow_mul,
    digit_foldr _ _ (fun i => f i % 2 ^ e) (fun i _ => Nat.mod_lt _ (Nat.two_pow_pos e)) j (by simpa using hj),
    List.getElem_range]

/-- Bit b of a vector is a bit of the element that covers it. -/
theorem getLsbD_buildV (e n : Nat) (f : Nat → Nat) (b : Nat) (he : 0 < e) (hfit : e * n ≤ 1024) :
    (buildV e n f).getLsbD b = (decide (b < e * n) && (f (b / e)).testBit (b % e)) := by
  by_cases hb : b < e * n
  · have hr : b % e < e := Nat.mod_lt b he
    have hel := el_buildV e n f (b / e) (Nat.div_lt_of_lt_mul hb) hfit
    rw [Claims.el] at hel
    have hbit := congrArg (Nat.testBit · (b % e)) hel
    simpa [hr, hb, Nat.div_add_mod, BitVec.getLsbD] using hbit
  · have hlt : (buildV e n f).toNat < 2 ^ b := by
      rw [toNat_buildV e n f hfit]
      exact (buildV_digits_lt e n f).trans_le (Nat.pow_le_pow_right Nat.two_pos (Nat.not_lt.1 hb))
    rw [BitVec.getLsbD, Nat.testBit_lt_two_pow hlt, decide_eq_false hb, Bool.false_and]

/-- Bit b of a vector of whole elements, each all ones or zero. -/
theorem getLsbD_buildV_ones (e n : Nat) (p : Nat → Bool) (b : Nat) (he : 0 < e) (hfit : e * n ≤ 1024) :
    (buildV e n fun i => if p i then 2 ^ e - 1 else 0).getLsbD b = (decide (b < e * n) && p (b / e)) := by
  rw [getLsbD_buildV e n _ b he hfit]
  cases p (b / e) <;> simp [Nat.mod_lt b he]

theorem getLsbD_activeBits (m : Mask) (e n b : Nat) (he : 0 < e) (hfit : e * n ≤ 1024) :
    (activeBits m e n).getLsbD b = (decide (b < e * n) && m.getLsbD (e * (b / e) / 8)) :=
  getLsbD_buildV_ones e n (active m e) b he hfit

/-! Widths (R65, R66, R152). -/

theorem widthBits_le (w : BitVec 2) (hw : w.toNat < 3) : widthBits w ≤ 1024 := by
  revert w
  decide

theorem tBits_cases (t : BitVec 3) : tBits t = 8 ∨ tBits t = 16 ∨ tBits t = 32 := by
  revert t
  decide

theorem tBits_pos (t : BitVec 3) : 0 < tBits t := by
  revert t
  decide

theorem elemBits_pos (t : BitVec 3) : 0 < elemBits t := Nat.mul_pos (by decide) (Nat.two_pow_pos _)

theorem tBits_of_integer (t : BitVec 3) (ht : t.toNat ≤ 2) : tBits t = 8 * 2 ^ t.toNat := by
  revert t
  decide

/-- The elements of a word's width fit a vector. -/
theorem elements_fit (o : VOp) (e : Nat) (hw : o.w.toNat < 3) : e * (widthBits o.w / e) ≤ 1024 :=
  (Nat.mul_div_le _ e).trans (widthBits_le o.w hw)

theorem VOp.tw_width {o : VOp} {lo hi : Nat} (h : o.tw lo hi = true) : o.w.toNat < 3 := by
  simp only [VOp.tw, Bool.and_eq_true, decide_eq_true_eq] at h
  exact h.1.1

theorem VOp.tw_le {o : VOp} {lo hi : Nat} (h : o.tw lo hi = true) : o.t.toNat ≤ hi := by
  simp only [VOp.tw, Bool.and_eq_true, decide_eq_true_eq] at h
  exact h.2

theorem Instr.wf_fields {i : Instr} (h : i.wf = true) : i.fieldsOk = true := by
  simp only [Instr.wf, Bool.and_eq_true] at h
  exact h.1.1

/-! Elements as integers (R152, R158). -/

theorem toS_eq_sgn (e x : Nat) (he : 0 < e) : toS e x = Claims.sgn e x := by
  obtain ⟨k, rfl⟩ := Nat.exists_eq_succ_of_ne_zero he.ne'
  have hiff : x < 2 ^ k ↔ 2 * x < 2 ^ (k + 1) := by rw [pow_succ']; omega
  simp only [toS, Claims.sgn, Nat.succ_eq_add_one, Nat.add_sub_cancel, hiff]
  push_cast
  rfl

theorem ofS_eq (e : Nat) (i : Int) : ofS e i = (i % 2 ^ e).toNat := by
  rw [ofS]
  push_cast
  rfl

theorem clampS_eq (e : Nat) (i : Int) : clampS e i = max (-2 ^ (e - 1)) (min (2 ^ (e - 1) - 1) i) := by
  rw [clampS]
  push_cast
  rfl

/-! Results by element (R153, R155). -/

/-- A word that lands elements by `vLand` has the elements it lands. -/
theorem elements_of_vLand {i : Instr} {o : VOp} {s : State} {c e n : Nat} {f g : Nat → Nat}
    (h : exec i s = vLand o s c e n g) (he : 0 < e) (hfit : e * n ≤ 1024) (hg : ∀ j, g j = f j) :
    Claims.Elements i o s c e n f := by
  refine ⟨_, _, h, fun j hj => ?_, fun b _ => getLsbD_activeBits _ e n b he hfit⟩
  rw [← hg]
  exact el_buildV e n g j hj hfit

/-- The same, for as many elements as the width holds. -/
theorem elements_of_width {i : Instr} {o : VOp} {s : State} {c e : Nat} {f g : Nat → Nat}
    (h : exec i s = vLand o s c e (widthBits o.w / e) g) (he : 0 < e) (hw : o.w.toNat < 3) (hg : ∀ j, g j = f j) :
    Claims.Elements i o s c e (widthBits o.w / e) f :=
  elements_of_vLand h he (elements_fit o e hw) hg

end Sys2Proof.Machine
end

section
/-! PROOFS. Conversions, random lanes and reductions (R107 to R109, R124, R126, R166 to R171). -/

namespace Sys2Proof.Machine

/-! Elements that are converted, narrowed, widened or drawn (R166 to R169). -/

theorem vcvt_elements (o : VOp) (s : State) (h : (Instr.vcvt o).wf = true) :
    Claims.Elements (.vcvt o) o s 4 (tBits o.t) (widthBits o.w / max (tBits (o.vb.setWidth 3)) (tBits o.t)) fun j =>
      cvtElt s (o.vb.setWidth 3) o.t (Claims.el (s.rdV o.va) (tBits (o.vb.setWidth 3)) j) := by
  have hf : (o.tw 0 7 && decide (o.vb.toNat < 8)) = true := Instr.wf_fields h
  have hw := VOp.tw_width (Bool.and_eq_true_iff.1 hf).1
  refine elements_of_vLand rfl (tBits_pos o.t) ?_ fun _ => rfl
  exact (Nat.mul_le_mul_right _ (le_max_right (tBits (o.vb.setWidth 3)) (tBits o.t))).trans (elements_fit o _ hw)

theorem vcvtsr_elements (o : VOp) (s : State) (h : (Instr.vcvtsr o).wf = true) :
    Claims.Elements (.vcvtsr o) o s 4 (tBits o.t) (widthBits o.w / 32) fun j =>
      stochastic (fmtT o.t) s.core.iss.nbv (s.core.iss.vrm.getLsbD 2) (Claims.el (s.rdV o.va) 32 j)
        (Claims.el (s.rdV o.vb) 32 j) := by
  have hf : (o.tw 3 4 || o.tw 6 7) = true := Instr.wf_fields h
  have hw : o.w.toNat < 3 := (Bool.or_eq_true_iff.1 hf).elim VOp.tw_width VOp.tw_width
  have ht : tBits o.t ≤ 32 := by rcases tBits_cases o.t with h | h | h <;> omega
  exact elements_of_vLand rfl (tBits_pos o.t) ((Nat.mul_le_mul_right _ ht).trans (elements_fit o 32 hw)) fun _ => rfl

theorem vnarrow_elements (o : VOp) (s : State) (h : (Instr.vnarrow o).wf = true) :
    Claims.Elements (.vnarrow o) o s 4 (elemBits o.t) (widthBits o.w / elemBits o.t) fun j =>
      (max (-2 ^ (elemBits o.t - 1)) (min (2 ^ (elemBits o.t - 1) - 1)
        (Claims.sgn (2 * elemBits o.t)
          (if j < widthBits o.w / elemBits o.t / 2 then Claims.el (s.rdV o.va) (2 * elemBits o.t) j
           else Claims.el (s.rdV o.vb) (2 * elemBits o.t) (j - widthBits o.w / elemBits o.t / 2)))) %
        2 ^ elemBits o.t).toNat := by
  have hf : o.tw 0 1 = true := Instr.wf_fields h
  refine elements_of_width rfl (elemBits_pos o.t) (VOp.tw_width hf) fun j => ?_
  rw [ofS_eq, clampS_eq, toS_eq_sgn _ _ (Nat.mul_pos Nat.two_pos (elemBits_pos o.t))]
  rfl

theorem vwiden_elements (o : VOp) (s : State) (h : (Instr.vwiden o).wf = true) :
    Claims.Elements (.vwiden o) o s 4 (elemBits o.t) (widthBits o.w / elemBits o.t) fun j =>
      ((Claims.sgn (elemBits o.t / 2) (Claims.el (s.rdV o.va) (elemBits o.t / 2) j) +
        Claims.sgn (elemBits o.t / 2) (Claims.el (s.rdV o.vb) (elemBits o.t / 2) j)) % 2 ^ elemBits o.t).toNat := by
  have hf : o.tw 1 2 = true := Instr.wf_fields h
  have hhalf : 0 < elemBits o.t / 2 :=
    Nat.div_pos ((show 2 ≤ 8 by decide).trans (Nat.le_mul_of_pos_right 8 (Nat.two_pow_pos _))) Nat.two_pos
  refine elements_of_width rfl (elemBits_pos o.t) (VOp.tw_width hf) fun j => ?_
  rw [ofS_eq, toS_eq_sgn _ _ hhalf, toS_eq_sgn _ _ hhalf]
  rfl

theorem vrng_elements (o : VOp) (s : State) (h : (Instr.vrng o).wf = true) :
    Claims.Elements (.vrng o) o s 6 32 (widthBits o.w / 32) fun j =>
      (cch4 (BitVec.ofNat 32 (Claims.el (s.rdV o.va) 32 j)) (BitVec.ofNat 32 (Claims.el (s.rdV o.vb) 32 j))).toNat := by
  have hf : o.tw 2 2 = true := Instr.wf_fields h
  exact elements_of_width rfl (by decide) (VOp.tw_width hf) fun _ => rfl

/-! Reductions land in the low 32 bits (R170, R171). -/

theorem getLsbD_ones (n b k : Nat) (hb : b < n) : (BitVec.ofNat n (2 ^ k - 1)).getLsbD b = decide (b < k) := by
  rw [BitVec.getLsbD_ofNat, Nat.testBit_two_pow_sub_one, decide_eq_true hb, Bool.true_and]

theorem reduces_of_vRed {mk : VOp → Instr} {c : Nat} {u : VOp → State → Option (BitVec 32)} {f g : VOp → State → Nat}
    (h : ∀ o s, exec (mk o) s = vRed o s c (g o s) (u o s)) (hg : ∀ o s, g o s % 2 ^ 32 = f o s % 2 ^ 32) :
    Claims.reduces mk c u f := by
  intro o s
  refine ⟨_, _, h o s, ?_, fun b hb => getLsbD_ones 1024 b 32 hb⟩
  rw [← hg, BitVec.toNat_setWidth, BitVec.toNat_ofNat]
  omega

theorem redStart_eq (o : VOp) (s : State) : redStart o s = Claims.sgn 32 (Claims.el (s.rdV o.vb) 32 0) :=
  toS_eq_sgn 32 _ (by decide)

/-- An integer reduction wraps what it makes of c and the active elements (R170). -/
theorem reduces_of_integers {mk : VOp → Instr} {c : Nat} (op : Int → Int → Int)
    (h : ∀ o s, exec (mk o) s = vRed o s c (ofS 32 ((activeInts o s).foldl op (redStart o s)))) :
    Claims.reduces mk c (fun _ _ => none) fun o s =>
      ((activeInts o s).foldl op (Claims.sgn 32 (Claims.el (s.rdV o.vb) 32 0)) % 2 ^ 32).toNat :=
  reduces_of_vRed h fun o s => by rw [redStart_eq, ofS_eq]

/-- Settles O18: each word lands its elements by `vLand`, each reduction its low 32 bits by `vRed`. -/
theorem vectorConversionsAndReductions : Obligations.VectorConversionsAndReductions :=
  ⟨fun o s => ⟨vcvt_elements o s, vcvtsr_elements o s, vnarrow_elements o s, vwiden_elements o s, vrng_elements o s⟩,
    reduces_of_integers _ fun _ _ => rfl, reduces_of_integers _ fun _ _ => rfl, reduces_of_integers _ fun _ _ => rfl,
    reduces_of_vRed (fun _ _ => rfl) fun _ _ => rfl, reduces_of_vRed (fun _ _ => rfl) fun _ _ => rfl⟩

end Sys2Proof.Machine
end

section
/-! PROOFS. Floating vector words, compares into masks, and mask operations (R98, R102, R105, R153, R159 to R161). -/

namespace Sys2Proof.Machine

theorem floating_of_vFloat {mk : VOp → Instr} {f : BitVec 2 → Num → Num → Num → Num}
    (h : ∀ o s, exec (mk o) s = vFloat o s f) (hwf : ∀ o, (mk o).fieldsOk = o.tw 3 5) : Claims.floating mk f :=
  fun o s hw => elements_of_width (h o s) (tBits_pos o.t) (VOp.tw_width ((hwf o).symm.trans (Instr.wf_fields hw)))
    fun _ => rfl

/-- Words on the sign bits take an operand and no second one (R159). -/
theorem elements_of_vSign {i : Instr} {o : VOp} {s : State} {f : Nat → Nat → Nat} (h : exec i s = vSign o s f)
    (hwf : i.fieldsOk = (o.tw 3 5 && o.vb == 0)) (hw : i.wf = true) :
    Claims.Elements i o s 2 (tBits o.t) (widthBits o.w / tBits o.t) fun j =>
      f (tBits o.t) (Claims.el (s.rdV o.va) (tBits o.t) j) := by
  have htw := (Bool.and_eq_true_iff.1 (hwf.symm.trans (Instr.wf_fields hw))).1
  exact elements_of_width h (tBits_pos o.t) (VOp.tw_width htw) fun _ => rfl

theorem vectorFloating : Claims.VectorFloating := by
  refine ⟨floating_of_vFloat (fun _ _ => rfl) fun _ => rfl, floating_of_vFloat (fun _ _ => rfl) fun _ => rfl,
    floating_of_vFloat (fun _ _ => rfl) fun _ => rfl, floating_of_vFloat (fun _ _ => rfl) fun _ => rfl,
    floating_of_vFloat (fun _ _ => rfl) fun _ => rfl, floating_of_vFloat (fun _ _ => rfl) fun _ => rfl,
    floating_of_vFloat (fun _ _ => rfl) fun _ => rfl, ?_⟩
  rintro o s e rfl
  exact ⟨elements_of_vSign (f := fun e x => x % 2 ^ (e - 1)) rfl rfl,
    elements_of_vSign (f := fun e x => x ^^^ 2 ^ (e - 1)) rfl rfl⟩

/-! Compares into masks (R153, R160). -/

/-- Elements of 8, 16 or 32 bits are whole bytes, and a width is a whole number of them. -/
theorem bytes_of_element (w : BitVec 2) (e : Nat) (he : e = 8 ∨ e = 16 ∨ e = 32) :
    8 * (e / 8) = e ∧ e * (widthBits w / e) = widthBits w := by
  have hdvd : e ∣ widthBits w := Dvd.dvd.mul_right (by rcases he with rfl | rfl | rfl <;> decide) _
  exact ⟨by omega, Nat.mul_div_cancel' hdvd⟩

theorem maskOf_of_vCmp {i : Instr} {o : VOp} {s : State} {c e : Nat} {f g : Nat → Bool}
    (h : exec i s = vCmp o s c e g) (he : e = 8 ∨ e = 16 ∨ e = 32) (hw : o.w.toNat < 3) (hg : ∀ j, g j = f j) :
    Claims.MaskOf i o s c e f := by
  obtain ⟨hbyte, hwhole⟩ := bytes_of_element o.w e he
  have hmul : 8 * (e / 8 * (widthBits o.w / e)) = widthBits o.w := by rw [← Nat.mul_assoc, hbyte, hwhole]
  have hfit : e / 8 * (widthBits o.w / e) ≤ 1024 := by
    have := widthBits_le o.w hw
    omega
  have hpos : 0 < e / 8 := by omega
  refine ⟨_, _, h, fun b _ => ?_⟩
  have hdiv : b / (e / 8) = 8 * b / e := by rw [← Nat.mul_div_mul_left b (e / 8) (by decide : 0 < 8), hbyte]
  have hin : b < e / 8 * (widthBits o.w / e) ↔ 8 * b < widthBits o.w := by omega
  rw [nElts, getLsbD_buildV_ones _ _ _ b hpos hfit, getLsbD_buildV_ones _ _ _ b hpos hfit, hdiv, hg]
  simp only [hin]
  refine ⟨rfl, fun hb => ?_⟩
  rw [decide_eq_true hb, Bool.true_and]

theorem elemBits_cases (t : BitVec 3) (ht : t.toNat ≤ 2) : elemBits t = 8 ∨ elemBits t = 16 ∨ elemBits t = 32 := by
  revert t
  decide

theorem comparesInt_of_vCmpI {mk : VOp → Instr} {f g : Nat → Nat → Nat → Bool} (h : ∀ o s, exec (mk o) s = vCmpI o s g)
    (hwf : ∀ o, (mk o).fieldsOk = (o.tw 0 2 && decide (o.vd.toNat < 16))) (hg : ∀ e a b, 0 < e → g e a b = f e a b) :
    Claims.comparesInt mk f := by
  intro o s hw
  have htw := (Bool.and_eq_true_iff.1 ((hwf o).symm.trans (Instr.wf_fields hw))).1
  exact maskOf_of_vCmp (h o s) (elemBits_cases o.t (VOp.tw_le htw)) (VOp.tw_width htw) fun j =>
    hg _ _ _ (elemBits_pos o.t)

theorem comparesFloat_of_vCmpF {mk : VOp → Instr} {f : Num → Num → Bool} (h : ∀ o s, exec (mk o) s = vCmpF o s f)
    (hwf : ∀ o, (mk o).fieldsOk = (o.tw 3 5 && decide (o.vd.toNat < 16))) : Claims.comparesFloat mk f := by
  intro o s hw
  have htw := (Bool.and_eq_true_iff.1 ((hwf o).symm.trans (Instr.wf_fields hw))).1
  exact maskOf_of_vCmp (h o s) (tBits_cases o.t) (VOp.tw_width htw) fun _ => rfl

/-! Mask operations and tests (R161). -/

theorem masks_of_vMask {mk : VOp → Instr} {f : Mask → Mask → Mask} (h : ∀ o s, exec (mk o) s = vMask o s f) :
    Claims.masks mk f := by
  intro o s
  refine ⟨_, _, h o s, by simp, BitVec.eq_of_getLsbD_eq fun b hb => ?_⟩
  rw [BitVec.getLsbD_setWidth, getLsbD_ones 1024 b 128 (by omega), BitVec.getLsbD_allOnes]
  simp [hb]

theorem getLsbD_zero_bit (n : Nat) (hn : 0 < n) (b : Bool) : (BitVec.ofNat n (bit b)).getLsbD 0 = b := by
  cases b <;> simp [bit, hn]

theorem getLsbD_one (b : Nat) (hb : b < 1024) : (BitVec.ofNat 1024 1).getLsbD b = decide (b = 0) := by
  rw [show 1 = 2 ^ 1 - 1 by decide, getLsbD_ones 1024 b 1 hb]
  simp

theorem vectorComparesAndMasks : Claims.VectorComparesAndMasks := by
  refine ⟨comparesInt_of_vCmpI (g := fun _ a b => a == b) (fun _ _ => rfl) (fun _ => rfl) fun _ _ _ _ => rfl,
    comparesInt_of_vCmpI (g := fun _ a b => a != b) (fun _ _ => rfl) (fun _ => rfl) fun _ a b _ => by simp [bne, beq_eq_decide],
    comparesInt_of_vCmpI (g := fun e a b => decide (toS e a < toS e b)) (fun _ _ => rfl) (fun _ => rfl)
      fun _ _ _ he => by rw [toS_eq_sgn _ _ he, toS_eq_sgn _ _ he],
    comparesInt_of_vCmpI (g := fun e a b => decide (toS e a ≤ toS e b)) (fun _ _ => rfl) (fun _ => rfl)
      fun _ _ _ he => by rw [toS_eq_sgn _ _ he, toS_eq_sgn _ _ he],
    comparesInt_of_vCmpI (g := fun _ a b => decide (a < b)) (fun _ _ => rfl) (fun _ => rfl) fun _ _ _ _ => rfl,
    comparesInt_of_vCmpI (g := fun _ a b => decide (a ≤ b)) (fun _ _ => rfl) (fun _ => rfl) fun _ _ _ _ => rfl,
    comparesFloat_of_vCmpF (fun _ _ => rfl) fun _ => rfl, comparesFloat_of_vCmpF (fun _ _ => rfl) fun _ => rfl,
    comparesFloat_of_vCmpF (fun _ _ => rfl) fun _ => rfl, comparesFloat_of_vCmpF (fun _ _ => rfl) fun _ => rfl,
    masks_of_vMask fun _ _ => rfl, masks_of_vMask fun _ _ => rfl, masks_of_vMask fun _ _ => rfl,
    masks_of_vMask fun _ _ => rfl, fun o s => ⟨_, _, _, _, rfl, rfl, ?_, ?_, fun b hb => ⟨?_, ?_⟩⟩⟩
  · exact (getLsbD_zero_bit 1024 (by decide) _).trans (by simp [bne, beq_eq_decide])
  · exact (getLsbD_zero_bit 1024 (by decide) _).trans (beq_eq_decide _ _)
  · exact getLsbD_one b hb
  · exact getLsbD_one b hb

end Sys2Proof.Machine
end

section
/-! PROOFS. Exact values: their rational values, their sums, products and order (R102, R104, R105, R159, R160). -/

namespace Sys2Proof.Machine

/-! The value of a sign, a significand and an exponent. -/

theorem two_zpow_pos (q : Int) : (0 : ℚ) < 2 ^ q := zpow_pos two_pos q

/-- A significand in smaller units. -/
theorem zpow_scale (m : Nat) {q e : Int} (h : q ≤ e) : ((m * 2 ^ (e - q).toNat : Nat) : ℚ) * 2 ^ q = m * 2 ^ e := by
  obtain ⟨d, rfl⟩ := Int.le.dest h
  have hd : (q + d - q).toNat = d := by omega
  rw [hd, zpow_add₀ two_ne_zero, zpow_natCast]
  push_cast
  ring

theorem val_natAbs (i q : Int) : Claims.val (decide (i < 0)) i.natAbs q = i * 2 ^ q := by
  rw [Claims.val, Nat.cast_natAbs, Int.cast_abs]
  by_cases h : i < 0
  · have hq : (i : ℚ) < 0 := by exact_mod_cast h
    rw [decide_eq_true h, if_pos rfl, abs_of_neg hq]
    ring
  · have hq : (0 : ℚ) ≤ i := by exact_mod_cast not_lt.1 h
    rw [decide_eq_false h, if_neg Bool.false_ne_true, abs_of_nonneg hq]
    ring

theorem val_zero (s : Bool) (e : Int) : Claims.val s 0 e = 0 := by simp [Claims.val]

theorem val_eq_zero_iff (s : Bool) (m : Nat) (e : Int) : Claims.val s m e = 0 ↔ m = 0 := by
  cases s <;> simp [Claims.val, (two_zpow_pos e).ne']

theorem abs_val (s : Bool) (m : Nat) (e : Int) : |Claims.val s m e| = m * 2 ^ e := by
  have h : (0 : ℚ) ≤ m * 2 ^ e := mul_nonneg m.cast_nonneg (two_zpow_pos e).le
  cases s <;> simp [Claims.val, abs_of_nonneg h]

namespace Num

theorem units_fin (q : Int) (s : Bool) (m : Nat) {e : Int} (h : q ≤ e) :
    ((units q (.fin s m e) : Int) : ℚ) * 2 ^ q = Claims.val s m e := by
  have hscale := zpow_scale m h
  rw [units, Claims.val]
  push_cast at hscale ⊢
  rw [mul_assoc, hscale]
  ring

theorem units_lt_iff (q : Int) (s t : Bool) (m n : Nat) {e g : Int} (he : q ≤ e) (hg : q ≤ g) :
    units q (.fin s m e) < units q (.fin t n g) ↔ Claims.val s m e < Claims.val t n g := by
  rw [← units_fin q s m he, ← units_fin q t n hg, mul_lt_mul_iff_left₀ (two_zpow_pos q), Int.cast_lt]

theorem units_eq_iff (q : Int) (s t : Bool) (m n : Nat) {e g : Int} (he : q ≤ e) (hg : q ≤ g) :
    units q (.fin s m e) = units q (.fin t n g) ↔ Claims.val s m e = Claims.val t n g := by
  rw [← units_fin q s m he, ← units_fin q t n hg, mul_left_inj' (two_zpow_pos q).ne', Int.cast_inj]

/-! The order (R159, R160). -/

theorem lt_fin_iff (s t : Bool) (m n : Nat) (e g : Int) :
    lt (.fin s m e) (.fin t n g) = true ↔ Claims.val s m e < Claims.val t n g :=
  decide_eq_true_iff.trans (units_lt_iff _ s t m n (min_le_left e g) (min_le_right e g))

theorem eq_fin_iff (s t : Bool) (m n : Nat) (e g : Int) :
    eq (.fin s m e) (.fin t n g) = true ↔ Claims.val s m e = Claims.val t n g :=
  beq_iff_eq.trans (units_eq_iff _ s t m n (min_le_left e g) (min_le_right e g))

theorem lt_nan_right (x : Num) : lt x .nan = false := by cases x <;> rfl
theorem eq_nan_right (x : Num) : eq x .nan = false := by cases x <;> rfl

theorem isNan_left_of_lt {x y : Num} (h : x.lt y = true) : x.isNan = false := by
  cases x with
  | nan => cases h
  | inf s => rfl
  | fin s m e => rfl

theorem isNan_right_of_lt {x y : Num} (h : x.lt y = true) : y.isNan = false := by
  cases y with
  | nan => rw [lt_nan_right] at h; cases h
  | inf s => rfl
  | fin s m e => rfl

/-- Two zeros stand in no order. -/
theorem not_zeros_of_lt {x y : Num} (h : x.lt y = true) : (x.isZero && y.isZero) = false := by
  cases x with
  | nan => rfl
  | inf s => rfl
  | fin s m e =>
    cases y with
    | nan => exact Bool.and_false _
    | inf t => exact Bool.and_false _
    | fin t n g =>
      rw [lt_fin_iff] at h
      rw [← Bool.not_eq_true, Bool.and_eq_true]
      rintro ⟨hm, hn⟩
      rw [beq_iff_eq.1 hm, beq_iff_eq.1 hn, val_zero, val_zero] at h
      exact lt_irrefl _ h

theorem lt_asymm {x y : Num} (h : x.lt y = true) : y.lt x = false := by
  cases x with
  | nan => cases h
  | inf s =>
    cases y with
    | nan => rfl
    | inf t =>
      obtain ⟨rfl, rfl⟩ : s = true ∧ t = false := by simpa [lt] using h
      rfl
    | fin t n g =>
      obtain rfl : s = true := h
      rfl
  | fin s m e =>
    cases y with
    | nan => rfl
    | inf t =>
      obtain rfl : t = false := by simpa [lt] using h
      rfl
    | fin t n g =>
      rw [← Bool.not_eq_true, lt_fin_iff]
      exact not_lt.2 ((lt_fin_iff s t m n e g).1 h).le

end Num

/-! The smaller and the greater of two values (R124, R159). -/

theorem minNum_nan_right (x : Num) : minNum x .nan = .nan := by cases x <;> rfl
theorem maxNum_nan_right (x : Num) : maxNum x .nan = .nan := by cases x <;> rfl

/-- Where neither value is a NaN and they are not both zeros, one of them is the result. -/
theorem minNum_eq {x y : Num} (hx : x.isNan = false) (hy : y.isNan = false) (hz : (x.isZero && y.isZero) = false) :
    minNum x y = if y.lt x then y else x := by
  simp [minNum, hx, hy, hz]

theorem maxNum_eq {x y : Num} (hx : x.isNan = false) (hy : y.isNan = false) (hz : (x.isZero && y.isZero) = false) :
    maxNum x y = if x.lt y then y else x := by
  simp [maxNum, hx, hy, hz]

theorem minMax_of_lt {x y : Num} (h : x.lt y = true) :
    minNum x y = x ∧ minNum y x = x ∧ maxNum x y = y ∧ maxNum y x = y := by
  have hx := Num.isNan_left_of_lt h
  have hy := Num.isNan_right_of_lt h
  have hxy := Num.not_zeros_of_lt h
  have hyx : (y.isZero && x.isZero) = false := (Bool.and_comm _ _).trans hxy
  rw [minNum_eq hx hy hxy, minNum_eq hy hx hyx, maxNum_eq hx hy hxy, maxNum_eq hy hx hyx, h, Num.lt_asymm h]
  exact ⟨rfl, rfl, rfl, rfl⟩

theorem isNan_of_eq {x y : Num} (h : x.eq y = true) : x.isNan = false ∧ y.isNan = false := by
  cases x with
  | nan => cases h
  | inf s =>
    cases y with
    | nan => cases h
    | inf t => exact ⟨rfl, rfl⟩
    | fin t n g => exact ⟨rfl, rfl⟩
  | fin s m e =>
    cases y with
    | nan => cases h
    | inf t => exact ⟨rfl, rfl⟩
    | fin t n g => exact ⟨rfl, rfl⟩

theorem minMax_of_nonzero {x y : Num} (hx : x.isNan = false) (hy : y.isNan = false) (hz : x.isZero = false) :
    (minNum x y = x ∨ minNum x y = y) ∧ (maxNum x y = x ∨ maxNum x y = y) := by
  have hxy : (x.isZero && y.isZero) = false := by rw [hz, Bool.false_and]
  rw [minNum_eq hx hy hxy, maxNum_eq hx hy hxy]
  constructor <;> split <;> simp

theorem comparisons : Claims.Comparisons := by
  refine ⟨fun s t m n e g => ⟨Num.lt_fin_iff s t m n e g, Num.eq_fin_iff s t m n e g, rfl, rfl, rfl, rfl, rfl, rfl, rfl,
      rfl⟩,
    fun x => ⟨rfl, Num.lt_nan_right x, rfl, Num.eq_nan_right x, rfl, minNum_nan_right x, rfl, maxNum_nan_right x⟩,
    fun x y => ⟨minMax_of_lt, fun h hz => ?_⟩⟩
  obtain ⟨hx, hy⟩ := isNan_of_eq h
  exact minMax_of_nonzero hx hy hz

/-- Settles O58: words by the elements they land, compares and mask operations by the bits they set, and the order of exact
values by their values in common units. -/
theorem vectorFloatsAndMasks : Obligations.VectorFloatsAndMasks :=
  ⟨vectorFloating, comparisons, vectorComparesAndMasks⟩

/-! Exact sums and products (R104, R105). -/

namespace Num

theorem add_nan_right (mode : BitVec 2) (x : Num) : add mode x .nan = .nan := by cases x <;> rfl
theorem mul_nan_right (x : Num) : mul x .nan = .nan := by cases x <;> rfl

theorem add_fin (mode : BitVec 2) (s t : Bool) (m n : Nat) (e g : Int) : ∃ (r : Bool) (k : Nat) (i : Int),
    add mode (.fin s m e) (.fin t n g) = .fin r k i ∧ Claims.val r k i = Claims.val s m e + Claims.val t n g ∧
    (Claims.val s m e + Claims.val t n g = 0 → r = if s = t then s else decide (mode = 3)) := by
  have hm := units_fin (min e g) s m (min_le_left e g)
  have hn := units_fin (min e g) t n (min_le_right e g)
  generalize hi : units (min e g) (.fin s m e) + units (min e g) (.fin t n g) = i
  have hsum : Claims.val s m e + Claims.val t n g = i * 2 ^ min e g := by
    rw [← hm, ← hn, ← hi]
    push_cast
    ring
  by_cases h0 : i = 0
  · refine ⟨if s = t then s else decide (mode = 3), 0, 0, ?_, ?_, fun _ => rfl⟩
    · simp only [add, hi, h0, if_true, zeroSign, beq_eq_decide]
    · rw [hsum, h0, val_zero, Int.cast_zero, zero_mul]
  · refine ⟨decide (i < 0), i.natAbs, min e g, ?_, (val_natAbs i _).trans hsum.symm, fun hz => ?_⟩
    · simp only [add, hi, h0, if_false, ofScaled]
    · rw [hsum, mul_eq_zero, Int.cast_eq_zero] at hz
      exact (hz.elim h0 (two_zpow_pos _).ne').elim

theorem val_mul (s t : Bool) (m n : Nat) (e g : Int) :
    Claims.val (s != t) (m * n) (e + g) = Claims.val s m e * Claims.val t n g := by
  simp only [Claims.val, zpow_add₀ (two_ne_zero (α := ℚ))]
  push_cast
  cases s <;> cases t <;> simp <;> ring

end Num

end Sys2Proof.Machine
end

section
/-! PROOFS. Rounding to an integer, and the formats: what an encoding decodes to, and what a rounded magnitude is packed
into (R97, R98, R102 to R104). -/

namespace Sys2Proof.Machine

/-! Rounding to an integer (R104). -/

theorem mode_cases (mode : BitVec 2) : mode = 0 ∨ mode = 1 ∨ mode = 2 ∨ mode = 3 := by
  revert mode
  decide

theorem rounds_exact (mode : BitVec 2) (neg : Bool) (n : Nat) : Claims.Rounds mode neg n n :=
  ⟨fun _ => by norm_num, fun _ => ⟨le_rfl, by linarith⟩, fun _ => ⟨le_rfl, by linarith⟩⟩

/-- The part `ρ` of a unit above `hi` takes the next integer. -/
def roundsUp (mode : BitVec 2) (neg : Bool) (hi : Nat) (ρ : ℚ) : Prop :=
  (mode = 0 ∧ (1 / 2 < ρ ∨ (ρ = 1 / 2 ∧ hi % 2 = 1))) ∨ (mode = 2 ∧ neg = false ∧ ρ ≠ 0) ∨
    (mode = 3 ∧ neg = true ∧ ρ ≠ 0)

theorem rounds_up (mode : BitVec 2) (neg : Bool) (hi : Nat) (ρ : ℚ) (h0 : 0 ≤ ρ) (h1 : ρ < 1)
    (h : roundsUp mode neg hi ρ) : Claims.Rounds mode neg (hi + 1) (hi + ρ) := by
  have hdiff : |((hi + 1 : Nat) : ℚ) - (hi + ρ)| = 1 - ρ := by
    rw [abs_of_nonneg] <;> push_cast <;> linarith
  refine ⟨fun hm => ?_, fun hm => ?_, fun _ => ⟨by push_cast; linarith, ?_⟩⟩
  · rw [hdiff]
    rcases h with ⟨-, h | ⟨h, hodd⟩⟩ | ⟨h, -⟩ | ⟨h, -⟩
    · exact ⟨by linarith, fun h => absurd h (by linarith)⟩
    · exact ⟨by linarith, fun _ => by omega⟩
    · exact absurd (hm.symm.trans h) (by decide)
    · exact absurd (hm.symm.trans h) (by decide)
  · rcases h with ⟨rfl, -⟩ | ⟨rfl, rfl, -⟩ | ⟨rfl, rfl, -⟩
    · exact absurd hm (by simp)
    · exact absurd hm (by decide)
    · exact absurd hm (by decide)
  · have hpos : 0 < ρ := by
      rcases h with ⟨-, h | ⟨h, -⟩⟩ | ⟨-, -, h⟩ | ⟨-, -, h⟩
      · linarith
      · linarith
      · exact h0.lt_of_ne' h
      · exact h0.lt_of_ne' h
    push_cast
    linarith

theorem rounds_down (mode : BitVec 2) (neg : Bool) (hi : Nat) (ρ : ℚ) (h0 : 0 ≤ ρ) (h1 : ρ < 1)
    (h : ¬ roundsUp mode neg hi ρ) : Claims.Rounds mode neg hi (hi + ρ) := by
  simp only [roundsUp, not_or, not_and] at h
  obtain ⟨hnear, hup, hdown⟩ := h
  refine ⟨fun hm => ?_, fun _ => ⟨by linarith, by linarith⟩, fun hm => ?_⟩
  · obtain ⟨hle, htie⟩ := hnear hm
    have hdiff : |(hi : ℚ) - (hi + ρ)| = ρ := by rw [abs_of_nonpos] <;> linarith
    rw [hdiff]
    exact ⟨not_lt.1 hle, fun h => by have := htie h; omega⟩
  · have hzero : ρ = 0 := by
      rcases hm with ⟨hm, hn⟩ | ⟨hm, hn⟩
      · exact not_not.1 (hup hm hn)
      · exact not_not.1 (hdown hm hn)
    rw [hzero]
    exact ⟨by linarith, by linarith⟩

/-- The part of a unit that lies below the last place of a quotient by a power of two. -/
theorem quotient_parts (m d : Nat) : (m : ℚ) / 2 ^ d = ((m / 2 ^ d : Nat) : ℚ) + ((m % 2 ^ d : Nat) : ℚ) / 2 ^ d := by
  have h : (m : ℚ) = 2 ^ d * ((m / 2 ^ d : Nat) : ℚ) + ((m % 2 ^ d : Nat) : ℚ) := by
    exact_mod_cast (Nat.div_add_mod m (2 ^ d)).symm
  rw [eq_comm, ← sub_eq_zero]
  field_simp
  linarith

theorem roundAt_fraction (mode : BitVec 2) (neg : Bool) (m d : Nat) (e : Int) (hd : 0 < d) :
    ∃ b : Bool, (b = true ↔ roundsUp mode neg (m / 2 ^ d) (((m % 2 ^ d : Nat) : ℚ) / 2 ^ d)) ∧
      roundAt mode neg m e (e + d) = if b then m / 2 ^ d + 1 else m / 2 ^ d := by
  have hlt : ¬ e + (d : Int) ≤ e := by omega
  have hsub : (e + (d : Int) - e).toNat = d := by omega
  have hpow : (0 : ℚ) < 2 ^ d := by positivity
  have hhalf : (1 / 2 : ℚ) < ((m % 2 ^ d : Nat) : ℚ) / 2 ^ d ↔ 2 ^ d < 2 * (m % 2 ^ d) := by
    rw [lt_div_iff₀ hpow, ← Nat.cast_lt (α := ℚ)]
    push_cast
    constructor <;> intro h <;> linarith
  have htie : ((m % 2 ^ d : Nat) : ℚ) / 2 ^ d = 1 / 2 ↔ 2 * (m % 2 ^ d) = 2 ^ d := by
    rw [div_eq_iff hpow.ne', ← Nat.cast_inj (R := ℚ)]
    push_cast
    constructor <;> intro h <;> linarith
  have hzero : ((m % 2 ^ d : Nat) : ℚ) / 2 ^ d ≠ 0 ↔ m % 2 ^ d ≠ 0 := by
    rw [ne_eq, div_eq_zero_iff, or_iff_left hpow.ne', Nat.cast_eq_zero]
  refine ⟨_, ?_, by rw [roundAt, if_neg hlt, hsub]⟩
  rw [roundsUp, hhalf, htie, hzero]
  rcases mode_cases mode with rfl | rfl | rfl | rfl <;> simp

/-- `roundAt` rounds a magnitude in units of 2^q. -/
theorem rounds_roundAt (mode : BitVec 2) (neg : Bool) (m : Nat) (e q : Int) :
    Claims.Rounds mode neg (roundAt mode neg m e q) (m * 2 ^ (e - q)) := by
  by_cases h : q ≤ e
  · have hx : (m : ℚ) * 2 ^ (e - q) = ((m * 2 ^ (e - q).toNat : Nat) : ℚ) := by
      have hs := zpow_scale m (q := 0) (e := e - q) (by omega)
      rwa [zpow_zero, mul_one, sub_zero, eq_comm] at hs
    rw [roundAt, if_pos h, hx]
    exact rounds_exact mode neg _
  · obtain ⟨d, rfl⟩ := Int.le.dest (not_le.1 h).le
    have hd : 0 < d := by omega
    have hx : (m : ℚ) * 2 ^ (e - (e + d)) = ((m / 2 ^ d : Nat) : ℚ) + ((m % 2 ^ d : Nat) : ℚ) / 2 ^ d := by
      rw [← quotient_parts, sub_add_cancel_left, zpow_neg, zpow_natCast, div_eq_mul_inv]
    obtain ⟨b, hb, hround⟩ := roundAt_fraction mode neg m d e hd
    have hnonneg : (0 : ℚ) ≤ ((m % 2 ^ d : Nat) : ℚ) / 2 ^ d := by positivity
    have hlt1 : ((m % 2 ^ d : Nat) : ℚ) / 2 ^ d < 1 := by
      rw [div_lt_one (by positivity)]
      exact_mod_cast Nat.mod_lt m (Nat.two_pow_pos d)
    rw [hround, hx]
    by_cases hup : b = true
    · rw [if_pos hup]
      exact rounds_up mode neg _ _ hnonneg hlt1 (hb.1 hup)
    · rw [if_neg hup]
      exact rounds_down mode neg _ _ hnonneg hlt1 fun h => hup (hb.2 h)

/-- A magnitude below an integer is rounded to at most that integer. -/
theorem rounds_le {mode : BitVec 2} {neg : Bool} {n N : Nat} {x : ℚ} (h : Claims.Rounds mode neg n x) (hx : x < N) :
    n ≤ N := by
  obtain ⟨hnear, hdown, hup⟩ := h
  have hn : (n : ℚ) < N + 1 := by
    rcases mode_cases mode with rfl | rfl | rfl | rfl
    · have := (abs_le.1 (hnear rfl).1).2
      linarith
    · linarith [(hdown (.inl rfl)).1]
    · cases neg
      · linarith [(hup (.inl ⟨rfl, rfl⟩)).2]
      · linarith [(hdown (.inr (.inl ⟨rfl, rfl⟩))).1]
    · cases neg
      · linarith [(hdown (.inr (.inr ⟨rfl, rfl⟩))).1]
      · linarith [(hup (.inr ⟨rfl, rfl⟩)).2]
  have : n < N + 1 := by exact_mod_cast hn
  omega

/-! The leading place of a magnitude. -/

theorem log2_bounds {m : Nat} (hm : m ≠ 0) (e : Int) :
    (2 : ℚ) ^ ((Nat.log2 m : Int) + e) ≤ m * 2 ^ e ∧ (m : ℚ) * 2 ^ e < 2 ^ ((Nat.log2 m : Int) + e + 1) := by
  have hlo : (2 : ℚ) ^ Nat.log2 m ≤ m := by exact_mod_cast Nat.log2_self_le hm
  have hhi : (m : ℚ) < 2 ^ (Nat.log2 m + 1) := by exact_mod_cast Nat.lt_log2_self
  rw [add_right_comm, zpow_add₀ two_ne_zero, zpow_add₀ two_ne_zero _ e]
  exact ⟨mul_le_mul_of_nonneg_right (by exact_mod_cast hlo) (two_zpow_pos e).le,
    mul_lt_mul_of_pos_right (by exact_mod_cast hhi) (two_zpow_pos e)⟩

end Sys2Proof.Machine
end

section
/-! PROOFS. The formats: what an encoding decodes to, what a rounded magnitude is packed into, and the rounding of exact
values against R97's table (R97, R98, R102 to R104). -/

namespace Sys2Proof.Machine

namespace Fmt

/-! The parts of an encoding (R97). -/

/-- The significand of a finite encoding, with its hidden bit. -/
def sig (f : Fmt) (a : Nat) : Nat := if a / 2 ^ f.fb = 0 then a % 2 ^ f.fb else 2 ^ f.fb + a % 2 ^ f.fb

/-- The magnitude of a finite encoding in units of the smallest subnormal. -/
def magUnits (f : Fmt) (a : Nat) : Nat := f.sig a * 2 ^ (a / 2 ^ f.fb - 1)

/-- The magnitude of a finite encoding. -/
def mag (f : Fmt) (a : Nat) : ℚ := f.magUnits a * 2 ^ (f.emin - f.fb)

variable (f : Fmt)

theorem width_sub_one : f.width - 1 = f.eb + f.fb := by rw [width]; omega

theorem bits_sign (neg : Bool) (a : Nat) (ha : a < 2 ^ (f.eb + f.fb)) :
    bits (f.sgn neg a) (f.width - 1) 1 = bit neg := by
  rw [bits, sgn, f.width_sub_one, Nat.add_mul_div_right _ _ (Nat.two_pow_pos _), Nat.div_eq_of_lt ha, Nat.zero_add]
  cases neg <;> rfl

theorem bits_exponent (neg : Bool) (a : Nat) (ha : a < 2 ^ (f.eb + f.fb)) :
    bits (f.sgn neg a) f.fb f.eb = a / 2 ^ f.fb := by
  have hlt : a / 2 ^ f.fb < 2 ^ f.eb := Nat.div_lt_of_lt_mul (by rwa [← pow_add, Nat.add_comm])
  rw [bits, sgn, f.width_sub_one, pow_add, ← Nat.mul_assoc, Nat.add_mul_div_right _ _ (Nat.two_pow_pos _),
    Nat.add_mul_mod_self_right, Nat.mod_eq_of_lt hlt]

theorem bits_fraction (neg : Bool) (a : Nat) : bits (f.sgn neg a) 0 f.fb = a % 2 ^ f.fb := by
  rw [bits, sgn, f.width_sub_one, pow_add, ← Nat.mul_assoc, pow_zero, Nat.div_one, Nat.add_mul_mod_self_right]

/-- The exact value of an encoding, from its sign, exponent and fraction (R97). -/
theorem dec_sgn (neg : Bool) (a : Nat) (ha : a < 2 ^ (f.eb + f.fb)) : f.dec (f.sgn neg a) =
    if f.e4m3 = true ∧ a / 2 ^ f.fb = f.ones ∧ a % 2 ^ f.fb = 2 ^ f.fb - 1 then .nan
    else if f.e4m3 = false ∧ a / 2 ^ f.fb = f.ones then (if a % 2 ^ f.fb = 0 then .inf neg else .nan)
    else if a / 2 ^ f.fb = 0 then .fin neg (a % 2 ^ f.fb) (f.emin - f.fb)
    else .fin neg (2 ^ f.fb + a % 2 ^ f.fb) (((a / 2 ^ f.fb : Nat) : Int) - f.bias - f.fb) := by
  have hneg : (bit neg == 1) = neg := by cases neg <;> rfl
  rw [dec, f.bits_sign neg a ha, f.bits_exponent neg a ha, f.bits_fraction neg a, hneg]
  simp only [Bool.and_eq_true, beq_iff_eq, Bool.not_eq_true', and_assoc]

theorem sgn_lt (neg : Bool) (a : Nat) (ha : a < 2 ^ (f.eb + f.fb)) : f.sgn neg a < 2 ^ f.width := by
  have hb : bit neg ≤ 1 := Laws.bit_le neg
  have hw : (2 : Nat) ^ f.width = 2 * 2 ^ (f.eb + f.fb) := by rw [width, ← pow_succ']; congr 1; omega
  have hmul := Nat.mul_le_mul_right (2 ^ (f.eb + f.fb)) hb
  rw [sgn, f.width_sub_one, hw]
  omega

/-- Exponent and fraction as digits of an encoding. -/
theorem parts_of_encoding (E F : Nat) (hF : F < 2 ^ f.fb) :
    (E * 2 ^ f.fb + F) / 2 ^ f.fb = E ∧ (E * 2 ^ f.fb + F) % 2 ^ f.fb = F := by
  rw [Nat.add_comm, Nat.add_mul_div_right _ _ (Nat.two_pow_pos _), Nat.div_eq_of_lt hF, Nat.add_mul_mod_self_right,
    Nat.mod_eq_of_lt hF]
  exact ⟨Nat.zero_add E, rfl⟩

theorem encoding_eq (a : Nat) : a = a / 2 ^ f.fb * 2 ^ f.fb + a % 2 ^ f.fb := by
  rw [Nat.mul_comm]
  exact (Nat.div_add_mod a _).symm

/-! Magnitudes rise with their encodings. -/

theorem magUnits_subnormal (a : Nat) (ha : a < 2 ^ f.fb) : f.magUnits a = a := by
  rw [magUnits, sig, Nat.div_eq_of_lt ha, if_pos rfl, Nat.mod_eq_of_lt ha, Nat.zero_sub, pow_zero, Nat.mul_one]

theorem magUnits_normal (E F : Nat) (hF : F < 2 ^ f.fb) :
    f.magUnits ((E + 1) * 2 ^ f.fb + F) = (2 ^ f.fb + F) * 2 ^ E := by
  obtain ⟨hE, hF'⟩ := f.parts_of_encoding (E + 1) F hF
  rw [magUnits, sig, hE, hF', if_neg (Nat.succ_ne_zero E), Nat.add_sub_cancel]

theorem magUnits_strictMono : StrictMono f.magUnits := by
  refine strictMono_nat_of_lt_succ fun a => ?_
  obtain ⟨E, F, hF, rfl⟩ : ∃ E F, F < 2 ^ f.fb ∧ a = E * 2 ^ f.fb + F :=
    ⟨_, _, Nat.mod_lt a (Nat.two_pow_pos f.fb), f.encoding_eq a⟩
  have hpos := Nat.two_pow_pos f.fb
  by_cases hlast : F + 1 < 2 ^ f.fb
  · cases E with
    | zero => rw [Nat.zero_mul, Nat.zero_add, f.magUnits_subnormal _ hF, f.magUnits_subnormal _ hlast]; omega
    | succ E =>
      rw [Nat.add_assoc, f.magUnits_normal E F hF, f.magUnits_normal E _ hlast]
      exact Nat.mul_lt_mul_of_pos_right (by omega) (Nat.two_pow_pos E)
  · have hnext : E * 2 ^ f.fb + F + 1 = (E + 1) * 2 ^ f.fb + 0 := by
      rw [Nat.add_mul]
      omega
    rw [hnext, f.magUnits_normal E 0 hpos]
    cases E with
    | zero => rw [Nat.zero_mul, Nat.zero_add, f.magUnits_subnormal _ hF]; omega
    | succ E =>
      rw [f.magUnits_normal E F hF, pow_succ', ← Nat.mul_assoc]
      exact Nat.mul_lt_mul_of_pos_right (by omega) (Nat.two_pow_pos E)

theorem mag_lt_iff (a b : Nat) : f.mag a < f.mag b ↔ a < b := by
  rw [mag, mag, mul_lt_mul_iff_left₀ (two_zpow_pos _), Nat.cast_lt, f.magUnits_strictMono.lt_iff_lt]

theorem mag_subnormal (a : Nat) (ha : a < 2 ^ f.fb) : f.mag a = a * 2 ^ (f.emin - f.fb) := by
  rw [mag, f.magUnits_subnormal a ha]

theorem mag_normal (E F : Nat) (hF : F < 2 ^ f.fb) :
    f.mag ((E + 1) * 2 ^ f.fb + F) = ((2 ^ f.fb + F : Nat) : ℚ) * 2 ^ (((E + 1 : Nat) : Int) - f.bias - f.fb) := by
  have he : (((E + 1 : Nat) : Int) - f.bias - f.fb) = (E : Int) + (f.emin - f.fb) := by
    rw [emin]
    push_cast
    ring
  rw [mag, f.magUnits_normal E F hF, he, zpow_add₀ two_ne_zero, zpow_natCast]
  push_cast
  ring

/-! Finite encodings, infinities and NaNs (R97). -/

/-- The exponent of a finite encoding's last place. -/
def scale (f : Fmt) (a : Nat) : Int :=
  if a / 2 ^ f.fb = 0 then f.emin - f.fb else ((a / 2 ^ f.fb : Nat) : Int) - f.bias - f.fb

theorem mag_eq (a : Nat) : f.mag a = f.sig a * 2 ^ f.scale a := by
  rw [mag, magUnits, scale, sig]
  generalize a / 2 ^ f.fb = E
  by_cases h : E = 0
  · rw [if_pos h, if_pos h, h, Nat.zero_sub, pow_zero, Nat.mul_one]
  · have he : (E : Int) - f.bias - f.fb = ((E - 1 : Nat) : Int) + (f.emin - f.fb) := by
      rw [emin]
      omega
    rw [if_neg h, if_neg h, he, zpow_add₀ two_ne_zero, zpow_natCast]
    push_cast
    ring

theorem encodings_above (heb : 1 ≤ f.eb) : f.ones * 2 ^ f.fb + 2 ^ f.fb = 2 ^ (f.eb + f.fb) ∧ 1 ≤ f.ones := by
  have h2 : 2 ≤ 2 ^ f.eb := Nat.le_self_pow (by omega) 2
  refine ⟨?_, by rw [ones]; omega⟩
  rw [← Nat.succ_mul, ones, Nat.succ_eq_add_one, Nat.sub_add_cancel (by omega), pow_add]

/-- The encodings above the greatest finite one have all ones in their exponent, and in E4M3 in their fraction too. -/
theorem maxBits_lt_iff (heb : 1 ≤ f.eb) (a : Nat) (ha : a < 2 ^ (f.eb + f.fb)) : f.maxBits < a ↔
    a / 2 ^ f.fb = f.ones ∧ (f.e4m3 = true → a % 2 ^ f.fb = 2 ^ f.fb - 1) := by
  obtain ⟨hall, hones⟩ := f.encodings_above heb
  have hpos := Nat.two_pow_pos f.fb
  have hmod := Nat.mod_lt a hpos
  have hparts := f.encoding_eq a
  have hle : a / 2 ^ f.fb ≤ f.ones := by
    rw [← Nat.lt_succ_iff, Nat.div_lt_iff_lt_mul hpos, Nat.succ_mul, hall]
    exact ha
  have hone := Nat.mul_le_mul_right (2 ^ f.fb) hones
  rcases hle.lt_or_eq with hlt | heq
  · have hmul := Nat.mul_le_mul_right (2 ^ f.fb) (Nat.succ_le_of_lt hlt)
    rw [Nat.succ_mul] at hmul
    refine iff_of_false ?_ fun h => hlt.ne h.1
    rw [maxBits, f.width_sub_one]
    split <;> omega
  · rw [heq] at hparts
    rw [maxBits, f.width_sub_one]
    cases f.e4m3 with
    | true =>
      simp only [if_true, heq, true_and, true_imp_iff]
      omega
    | false =>
      simp only [Bool.false_eq_true, if_false, heq, true_and, false_imp_iff, iff_true]
      omega

theorem dec_finite (heb : 1 ≤ f.eb) (neg : Bool) (a : Nat) (ha : a ≤ f.maxBits) (hw : a < 2 ^ (f.eb + f.fb)) :
    f.dec (f.sgn neg a) = .fin neg (f.sig a) (f.scale a) := by
  have h := mt (f.maxBits_lt_iff heb a hw).2 (not_lt.2 ha)
  have hnan : ¬ (f.e4m3 = true ∧ a / 2 ^ f.fb = f.ones ∧ a % 2 ^ f.fb = 2 ^ f.fb - 1) :=
    fun ⟨_, hex, hfr⟩ => h ⟨hex, fun _ => hfr⟩
  have hinf : ¬ (f.e4m3 = false ∧ a / 2 ^ f.fb = f.ones) :=
    fun ⟨h4, hex⟩ => h ⟨hex, fun h' => absurd (h4.symm.trans h') (by decide)⟩
  rw [f.dec_sgn neg a hw, if_neg hnan, if_neg hinf, sig, scale]
  split <;> rfl

theorem dec_above (heb : 1 ≤ f.eb) (neg : Bool) (a : Nat) (ha : f.maxBits < a) (hw : a < 2 ^ (f.eb + f.fb)) :
    f.dec (f.sgn neg a) = if f.e4m3 = false ∧ a = f.infBits then .inf neg else .nan := by
  obtain ⟨hex, hfr⟩ := (f.maxBits_lt_iff heb a hw).1 ha
  have hparts := f.encoding_eq a
  rw [hex] at hparts
  rw [f.dec_sgn neg a hw]
  by_cases h4 : f.e4m3 = true
  · rw [if_pos ⟨h4, hex, hfr h4⟩, if_neg (by simp [h4])]
  · have hfr : a % 2 ^ f.fb = 0 ↔ a = f.infBits := by
      rw [infBits]
      omega
    have h4' : f.e4m3 = false := Bool.eq_false_iff.2 h4
    rw [if_neg fun h => h4 h.1, if_pos ⟨h4', hex⟩]
    simp only [h4', true_and, hfr]

theorem maxBits_lt (heb : 1 ≤ f.eb) : f.maxBits < 2 ^ (f.eb + f.fb) := by
  obtain ⟨hall, hones⟩ := f.encodings_above heb
  have hpos := Nat.two_pow_pos f.fb
  have hone := Nat.mul_le_mul_right (2 ^ f.fb) hones
  rw [maxBits, f.width_sub_one]
  split <;> omega

theorem encodes_sgn (heb : 1 ≤ f.eb) (neg : Bool) (a : Nat) (ha : a ≤ f.maxBits) :
    Claims.Encodes f (f.sgn neg a) neg (f.mag a) := by
  have hw := ha.trans_lt (f.maxBits_lt heb)
  exact ⟨f.sgn_lt neg a hw, _, _, f.dec_finite heb neg a ha hw, (f.mag_eq a).symm⟩

/-! Packing (R97). -/

theorem mag_add_normal (E F : Nat) (hE : 1 ≤ E) (hF : F < 2 ^ f.fb) :
    f.mag (E * 2 ^ f.fb + F) = ((2 ^ f.fb + F : Nat) : ℚ) * 2 ^ ((E : Int) - f.bias - f.fb) := by
  obtain ⟨k, rfl⟩ := Nat.exists_eq_succ_of_ne_zero (Nat.one_le_iff_ne_zero.1 hE)
  exact f.mag_normal k F hF

/-- A significand of at most fb + 1 bits, or the power of two above them, moved to exactly fb + 1 bits. -/
theorem normalised (n : Nat) (hn : n ≠ 0) (hle : n ≤ 2 ^ (f.fb + 1)) : ∃ F, F < 2 ^ f.fb ∧
    (if Nat.log2 n ≤ f.fb then n * 2 ^ (f.fb - Nat.log2 n) else n / 2 ^ (Nat.log2 n - f.fb)) = 2 ^ f.fb + F ∧
    ((2 ^ f.fb + F : Nat) : ℚ) * 2 ^ (Nat.log2 n : Int) = n * 2 ^ (f.fb : Int) := by
  have hlo := Nat.log2_self_le hn
  have hhi : n < 2 ^ (Nat.log2 n + 1) := Nat.lt_log2_self
  by_cases hl : Nat.log2 n ≤ f.fb
  · obtain ⟨d, hd⟩ := Nat.exists_eq_add_of_le hl
    have h1 := Nat.mul_le_mul_right (2 ^ d) hlo
    have h2 := Nat.mul_lt_mul_of_pos_right hhi (Nat.two_pow_pos d)
    rw [← pow_add, ← hd] at h1
    rw [← pow_add, Nat.add_right_comm, ← hd, pow_succ] at h2
    have hsum : 2 ^ f.fb + (n * 2 ^ d - 2 ^ f.fb) = n * 2 ^ d := by omega
    refine ⟨n * 2 ^ d - 2 ^ f.fb, by omega, ?_, ?_⟩
    · rw [if_pos hl, show f.fb - Nat.log2 n = d by omega, hsum]
    · rw [hsum, zpow_natCast, zpow_natCast, hd, pow_add]
      push_cast
      ring
  · have hl' : Nat.log2 n = f.fb + 1 :=
      Nat.le_antisymm ((Nat.pow_le_pow_iff_right (by decide)).1 (hlo.trans hle)) (not_le.1 hl)
    have hn' : n = 2 ^ (f.fb + 1) := Nat.le_antisymm hle (hl' ▸ hlo)
    refine ⟨0, Nat.two_pow_pos _, ?_, ?_⟩
    · rw [if_neg hl, hl', Nat.add_sub_cancel_left, hn', Nat.pow_div (by omega) (by decide), Nat.add_sub_cancel,
        Nat.add_zero]
    · rw [hl', hn', zpow_natCast, zpow_natCast, Nat.add_zero]
      push_cast
      ring

/-- A normal result: its encoding stands for n × 2^q, and one that fits the format's width has an exponent field of at most
all ones. -/
theorem pack_normal (neg : Bool) (n : Nat) (q : Int) (hn : n ≠ 0) (hle : n ≤ 2 ^ (f.fb + 1))
    (hex : f.emin ≤ (Nat.log2 n : Int) + q) : ∃ P, f.pack neg n q = f.sgn neg P ∧ f.mag P = n * 2 ^ q ∧
      (P < 2 ^ (f.eb + f.fb) → (Nat.log2 n : Int) + q ≤ (f.ones : Int) - f.bias) := by
  obtain ⟨F, hF, hsig, hval⟩ := f.normalised n hn hle
  obtain ⟨E, hE⟩ : ∃ E : Nat, (Nat.log2 n : Int) + q + f.bias = E :=
    ⟨_, (Int.toNat_of_nonneg (by rw [emin] at hex; omega)).symm⟩
  have hE1 : 1 ≤ E := by
    rw [emin] at hex
    omega
  refine ⟨E * 2 ^ f.fb + F, ?_, ?_, fun hP => ?_⟩
  · rw [pack, if_neg hn]
    simp only [if_neg (not_lt.2 hex), hE, Int.toNat_natCast]
    rw [hsig, Nat.add_sub_cancel_left]
  · have he : (E : Int) - f.bias - f.fb = (Nat.log2 n : Int) + (q - f.fb) := by omega
    rw [f.mag_add_normal E F hE1 hF, he, zpow_add₀ two_ne_zero, ← mul_assoc, hval, mul_assoc, ← zpow_add₀ two_ne_zero]
    congr 2
    omega
  · have hlt : E < 2 ^ f.eb := by
      refine Nat.lt_of_mul_lt_mul_right (a := 2 ^ f.fb) ?_
      rw [← pow_add]
      omega
    rw [ones]
    omega

/-- A subnormal result (R97, R102). -/
theorem pack_subnormal (neg : Bool) (n : Nat) (q : Int) (hn : n ≠ 0) (hex : (Nat.log2 n : Int) + q < f.emin)
    (hq : f.emin - f.fb ≤ q) : ∃ P, f.pack neg n q = f.sgn neg P ∧ P < 2 ^ f.fb ∧ f.mag P = n * 2 ^ q := by
  obtain ⟨d, hd⟩ := Int.le.dest hq
  have hsub : (q - (f.emin - f.fb)).toNat = d := by omega
  have hlt : n * 2 ^ d < 2 ^ f.fb := by
    have h := Nat.mul_lt_mul_of_pos_right (Nat.lt_log2_self (n := n)) (Nat.two_pow_pos d)
    rw [← pow_add] at h
    exact h.trans_le (Nat.pow_le_pow_right (by decide) (by omega))
  refine ⟨n * 2 ^ d, ?_, hlt, ?_⟩
  · rw [pack, if_neg hn]
    simp only [if_pos hex, hsub]
  · rw [f.mag_subnormal _ hlt, ← hd, zpow_add₀ two_ne_zero, zpow_natCast]
    push_cast
    ring

/-! The choice of a result (R102 to R104). -/

/-- The encoding of n × 2^q where that is representable: a zero of its sign, a subnormal or its flush, an overflow, or
the number itself. -/
def choose (f : Fmt) (flush neg : Bool) (n : Nat) (q : Int) (ovf : Nat) : Nat :=
  if n = 0 then f.sgn neg 0
  else if (Nat.log2 n : Int) + q < f.emin then (if flush then f.sgn neg 0 else f.pack neg n q)
  else if f.maxBits < f.pack false n q ∨ (f.ones : Int) - f.bias < (Nat.log2 n : Int) + q then ovf
  else f.pack neg n q

theorem round_fin (mode : BitVec 2) (sat flush neg : Bool) (m : Nat) (e q : Int) (hm : m ≠ 0)
    (hq : q = if flush then (Nat.log2 m : Int) + e - f.fb else max ((Nat.log2 m : Int) + e - f.fb) (f.emin - f.fb)) :
    f.round mode sat flush (.fin neg m e) =
      f.choose flush neg (roundAt mode neg m e q) q (f.overflow mode sat neg) := by
  subst hq
  rw [round]
  exact if_neg hm

theorem lt_two_zpow_iff (n : Nat) (q k : Int) (hn : n ≠ 0) :
    (n : ℚ) * 2 ^ q < 2 ^ k ↔ (Nat.log2 n : Int) + q < k := by
  obtain ⟨hlo, hhi⟩ := log2_bounds hn q
  constructor
  · intro h
    exact (zpow_lt_zpow_iff_right₀ (by norm_num : (1 : ℚ) < 2)).1 (hlo.trans_lt h)
  · intro h
    exact hhi.trans_le (zpow_le_zpow_right₀ (by norm_num) (by omega))

theorem sgn_false (a : Nat) : f.sgn false a = a := by simp [sgn, bit]

/-- What `choose` gives, by the magnitude: greater than the greatest, below the smallest normal, or neither. -/
theorem choose_spec (heb : 1 ≤ f.eb) (hmax : 2 ^ f.fb ≤ f.maxBits) (flush neg : Bool) (n : Nat) (q : Int) (ovf : Nat)
    (hle : n ≤ 2 ^ (f.fb + 1)) (hq : flush = false → f.emin - f.fb ≤ q) :
    (f.mag f.maxBits < n * 2 ^ q → f.choose flush neg n q ovf = ovf) ∧
    ((n : ℚ) * 2 ^ q ≤ f.mag f.maxBits → flush = true → (n : ℚ) * 2 ^ q < 2 ^ f.emin →
      f.choose flush neg n q ovf = f.sgn neg 0) ∧
    ((n : ℚ) * 2 ^ q ≤ f.mag f.maxBits → (flush = false ∨ 2 ^ f.emin ≤ (n : ℚ) * 2 ^ q) →
      Claims.Encodes f (f.choose flush neg n q ovf) neg (n * 2 ^ q)) := by
  have hmag0 : (0 : ℚ) ≤ f.mag f.maxBits := mul_nonneg (Nat.cast_nonneg _) (two_zpow_pos _).le
  have hzero : Claims.Encodes f (f.sgn neg 0) neg 0 := by
    have h := f.encodes_sgn heb neg 0 (Nat.zero_le _)
    rwa [f.mag_subnormal 0 (Nat.two_pow_pos _), Nat.cast_zero, zero_mul] at h
  by_cases hn : n = 0
  · rw [choose, if_pos hn, hn, Nat.cast_zero, zero_mul]
    exact ⟨fun h => absurd hmag0 (not_le.2 h), fun _ _ _ => rfl, fun _ _ => hzero⟩
  rw [choose, if_neg hn]
  by_cases hex : (Nat.log2 n : Int) + q < f.emin
  · have hsmall := (lt_two_zpow_iff n q f.emin hn).2 hex
    have hnormal : (2 : ℚ) ^ f.emin ≤ f.mag f.maxBits := by
      have h1 : f.mag (1 * 2 ^ f.fb + 0) = 2 ^ f.emin := by
        rw [f.mag_add_normal 1 0 le_rfl (Nat.two_pow_pos _), Nat.add_zero, Nat.cast_pow, Nat.cast_ofNat, ← zpow_natCast,
          ← zpow_add₀ two_ne_zero, emin]
        congr 1
        push_cast
        ring
      rw [← h1, ← not_lt, f.mag_lt_iff]
      omega
    rw [if_pos hex]
    refine ⟨fun h => absurd (hnormal.trans_lt h) (not_lt.2 hsmall.le), fun _ hf _ => if_pos hf, fun _ h => ?_⟩
    obtain rfl : flush = false := h.resolve_right (not_le.2 hsmall)
    obtain ⟨P, hpack, hP, hval⟩ := f.pack_subnormal neg n q hn hex (hq rfl)
    rw [if_neg Bool.false_ne_true, hpack, ← hval]
    exact f.encodes_sgn heb neg P (by omega)
  · have hbig : ¬ (n : ℚ) * 2 ^ q < 2 ^ f.emin := mt (lt_two_zpow_iff n q f.emin hn).1 hex
    obtain ⟨P, hpack, hval, htop⟩ := f.pack_normal neg n q hn hle (not_lt.1 hex)
    obtain ⟨P', hpack', hval', -⟩ := f.pack_normal false n q hn hle (not_lt.1 hex)
    have hP' : P' = P := by
      have h1 := mt (f.mag_lt_iff P' P).2 (by rw [hval, hval']; exact lt_irrefl _)
      have h2 := mt (f.mag_lt_iff P P').2 (by rw [hval, hval']; exact lt_irrefl _)
      omega
    have hover : (f.maxBits < f.pack false n q ∨ (f.ones : Int) - f.bias < (Nat.log2 n : Int) + q) ↔
        f.mag f.maxBits < n * 2 ^ q := by
      rw [hpack', hP', sgn_false, ← hval, f.mag_lt_iff]
      refine ⟨fun h => h.elim id fun h => ?_, .inl⟩
      by_contra hle
      exact absurd (htop ((not_lt.1 hle).trans_lt (f.maxBits_lt heb))) (not_le.2 h)
    rw [if_neg hex]
    refine ⟨fun h => if_pos (hover.2 h), fun _ _ h => absurd h hbig, fun h _ => ?_⟩
    rw [if_neg (mt hover.1 (not_lt.2 h)), hpack, ← hval]
    refine f.encodes_sgn heb neg P (not_lt.1 fun hlt => ?_)
    rw [← f.mag_lt_iff, hval] at hlt
    exact absurd h (not_le.2 hlt)

end Fmt

end Sys2Proof.Machine
end

section
/-! PROOFS. R97's table: each row agrees with its format, what its encodings are, and the rounding of exact values
against it (R97, R98, R102 to R104). -/

namespace Sys2Proof.Machine

/-- What the general facts about formats need of a row of R97's table: its figures are its format's. -/
structure RowAgrees (r : Claims.Row97) : Prop where
  width : r.f.width = r.width
  fb : r.f.fb = r.fb
  bias : r.f.bias = r.bias
  eb : 1 ≤ r.f.eb
  maxE : r.f.maxBits = r.maxE
  normal : 2 ^ r.f.fb ≤ r.f.maxBits
  largest : r.f.mag r.f.maxBits = r.largest
  nanE : r.f.nanBits = r.nanE
  e4m3 : r.f.e4m3 = decide (r.infE = r.nanE)
  infE : r.infE ≠ r.nanE → r.f.infBits = r.infE
  above : r.maxE < r.infE
  infE_lt : r.infE < 2 ^ (r.f.eb + r.f.fb)

theorem fp32_largest : fp32.mag fp32.maxBits = (2 - 2 ^ (-23 : Int)) * 2 ^ 127 := by
  rw [Fmt.mag_eq, show fp32.sig fp32.maxBits = 2 ^ 24 - 1 by decide, show fp32.scale fp32.maxBits = 104 by decide]
  norm_num

theorem bf16_largest : bf16.mag bf16.maxBits = (2 - 2 ^ (-7 : Int)) * 2 ^ 127 := by
  rw [Fmt.mag_eq, show bf16.sig bf16.maxBits = 2 ^ 8 - 1 by decide, show bf16.scale bf16.maxBits = 120 by decide]
  norm_num

theorem fp16_largest : fp16.mag fp16.maxBits = 65504 := by
  rw [Fmt.mag_eq, show fp16.sig fp16.maxBits = 2 ^ 11 - 1 by decide, show fp16.scale fp16.maxBits = 5 by decide]
  norm_num

theorem fe4m3_largest : fe4m3.mag fe4m3.maxBits = 448 := by
  rw [Fmt.mag_eq, show fe4m3.sig fe4m3.maxBits = 14 by decide, show fe4m3.scale fe4m3.maxBits = 5 by decide]
  norm_num

theorem fe5m2_largest : fe5m2.mag fe5m2.maxBits = 57344 := by
  rw [Fmt.mag_eq, show fe5m2.sig fe5m2.maxBits = 7 by decide, show fe5m2.scale fe5m2.maxBits = 13 by decide]
  norm_num

theorem table97_agrees : ∀ r ∈ Claims.table97, RowAgrees r := by
  simp only [Claims.table97, List.forall_mem_cons, List.not_mem_nil, false_imp_iff, implies_true, and_true]
  exact ⟨⟨rfl, rfl, rfl, by decide, rfl, by decide, fp32_largest, rfl, rfl, fun _ => rfl, by decide, by decide⟩,
    ⟨rfl, rfl, rfl, by decide, rfl, by decide, bf16_largest, rfl, rfl, fun _ => rfl, by decide, by decide⟩,
    ⟨rfl, rfl, rfl, by decide, rfl, by decide, fp16_largest, rfl, rfl, fun _ => rfl, by decide, by decide⟩,
    ⟨rfl, rfl, rfl, by decide, rfl, by decide, fe4m3_largest, rfl, rfl, fun h => absurd rfl h, by decide, by decide⟩,
    ⟨rfl, rfl, rfl, by decide, rfl, by decide, fe5m2_largest, rfl, rfl, fun _ => rfl, by decide, by decide⟩⟩

namespace RowAgrees

variable {r : Claims.Row97} (hr : RowAgrees r)
include hr

theorem signed_eq (neg : Bool) (a : Nat) : r.signed neg a = r.f.sgn neg a := by
  rw [Claims.Row97.signed, Fmt.sgn, hr.width]
  cases neg
  · simp [bit]
  · simp [bit, Nat.add_comm]

theorem width_sub_one : r.width - 1 = r.f.eb + r.f.fb := by rw [← hr.width, Fmt.width_sub_one]

theorem emin : r.f.emin = 1 - (r.bias : Int) := by rw [Fmt.emin, hr.bias]

theorem e4m3_eq_true : r.f.e4m3 = true ↔ r.infE = r.nanE := by rw [hr.e4m3, decide_eq_true_iff]

/-! Encodings (R97). -/

theorem encodes (neg : Bool) (a : Nat) (ha : a ≤ r.maxE) : Claims.Encodes r.f (r.signed neg a) neg (r.f.mag a) := by
  rw [hr.signed_eq]
  exact r.f.encodes_sgn hr.eb neg a (hr.maxE ▸ ha)

theorem encodes_zero (neg : Bool) : Claims.Encodes r.f (r.signed neg 0) neg 0 := by
  have h := hr.encodes neg 0 (Nat.zero_le _)
  rwa [r.f.mag_subnormal 0 (Nat.two_pow_pos _), Nat.cast_zero, zero_mul] at h

theorem dec_infinity (neg : Bool) (hinf : r.infE ≠ r.nanE) :
    r.f.dec (r.signed neg r.infE) = .inf neg := by
  have h4 : r.f.e4m3 = false := by rw [hr.e4m3, decide_eq_false hinf]
  rw [hr.signed_eq, r.f.dec_above hr.eb neg _ (by rw [hr.maxE]; exact hr.above) hr.infE_lt,
    if_pos ⟨h4, (hr.infE hinf).symm⟩]

theorem dec_nan (neg : Bool) (a : Nat) (ha : r.maxE < a) (hw : a < 2 ^ (r.f.eb + r.f.fb))
    (hne : a ≠ r.infE ∨ r.infE = r.nanE) : r.f.dec (r.signed neg a) = .nan := by
  rw [hr.signed_eq, r.f.dec_above hr.eb neg a (by rwa [hr.maxE]) hw]
  refine if_neg fun ⟨h4, hinf⟩ => ?_
  have hne' : r.infE ≠ r.nanE := fun h => absurd (h4.symm.trans (hr.e4m3_eq_true.2 h)) (by decide)
  exact hne.elim (fun h => h (hinf.trans (hr.infE hne'))) hne'

/-! Rounding (R98, R102 to R104). -/

theorem overflow_eq (mode : BitVec 2) (sat neg : Bool) : r.f.overflow mode sat neg = r.over mode sat neg := by
  rw [Fmt.overflow, Claims.Row97.over, hr.signed_eq, hr.signed_eq, hr.maxE, hr.nanE]
  simp only [Bool.or_eq_true, Bool.and_eq_true, beq_iff_eq, Bool.not_eq_true', or_assoc, hr.e4m3_eq_true]
  by_cases h : r.infE = r.nanE
  · simp only [h, if_true]
  · simp only [h, if_false, hr.infE h]

theorem choose_gives (mode : BitVec 2) (sat flush neg : Bool) (n : Nat) (q : Int) (hle : n ≤ 2 ^ (r.f.fb + 1))
    (hq : flush = false → r.f.emin - r.f.fb ≤ q) :
    r.Gives mode sat flush neg (n * 2 ^ q) (r.f.choose flush neg n q (r.over mode sat neg)) := by
  have h := r.f.choose_spec hr.eb hr.normal flush neg n q (r.over mode sat neg) hle hq
  rwa [hr.largest, hr.emin, ← hr.signed_eq] at h

theorem place_eq (flush : Bool) (k : Int) :
    r.place flush k = if flush then k - r.f.fb else max (k - r.f.fb) (r.f.emin - r.f.fb) := by
  rw [Claims.Row97.place, hr.fb, hr.emin]
  cases flush
  · exact (max_sub_sub_right k _ _).symm
  · rfl

theorem place_ge (flush : Bool) (k : Int) : k - r.f.fb ≤ r.place flush k := by
  rw [hr.place_eq]
  cases flush
  · exact le_max_left _ _
  · exact le_rfl

/-- A magnitude in units of its last place takes at most fb + 1 bits. -/
theorem in_units_lt (flush : Bool) (m : Nat) (e : Int) (hm : m ≠ 0) :
    (m : ℚ) * 2 ^ (e - r.place flush ((Nat.log2 m : Int) + e)) < ((2 ^ (r.f.fb + 1) : Nat) : ℚ) := by
  have hplace := hr.place_ge flush ((Nat.log2 m : Int) + e)
  generalize r.place flush ((Nat.log2 m : Int) + e) = q at hplace ⊢
  have hpow : (2 : ℚ) ^ ((Nat.log2 m : Int) + (e - q) + 1) ≤ 2 ^ ((r.f.fb + 1 : Nat) : Int) :=
    zpow_le_zpow_right₀ (by norm_num) (by omega)
  have h := (log2_bounds hm (e - q)).2.trans_le hpow
  rw [zpow_natCast] at h
  exact_mod_cast h

/-- A finite nonzero value is rounded in units of its last place, and the result is chosen by what that gives. -/
theorem round_gives (mode : BitVec 2) (sat flush neg : Bool) (m : Nat) (e q : Int) (hm : m ≠ 0)
    (hq : q = r.place flush ((Nat.log2 m : Int) + e)) :
    r.Gives mode sat flush neg (roundAt mode neg m e q * 2 ^ q) (r.f.round mode sat flush (.fin neg m e)) := by
  rw [r.f.round_fin mode sat flush neg m e q hm (hq.trans (hr.place_eq _ _)), hr.overflow_eq]
  refine hr.choose_gives mode sat flush neg _ q ?_ fun hf => ?_
  · refine rounds_le (rounds_roundAt mode neg m e q) ?_
    rw [hq]
    exact hr.in_units_lt flush m e hm
  · rw [hq, hr.place_eq, hf, if_neg Bool.false_ne_true]
    exact le_max_right _ _

theorem round_nan (mode : BitVec 2) (sat flush : Bool) : r.f.round mode sat flush .nan = r.nanE := hr.nanE

theorem round_inf (mode : BitVec 2) (sat flush neg : Bool) : r.f.round mode sat flush (.inf neg) =
    if r.infE ≠ r.nanE then r.signed neg r.infE else if sat then r.signed neg r.maxE else r.nanE := by
  simp only [Fmt.round, hr.e4m3_eq_true, hr.nanE, hr.maxE, ← hr.signed_eq]
  by_cases h : r.infE = r.nanE
  · simp only [h, if_true, ne_eq, not_true_eq_false, if_false]
  · simp only [h, if_false, ne_eq, not_false_eq_true, if_true, hr.infE h]

theorem round_zero (mode : BitVec 2) (sat flush neg : Bool) (e : Int) :
    r.f.round mode sat flush (.fin neg 0 e) = r.signed neg 0 := (hr.signed_eq neg 0).symm

/-- A value that the format holds is rounded to itself. -/
theorem round_exact (mode : BitVec 2) (sat flush neg : Bool) (m : Nat) (e : Int) (hm : m ≠ 0)
    (hq : r.place flush ((Nat.log2 m : Int) + e) ≤ e) (hle : (m : ℚ) * 2 ^ e ≤ r.largest)
    (hflush : flush = false ∨ 2 ^ (1 - (r.bias : Int)) ≤ (m : ℚ) * 2 ^ e) :
    Claims.Encodes r.f (r.f.round mode sat flush (.fin neg m e)) neg (m * 2 ^ e) := by
  obtain ⟨-, -, h⟩ := hr.round_gives mode sat flush neg m e _ hm rfl
  rw [roundAt, if_pos hq, zpow_scale m hq] at h
  exact h hle hflush

end RowAgrees

theorem formatTable : Claims.FormatTable := by
  rintro r hmem x - neg a ex fr rfl ha rfl rfl
  have hr := table97_agrees r hmem
  have hw : a < 2 ^ (r.f.eb + r.f.fb) := by rwa [← hr.width_sub_one]
  refine ⟨hr.width, fun hex => ?_, fun hex hmax => ?_, fun hinf hne => ?_, fun hmax hne => hr.dec_nan neg a hmax hw hne⟩
  · have hsub : a < 2 ^ r.f.fb := (Nat.div_eq_zero_iff_lt (Nat.two_pow_pos _)).1 (hr.fb ▸ hex)
    have h := hr.encodes neg a (hr.maxE ▸ hsub.le.trans hr.normal)
    rw [Nat.mod_eq_of_lt (hr.fb ▸ hsub)]
    rwa [r.f.mag_subnormal a hsub, hr.emin, hr.fb] at h
  · have h := hr.encodes neg a hmax
    have hmag := r.f.mag_add_normal (a / 2 ^ r.f.fb) (a % 2 ^ r.f.fb) (by rw [hr.fb]; exact hex)
      (Nat.mod_lt _ (Nat.two_pow_pos _))
    rw [← r.f.encoding_eq, hr.fb, hr.bias] at hmag
    have hval : (1 + ((a % 2 ^ r.fb : Nat) : ℚ) / 2 ^ r.fb) * 2 ^ (((a / 2 ^ r.fb : Nat) : Int) - r.bias) = r.f.mag a := by
      rw [hmag, zpow_sub₀ two_ne_zero _ (r.fb : Int), zpow_natCast]
      push_cast
      field_simp
    rwa [hval]
  · subst hinf
    exact hr.dec_infinity neg hne

theorem rounding : Claims.Rounding := by
  intro r hmem mode sat flush neg
  have hr := table97_agrees r hmem
  refine ⟨hr.round_nan mode sat flush, hr.round_inf mode sat flush neg, fun m e => ⟨?_, fun hm => ?_⟩⟩
  · rintro rfl
    exact hr.round_zero mode sat flush neg e
  · obtain ⟨hlo, hhi⟩ := log2_bounds hm e
    exact ⟨_, _, _, hlo, hhi, rfl, rounds_roundAt mode neg m e _, hr.round_gives mode sat flush neg m e _ hm rfl⟩

/-! Operands (R102). -/

theorem isSub_sgn (f : Fmt) (neg : Bool) (a : Nat) (ha : a < 2 ^ (f.eb + f.fb)) :
    f.isSub (f.sgn neg a) = true ↔ 0 < a ∧ a < 2 ^ f.fb := by
  have hpos := Nat.two_pow_pos f.fb
  rw [Fmt.isSub, f.bits_exponent neg a ha, f.bits_fraction, Bool.and_eq_true, beq_iff_eq, bne_iff_ne,
    Nat.div_eq_zero_iff_lt hpos]
  constructor
  · rintro ⟨hlt, hne⟩
    rw [Nat.mod_eq_of_lt hlt] at hne
    exact ⟨Nat.pos_of_ne_zero hne, hlt⟩
  · rintro ⟨h0, hlt⟩
    rw [Nat.mod_eq_of_lt hlt]
    exact ⟨hlt, h0.ne'⟩

theorem sumsAndProducts : Claims.SumsAndProducts := by
  refine ⟨fun mode s t u m n o e g h => ⟨Num.add_fin mode s t m n e g, ⟨_, _, _, rfl, Num.val_mul s t m n e g, rfl⟩, ?_, rfl,
      rfl, rfl, rfl, rfl, rfl⟩,
    fun mode x => ⟨rfl, Num.add_nan_right mode x, rfl, Num.mul_nan_right x⟩, fun r hmem neg a ha => ?_⟩
  · obtain ⟨k, i, j, heq, hval, -⟩ := Num.add_fin mode (s != t) u (m * n) o (e + g) h
    exact ⟨k, i, j, heq, by rw [hval, Num.val_mul]⟩
  · have hr := table97_agrees r hmem
    have hw : a < 2 ^ (r.f.eb + r.f.fb) := by rwa [← hr.width_sub_one]
    have hsign : (bit neg == 1) = neg := by cases neg <;> rfl
    have hsub := isSub_sgn r.f neg a hw
    rw [hr.signed_eq, ← hr.fb]
    refine ⟨fun h0 hlt => ?_, fun h => ?_, rfl⟩
    · rw [Fmt.operand, hsub.2 ⟨h0, hlt⟩, Bool.and_true, if_pos rfl, r.f.bits_sign neg a hw, hsign]
    · rw [Fmt.operand, Bool.true_and, if_neg]
      rw [hsub]
      omega

end Sys2Proof.Machine
end

section
/-! PROOFS. Conversions, stochastic rounding, CCH-4 and fixed trees (R107 to R111, R124, R166, R167). -/

namespace Sys2Proof.Machine

/-! Finite encodings and their bounds (R97). -/

theorem Fmt.sig_lt (f : Fmt) (a : Nat) : f.sig a < 2 ^ (f.fb + 1) := by
  have hmod := Nat.mod_lt a (Nat.two_pow_pos f.fb)
  rw [Fmt.sig, pow_succ]
  split <;> omega

theorem Fmt.scale_ge (f : Fmt) (a : Nat) : f.emin - f.fb ≤ f.scale a := by
  rw [Fmt.scale, Fmt.emin]
  generalize a / 2 ^ f.fb = E
  split <;> omega

theorem Fmt.exists_sgn (f : Fmt) (x : Nat) (hx : x < 2 ^ f.width) :
    ∃ neg a, a < 2 ^ (f.eb + f.fb) ∧ x = f.sgn neg a := by
  have hw : (2 : Nat) ^ f.width = 2 * 2 ^ (f.eb + f.fb) := by rw [width, ← pow_succ']; congr 1; omega
  rw [hw] at hx
  by_cases h : x < 2 ^ (f.eb + f.fb)
  · exact ⟨false, x, h, (f.sgn_false x).symm⟩
  · refine ⟨true, x - 2 ^ (f.eb + f.fb), by omega, ?_⟩
    rw [sgn, f.width_sub_one, bit, if_pos rfl]
    omega

/-- A finite value of an encoding is that of a finite encoding. -/
theorem Fmt.dec_eq_fin (f : Fmt) (heb : 1 ≤ f.eb) (x : Nat) (hx : x < 2 ^ f.width) (neg : Bool) (m : Nat) (e : Int)
    (h : f.dec x = .fin neg m e) : ∃ a, a ≤ f.maxBits ∧ m = f.sig a ∧ e = f.scale a := by
  obtain ⟨s, a, hw, rfl⟩ := f.exists_sgn x hx
  by_cases ha : a ≤ f.maxBits
  · rw [f.dec_finite heb s a ha hw, Num.fin.injEq] at h
    exact ⟨a, ha, h.2.1.symm, h.2.2.symm⟩
  · rw [f.dec_above heb s a (not_le.1 ha) hw] at h
    split at h <;> cases h

/-! Widening and narrowing (R107, R108). -/

/-- Every finite value of one format is a value of the other: it has no more fraction bits, no smaller subnormals and no
greater values. -/
structure Fmt.Holds (dst src : Fmt) : Prop where
  fb : src.fb ≤ dst.fb
  least : dst.emin - dst.fb ≤ src.emin - src.fb
  greatest : src.mag src.maxBits ≤ dst.mag dst.maxBits

theorem greatest_le {src dst : Fmt} {a b : ℚ} (hs : src.mag src.maxBits = a) (hd : dst.mag dst.maxBits = b) (h : a ≤ b) :
    src.mag src.maxBits ≤ dst.mag dst.maxBits := by rwa [hs, hd]

theorem widening_holds : ∀ p ∈ Claims.widening, (fmtT p.2).Holds (fmtT p.1) := by
  simp only [Claims.widening, List.forall_mem_cons, List.not_mem_nil, false_imp_iff, implies_true, and_true]
  exact ⟨⟨by decide, by decide, greatest_le bf16_largest fp32_largest (by norm_num)⟩,
    ⟨by decide, by decide, greatest_le fp16_largest fp32_largest (by norm_num)⟩,
    ⟨by decide, by decide, greatest_le fe4m3_largest bf16_largest (by norm_num)⟩,
    ⟨by decide, by decide, greatest_le fe4m3_largest fp16_largest (by norm_num)⟩,
    ⟨by decide, by decide, greatest_le fe4m3_largest fp32_largest (by norm_num)⟩,
    ⟨by decide, by decide, greatest_le fe5m2_largest bf16_largest (by norm_num)⟩,
    ⟨by decide, by decide, greatest_le fe5m2_largest fp16_largest (by norm_num)⟩,
    ⟨by decide, by decide, greatest_le fe5m2_largest fp32_largest (by norm_num)⟩⟩

theorem widening_widens : ∀ p ∈ Claims.widening,
    p.1 ≠ p.2 ∧ 3 ≤ p.1.toNat ∧ 3 ≤ p.2.toNat ∧ widens (fmtT p.1) (fmtT p.2) = true ∧ (fmtT p.2).e4m3 = false := by
  decide

theorem narrowing_narrows : ∀ src dst : BitVec 3, 3 ≤ src.toNat → 3 ≤ dst.toNat → src ≠ dst →
    (src, dst) ∉ Claims.widening → widens (fmtT src) (fmtT dst) = false := by
  decide

theorem exists_row (t : BitVec 3) : ∃ r ∈ Claims.table97, r.f = fmtT t := by
  rw [fmtT]
  split_ifs <;> simp [Claims.table97]

/-- A wider format takes a finite value as it is. -/
theorem RowAgrees.round_widened {r : Claims.Row97} (hr : RowAgrees r) (src : Fmt) (hsrc : 1 ≤ src.eb) (hold : r.f.Holds src)
    (x : Nat) (hx : x < 2 ^ src.width) (neg : Bool) (m : Nat) (e : Int) (h : src.dec x = .fin neg m e) :
    Claims.Encodes r.f (r.f.round 0 false false (.fin neg m e)) neg (m * 2 ^ e) := by
  obtain ⟨a, ha, rfl, rfl⟩ := src.dec_eq_fin hsrc x hx neg m e h
  obtain ⟨hfb, hleast, hgreatest⟩ := hold
  by_cases hm : src.sig a = 0
  · rw [hm, hr.round_zero, Nat.cast_zero, zero_mul]
    exact hr.encodes_zero neg
  · have hlog : Nat.log2 (src.sig a) ≤ src.fb :=
      Nat.lt_succ_iff.1 ((Nat.log2_lt hm).2 (src.sig_lt a))
    have hscale := src.scale_ge a
    refine hr.round_exact 0 false false neg _ _ hm ?_ ?_ (.inl rfl)
    · rw [hr.place_eq, if_neg Bool.false_ne_true]
      omega
    · rw [← src.mag_eq, ← hr.largest]
      refine le_trans ?_ hgreatest
      rw [← not_lt, src.mag_lt_iff]
      omega

theorem fmtT_eb (t : BitVec 3) : 1 ≤ (fmtT t).eb := by
  revert t
  decide

theorem State.vmode_eq (s : State) : s.vmode = s.core.iss.vrm.extractLsb' 0 2 := by
  rw [State.vmode, BitVec.setWidth_eq_extractLsb' (by decide)]

theorem cvtElt_floats (s : State) (src dst : BitVec 3) (x : Nat) (hs : 3 ≤ src.toNat) (hd : 3 ≤ dst.toNat)
    (hne : src ≠ dst) : cvtElt s src dst x = cvtFF (fmtT src) (fmtT dst) s.vmode (s.core.iss.vrm.getLsbD 2) x := by
  rw [cvtElt]
  simp only [if_neg hne, if_neg (show ¬ src.toNat ≤ 2 by omega), if_neg (show ¬ dst.toNat ≤ 2 by omega)]

theorem cvtElt_widening (s : State) (src dst : BitVec 3) (x : Nat) (h : (src, dst) ∈ Claims.widening) :
    cvtElt s src dst x = (fmtT dst).round 0 false false ((fmtT src).dec x) := by
  obtain ⟨hne, hs, hd, hw, -⟩ := widening_widens _ h
  rw [cvtElt_floats s src dst x hs hd hne, cvtFF, if_pos hw]

theorem cvtElt_to_integer (s : State) (src dst : BitVec 3) (x : Nat) (hs : 3 ≤ src.toNat) (hd : dst.toNat ≤ 2) :
    cvtElt s src dst x = ofS (tBits dst) (((fmtT src).dec x).toIntClamp s.vmode (-((2 ^ (tBits dst - 1) : Nat) : Int))
      (((2 ^ (tBits dst - 1) : Nat) : Int) - 1)) := by
  have hne : src ≠ dst := by
    rintro rfl
    omega
  rw [cvtElt]
  simp only [if_neg hne, if_neg (show ¬ src.toNat ≤ 2 by omega), if_pos hd]

theorem cvtElt_from_integer (s : State) (src dst : BitVec 3) (x : Nat) (hs : src.toNat ≤ 2) (hd : 3 ≤ dst.toNat) :
    cvtElt s src dst x = cvtIF (fmtT dst) s.vmode (s.core.iss.vrm.getLsbD 2) (toS (tBits src) x) := by
  have hne : src ≠ dst := by
    rintro rfl
    omega
  rw [cvtElt]
  simp only [if_neg hne, if_pos hs, if_neg (show ¬ dst.toNat ≤ 2 by omega)]

theorem cvtElt_integers (s : State) (src dst : BitVec 3) (x : Nat) (hs : src.toNat ≤ 2) (hd : dst.toNat ≤ 2)
    (hne : src ≠ dst) : cvtElt s src dst x = ofS (tBits dst) (clampS (tBits dst) (toS (tBits src) x)) := by
  rw [cvtElt]
  simp only [if_neg hne, if_pos hs, if_pos hd]

/-- The element of an integer in range stands for that integer. -/
theorem toS_ofS (e : Nat) (i : Int) (he : 0 < e) (hlo : -2 ^ (e - 1) ≤ i) (hhi : i < 2 ^ (e - 1)) :
    toS e (i % 2 ^ e).toNat = i := by
  obtain ⟨k, rfl⟩ := Nat.exists_eq_succ_of_ne_zero he.ne'
  rw [Nat.succ_sub_one] at hlo hhi
  have hpow : (2 : Int) ^ (k + 1) = 2 * 2 ^ k := pow_succ' 2 k
  have hcast : ((2 ^ k : Nat) : Int) = 2 ^ k := by push_cast; rfl
  rw [toS, Nat.succ_sub_one, Nat.succ_eq_add_one]
  by_cases h : 0 ≤ i
  · rw [Int.emod_eq_of_lt h (by omega), if_pos (by omega), Int.toNat_of_nonneg h]
  · have hmod : i % 2 ^ (k + 1) = i + 2 ^ (k + 1) := by
      rw [← Int.add_emod_right, Int.emod_eq_of_lt (by omega) (by omega)]
    rw [hmod, if_neg (by omega), Int.toNat_of_nonneg (by omega)]
    push_cast
    ring

/-- A value becomes the integer it rounds to, clamped; a NaN becomes 0 (R109). -/
theorem toIntClamp_spec (mode : BitVec 2) (lo hi : Int) (x : Num) :
    (x = .nan → x.toIntClamp mode lo hi = 0) ∧
    (∀ neg, x = .inf neg → x.toIntClamp mode lo hi = if neg then lo else hi) ∧
    ∀ neg m e, x = .fin neg m e → ∃ n : Nat, Claims.Rounds mode neg n (m * 2 ^ e) ∧
      x.toIntClamp mode lo hi = max lo (min hi (if neg then -(n : Int) else n)) := by
  refine ⟨?_, ?_, ?_⟩
  · rintro rfl
    rfl
  · rintro neg rfl
    rfl
  · rintro neg m e rfl
    have h := rounds_roundAt mode neg m e 0
    rw [sub_zero] at h
    exact ⟨_, h, rfl⟩

theorem widened (s : State) (src dst : BitVec 3) (x : Nat) (h : (src, dst) ∈ Claims.widening)
    (hx : x < 2 ^ (fmtT src).width) :
    (∀ neg m e, (fmtT src).dec x = .fin neg m e → Claims.Encodes (fmtT dst) (cvtElt s src dst x) neg (m * 2 ^ e)) ∧
    (∀ neg, (fmtT src).dec x = .inf neg → (fmtT dst).dec (cvtElt s src dst x) = .inf neg) ∧
    ((fmtT src).dec x = .nan → cvtElt s src dst x = (fmtT dst).nanBits) := by
  obtain ⟨r, hmem, hf⟩ := exists_row dst
  have hr := table97_agrees r hmem
  obtain ⟨-, -, -, -, h4⟩ := widening_widens _ h
  have hold := widening_holds _ h
  rw [cvtElt_widening s src dst x h]
  simp only [← hf] at h4 hold ⊢
  refine ⟨fun neg m e hdec => ?_, fun neg hdec => ?_, fun hdec => ?_⟩
  · rw [hdec]
    exact hr.round_widened (fmtT src) (fmtT_eb src) hold x hx neg m e hdec
  · have hne : r.infE ≠ r.nanE := fun h => absurd (h4.symm.trans (hr.e4m3_eq_true.2 h)) (by decide)
    rw [hdec, hr.round_inf, if_pos hne, hr.dec_infinity neg hne]
  · rw [hdec]
    rfl

theorem conversions : Claims.Conversions := by
  intro s src dst x
  refine ⟨by rw [cvtElt, if_pos rfl], widened s src dst x, fun hs hd hne hw => ?_, fun hs hd => ?_,
    fun w i hs hw hx hlo hhi => ?_⟩
  · rw [cvtElt_floats s src dst x hs hd hne, cvtFF, narrowing_narrows src dst hs hd hne hw,
      if_neg Bool.false_ne_true, s.vmode_eq]
  · refine ⟨8 * 2 ^ dst.toNat, ((fmtT src).dec x).toIntClamp s.vmode (-2 ^ (8 * 2 ^ dst.toNat - 1))
      (2 ^ (8 * 2 ^ dst.toNat - 1) - 1), rfl, ?_, ?_⟩
    · rw [cvtElt_to_integer s src dst x hs hd, ofS_eq, tBits_of_integer dst hd]
      push_cast
      rfl
    · rw [← s.vmode_eq]
      exact toIntClamp_spec _ _ _ _
  · have hval : toS (tBits src) x = i := by
      rw [hx, hw, ← tBits_of_integer src hs]
      rw [hw, ← tBits_of_integer src hs] at hlo hhi
      exact toS_ofS _ i (tBits_pos src) hlo hhi
    refine ⟨fun hd h0 => ?_, fun hd h0 => ?_, fun v hd hne hv => ?_⟩
    · rw [cvtElt_from_integer s src dst x hs hd, hval, h0]
      exact (fmtT dst).sgn_false 0
    · rw [cvtElt_from_integer s src dst x hs hd, hval, s.vmode_eq]
      rfl
    · rw [cvtElt_integers s src dst x hs hd hne, hval, ofS_eq, clampS_eq, hv, tBits_of_integer dst hd]

/-! Stochastic rounding (R111). -/

/-- A magnitude in units of 2^q, with `rnd` in units of 2^(q − d) added, truncated (R111). -/
def addTruncate (m rnd d : Nat) (e q : Int) : Nat :=
  if 0 ≤ e - q + d then (m * 2 ^ (e - q + d).toNat + rnd) / 2 ^ d
  else (m + rnd * 2 ^ (-(e - q + d)).toNat) / 2 ^ (d + (-(e - q + d)).toNat)

theorem natCast_div_floor (a d : Nat) {x : ℚ} (hx : (a : ℚ) / 2 ^ d = x) :
    ((a / 2 ^ d : Nat) : ℚ) ≤ x ∧ x < ((a / 2 ^ d : Nat) : ℚ) + 1 := by
  have hpow : (0 : ℚ) < 2 ^ d := by positivity
  have hlt : ((a % 2 ^ d : Nat) : ℚ) / 2 ^ d < 1 := by
    rw [div_lt_one hpow]
    exact_mod_cast Nat.mod_lt a (Nat.two_pow_pos d)
  have hnonneg : (0 : ℚ) ≤ ((a % 2 ^ d : Nat) : ℚ) / 2 ^ d := by positivity
  rw [← hx, quotient_parts]
  constructor <;> linarith

theorem addTruncate_floor (m rnd d : Nat) (e q : Int) :
    (addTruncate m rnd d e q : ℚ) ≤ m * 2 ^ (e - q) + (rnd : ℚ) / 2 ^ d ∧
      (m : ℚ) * 2 ^ (e - q) + (rnd : ℚ) / 2 ^ d < addTruncate m rnd d e q + 1 := by
  have hd : (2 : ℚ) ^ d ≠ 0 := by positivity
  rw [addTruncate]
  split
  · rename_i h
    obtain ⟨k, hk⟩ := Int.eq_ofNat_of_zero_le h
    have he : e - q = (k : Int) - d := by omega
    refine natCast_div_floor _ d ?_
    rw [hk, Int.toNat_natCast, he, zpow_sub₀ two_ne_zero, zpow_natCast, zpow_natCast]
    push_cast
    field_simp
  · rename_i h
    obtain ⟨k, hk⟩ := Int.eq_ofNat_of_zero_le (show 0 ≤ -(e - q + d) by omega)
    have he : e - q = -((d + k : Nat) : Int) := by
      push_cast
      omega
    rw [hk, Int.toNat_natCast]
    refine natCast_div_floor _ (d + k) ?_
    rw [he, zpow_neg, zpow_natCast, pow_add]
    push_cast
    field_simp

theorem stochastic_fin (r : Claims.Row97) (hr : RowAgrees r) (nbv : BitVec 8) (sat : Bool) (x rnd : Nat) (neg : Bool) (m : Nat)
    (e : Int) (hx : op32 nbv x = .fin neg m e) (hm : m ≠ 0) :
    stochastic r.f nbv sat x rnd = r.f.choose true neg
      (addTruncate m (rnd % 2 ^ (23 - r.fb)) (23 - r.fb) e (r.place false ((Nat.log2 m : Int) + e)))
      (r.place false ((Nat.log2 m : Int) + e)) (r.over 0 sat neg) := by
  have hover : r.over 0 sat neg =
      if sat = true then r.f.sgn neg r.f.maxBits else if r.f.e4m3 = true then r.f.nanBits else r.f.sgn neg r.f.infBits := by
    rw [← hr.overflow_eq, Fmt.overflow]
    simp
  have hplace : max ((Nat.log2 m : Int) + e) r.f.emin - r.f.fb = r.place false ((Nat.log2 m : Int) + e) := by
    rw [Claims.Row97.place, if_neg Bool.false_ne_true, hr.emin, hr.fb]
  rw [stochastic, hx, ← hr.fb]
  simp only [if_neg hm, hplace, hover]
  rw [Fmt.choose, ← addTruncate]
  generalize addTruncate m _ _ _ _ = n
  by_cases hn : n = 0
  · rw [if_pos (.inl hn), if_pos hn]
  · rw [if_neg hn, if_pos rfl]
    simp only [hn, false_or]

theorem stochasticRounding : Claims.StochasticRounding := by
  intro r hmem _ nbv sat x rnd
  have hr := table97_agrees r hmem
  refine ⟨fun h => ?_, fun neg h => ?_, fun neg m e h => ⟨fun hm => ?_, fun hm => ?_⟩⟩
  · rw [stochastic, h]
    exact hr.nanE
  · have hround := hr.round_inf 0 sat false neg
    rw [stochastic, h]
    exact hround
  · rw [stochastic, h, hr.signed_eq]
    exact if_pos hm
  · obtain ⟨hlo, hhi⟩ := log2_bounds hm e
    obtain ⟨hle, hlt⟩ := addTruncate_floor m (rnd % 2 ^ (23 - r.fb)) (23 - r.fb) e
      (r.place false ((Nat.log2 m : Int) + e))
    refine ⟨_, _, _, hlo, hhi, rfl, hle, hlt, ?_⟩
    rw [stochastic_fin r hr nbv sat x rnd neg m e h hm]
    refine hr.choose_gives 0 sat true neg _ _ ?_ fun h => absurd h (by decide)
    have hunits := hr.in_units_lt false m e hm
    have hfrac : ((rnd % 2 ^ (23 - r.fb) : Nat) : ℚ) / 2 ^ (23 - r.fb) < 1 := by
      rw [div_lt_one (by positivity)]
      exact_mod_cast Nat.mod_lt rnd (Nat.two_pow_pos (23 - r.fb))
    have hsum := (hle.trans_lt (add_lt_add hunits hfrac))
    exact Nat.lt_succ_iff.1 (by exact_mod_cast hsum)

/-! CCH-4 and fixed trees (R110, R124). -/

theorem treeLevel_nil {α : Type} (op : α → α → α) : treeLevel op [] = [] := rfl
theorem treeLevel_one {α : Type} (op : α → α → α) (a : α) : treeLevel op [a] = [a] := rfl

theorem length_treeLevel {α : Type} (op : α → α → α) (l : List α) : (treeLevel op l).length = (l.length + 1) / 2 := by
  induction l using treeLevel.induct with
  | case1 a b l ih => simp only [treeLevel, List.length_cons, ih]; omega
  | case2 l h =>
    match l, h with
    | [], _ => rw [treeLevel_nil]; simp
    | [a], _ => rw [treeLevel_one]; simp
    | a :: b :: l, h => exact absurd rfl (h a b l)

theorem treeLevel_pair (op : Nat → Nat → Nat) (l : List Nat) (i : Nat) (hi : 2 * i + 1 < l.length) :
    (treeLevel op l)[i]? = some (op (l.getD (2 * i) 0) (l.getD (2 * i + 1) 0)) := by
  induction l using treeLevel.induct generalizing i with
  | case1 a b l ih =>
    cases i with
    | zero => rfl
    | succ i =>
      have h := ih i (by simp only [List.length_cons] at hi; omega)
      rw [treeLevel, List.getElem?_cons_succ, h]
      rfl
  | case2 l h =>
    match l, h with
    | [], _ => exact absurd hi (Nat.not_lt_zero _)
    | [a], _ => exact absurd hi (by simp)
    | a :: b :: l, h => exact absurd rfl (h a b l)

theorem treeLevel_last (op : Nat → Nat → Nat) (l : List Nat) (h : l.length % 2 = 1) :
    (treeLevel op l)[l.length / 2]? = l[l.length - 1]? := by
  induction l using treeLevel.induct with
  | case1 a b l ih =>
    simp only [List.length_cons] at h ⊢
    have hlast : l.length + 1 + 1 - 1 = (l.length - 1) + 1 + 1 := by omega
    have hhalf : (l.length + 1 + 1) / 2 = l.length / 2 + 1 := by omega
    rw [treeLevel, hhalf, hlast, List.getElem?_cons_succ, List.getElem?_cons_succ, List.getElem?_cons_succ, ih (by omega)]
  | case2 l hl =>
    match l, hl with
    | [], _ => rfl
    | [a], _ => rw [treeLevel_one]; simp
    | a :: b :: l, hl => exact absurd rfl (hl a b l)

theorem tree_singleton {α : Type} (op : α → α → α) (d a : α) (n : Nat) : tree op d n [a] = a := by cases n <;> rfl

theorem tree_level {α : Type} (op : α → α → α) (d : α) (n : Nat) (l : List α) (h : 2 ≤ l.length) :
    tree op d (n + 1) l = tree op d n (treeLevel op l) := by
  match l, h with
  | a :: b :: l, _ => rfl

/-- The greater of two finite values, by their values (R124). -/
theorem maxNum_fin (s t : Bool) (m n : Nat) (e g : Int) :
    (Claims.val s m e < Claims.val t n g → maxNum (.fin s m e) (.fin t n g) = .fin t n g) ∧
    (Claims.val t n g < Claims.val s m e → maxNum (.fin s m e) (.fin t n g) = .fin s m e) ∧
    (m = 0 → n = 0 → maxNum (.fin s m e) (.fin t n g) = .fin (s && t) 0 0) := by
  refine ⟨fun h => ?_, fun h => ?_, ?_⟩
  · exact (minMax_of_lt ((Num.lt_fin_iff s t m n e g).2 h)).2.2.1
  · exact (minMax_of_lt ((Num.lt_fin_iff t s n m g e).2 h)).2.2.2
  · rintro rfl rfl
    rfl

theorem maxNum_inf_fin (s t : Bool) (n : Nat) (g : Int) :
    maxNum (.inf s) (.fin t n g) = (if s then .fin t n g else .inf s) ∧
    maxNum (.fin t n g) (.inf s) = if s then .fin t n g else .inf s := by
  cases s
  · have h := minMax_of_lt (show (Num.fin t n g).lt (.inf false) = true from rfl)
    exact ⟨h.2.2.2, h.2.2.1⟩
  · have h := minMax_of_lt (show (Num.inf true).lt (.fin t n g) = true from rfl)
    exact ⟨h.2.2.1, h.2.2.2⟩

theorem hashAndTrees : Claims.HashAndTrees := by
  refine ⟨fun _ _ => rfl, fun op d n a l => ⟨tree_singleton op d a n, tree_level op d n l, length_treeLevel op l,
    treeLevel_pair op l, treeLevel_last op l⟩, fun _ _ _ => rfl, fun a b s t m n e g => ⟨?_, ?_, ?_⟩⟩
  · rintro (rfl | rfl)
    · rfl
    · exact maxNum_nan_right a
  · rintro rfl rfl
    exact maxNum_fin s t m n e g
  · rintro rfl rfl
    exact maxNum_inf_fin s t n g

/-- Settles O59: encodings by their digits, a rounding by what the rounded magnitude is packed into, and conversions and
stochastic rounding by that same choice of a result. -/
theorem exactNumbers : Obligations.ExactNumbers :=
  ⟨formatTable, rounding, sumsAndProducts, conversions, stochasticRounding, hashAndTrees⟩

end Sys2Proof.Machine
end

section
/-! PROOFS. Block-align summation and the shapes of a sum (R118 to R121). -/

namespace Sys2Proof.Machine

/-! Special cases of a unit (R119). -/

theorem isNan_eq_true_iff (x : Num) : x.isNan = true ↔ x = .nan := by cases x <;> simp [Num.isNan]

theorem specialCase_nan {l : List Num} (h : .nan ∈ l) : specialCase l = some .nan :=
  if_pos (List.any_eq_true.2 ⟨_, h, rfl⟩)

/-- Without a NaN, a unit is special by its infinities: none, one sign, or both. -/
theorem specialCase_of_infinities {l : List Num} (h : .nan ∉ l) :
    (∀ t, .inf t ∈ l → .inf (!t) ∈ l → specialCase l = some .nan) ∧
    (∀ t, .inf t ∈ l → .inf (!t) ∉ l → specialCase l = some (.inf t)) ∧
    ((∀ t, .inf t ∉ l) → specialCase l = none) := by
  have hnan : ¬ l.any Num.isNan = true := by
    rw [List.any_eq_true]
    rintro ⟨x, hx, hn⟩
    exact h ((isNan_eq_true_iff x).1 hn ▸ hx)
  rw [specialCase, if_neg hnan]
  generalize hinfs : List.filter _ l = infs
  have hmem (x : Num) : x ∈ infs ↔ x ∈ l ∧ ∃ t, x = .inf t := by
    rw [← hinfs, List.mem_filter]
    cases x <;> simp
  cases infs with
  | nil =>
    have hnone (t : Bool) : .inf t ∉ l := fun ht => absurd ((hmem (.inf t)).2 ⟨ht, t, rfl⟩) List.not_mem_nil
    exact ⟨fun t ht => absurd ht (hnone t), fun t ht => absurd ht (hnone t), fun _ => rfl⟩
  | cons x xs =>
    obtain ⟨hx, t, rfl⟩ := (hmem x).1 List.mem_cons_self
    have hall : (Num.inf t :: xs).all (fun y => y == .inf t) = true ↔ .inf (!t) ∉ l := by
      rw [List.all_eq_true]
      constructor
      · intro hall ht
        have := hall _ ((hmem _).2 ⟨ht, _, rfl⟩)
        cases t <;> exact absurd (eq_of_beq this) (by decide)
      · intro hno y hy
        obtain ⟨hyl, u, rfl⟩ := (hmem y).1 hy
        refine beq_iff_eq.2 (congrArg Num.inf ?_)
        by_contra hne
        exact hno (Bool.eq_not_of_ne hne ▸ hyl)
    refine ⟨fun u hu hnu => ?_, fun u hu hnu => ?_, fun hno => absurd hx (hno t)⟩
    · refine if_neg (mt hall.1 (not_not.2 ?_))
      by_cases htu : u = t
      · exact htu ▸ hnu
      · rw [Bool.eq_not_of_ne htu] at hu
        exact hu
    · obtain rfl : t = u := by
        by_contra htu
        exact hnu (Bool.eq_not_of_ne htu ▸ hx)
      exact if_pos (hall.2 hnu)

theorem specialCase_finite {l : List Num} (h : ∀ x ∈ l, ∃ s m e, x = .fin s m e) : specialCase l = none := by
  have hnan : .nan ∉ l := fun hx => by obtain ⟨s, m, e, h⟩ := h _ hx; cases h
  exact (specialCase_of_infinities hnan).2.2 fun t hx => by obtain ⟨s, m, e, h⟩ := h _ hx; cases h

/-! What a unit answers (R118, R119). -/

theorem blockAlign_special {nbv : BitVec 8} {c : Nat} {t : List Num} {x : Num}
    (h : specialCase (op32 nbv c :: t) = some x) : blockAlign nbv c t = fp32.round 0 false false x := by
  rw [blockAlign]
  simp only [h]

/-- The greatest leading place of the nonzero values of a unit. -/
def greatestLead (l : List Num) : Int :=
  ((l.filter fun x => !x.isZero).map Num.lead).foldl max (((l.filter fun x => !x.isZero).map Num.lead).headD 0)

/-- The sum of a unit's values, each truncated, in units of 2^lsb. -/
def truncSum (lsb : Int) (l : List Num) : Int := l.foldl (fun a x => a + truncUnits lsb x) 0

theorem blockAlign_finite {nbv : BitVec 8} {c : Nat} {t l : List Num} (hl : l = op32 nbv c :: t)
    (h : ∀ x ∈ l, ∃ s m e, x = .fin s m e) : blockAlign nbv c t =
      if l.all Num.isZero = true then (if l.all Num.isNeg = true then 0x80000000 else 0)
      else if truncSum (greatestLead l - keepBits nbv) l = 0 then 0
      else fp32.round (finalMode nbv) false (nbv == 1)
        (Num.ofScaled (truncSum (greatestLead l - keepBits nbv) l) (greatestLead l - keepBits nbv)) := by
  subst hl
  rw [blockAlign]
  simp only [specialCase_finite h]
  rfl

theorem value_eq_zero_iff {x : Num} (h : ∃ s m e, x = .fin s m e) : Claims.value x = 0 ↔ x.isZero = true := by
  obtain ⟨s, m, e, rfl⟩ := h
  exact (val_eq_zero_iff s m e).trans beq_iff_eq.symm

theorem lead_bounds {x : Num} (h : ∃ s m e, x = .fin s m e) (hz : x.isZero = false) :
    (2 : ℚ) ^ x.lead ≤ |Claims.value x| ∧ |Claims.value x| < 2 ^ (x.lead + 1) := by
  obtain ⟨s, m, e, rfl⟩ := h
  have hm : m ≠ 0 := by simpa [Num.isZero] using hz
  rw [Claims.value, abs_val]
  exact log2_bounds hm e

theorem foldl_max_eq (l : List Int) (a M : Int) (ha : a ≤ M) (hl : ∀ x ∈ l, x ≤ M) (hM : M = a ∨ M ∈ l) :
    l.foldl max a = M := by
  induction l generalizing a with
  | nil => exact (hM.resolve_right List.not_mem_nil).symm
  | cons x l ih =>
    have hx := hl x List.mem_cons_self
    refine ih (max a x) (max_le ha hx) (fun y hy => hl y (List.mem_cons_of_mem x hy)) ?_
    rcases hM with rfl | hM
    · exact .inl (max_eq_left hx).symm
    · rcases List.mem_cons.1 hM with rfl | hM
      · exact .inl (max_eq_right ha).symm
      · exact .inr hM

/-- The greatest leading place is the exponent that bounds all magnitudes and is met by one. -/
theorem greatestLead_eq {l : List Num} (h : ∀ x ∈ l, ∃ s m e, x = .fin s m e) (emax : Int)
    (hle : ∀ x ∈ l, |Claims.value x| < 2 ^ (emax + 1)) (hex : ∃ x ∈ l, 2 ^ emax ≤ |Claims.value x|) :
    greatestLead l = emax := by
  have hmono {a b : Int} (hab : (2 : ℚ) ^ a < 2 ^ b) : a < b :=
    (zpow_lt_zpow_iff_right₀ (by norm_num : (1 : ℚ) < 2)).1 hab
  have hbound : ∀ n ∈ (l.filter fun x => !x.isZero).map Num.lead, n ≤ emax := by
    intro n hn
    obtain ⟨x, hx, rfl⟩ := List.mem_map.1 hn
    obtain ⟨hxl, hz⟩ := List.mem_filter.1 hx
    have hlt := hmono ((lead_bounds (h x hxl) (by simpa using hz)).1.trans_lt (hle x hxl))
    omega
  have hmem : emax ∈ (l.filter fun x => !x.isZero).map Num.lead := by
    obtain ⟨x, hx, hge⟩ := hex
    have hz : x.isZero = false := by
      rw [← Bool.not_eq_true, ← value_eq_zero_iff (h x hx)]
      intro h0
      rw [h0, abs_zero] at hge
      exact absurd (two_zpow_pos emax) (not_lt.2 hge)
    have hin : x.lead ∈ (l.filter fun x => !x.isZero).map Num.lead :=
      List.mem_map.2 ⟨x, List.mem_filter.2 ⟨hx, by rw [hz]; rfl⟩, rfl⟩
    have hlt := hmono (hge.trans_lt (lead_bounds (h x hx) hz).2)
    have hle := hbound _ hin
    rwa [show emax = x.lead by omega]
  rw [greatestLead]
  generalize (l.filter fun x => !x.isZero).map Num.lead = leads at hbound hmem ⊢
  refine foldl_max_eq leads _ emax ?_ hbound (.inr hmem)
  cases leads with
  | nil => cases hmem
  | cons n leads => exact hbound n List.mem_cons_self

/-- A magnitude truncated to units of 2^lsb. -/
theorem floor_in_units (m : Nat) (e lsb : Int) :
    ((if lsb ≤ e then m * 2 ^ (e - lsb).toNat else m / 2 ^ (lsb - e).toNat : Nat) : Int) =
      ⌊(m : ℚ) * 2 ^ e / 2 ^ lsb⌋ := by
  symm
  by_cases h : lsb ≤ e
  · rw [if_pos h, ← zpow_scale m h, mul_div_cancel_right₀ _ (two_zpow_pos lsb).ne', Int.floor_natCast]
  · obtain ⟨d, rfl⟩ := Int.le.dest (not_le.1 h).le
    have hdiv : (m : ℚ) / 2 ^ d = m * 2 ^ e / 2 ^ (e + (d : Int)) := by
      rw [zpow_add₀ two_ne_zero, zpow_natCast, mul_comm (m : ℚ), mul_div_mul_left _ _ (two_zpow_pos e).ne']
    rw [if_neg h, add_sub_cancel_left, Int.toNat_natCast, Int.floor_eq_iff, Int.cast_natCast]
    exact natCast_div_floor m d hdiv

theorem truncUnits_eq {x : Num} (h : ∃ s m e, x = .fin s m e) (lsb : Int) :
    truncUnits lsb x = Claims.truncAt lsb (Claims.value x) := by
  obtain ⟨s, m, e, rfl⟩ := h
  have hfloor := floor_in_units m e lsb
  have hnonneg : (0 : ℚ) ≤ m * 2 ^ e := mul_nonneg m.cast_nonneg (two_zpow_pos e).le
  rw [truncUnits, Claims.truncAt, Claims.value, Claims.val]
  simp only [hfloor]
  cases s with
  | false => simp only [Bool.false_eq_true, if_false, one_mul, if_pos hnonneg]
  | true =>
    simp only [if_true, neg_mul, one_mul, neg_neg]
    by_cases h0 : (m : ℚ) * 2 ^ e = 0
    · simp only [h0, neg_zero, le_refl, if_true, zero_div, Int.floor_zero]
    · rw [if_neg (not_le.2 (neg_lt_zero.2 (hnonneg.lt_of_ne' h0)))]

theorem foldl_add_eq_sum {α : Type} (f : α → Int) (l : List α) (a : Int) :
    l.foldl (fun x n => x + f n) a = a + (l.map f).sum := by
  induction l generalizing a with
  | nil => simp
  | cons x l ih => rw [List.foldl_cons, ih, List.map_cons, List.sum_cons, add_assoc]

theorem truncSum_eq {l : List Num} (h : ∀ x ∈ l, ∃ s m e, x = .fin s m e) (lsb : Int) :
    truncSum lsb l = (l.map fun x => Claims.truncAt lsb (Claims.value x)).sum := by
  rw [truncSum, foldl_add_eq_sum, zero_add, List.map_congr_left fun x hx => truncUnits_eq (h x hx) lsb]

theorem blockAlignment : Claims.BlockAlignment := by
  rintro nbv c t l W hl rfl
  have hop : l = op32 nbv c :: t := hl
  refine ⟨fun hnan => ?_, fun hnan hpos hneg => ?_, fun s hnan hs hns => ?_, fun hfin => ⟨fun hzero => ⟨fun hneg => ?_, ?_⟩,
    fun emax S hle hex hS => ?_⟩⟩
  · rw [blockAlign_special (hop ▸ specialCase_nan hnan)]
    rfl
  · rw [blockAlign_special (hop ▸ (specialCase_of_infinities hnan).1 false hpos hneg)]
    rfl
  · rw [blockAlign_special (hop ▸ (specialCase_of_infinities hnan).2.1 s hs hns)]
    cases s <;> rfl
  · have hall : l.all Num.isZero = true := List.all_eq_true.2 fun x hx => (value_eq_zero_iff (hfin x hx)).1 (hzero x hx)
    have hsign : l.all Num.isNeg = true := List.all_eq_true.2 fun x hx => by obtain ⟨m, e, rfl⟩ := hneg x hx; rfl
    rw [blockAlign_finite hop hfin, if_pos hall, if_pos hsign]
  · rintro x hx ⟨m, e, rfl⟩
    have hall : l.all Num.isZero = true := List.all_eq_true.2 fun x hx => (value_eq_zero_iff (hfin x hx)).1 (hzero x hx)
    have hsign : ¬ l.all Num.isNeg = true := fun h => absurd (List.all_eq_true.1 h _ hx) (by simp [Num.isNeg])
    rw [blockAlign_finite hop hfin, if_pos hall, if_neg hsign]
  · have hsome : ¬ l.all Num.isZero = true := by
      intro h
      obtain ⟨x, hx, hge⟩ := hex
      rw [(value_eq_zero_iff (hfin x hx)).2 (List.all_eq_true.1 h x hx), abs_zero] at hge
      exact absurd (two_zpow_pos emax) (not_lt.2 hge)
    have hsum : truncSum (emax - keepBits nbv) l = S := (truncSum_eq hfin _).trans hS.symm
    rw [blockAlign_finite hop hfin, if_neg hsome, greatestLead_eq hfin emax hle hex, hsum]
    exact ⟨fun h => if_pos h, fun h => if_neg h⟩

/-! The shapes of a sum (R118, R120). -/

/-- Units in ascending order do not depend on the bound of their number, where that is no less than the number of terms. -/
theorem chunks_bound {α : Type} (n : Nat) (hn : 0 < n) (j k : Nat) (l : List α) (hj : l.length ≤ j) (hk : l.length ≤ k) :
    chunks n j l = chunks n k l := by
  induction j generalizing k l with
  | zero =>
    obtain rfl := List.length_eq_zero_iff.1 (Nat.le_zero.1 hj)
    cases k <;> rfl
  | succ j ih =>
    cases k with
    | zero =>
      obtain rfl := List.length_eq_zero_iff.1 (Nat.le_zero.1 hk)
      rfl
    | succ k =>
      cases l with
      | nil => rfl
      | cons x l =>
        rw [List.length_cons] at hj hk
        have hdrop : ((x :: l).drop n).length ≤ l.length := by
          rw [List.length_drop, List.length_cons]
          omega
        exact congrArg (List.take n (x :: l) :: ·) (ih k _ (by omega) (by omega))

theorem chunks_cons {α : Type} (n : Nat) (hn : 0 < n) (l : List α) (hl : l ≠ []) :
    chunks n l.length l = l.take n :: chunks n (l.drop n).length (l.drop n) := by
  cases l with
  | nil => exact absurd rfl hl
  | cons x l =>
    have hdrop : ((x :: l).drop n).length ≤ l.length := by
      rw [List.length_drop, List.length_cons]
      omega
    exact congrArg (List.take n (x :: l) :: ·) (chunks_bound n hn _ _ _ hdrop le_rfl)

theorem fp32Sum_units (nbv : BitVec 8) (n c : Nat) (ab : List (Num × Num)) : fp32Sum nbv n 0 c ab =
    (chunks n (ab.map fun p => Num.mul p.1 p.2).length (ab.map fun p => Num.mul p.1 p.2)).foldl (blockAlign nbv) c := by
  rw [List.length_map]
  rfl

theorem sumShapes : Claims.SumShapes := by
  intro nbv n c ab hn
  refine ⟨rfl, fun hab => ?_, ?_, rfl, fun _ _ => rfl⟩
  · rw [fp32Sum_units, fp32Sum_units, chunks_cons n hn _ (by simpa using hab), List.foldl_cons, List.map_take, List.map_drop]
  · rw [← List.length_map (as := ab) fun x => fp32.round 0 false (nbv == 1) (Num.mul x.1 x.2)]
    rfl

end Sys2Proof.Machine
end

section
/-! PROOFS. The cells of MMA, MRSUM and MDRAIN (R112 to R121, R178, R180, R191, R192, R196). -/

namespace Sys2Proof.Machine

/-! Integers in cells and operands (R100, R114). -/

theorem mInt_eq_ival (w : Nat) (signed : Bool) (x : Nat) (hw : 0 < w) : mInt w signed x = Claims.ival w signed x := by
  obtain ⟨k, rfl⟩ := Nat.exists_eq_succ_of_ne_zero hw.ne'
  have hiff : 2 ^ k ≤ x ↔ ¬ 2 * x < 2 ^ (k + 1) := by rw [pow_succ']; omega
  rw [mInt, Claims.ival, Claims.sgn]
  cases signed with
  | false => rfl
  | true =>
    simp only [Nat.succ_eq_add_one, Nat.add_sub_cancel, Bool.true_and, decide_eq_true_eq, hiff, if_true, ite_not]
    push_cast
    rfl

theorem cellInt_eq_sgn (x : Nat) : cellInt x = Claims.sgn 32 x := mInt_eq_ival 32 true x (by decide)

theorem codeBits_pos (f : Nat) : 0 < Claims.codeBits f := by
  rw [← mBits_eq_codeBits]
  unfold mBits
  split_ifs <;> decide

/-- An operand's element as an integer (R100, R113). -/
theorem mInt_operand (f : Nat) (signed : Bool) (x : Nat) :
    mInt (Claims.codeBits f) signed x = Claims.ival (Claims.codeBits f) signed x :=
  mInt_eq_ival _ _ _ (codeBits_pos f)

theorem operandElt_eq (blks : List Nat) (d w r k : Nat) : operandElt blks d w r k = Claims.opElt blks d w r k := rfl

theorem cellInt_start (z : Bool) (old : Nat) : cellInt (if z then 0 else old) = if z then 0 else Claims.sgn 32 old := by
  cases z
  · exact cellInt_eq_sgn old
  · rfl

theorem sum_range_foldl (k : Nat) (f : Nat → Int) :
    (List.range k).foldl (fun x n => x + f n) 0 = ((List.range k).map f).sum := by
  rw [foldl_add_eq_sum, zero_add]

theorem ftAcc_eq_two_iff (ft : BitVec 32) : ftAcc ft = 2 ↔ ft.extractLsb' 8 2 = 2 :=
  BitVec.toNat_inj (x := ft.extractLsb' 8 2) (y := 2)

/-- What is stored of an integer wraps, or clamps and says so (R114). -/
theorem intAcc_spec (acc : Nat) (x : Int) :
    (acc ≠ 2 → ((intAcc acc x).1 : Int) = x % 2 ^ 32 ∧ (intAcc acc x).2 = false) ∧
    (acc = 2 → ((intAcc acc x).1 : Int) = max (-2 ^ 31) (min (2 ^ 31 - 1) x) % 2 ^ 32 ∧
      ((intAcc acc x).2 = true ↔ x < -2 ^ 31 ∨ 2 ^ 31 - 1 < x)) := by
  refine ⟨fun h => ?_, fun h => ?_⟩
  · rw [intAcc, if_neg h]
    exact ⟨by norm_num; omega, rfl⟩
  · rw [intAcc, if_pos h]
    refine ⟨by norm_num; omega, ?_⟩
    rw [decide_eq_true_iff]
    norm_num
    omega

theorem intAcc_lt (acc : Nat) (x : Int) : (intAcc acc x).1 < 2 ^ 32 := by
  rw [intAcc]
  split
  · norm_num
    omega
  · norm_num
    omega

/-! The kinds of pairs (R112, R113). -/

theorem pairOf_kind (a b : Nat) (p : Pair) (h : pairOf a b = some p) :
    (a ≤ 4 → b ≤ 4 → p.kind = .float) ∧ (a = 1 → b ∈ [7, 8] → p.kind = .gqFloat) ∧
    (a = 5 → b ∈ [7, 8] → p.kind = .gqInt) ∧ ((a, b) ∈ [(5, 5), (6, 6)] → p.kind = .int) := by
  unfold pairOf at h
  split_ifs at h <;> obtain rfl := Option.some.inj h <;> simp <;> omega

theorem mmaCell_int (g : MmaArgs) (p : Pair) (bl : Blocks) (old i j : Nat) (h : p.kind = .int) :
    mmaCell g p bl old i j = intAcc (ftAcc g.ft) (cellInt (if g.z then 0 else old) +
      (List.range (p.d * (g.kb + 1))).foldl (fun x n =>
        x + mInt (mBits (ftA g.ft)) g.sa (operandElt bl.a p.d (mBits (ftA g.ft)) i n) *
          mInt (mBits (ftB g.ft)) g.sb (operandElt bl.b p.d (mBits (ftB g.ft)) j n)) 0) := by
  unfold mmaCell
  rw [h]

theorem integerCells : Claims.IntegerCells := by
  intro g p bl old i j a b K hp ha hb hab hK
  obtain rfl : a = ftA g.ft := ha
  obtain rfl : b = ftB g.ft := hb
  subst hK
  have hkind := (pairOf_kind _ _ p hp).2.2.2 hab
  have hcell := mmaCell_int g p bl old i j hkind
  rw [(pairOf_rows _ _ 0 p hp).1, cellInt_start, sum_range_foldl] at hcell
  simp only [mBits_eq_codeBits, mInt_operand, operandElt_eq] at hcell
  refine ⟨_, rfl, ?_⟩
  rw [hcell, ← ftAcc_eq_two_iff, ne_eq, ← ftAcc_eq_two_iff]
  exact intAcc_spec (ftAcc g.ft) _

/-! Cells with an FP32 accumulator (R115 to R118, R121). -/

theorem mmaCell_float (g : MmaArgs) (p : Pair) (bl : Blocks) (old i j : Nat) (h : p.kind = .float) :
    mmaCell g p bl old i j = (fp32Sum g.nbv (unitSize g.nbv p) g.ss (if g.z then 0 else old)
      ((List.range (p.d * (g.kb + 1))).map fun n =>
        (mOperand g.nbv (ftA g.ft) (operandElt bl.a p.d (mBits (ftA g.ft)) i n),
          mOperand g.nbv (ftB g.ft) (operandElt bl.b p.d (mBits (ftB g.ft)) j n))), false) := by
  unfold mmaCell
  rw [h]

theorem mmaCell_gqFloat (g : MmaArgs) (p : Pair) (bl : Blocks) (old i j : Nat) (h : p.kind = .gqFloat) :
    mmaCell g p bl old i j = (fp32Sum g.nbv (unitSize g.nbv p) g.ss (if g.z then 0 else old)
      ((List.range (p.d * (g.kb + 1))).map fun n =>
        (mOperand g.nbv (ftA g.ft) (operandElt bl.a p.d (mBits (ftA g.ft)) i n),
          Num.mul (Num.ofInt ((operandElt bl.b p.d (mBits (ftB g.ft)) j n : Int) - (sideEntry bl (n / groupSize g.ft) j).2))
            (sideEntry bl (n / groupSize g.ft) j).1)), false) := by
  unfold mmaCell
  rw [h]

/-- The terms of group q of INT8 × GQ, before its scale (R117). -/
def groupSum (g : MmaArgs) (p : Pair) (bl : Blocks) (i j q : Nat) : Int :=
  (List.range (groupSize g.ft)).foldl (fun x n =>
    x + mInt 8 g.sa (operandElt bl.a p.d (mBits (ftA g.ft)) i (q * groupSize g.ft + n)) *
      ((operandElt bl.b p.d (mBits (ftB g.ft)) j (q * groupSize g.ft + n) : Int) - (sideEntry bl q j).2)) 0

theorem mmaCell_gqInt (g : MmaArgs) (p : Pair) (bl : Blocks) (old i j : Nat) (h : p.kind = .gqInt) :
    mmaCell g p bl old i j = (fp32Sum g.nbv 1 0 (if g.z then 0 else old)
      ((List.range (p.d * (g.kb + 1) / groupSize g.ft)).map fun q =>
        (Num.ofInt (groupSum g p bl i j q), (sideEntry bl q j).1)), false) := by
  unfold mmaCell
  rw [h]
  rfl

theorem mFmt_eq_getD (f : Nat) (hf : f ≤ 4) : mFmt f = [fp32, bf16, fp16, fe4m3, fe5m2].getD f fp32 := by
  interval_cases f <;> rfl

theorem mOperand_eq_opnd (nbv : BitVec 8) (f x : Nat) (hf : f ≤ 4) : mOperand nbv f x = Claims.opnd nbv f x := by
  rw [mOperand, Claims.opnd, mFmt_eq_getD f hf]

theorem bits_bits (x lo w lo' w' : Nat) (h : lo' + w' ≤ w) : bits (bits x lo w) lo' w' = x / 2 ^ (lo + lo') % 2 ^ w' := by
  rw [bits, bits, mod_two_pow_div_mod _ _ _ _ h, Nat.div_div_eq_div_mul, ← pow_add]

/-- The scale and the zero point of a group and a column (R115, R116). -/
theorem sideEntry_eq (bl : Blocks) (q j : Nat) : sideEntry bl q j =
    (fp16.operand true (bl.side.getD q 0 / 2 ^ (32 * j) % 2 ^ 16), bl.side.getD q 0 / 2 ^ (32 * j + 16) % 2 ^ 8) := by
  rw [sideEntry, bits_bits _ _ _ _ _ (by decide), bits_bits _ _ _ _ _ (by decide), Nat.add_zero]

theorem ofInt_sub (a b : Nat) : Num.ofInt ((a : Int) - b) = .fin (decide (a < b)) ((a : Int) - b).natAbs 0 := by
  have h : ((a : Int) - b < 0) ↔ a < b := by omega
  rw [Num.ofInt, Num.ofScaled, decide_eq_decide.2 h]

/-- Products with a common term taken off are products less the term's share. -/
theorem sum_mul_sub (l : List Nat) (f g : Nat → Int) (z : Int) : (l.map fun n => f n * (g n - z)).sum =
    (l.map fun n => f n * g n).sum - z * (l.map f).sum := by
  induction l with
  | nil => simp
  | cons x l ih =>
    simp only [List.map_cons, List.sum_cons, ih]
    ring

theorem unitSize_eq (nbv : BitVec 8) (a b : Nat) (p : Pair) (h : pairOf a b = some p) (ha : a ≤ 4) :
    unitSize nbv p = (if nbv = 1 then 1 else if nbv = 2 then 2 else 4) * [2, 4, 4, 8, 8].getD a 0 := by
  have hd := (pairOf_rows a b 0 p h).1
  rw [unitSize, hd]
  interval_cases a <;> exact Nat.mul_comm _ _

theorem floatCells : Claims.FloatCells := by
  intro g p bl old i j a b c K size v A B hp ha hb hc hK hsize hv hA hB scale zp hscale hzp
  obtain rfl : a = ftA g.ft := ha
  obtain rfl : b = ftB g.ft := hb
  obtain rfl : size = groupSize g.ft := hsize
  obtain ⟨hfloat, hgqFloat, hgqInt, -⟩ := pairOf_kind _ _ p hp
  have hd := (pairOf_rows _ _ 0 p hp).1
  have hA' (k : Nat) : operandElt bl.a p.d (mBits (ftA g.ft)) i k = A k := by
    rw [hA, hd, mBits_eq_codeBits, operandElt_eq]
  have hB' (k : Nat) : operandElt bl.b p.d (mBits (ftB g.ft)) j k = B k := by
    rw [hB, hd, mBits_eq_codeBits, operandElt_eq]
  have hside (q : Nat) : sideEntry bl q j = (scale q, zp q) := by rw [sideEntry_eq, hscale, hzp]
  have hK' : p.d * (g.kb + 1) = K := by rw [hK, hd]
  refine ⟨fun ha hb => ?_, fun ha hb => ?_, fun ha hb S hS => ?_⟩
  · rw [mmaCell_float g p bl old i j (hfloat ha hb), unitSize_eq g.nbv _ _ p hp ha, hK', ← hv, ← hc]
    simp only [hA', hB', mOperand_eq_opnd _ _ _ ha, mOperand_eq_opnd _ _ _ hb]
  · rw [mmaCell_gqFloat g p bl old i j (hgqFloat ha hb), unitSize_eq g.nbv _ _ p hp (by omega), hK', ← hv, ← hc]
    simp only [hA', hB', hside, ofInt_sub]
    simp only [ha, mOperand_eq_opnd g.nbv 1 _ (by decide)]
    rfl
  · have hsum (q : Nat) : groupSum g p bl i j q = S q := by
      rw [groupSum, sum_range_foldl, hS, ← sum_mul_sub]
      simp only [hA', hB', hside, mInt_eq_ival 8 _ _ (by decide : 0 < 8)]
    rw [mmaCell_gqInt g p bl old i j (hgqInt ha hb), hK', ← hc]
    simp only [hsum, hside]
    rfl

/-! Tiles, cell by cell (R178, R191, R192). -/

/-- The cells of a tile in their order, each with whether it clamped. -/
def cellsOf (f : Nat → Nat → Nat × Bool) : List (Nat × Bool) := (List.range 1024).map fun n => f (n / 32) (n % 32)

theorem cellAt_cellsOf (f : Nat → Nat → Nat × Bool) (i j : Nat) (hi : i < 32) (hj : j < 32) :
    cellAt (BitVec.ofNat 32768 ((cellsOf f).foldr (fun x acc => x.1 % 4294967296 + 4294967296 * acc) 0)) i j =
      (f i j).1 % 2 ^ 32 := by
  have hn : 32 * i + j < (cellsOf f).length := by
    rw [cellsOf, List.length_map, List.length_range]
    omega
  have hdiv : (32 * i + j) / 32 = i := by omega
  have hmod : (32 * i + j) % 32 = j := by omega
  rw [cellAt, fld, toNat_extractLsb'_ofNat_of_le _ _ _ _ (by omega), pow_mul,
    show (2 : Nat) ^ 32 = 4294967296 by decide,
    digit_foldr _ (cellsOf f) (fun x => x.1 % 4294967296) (fun x _ => Nat.mod_lt _ (by decide)) _ hn]
  simp only [cellsOf, List.getElem_map, List.getElem_range, hdiv, hmod]

theorem any_cellsOf (f : Nat → Nat → Nat × Bool) :
    (cellsOf f).any (fun x => x.2) = true ↔ ∃ i j, i < 32 ∧ j < 32 ∧ (f i j).2 = true := by
  rw [cellsOf, List.any_map, List.any_eq_true]
  constructor
  · rintro ⟨n, hn, h⟩
    have := List.mem_range.1 hn
    exact ⟨n / 32, n % 32, by omega, by omega, h⟩
  · rintro ⟨i, j, hi, hj, h⟩
    refine ⟨32 * i + j, List.mem_range.2 (by omega), ?_⟩
    rwa [Function.comp_apply, show (32 * i + j) / 32 = i by omega, show (32 * i + j) % 32 = j by omega]

theorem mmaTile_eq (g : MmaArgs) (p : Pair) (bl : Blocks) (t : Tile) (h : pairOf (ftA g.ft) (ftB g.ft) = some p) :
    mmaTile g bl t = { t with
      cells := BitVec.ofNat 32768 ((cellsOf fun i j => mmaCell g p bl (cellAt t.cells i j) i j).foldr
        (fun x acc => x.1 % 4294967296 + 4294967296 * acc) 0)
      sat := t.sat || (cellsOf fun i j => mmaCell g p bl (cellAt t.cells i j) i j).any fun x => x.2
      acc := BitVec.ofNat 2 (ftAcc g.ft) } := by
  rw [mmaTile]
  simp only [h]
  rfl

/-- The sum over K of a row of A, or of a column of B (R192). -/
def operandSum (g : MmaArgs) (p : Pair) (row : Bool) (bl : Blocks) (r : Nat) : Int :=
  (List.range (p.d * (g.kb + 1))).foldl (fun x n =>
    x + (if row then mInt (mBits (ftA g.ft)) g.sa (operandElt bl.a p.d (mBits (ftA g.ft)) r n)
         else mInt (mBits (ftB g.ft)) g.sb (operandElt bl.b p.d (mBits (ftB g.ft)) r n))) 0

/-- What an MRSUM adds to cell (i, j) (R192). -/
def mrsumTerm (g : MmaArgs) (p : Pair) (sh : Nat) (neg row : Bool) (bl : Blocks) (i j : Nat) : Int :=
  (if neg then -1 else 1) * 2 ^ sh * operandSum g p row bl (if row then i else j)

theorem mrsumTile_eq (g : MmaArgs) (p : Pair) (sh : Nat) (neg row : Bool) (bl : Blocks) (t : Tile)
    (h : pairOf (ftA g.ft) (ftB g.ft) = some p) : mrsumTile g sh neg row bl t = { t with
      cells := BitVec.ofNat 32768 ((cellsOf fun i j =>
        intAcc (ftAcc g.ft) (cellInt (cellAt t.cells i j) + mrsumTerm g p sh neg row bl i j)).foldr
          (fun x acc => x.1 % 4294967296 + 4294967296 * acc) 0)
      sat := t.sat || (cellsOf fun i j =>
        intAcc (ftAcc g.ft) (cellInt (cellAt t.cells i j) + mrsumTerm g p sh neg row bl i j)).any fun x => x.2 } := by
  have hterm (n : Nat) (hn : n ∈ List.range 1024) :
      (if neg then -(((List.range 32).map (operandSum g p row bl)).getD (if row then n / 32 else n % 32) 0 *
          ((2 ^ sh : Nat) : Int))
        else ((List.range 32).map (operandSum g p row bl)).getD (if row then n / 32 else n % 32) 0 *
          ((2 ^ sh : Nat) : Int)) = mrsumTerm g p sh neg row bl (n / 32) (n % 32) := by
    have hn' := List.mem_range.1 hn
    have hr : (if row then n / 32 else n % 32) < 32 := by split <;> omega
    rw [List.getD_eq_getElem _ _ (by simpa using hr), List.getElem_map, List.getElem_range, mrsumTerm]
    push_cast
    cases neg <;> simp <;> ring
  have hcells : (List.range 1024).map (fun n => intAcc (ftAcc g.ft) (cellInt (cellAt t.cells (n / 32) (n % 32)) +
      (if neg then -(((List.range 32).map (operandSum g p row bl)).getD (if row then n / 32 else n % 32) 0 *
          ((2 ^ sh : Nat) : Int))
        else ((List.range 32).map (operandSum g p row bl)).getD (if row then n / 32 else n % 32) 0 *
          ((2 ^ sh : Nat) : Int)))) =
      cellsOf fun i j => intAcc (ftAcc g.ft) (cellInt (cellAt t.cells i j) + mrsumTerm g p sh neg row bl i j) :=
    List.map_congr_left fun n hn => by rw [hterm n hn]
  rw [← hcells, mrsumTile]
  simp only [h]
  rfl

theorem tileCells : Claims.TileCells := by
  intro g p bl t a b K cell hp ha hb hK hcell
  obtain rfl : a = ftA g.ft := ha
  obtain rfl : b = ftB g.ft := hb
  obtain rfl : cell = fun u i j => cellAt u.cells i j := by
    funext u i j
    exact hcell u i j
  have hacc : BitVec.ofNat 2 (ftAcc g.ft) = g.ft.extractLsb' 8 2 := BitVec.ofNat_toNat 2 _
  have hsat (x : Bool) (f : Nat → Nat → Nat × Bool) : (x || (cellsOf f).any fun x => x.2) = true ↔
      x = true ∨ ∃ i j, i < 32 ∧ j < 32 ∧ (f i j).2 = true := by rw [Bool.or_eq_true, any_cellsOf]
  refine ⟨?_, fun sh neg row x hx => ?_⟩
  · rw [mmaTile_eq g p bl t hp]
    exact ⟨fun i j hi hj => cellAt_cellsOf _ i j hi hj, hsat _ _, hacc, rfl⟩
  · have hterm (i j : Nat) : cellInt (cellAt t.cells i j) + mrsumTerm g p sh neg row bl i j = x i j := by
      rw [hx, cellInt_eq_sgn, mrsumTerm, operandSum, sum_range_foldl, hK, (pairOf_rows _ _ 0 p hp).1]
      simp only [mBits_eq_codeBits, mInt_operand, operandElt_eq]
      cases row <;> rfl
    have hcells : (fun i j => intAcc (ftAcc g.ft) (cellInt (cellAt t.cells i j) + mrsumTerm g p sh neg row bl i j)) =
        fun i j => intAcc (ftAcc g.ft) (x i j) := by
      funext i j
      rw [hterm]
    have hspec (i j : Nat) := intAcc_spec (ftAcc g.ft) (x i j)
    rw [mrsumTile_eq g p sh neg row bl t hp, hcells]
    refine ⟨fun i j hi hj => ?_, (hsat _ _).trans (or_congr_right ?_), rfl, rfl⟩
    · have hstored := congrArg (Nat.cast (R := Int)) ((cellAt_cellsOf (fun i j => intAcc (ftAcc g.ft) (x i j)) i j hi hj).trans
        (Nat.mod_eq_of_lt (intAcc_lt _ _)))
      exact ⟨fun h => hstored.trans ((hspec i j).1 (mt (ftAcc_eq_two_iff g.ft).1 h)).1,
        fun h => hstored.trans ((hspec i j).2 ((ftAcc_eq_two_iff g.ft).2 h)).1⟩
    · by_cases h : ftAcc g.ft = 2
      · simp only [((hspec _ _).2 h).2, (ftAcc_eq_two_iff g.ft).1 h, true_and]
      · simp only [((hspec _ _).1 h).2, mt (ftAcc_eq_two_iff g.ft).2 h, false_and, Bool.false_eq_true, and_false,
          exists_const]

/-! Cells of MDRAIN (R195, R196). -/

theorem drainFloat_eq (f : Nat) : drainFloat f = decide (f ≤ 4) := rfl

theorem intRange_eq (w : Nat) (uns : Bool) : intRange w uns =
    (if uns = true then 0 else -2 ^ (w - 1), if uns = true then 2 ^ w - 1 else 2 ^ (w - 1) - 1) := by
  rw [intRange]
  push_cast
  cases uns <;> rfl

theorem drainCells : Claims.DrainCells := by
  rintro acc f mode sat req uns zo p x j w lo hi y - rfl rfl rfl rfl
  have hint (hf : f ∈ [5, 9, 10]) : ¬ drainFloat f = true := by
    rw [drainFloat_eq, decide_eq_true_iff]
    simp only [List.mem_cons, List.not_mem_nil, or_false] at hf
    omega
  refine ⟨fun hacc => ⟨fun hf => ?_, fun h1 h4 => ?_, fun hf => ?_⟩, fun hacc => ⟨fun hf => ?_, fun hf m k hm hk => ?_⟩⟩
  · rw [drainCell, if_pos hacc, hf]
    rfl
  · have hnarrow : widens fp32 (mFmt f) = false := by interval_cases f <;> rfl
    rw [drainCell, if_pos hacc, drainFloat_eq, decide_eq_true h4, if_pos rfl, if_neg (by omega), cvtFF, hnarrow,
      if_neg Bool.false_ne_true, mFmt_eq_getD f h4]
  · refine ⟨(fp32.dec x).toIntClamp mode (-2 ^ 31) (2 ^ 31 - 1), ?_, toIntClamp_spec mode _ _ _⟩
    rw [drainCell, if_pos hacc, if_neg (hint hf), intRange_eq, mBits_eq_codeBits]
    push_cast
    rfl
  · rw [drainCell, if_neg hacc, drainFloat_eq, decide_eq_true hf, if_pos rfl, cvtIF, cellInt_eq_sgn, mFmt_eq_getD f hf]
    rfl
  · rw [drainCell, if_neg hacc, if_neg (hint hf), intRange_eq, mBits_eq_codeBits, cellInt_eq_sgn, drainParam,
      cellInt_eq_sgn, hm, hk]
    push_cast
    rfl

/-- Settles O23: a cell by the kind of its pair, a tile by its cells, and a unit by its special cases and its greatest
leading place. -/
theorem matrixCells : Obligations.MatrixCells :=
  ⟨integerCells, blockAlignment, sumShapes, floatCells, tileCells, drainCells⟩

end Sys2Proof.Machine
end

section
/-! PROOFS. Special functions: reciprocals and roots with a sticky bit are correctly rounded (R172, R173). -/

namespace Sys2Proof.Machine

/-! The integer square root. -/

theorem isqrt_bounds (n x r : Nat) (hlo : r * r ≤ x) (hhi : x < (r + 2 ^ n) * (r + 2 ^ n)) :
    isqrt n x r * isqrt n x r ≤ x ∧ x < (isqrt n x r + 1) * (isqrt n x r + 1) := by
  induction n generalizing r with
  | zero => exact ⟨hlo, hhi⟩
  | succ n ih =>
    rw [isqrt]
    split
    · rename_i h
      refine ih _ h ?_
      rwa [Nat.add_assoc, ← Nat.two_mul, ← pow_succ']
    · rename_i h
      exact ih _ hlo (not_le.1 h)

theorem sqrtN_eq (x : Nat) : sqrtN x = Nat.sqrt x := by
  have hhi : x < (0 + 2 ^ (Nat.log2 x / 2 + 2)) * (0 + 2 ^ (Nat.log2 x / 2 + 2)) := by
    rw [Nat.zero_add, ← pow_add]
    exact Nat.lt_log2_self.trans_le (Nat.pow_le_pow_right (by decide) (by omega))
  obtain ⟨hle, hlt⟩ := isqrt_bounds _ x 0 (Nat.zero_le _) hhi
  exact Nat.eq_sqrt.2 ⟨hle, hlt⟩

/-! What the formats of the special functions have in common. -/

/-- A row of R97's table with infinities, and with the ranges of FP32, BF16 and FP16. -/
structure RowSpecial (r : Claims.Row97) : Prop extends RowAgrees r where
  infinite : r.infE ≠ r.nanE
  fb_le : r.f.fb ≤ 23
  fb_bias : r.f.fb + 1 ≤ r.bias
  two_le : 2 ≤ r.bias
  bias_le : r.bias ≤ 127
  range : r.bias + r.f.fb < 2 ^ (r.f.fb + 1)
  atLeast : 2 ^ (r.bias : Int) ≤ r.largest
  below : r.largest < 2 ^ ((r.bias : Int) + 1)

theorem table97_special : ∀ r ∈ Claims.table97, r.f = fp32 ∨ r.f = bf16 ∨ r.f = fp16 → RowSpecial r := by
  intro r hmem hf
  have hr := table97_agrees r hmem
  simp only [Claims.table97, List.mem_cons, List.not_mem_nil, or_false] at hmem
  rcases hmem with rfl | rfl | rfl | rfl | rfl
  · exact ⟨hr, by decide, by decide, by decide, by decide, by decide, by decide, by norm_num, by norm_num⟩
  · exact ⟨hr, by decide, by decide, by decide, by decide, by decide, by decide, by norm_num, by norm_num⟩
  · exact ⟨hr, by decide, by decide, by decide, by decide, by decide, by decide, by norm_num, by norm_num⟩
  · exact absurd hf (by decide)
  · exact absurd hf (by decide)

/-! Sticky bits: a magnitude v × 2^E is known by the integer below v and by whether v is that integer. -/

/-- A whole number of units of 2^E. -/
def OnGrid (E : Int) (c : ℚ) : Prop := ∃ j : Int, c = j * 2 ^ E

theorem onGrid_zpow {E k : Int} (h : E ≤ k) : OnGrid E (2 ^ k) := by
  have hs := zpow_scale 1 h
  rw [Nat.cast_one, one_mul] at hs
  exact ⟨((2 ^ (k - E).toNat : Nat) : Int), by rw [Int.cast_natCast]; simpa using hs.symm⟩

theorem onGrid_half {E q : Int} (h : E + 1 ≤ q) (j : Int) : OnGrid E (((j : ℚ) + 1 / 2) * 2 ^ q) := by
  obtain ⟨i, hi⟩ := onGrid_zpow (show E ≤ q - 1 by omega)
  refine ⟨(2 * j + 1) * i, ?_⟩
  have hq : (2 : ℚ) ^ q = 2 * 2 ^ (q - 1) := by rw [← zpow_one_add₀ two_ne_zero, add_sub_cancel]
  push_cast
  rw [hq, mul_assoc, ← hi]
  ring

/-- The value of a sticky magnitude. -/
def stickyValue (t : Nat) (inexact : Bool) (E : Int) : ℚ := ((2 * t + bit inexact : Nat) : ℚ) * 2 ^ (E - 1)

/-- A sticky magnitude stands to every whole number of units as the magnitude itself does. -/
theorem sticky_cut {t : Nat} {inexact : Bool} {E : Int} {v : ℝ} (hlo : (t : ℝ) ≤ v) (hhi : v < t + 1)
    (hin : inexact = true ↔ v ≠ t) {c : ℚ} (hc : OnGrid E c) :
    ((c : ℝ) ≤ v * 2 ^ E ↔ c ≤ stickyValue t inexact E) ∧ (v * 2 ^ E ≤ (c : ℝ) ↔ stickyValue t inexact E ≤ c) := by
  obtain ⟨j, rfl⟩ := hc
  have hposR : (0 : ℝ) < 2 ^ E := zpow_pos two_pos E
  have hvalue : stickyValue t inexact E = ((t : ℚ) + bit inexact / 2) * 2 ^ E := by
    rw [stickyValue, zpow_sub_one₀ two_ne_zero]
    push_cast
    ring
  rw [hvalue, mul_le_mul_iff_left₀ (two_zpow_pos E), mul_le_mul_iff_left₀ (two_zpow_pos E)]
  push_cast
  rw [mul_le_mul_iff_left₀ hposR, mul_le_mul_iff_left₀ hposR]
  cases inexact with
  | false =>
    have hv : v = t := by simpa using hin
    simp only [hv, bit, Bool.false_eq_true, if_false, Nat.cast_zero, zero_div, add_zero]
    norm_cast
  | true =>
    have hlt : (t : ℝ) < v := hlo.lt_of_ne' (hin.1 rfl)
    simp only [bit, if_true, Nat.cast_one]
    constructor
    · constructor
      · intro h
        have hj : j < (t : Int) + 1 := by exact_mod_cast h.trans_lt hhi
        have hj' : (j : ℚ) ≤ t := by exact_mod_cast Int.lt_add_one_iff.1 hj
        linarith
      · intro h
        have hj : (j : ℚ) < ((t : Int) + 1 : Int) := by
          push_cast
          linarith
        have hj' : (j : ℝ) ≤ t := by exact_mod_cast Int.lt_add_one_iff.1 (Int.cast_lt.1 hj)
        linarith
    · constructor
      · intro h
        have hj : (t : Int) < j := by exact_mod_cast hlt.trans_le h
        have hj' : (t : ℚ) + 1 ≤ j := by exact_mod_cast hj
        linarith
      · intro h
        have hj : ((t : Int) : ℚ) < j := by
          push_cast
          linarith
        have hj' : (t : ℝ) + 1 ≤ j := by exact_mod_cast Int.cast_lt.1 hj
        linarith

/-- A magnitude is correctly rounded by the rounding of a sticky magnitude that has more bits than the format. -/
theorem RowAgrees.nearest_of_sticky {r : Claims.Row97} (hr : RowAgrees r) (flush neg : Bool) {t : Nat} {inexact : Bool} {E : Int}
    {v : ℝ} {le ge : ℚ → Prop} (hle : ∀ a, le a ↔ (a : ℝ) ≤ v * 2 ^ E) (hge : ∀ a, ge a ↔ v * 2 ^ E ≤ (a : ℝ))
    (ht : 2 ^ (r.f.fb + 2) ≤ t) (hlo : (t : ℝ) ≤ v) (hhi : v < t + 1) (hin : inexact = true ↔ v ≠ t) :
    Claims.Nearest r flush neg le ge (r.f.round 0 false flush (sticky neg t inexact E)) := by
  have hcut {c : ℚ} (hc : OnGrid E c) := sticky_cut hlo hhi hin hc
  have hle' {c : ℚ} (hc : OnGrid E c) : le c ↔ c ≤ stickyValue t inexact E := (hle c).trans (hcut hc).1
  have hge' {c : ℚ} (hc : OnGrid E c) : ge c ↔ stickyValue t inexact E ≤ c := (hge c).trans (hcut hc).2
  have hTt : 2 ^ (r.f.fb + 3) ≤ 2 * t + bit inexact := by
    rw [pow_succ]
    omega
  have hT : 2 * t + bit inexact ≠ 0 := ((Nat.two_pow_pos _).trans_le hTt).ne'
  have hlog : r.f.fb + 3 ≤ Nat.log2 (2 * t + bit inexact) := (Nat.le_log2 hT).2 hTt
  obtain ⟨hk, hk'⟩ := log2_bounds hT (E - 1)
  have hplace := hr.place_ge flush ((Nat.log2 (2 * t + bit inexact) : Int) + (E - 1))
  generalize hq : r.place flush ((Nat.log2 (2 * t + bit inexact) : Int) + (E - 1)) = q at hplace
  have hgives := hr.round_gives 0 false flush neg (2 * t + bit inexact) (E - 1) q hT hq.symm
  have hround := (rounds_roundAt 0 neg (2 * t + bit inexact) (E - 1) q).1 rfl
  generalize roundAt 0 neg (2 * t + bit inexact) (E - 1) q = n at hgives hround
  obtain ⟨hnear, htie⟩ := hround
  have hscale : stickyValue t inexact E = ((2 * t + bit inexact : Nat) : ℚ) * 2 ^ (E - 1 - q) * 2 ^ q := by
    rw [stickyValue, mul_assoc, ← zpow_add₀ two_ne_zero, sub_add_cancel]
  generalize ((2 * t + bit inexact : Nat) : ℚ) * 2 ^ (E - 1 - q) = x at hnear htie hscale
  have hlower : OnGrid E (((n : ℚ) - 1 / 2) * 2 ^ q) := by
    have h := onGrid_half (show E + 1 ≤ q by omega) ((n : Int) - 1)
    rwa [show ((((n : Int) - 1 : Int) : ℚ) + 1 / 2) = (n : ℚ) - 1 / 2 by push_cast; ring] at h
  have hupper : OnGrid E (((n : ℚ) + 1 / 2) * 2 ^ q) := onGrid_half (show E + 1 ≤ q by omega) (n : Int)
  have hpos := two_zpow_pos q
  obtain ⟨h1, h2⟩ := abs_le.1 hnear
  refine ⟨_, q, n, (hle' (onGrid_zpow ?_)).2 hk, mt (hle' (onGrid_zpow ?_)).1 (not_le.2 hk'), hq.symm, (hle' hlower).2 ?_,
    (hge' hupper).2 ?_, fun hodd => ⟨mt (hge' hlower).1 ?_, mt (hle' hupper).1 ?_⟩, hgives⟩
  · omega
  · omega
  · rw [hscale]
    exact mul_le_mul_of_nonneg_right (by linarith) hpos.le
  · rw [hscale]
    exact mul_le_mul_of_nonneg_right (by linarith) hpos.le
  · rw [hscale, not_le]
    have hlt := hnear.lt_of_ne fun h => by have := htie h; omega
    exact mul_lt_mul_of_pos_right (by linarith [(abs_lt.1 hlt).2]) hpos
  · rw [hscale, not_le]
    have hlt := hnear.lt_of_ne fun h => by have := htie h; omega
    exact mul_lt_mul_of_pos_right (by linarith [(abs_lt.1 hlt).1]) hpos

/-! Reciprocals (R173). -/

theorem RowSpecial.nearest_rcp {r : Claims.Row97} (hr : RowSpecial r) (flush s : Bool) (m : Nat) (e : Int) (hm : m ≠ 0) :
    Claims.Nearest r flush s (fun a => a * (m * 2 ^ e) ≤ 1) (fun a => 1 ≤ a * (m * 2 ^ e))
      (r.f.round 0 false flush (rcpNum s m e)) := by
  have hmpos : 0 < m := Nat.pos_of_ne_zero hm
  have hx : (0 : ℚ) < m * 2 ^ e := mul_pos (by exact_mod_cast hmpos) (two_zpow_pos e)
  have hmR : (0 : ℝ) < m := by exact_mod_cast hmpos
  generalize hk : Nat.log2 m + 64 = k
  have hV : ((2 : ℝ) ^ k / m) * 2 ^ (-(k : Int) - e) = ((1 / (m * 2 ^ e) : ℚ) : ℝ) := by
    rw [zpow_sub₀ two_ne_zero, zpow_neg, zpow_natCast]
    push_cast
    field_simp
  have hfloor : (2 : ℝ) ^ k = m * ((2 ^ k / m : Nat) : ℝ) + ((2 ^ k % m : Nat) : ℝ) := by
    exact_mod_cast (Nat.div_add_mod (2 ^ k) m).symm
  have hmod : ((2 ^ k % m : Nat) : ℝ) < m := by exact_mod_cast Nat.mod_lt _ hmpos
  have hnonneg : (0 : ℝ) ≤ ((2 ^ k % m : Nat) : ℝ) := Nat.cast_nonneg _
  have hrcp : rcpNum s m e = sticky s (2 ^ k / m) (2 ^ k % m != 0) (-(k : Int) - e) := by
    rw [← hk]
    rfl
  rw [hrcp]
  refine hr.nearest_of_sticky flush s (v := 2 ^ k / m) (fun a => ?_) (fun a => ?_) ?_ ?_ ?_ ?_
  · rw [hV, Rat.cast_le, le_div_iff₀ hx]
  · rw [hV, Rat.cast_le, div_le_iff₀ hx]
  · rw [Nat.le_div_iff_mul_le hmpos, ← hk]
    calc 2 ^ (r.f.fb + 2) * m ≤ 2 ^ 25 * 2 ^ (Nat.log2 m + 1) :=
          Nat.mul_le_mul (Nat.pow_le_pow_right (by decide) (Nat.add_le_add_right hr.fb_le 2)) Nat.lt_log2_self.le
      _ = 2 ^ (25 + (Nat.log2 m + 1)) := (pow_add _ _ _).symm
      _ ≤ 2 ^ (Nat.log2 m + 64) := Nat.pow_le_pow_right (by decide) (by omega)
  · rw [le_div_iff₀ hmR, hfloor]
    linarith
  · rw [div_lt_iff₀ hmR, hfloor]
    linarith
  · rw [bne_iff_ne, ne_eq, ne_eq, div_eq_iff hmR.ne', hfloor, not_iff_not, mul_comm, add_eq_left, Nat.cast_eq_zero]

/-! Roots (R173). -/

/-- A number is at most, or at least, a nonnegative root as its square says. -/
theorem le_root_iff {V c a : ℝ} (hV : 0 ≤ V) (hc : V * V = c) : (a ≤ 0 ∨ a * a ≤ c) ↔ a ≤ V := by
  rw [← hc]
  constructor
  · rintro (h | h)
    · exact h.trans hV
    · exact le_of_not_gt fun hlt => absurd h (not_le.2 (mul_self_lt_mul_self hV hlt))
  · intro h
    rcases le_or_gt a 0 with h0 | h0
    · exact .inl h0
    · exact .inr (mul_self_le_mul_self h0.le h)

theorem root_le_iff {V c a : ℝ} (hV : 0 ≤ V) (hc : V * V = c) : (0 ≤ a ∧ c ≤ a * a) ↔ V ≤ a := by
  rw [← hc]
  constructor
  · rintro ⟨h0, h⟩
    exact le_of_not_gt fun hlt => absurd h (not_le.2 (mul_self_lt_mul_self h0 hlt))
  · intro h
    exact ⟨hV.trans h, mul_self_le_mul_self hV h⟩

/-- The significand that goes with an even exponent, and half of that exponent. -/
def evenSig (m : Nat) (e : Int) : Nat := if e % 2 = 0 then m else 2 * m
def evenHalf (e : Int) : Int := (if e % 2 = 0 then e else e - 1) / 2

theorem evenSig_ne_zero {m : Nat} (hm : m ≠ 0) (e : Int) : evenSig m e ≠ 0 := by
  rw [evenSig]
  split <;> omega

theorem evenSig_value (m : Nat) (e : Int) :
    (evenSig m e : ℝ) * (2 ^ evenHalf e * 2 ^ evenHalf e) = (((m : ℚ) * 2 ^ e : ℚ) : ℝ) := by
  rw [evenSig, evenHalf, ← zpow_add₀ two_ne_zero]
  push_cast
  split
  · rw [show e / 2 + e / 2 = e by omega]
  · rw [show (e - 1) / 2 + (e - 1) / 2 = e - 1 by omega, zpow_sub_one₀ two_ne_zero]
    ring

theorem two_zpow_mul_self (h : Int) (k : Nat) : ((2 : ℝ) ^ (h - k) * 2 ^ (h - k)) * 2 ^ (2 * k) = 2 ^ h * 2 ^ h := by
  rw [zpow_sub₀ two_ne_zero, zpow_natCast, two_mul, pow_add]
  field_simp

theorem RowSpecial.nearest_sqrt {r : Claims.Row97} (hr : RowSpecial r) (flush : Bool) (m : Nat) (e : Int) (hm : m ≠ 0) :
    Claims.Nearest r flush false (fun a => a ≤ 0 ∨ a * a ≤ m * 2 ^ e) (fun a => 0 ≤ a ∧ (m : ℚ) * 2 ^ e ≤ a * a)
      (r.f.round 0 false flush (sqrtNum m e)) := by
  have hnum : sqrtNum m e = sticky false (Nat.sqrt (evenSig m e * 2 ^ 128))
      (Nat.sqrt (evenSig m e * 2 ^ 128) * Nat.sqrt (evenSig m e * 2 ^ 128) != evenSig m e * 2 ^ 128)
      (evenHalf e - (64 : Nat)) := by
    rw [← sqrtN_eq]
    rfl
  have hsq : (√((evenSig m e * 2 ^ 128 : Nat) : ℝ) * 2 ^ (evenHalf e - (64 : Nat))) *
      (√((evenSig m e * 2 ^ 128 : Nat) : ℝ) * 2 ^ (evenHalf e - (64 : Nat))) = (((m : ℚ) * 2 ^ e : ℚ) : ℝ) := by
    rw [← evenSig_value, ← two_zpow_mul_self _ 64, mul_mul_mul_comm, Real.mul_self_sqrt (Nat.cast_nonneg _)]
    push_cast
    ring
  generalize hx : evenSig m e * 2 ^ 128 = x at hnum hsq
  have hnonneg : (0 : ℝ) ≤ √(x : ℝ) * 2 ^ (evenHalf e - (64 : Nat)) :=
    mul_nonneg (Real.sqrt_nonneg _) (zpow_pos two_pos _).le
  rw [hnum]
  refine hr.nearest_of_sticky flush false (v := √(x : ℝ)) (fun a => ?_) (fun a => ?_) ?_ Real.nat_sqrt_le_real_sqrt
    Real.real_sqrt_lt_nat_sqrt_succ ?_
  · rw [← le_root_iff hnonneg hsq]
    norm_cast
  · rw [← root_le_iff hnonneg hsq]
    norm_cast
  · rw [Nat.le_sqrt, ← pow_add, ← hx]
    have hpow : 2 ^ (r.f.fb + 2 + (r.f.fb + 2)) ≤ 2 ^ 128 := by
      have := hr.fb_le
      exact Nat.pow_le_pow_right (by decide) (by omega)
    exact hpow.trans (Nat.le_mul_of_pos_left _ (Nat.pos_of_ne_zero (evenSig_ne_zero hm e)))
  · rw [bne_iff_ne, ne_eq, ne_eq, not_iff_not, Real.sqrt_eq_iff_mul_self_eq (Nat.cast_nonneg _) (Nat.cast_nonneg _),
      eq_comm]
    norm_cast

/-- The floor of the root of a quotient, and when it is the root. -/
theorem sqrt_quotient (y d : Nat) (hd : 0 < d) : ((Nat.sqrt (y / d) : Nat) : ℝ) ≤ √((y : ℝ) / d) ∧
    √((y : ℝ) / d) < Nat.sqrt (y / d) + 1 ∧
    (Nat.sqrt (y / d) * Nat.sqrt (y / d) * d ≠ y ↔ √((y : ℝ) / d) ≠ Nat.sqrt (y / d)) := by
  have hdR : (0 : ℝ) < d := by exact_mod_cast hd
  have hquot : (0 : ℝ) ≤ (y : ℝ) / d := div_nonneg (Nat.cast_nonneg _) hdR.le
  have hle : Nat.sqrt (y / d) * Nat.sqrt (y / d) * d ≤ y := (Nat.le_div_iff_mul_le hd).1 (Nat.sqrt_le _)
  have hlt : y < (Nat.sqrt (y / d) + 1) * (Nat.sqrt (y / d) + 1) * d :=
    (Nat.div_lt_iff_lt_mul hd).1 (Nat.lt_succ_sqrt _)
  refine ⟨Real.le_sqrt_of_sq_le ?_, ?_, not_congr ?_⟩
  · rw [le_div_iff₀ hdR, sq]
    exact_mod_cast hle
  · rw [Real.sqrt_lt' (by positivity), div_lt_iff₀ hdR, sq]
    exact_mod_cast hlt
  · rw [Real.sqrt_eq_iff_mul_self_eq hquot (Nat.cast_nonneg _), div_eq_iff hdR.ne', eq_comm]
    norm_cast

theorem RowSpecial.nearest_rsq {r : Claims.Row97} (hr : RowSpecial r) (flush : Bool) (m : Nat) (e : Int) (hm : m ≠ 0) :
    Claims.Nearest r flush false (fun a => a ≤ 0 ∨ a * a * (m * 2 ^ e) ≤ 1) (fun a => 0 ≤ a ∧ 1 ≤ a * a * (m * 2 ^ e))
      (r.f.round 0 false flush (rsqNum m e)) := by
  have hx : (0 : ℚ) < m * 2 ^ e := mul_pos (by exact_mod_cast Nat.pos_of_ne_zero hm) (two_zpow_pos e)
  have hd : 0 < evenSig m e := Nat.pos_of_ne_zero (evenSig_ne_zero hm e)
  have hdR : (0 : ℝ) < evenSig m e := by exact_mod_cast hd
  generalize hk : Nat.log2 (evenSig m e) + 64 = k
  have hnum : rsqNum m e = sticky false (Nat.sqrt (2 ^ (2 * k) / evenSig m e))
      (Nat.sqrt (2 ^ (2 * k) / evenSig m e) * Nat.sqrt (2 ^ (2 * k) / evenSig m e) * evenSig m e != 2 ^ (2 * k))
      (-evenHalf e - k) := by
    rw [← sqrtN_eq, show -evenHalf e - (k : Int) = -(k : Int) - evenHalf e by ring, ← hk]
    rfl
  have hsq : (√(((2 ^ (2 * k) : Nat) : ℝ) / evenSig m e) * 2 ^ (-evenHalf e - k)) *
      (√(((2 ^ (2 * k) : Nat) : ℝ) / evenSig m e) * 2 ^ (-evenHalf e - k)) = ((1 / ((m : ℚ) * 2 ^ e) : ℚ) : ℝ) := by
    have hev := evenSig_value m e
    rw [mul_mul_mul_comm, Real.mul_self_sqrt (by positivity), Rat.cast_div, ← hev, Rat.cast_one]
    have hs := two_zpow_mul_self (-evenHalf e) k
    rw [zpow_neg] at hs
    rw [div_mul_eq_mul_div, div_eq_div_iff hdR.ne' (by positivity), one_mul]
    push_cast
    rw [mul_comm ((2 : ℝ) ^ (2 * k)), hs]
    field_simp
  have hnonneg : (0 : ℝ) ≤ √(((2 ^ (2 * k) : Nat) : ℝ) / evenSig m e) * 2 ^ (-evenHalf e - k) :=
    mul_nonneg (Real.sqrt_nonneg _) (zpow_pos two_pos _).le
  obtain ⟨hlo, hhi, hin⟩ := sqrt_quotient (2 ^ (2 * k)) (evenSig m e) hd
  rw [hnum]
  refine hr.nearest_of_sticky flush false (v := √(((2 ^ (2 * k) : Nat) : ℝ) / evenSig m e)) (fun a => ?_) (fun a => ?_) ?_
    hlo hhi (bne_iff_ne.trans hin)
  · rw [← le_root_iff hnonneg hsq, ← le_div_iff₀ hx]
    norm_cast
  · rw [← root_le_iff hnonneg hsq, ← div_le_iff₀ hx]
    norm_cast
  · rw [Nat.le_sqrt, ← pow_add, Nat.le_div_iff_mul_le hd]
    have hfb := hr.fb_le
    calc 2 ^ (r.f.fb + 2 + (r.f.fb + 2)) * evenSig m e ≤ 2 ^ 50 * 2 ^ (Nat.log2 (evenSig m e) + 1) :=
          Nat.mul_le_mul (Nat.pow_le_pow_right (by decide) (by omega)) Nat.lt_log2_self.le
      _ = 2 ^ (50 + (Nat.log2 (evenSig m e) + 1)) := (pow_add _ _ _).symm
      _ ≤ 2 ^ (2 * k) := Nat.pow_le_pow_right (by decide) (by omega)

end Sys2Proof.Machine
end

section
/-! PROOFS. Special functions: the listed values, and the points where the others are exact (R98, R102, R172, R173). -/

namespace Sys2Proof.Machine

/-! An exact value is rounded as it is (R172). -/

theorem SpecialFn.elt_of_exactly {g : SpecialFn} {f : Fmt} {flush : Bool} {o x : Nat} {X y : Num}
    (hX : f.operand flush x = X) (h : g.eval X = exactly y) : g.elt f flush o x = f.round 0 false flush y := by
  rw [SpecialFn.elt, hX, h]
  exact if_pos rfl

theorem SpecialFn.eval_fin (g : SpecialFn) (s : Bool) (m : Nat) (e : Int) (hm : m ≠ 0) : g.eval (.fin s m e) =
    match g with
    | .rcp => exactly (rcpNum s m e)
    | .rsq => exactly (if s then .nan else rsqNum m e)
    | .sqrt => exactly (if s then .nan else sqrtNum m e)
    | .exp2 => exp2Fn s m e
    | .log2 => if s then exactly .nan else log2Fn m e
    | .sint => sinFn s m e
    | .cost => cosFn s m e
    | .tanh => tanhFn s m e
    | .sigm => sigmFn s m e
    | .gelu => geluFn s m e :=
  if_neg hm

namespace RowSpecial

variable {r : Claims.Row97} (hr : RowSpecial r)
include hr

theorem round_infinity (flush s : Bool) : r.f.round 0 false flush (.inf s) = r.signed s r.infE :=
  (hr.round_inf 0 false flush s).trans (if_pos hr.infinite)

/-- A power of two in the format's normal range is itself. -/
theorem round_two_zpow (flush s : Bool) (i : Int) (hlo : 1 - (r.bias : Int) ≤ i) (hhi : i ≤ r.bias) :
    Claims.Encodes r.f (r.f.round 0 false flush (.fin s 1 i)) s (2 ^ i) := by
  have hplace : r.place flush ((Nat.log2 1 : Int) + i) ≤ i := by
    rw [hr.place_eq, hr.emin, show Nat.log2 1 = 0 by decide]
    split <;> omega
  have h := hr.round_exact 0 false flush s 1 i one_ne_zero hplace
  rw [Nat.cast_one, one_mul] at h
  exact h ((zpow_le_zpow_right₀ (by norm_num) hhi).trans hr.atLeast) (.inr (zpow_le_zpow_right₀ (by norm_num) hlo))

theorem round_one (flush s : Bool) : Claims.Encodes r.f (r.f.round 0 false flush (.fin s 1 0)) s 1 := by
  have hb := hr.fb_bias
  have h := hr.round_two_zpow flush s 0 (by omega) (by omega)
  rwa [zpow_zero] at h

theorem round_half (flush s : Bool) : Claims.Encodes r.f (r.f.round 0 false flush (.fin s 1 (-1))) s (1 / 2) := by
  have hb := hr.two_le
  have h := hr.round_two_zpow flush s (-1) (by omega) (by omega)
  rwa [zpow_neg_one, inv_eq_one_div] at h

/-- An integer of at most fb + 1 bits is itself. -/
theorem round_ofInt (flush : Bool) (i : Int) (hi : i.natAbs < 2 ^ (r.f.fb + 1)) :
    Claims.Encodes r.f (r.f.round 0 false flush (Num.ofInt i)) (decide (i < 0)) |(i : ℚ)| := by
  have hb := hr.fb_bias
  have habs : |(i : ℚ)| = i.natAbs := by rw [Nat.cast_natAbs, Int.cast_abs]
  rw [habs]
  by_cases h0 : i.natAbs = 0
  · obtain rfl := Int.natAbs_eq_zero.1 h0
    have h := hr.encodes_zero false
    rwa [← hr.round_zero 0 false flush false 0, ← Nat.cast_zero] at h
  · have hlog : Nat.log2 i.natAbs ≤ r.f.fb := Nat.lt_succ_iff.1 ((Nat.log2_lt h0).2 hi)
    have hplace : r.place flush ((Nat.log2 i.natAbs : Int) + 0) ≤ 0 := by
      rw [hr.place_eq, hr.emin]
      split <;> omega
    have h := hr.round_exact 0 false flush (decide (i < 0)) i.natAbs 0 h0 hplace
    rw [zpow_zero, mul_one] at h
    refine h ?_ (.inr ?_)
    · have hpow : (2 : ℚ) ^ ((r.f.fb + 1 : Nat) : Int) ≤ 2 ^ (r.bias : Int) :=
        zpow_le_zpow_right₀ (by norm_num) (by omega)
      have hlt : (i.natAbs : ℚ) < 2 ^ ((r.f.fb + 1 : Nat) : Int) := by
        rw [zpow_natCast]
        exact_mod_cast hi
      exact (hlt.trans_le hpow).le.trans hr.atLeast
    · have hpow : (2 : ℚ) ^ (1 - (r.bias : Int)) ≤ 2 ^ (0 : Int) := zpow_le_zpow_right₀ (by norm_num) (by omega)
      have hone : (1 : ℚ) ≤ i.natAbs := by exact_mod_cast Nat.pos_of_ne_zero h0
      rw [zpow_zero] at hpow
      exact hpow.trans hone

/-! The listed values (R173). -/

theorem special_inf (flush : Bool) (o x : Nat) (s : Bool) (g : SpecialFn) (hX : r.f.operand flush x = .inf s) :
    Claims.specialAt r g (.inf s) (g.elt r.f flush o x) := by
  cases g with
  | rcp => exact (SpecialFn.elt_of_exactly hX rfl).trans (hr.round_zero 0 false flush s 0)
  | rsq =>
    cases s with
    | false => exact (SpecialFn.elt_of_exactly hX rfl).trans (hr.round_zero 0 false flush false 0)
    | true => exact (SpecialFn.elt_of_exactly hX rfl).trans (hr.round_nan 0 false flush)
  | sqrt =>
    cases s with
    | false => exact (SpecialFn.elt_of_exactly hX rfl).trans (hr.round_infinity flush false)
    | true => exact (SpecialFn.elt_of_exactly hX rfl).trans (hr.round_nan 0 false flush)
  | exp2 =>
    cases s with
    | false => exact (SpecialFn.elt_of_exactly hX rfl).trans (hr.round_infinity flush false)
    | true => exact (SpecialFn.elt_of_exactly hX rfl).trans (hr.round_zero 0 false flush false 0)
  | log2 =>
    cases s with
    | false => exact (SpecialFn.elt_of_exactly hX rfl).trans (hr.round_infinity flush false)
    | true => exact (SpecialFn.elt_of_exactly hX rfl).trans (hr.round_nan 0 false flush)
  | sint => exact (SpecialFn.elt_of_exactly hX rfl).trans (hr.round_nan 0 false flush)
  | cost => exact (SpecialFn.elt_of_exactly hX rfl).trans (hr.round_nan 0 false flush)
  | tanh =>
    rw [SpecialFn.elt_of_exactly hX rfl]
    exact hr.round_one flush s
  | sigm =>
    cases s with
    | false =>
      rw [SpecialFn.elt_of_exactly hX rfl]
      exact hr.round_one flush false
    | true => exact (SpecialFn.elt_of_exactly hX rfl).trans (hr.round_zero 0 false flush false 0)
  | gelu =>
    cases s with
    | false => exact (SpecialFn.elt_of_exactly hX rfl).trans (hr.round_infinity flush false)
    | true => exact (SpecialFn.elt_of_exactly hX rfl).trans (hr.round_zero 0 false flush true 0)

theorem special_zero (flush : Bool) (o x : Nat) (s : Bool) (e : Int) (g : SpecialFn)
    (hX : r.f.operand flush x = .fin s 0 e) : Claims.specialAt r g (.fin s 0 e) (g.elt r.f flush o x) := by
  refine ⟨fun _ => ?_, fun h => absurd rfl h⟩
  cases g with
  | rcp => exact (SpecialFn.elt_of_exactly hX rfl).trans (hr.round_infinity flush s)
  | rsq => exact (SpecialFn.elt_of_exactly hX rfl).trans (hr.round_infinity flush s)
  | sqrt => exact (SpecialFn.elt_of_exactly hX rfl).trans (hr.round_zero 0 false flush s 0)
  | exp2 =>
    rw [SpecialFn.elt_of_exactly hX rfl]
    exact hr.round_one flush false
  | log2 => exact (SpecialFn.elt_of_exactly hX rfl).trans (hr.round_infinity flush true)
  | sint => exact (SpecialFn.elt_of_exactly hX rfl).trans (hr.round_zero 0 false flush s 0)
  | cost =>
    rw [SpecialFn.elt_of_exactly hX rfl]
    exact hr.round_one flush false
  | tanh => exact (SpecialFn.elt_of_exactly hX rfl).trans (hr.round_zero 0 false flush s 0)
  | sigm =>
    rw [SpecialFn.elt_of_exactly hX rfl]
    exact hr.round_half flush false
  | gelu => exact (SpecialFn.elt_of_exactly hX rfl).trans (hr.round_zero 0 false flush s 0)

/-- Roots and logarithms of negative numbers are NaNs. -/
theorem special_negative (flush : Bool) (o x : Nat) (m : Nat) (e : Int) (g : SpecialFn)
    (hX : r.f.operand flush x = .fin true m e) (hm : m ≠ 0) (hg : g = .rsq ∨ g = .sqrt ∨ g = .log2) :
    g.elt r.f flush o x = r.nanE := by
  have h : g.eval (.fin true m e) = exactly .nan := by
    rw [g.eval_fin true m e hm]
    rcases hg with rfl | rfl | rfl <;> rfl
  exact (SpecialFn.elt_of_exactly hX h).trans (hr.round_nan 0 false flush)

theorem special_values (flush : Bool) (o x : Nat) (g : SpecialFn) :
    Claims.specialAt r g (r.f.operand flush x) (g.elt r.f flush o x) := by
  generalize hX : r.f.operand flush x = X
  cases X with
  | nan =>
    have h : g.elt r.f flush o x = r.nanE := (SpecialFn.elt_of_exactly hX rfl).trans (hr.round_nan 0 false flush)
    cases g <;> exact h
  | inf s => exact hr.special_inf flush o x s g hX
  | fin s m e =>
    by_cases hm : m = 0
    · subst hm
      exact hr.special_zero flush o x s e g hX
    · have hvalues : (m ≠ 0 → s = true → (g = .rsq ∨ g = .sqrt ∨ g = .log2) → g.elt r.f flush o x = r.nanE) := by
        rintro - rfl hg
        exact hr.special_negative flush o x m e g hX hm hg
      cases g <;> exact ⟨fun h => absurd h hm, hvalues⟩

/-! Operands (R97, R102). -/

/-- A nonzero finite operand is the value of a finite encoding. -/
theorem operand_bounds (flush : Bool) (x : Nat) (hx : x < 2 ^ r.width) (s : Bool) (m : Nat) (e : Int)
    (hX : r.f.operand flush x = .fin s m e) (hm : m ≠ 0) :
    1 - (r.bias : Int) - r.f.fb ≤ e ∧ (m : ℚ) * 2 ^ e < 2 ^ ((r.bias : Int) + 1) := by
  have hdec : r.f.dec x = .fin s m e := by
    rw [Fmt.operand] at hX
    split at hX
    · rw [Num.fin.injEq] at hX
      exact absurd hX.2.1.symm hm
    · exact hX
  obtain ⟨a, ha, rfl, rfl⟩ := r.f.dec_eq_fin hr.eb x (hr.width ▸ hx) s m e hdec
  refine ⟨by rw [← hr.emin]; exact r.f.scale_ge a, ?_⟩
  rw [← r.f.mag_eq]
  refine lt_of_le_of_lt ?_ hr.below
  rw [← hr.largest, ← not_lt, r.f.mag_lt_iff, not_lt]
  exact ha

end RowSpecial

/-! Fixed point (R172). -/

/-- A fixed-point one, in quarters. -/
theorem one_quarters : ∃ u : Int, 0 < u ∧ one = 4 * u := by
  have hpow (k : Nat) : ((2 ^ (k + 2) : Nat) : Int) = 4 * ((2 ^ k : Nat) : Int) := by
    push_cast
    ring
  have hone := hpow (prec - 2)
  rw [show prec - 2 + 2 = prec from rfl] at hone
  exact ⟨_, Int.natCast_pos.2 (Nat.two_pow_pos (prec - 2)), hone⟩

theorem toFix_eq (s : Bool) (m : Nat) (e : Int) (he : -(prec : Int) ≤ e) : (toFix s m e : ℚ) = Claims.val s m e * one := by
  have hscale := zpow_scale m (q := -(prec : Int)) he
  rw [sub_neg_eq_add, zpow_neg, zpow_natCast] at hscale
  have hx : ((m * 2 ^ (e + prec).toNat : Nat) : ℚ) = m * 2 ^ e * one := by
    rw [← hscale, one]
    push_cast
    field_simp
  have hfix : toFix s m e = (if s then -1 else 1) * ((m * 2 ^ (e + prec).toNat : Nat) : Int) := by
    rw [toFix, if_pos (show 0 ≤ e + (prec : Int) by omega)]
    cases s <;> simp
  have hsign : (((if s then -1 else 1) : Int) : ℚ) = if s then -1 else 1 := by cases s <;> rfl
  rw [hfix, Int.cast_mul, Int.cast_natCast, hx, hsign, Claims.val]
  ring

theorem toFix_of_val (s : Bool) (m : Nat) (e : Int) (he : -(prec : Int) ≤ e) (i k : Int) (hval : k * Claims.val s m e = i) :
    k * toFix s m e = i * one := by
  have h : ((k * toFix s m e : Int) : ℚ) = ((i * one : Int) : ℚ) := by
    push_cast
    rw [toFix_eq s m e he, ← mul_assoc, hval]
  exact_mod_cast h

theorem val_of_nonneg (s : Bool) (m : Nat) (e : Int) (he : 0 ≤ e) : ∃ z : Int, Claims.val s m e = z := by
  obtain ⟨k, rfl⟩ := Int.eq_ofNat_of_zero_le he
  refine ⟨(if s then -1 else 1) * m * 2 ^ k, ?_⟩
  rw [Claims.val]
  cases s <;> simp

/-! Quarters of a turn (R173). -/

theorem sinTurns_quarter (x u k : Int) (hu : 0 < u) (hone : one = 4 * u) (hx : x = k * one + u) :
    sinTurns x = exactly (.fin false 1 0) := by
  have hq : x % one = u := by
    rw [hx, add_comm, Int.add_mul_emod_self_right, hone]
    exact Int.emod_eq_of_lt hu.le (by omega)
  rw [sinTurns, hq]
  simp only [if_pos (show 4 * u ≤ one by omega), if_pos (show 4 * u = one by omega)]

theorem sinTurns_three_quarters (x u k : Int) (hu : 0 < u) (hone : one = 4 * u) (hx : x = k * one + 3 * u) :
    sinTurns x = exactly (.fin true 1 0) := by
  have hq : x % one = 3 * u := by
    rw [hx, add_comm, Int.add_mul_emod_self_right, hone]
    exact Int.emod_eq_of_lt (by omega) (by omega)
  rw [sinTurns, hq]
  simp only [if_neg (show ¬ 4 * (3 * u) ≤ one by omega), if_pos (show 4 * (3 * u) ≤ 3 * one by omega),
    if_neg (show ¬ 4 * (one / 2 - 3 * u) = one by omega), if_pos (show 4 * (one / 2 - 3 * u) = -one by omega)]

/-- At integers and half-integers the sine is zero with x's sign. -/
theorem sinFn_halves (s : Bool) (m : Nat) (e : Int) (he : -(prec : Int) ≤ e) (i : Int)
    (hval : ((2 : Int) : ℚ) * Claims.val s m e = i) : sinFn s m e = exactly (.fin s 0 0) := by
  have hx := toFix_of_val s m e he i 2 hval
  rw [sinFn]
  exact if_pos (.inr (by rw [hx, Int.mul_emod_left]))

theorem cosFn_integers (s : Bool) (m : Nat) (e : Int) (he : -(prec : Int) ≤ e) (i : Int) (hval : Claims.val s m e = i) :
    cosFn s m e = exactly (.fin false 1 0) := by
  obtain ⟨u, hu, hone⟩ := one_quarters
  have hx := toFix_of_val s m e he i 1 (by rw [hval]; push_cast; ring)
  rw [one_mul] at hx
  rw [cosFn]
  by_cases h0 : 0 ≤ e
  · exact if_pos h0
  · have hzero : 2 * toFix s m e % one = 0 := by rw [hx, ← mul_assoc, Int.mul_emod_left]
    rw [if_neg h0]
    simp only [hzero, ne_eq, not_true_eq_false, false_and, if_false]
    refine sinTurns_quarter _ u i hu hone ?_
    rw [hx]
    omega

theorem cosFn_halves (s : Bool) (m : Nat) (e : Int) (he : -(prec : Int) ≤ e) (i : Int)
    (hval : Claims.val s m e = i + 1 / 2) : cosFn s m e = exactly (.fin true 1 0) := by
  obtain ⟨u, hu, hone⟩ := one_quarters
  have hx := toFix_of_val s m e he (2 * i + 1) 2 (by rw [hval]; push_cast; ring)
  have h0 : ¬ 0 ≤ e := by
    intro h
    obtain ⟨z, hz⟩ := val_of_nonneg s m e h
    have : (2 * z : Int) = 2 * i + 1 := by
      have hq : (2 : ℚ) * z = 2 * i + 1 := by rw [← hz, hval]; ring
      exact_mod_cast hq
    omega
  have hzero : 2 * toFix s m e % one = 0 := by rw [hx, Int.mul_emod_left]
  rw [cosFn, if_neg h0]
  simp only [hzero, ne_eq, not_true_eq_false, false_and, if_false]
  refine sinTurns_three_quarters _ u i hu hone ?_
  have hx' : toFix s m e = i * one + 2 * u := by
    have : (2 * i + 1) * one = 2 * (i * one) + one := by ring
    omega
  omega

theorem quarter_not_halves (s : Bool) (m : Nat) (e : Int) (he : -(prec : Int) ≤ e) (i : Int)
    (hval : Claims.val s m e = i / 2 + 1 / 4) : ¬ 0 ≤ e ∧ 4 * toFix s m e = (2 * i + 1) * one ∧
      2 * toFix s m e % one ≠ 0 := by
  obtain ⟨u, hu, hone⟩ := one_quarters
  have hx := toFix_of_val s m e he (2 * i + 1) 4 (by rw [hval]; push_cast; ring)
  refine ⟨fun h => ?_, hx, fun h => ?_⟩
  · obtain ⟨z, hz⟩ := val_of_nonneg s m e h
    have : (4 * z : Int) = 2 * i + 1 := by
      have hq : (4 : ℚ) * z = 2 * i + 1 := by rw [← hz, hval]; ring
      exact_mod_cast hq
    omega
  · have hx' : 2 * toFix s m e = 2 * u + i * one := by
      have : (2 * i + 1) * one = 2 * (i * one) + one := by ring
      omega
    rw [hx', Int.add_mul_emod_self_right, hone, Int.emod_eq_of_lt (by omega) (by omega)] at h
    omega

theorem cosFn_quarters (s : Bool) (m : Nat) (e : Int) (he : -(prec : Int) ≤ e) (i : Int)
    (hval : Claims.val s m e = i / 2 + 1 / 4) : cosFn s m e = exactly (.fin false 0 0) := by
  obtain ⟨h0, h4, h2⟩ := quarter_not_halves s m e he i hval
  rw [cosFn, if_neg h0]
  exact if_pos ⟨h2, by rw [h4, Int.mul_emod_left]⟩

theorem sinFn_quarters (s : Bool) (m : Nat) (e : Int) (he : -(prec : Int) ≤ e) (i : Int)
    (hval : Claims.val s m e = i / 2 + 1 / 4) : sinFn s m e = exactly (.fin (i % 2 != 0) 1 0) := by
  obtain ⟨u, hu, hone⟩ := one_quarters
  obtain ⟨h0, h4, h2⟩ := quarter_not_halves s m e he i hval
  rw [sinFn]
  simp only [if_neg (show ¬ (0 ≤ e ∨ 2 * toFix s m e % one = 0) from fun h => h.elim h0 h2)]
  rcases Int.emod_two_eq_zero_or_one i with hi | hi
  · obtain ⟨j, rfl⟩ := Int.dvd_of_emod_eq_zero hi
    have h : (2 * (2 * j) + 1) * one = 4 * (j * one) + one := by ring
    rw [hi]
    exact sinTurns_quarter _ u j hu hone (by omega)
  · obtain ⟨j, rfl⟩ : ∃ j, i = 2 * j + 1 := ⟨i / 2, by omega⟩
    have h : (2 * (2 * j + 1) + 1) * one = 4 * (j * one) + 3 * one := by ring
    rw [hi]
    exact sinTurns_three_quarters _ u j hu hone (by omega)

/-! Powers of two and their logarithms (R173). -/

theorem exp2Fn_integers (s : Bool) (m : Nat) (e : Int) (hm : m ≠ 0) (he : -(prec : Int) ≤ e) (i : Int)
    (hval : Claims.val s m e = i) (hi : |i| < 4096) : exp2Fn s m e = exactly (.fin false 1 i) := by
  have hx := toFix_of_val s m e he i 1 (by rw [hval]; push_cast; ring)
  rw [one_mul] at hx
  obtain ⟨u, hu, hone⟩ := one_quarters
  have hsmall : ¬ 12 ≤ (Nat.log2 m : Int) + e := by
    intro h
    have hlo := (log2_bounds hm e).1
    have hpow : (2 : ℚ) ^ (12 : Int) ≤ 2 ^ ((Nat.log2 m : Int) + e) := zpow_le_zpow_right₀ (by norm_num) h
    rw [← abs_val s m e, hval] at hlo
    have hlt : |(i : ℚ)| < 4096 := by exact_mod_cast hi
    have h12 : (2 : ℚ) ^ (12 : Int) = 4096 := by norm_num
    linarith
  have hdiv : i * one / one = i := Int.mul_ediv_cancel i (by omega)
  rw [exp2Fn, if_neg hsmall]
  simp only [hx, hdiv, sub_self, true_and, if_pos he]

theorem log2Fn_powers (m : Nat) (e i : Int) (hm : m ≠ 0) (hval : (m : ℚ) * 2 ^ e = 2 ^ i) :
    log2Fn m e = exactly (Num.ofInt i) := by
  obtain ⟨hlo, hhi⟩ := log2_bounds hm e
  rw [hval] at hlo hhi
  have h1 := (zpow_le_zpow_iff_right₀ (by norm_num : (1 : ℚ) < 2)).1 hlo
  have h2 := (zpow_lt_zpow_iff_right₀ (by norm_num : (1 : ℚ) < 2)).1 hhi
  have hi : (Nat.log2 m : Int) + e = i := by omega
  have hpow : m = 2 ^ Nat.log2 m := by
    rw [← hi, zpow_add₀ two_ne_zero, mul_left_inj' (two_zpow_pos e).ne', zpow_natCast] at hval
    exact_mod_cast hval
  rw [log2Fn]
  simp only [if_pos hpow, hi]

namespace RowSpecial

variable {r : Claims.Row97} (hr : RowSpecial r) (flush : Bool) (o x : Nat) (hx : x < 2 ^ r.width) (s : Bool) (m : Nat) (e : Int)
  (hX : r.f.operand flush x = .fin s m e) (hm : m ≠ 0)
include hr hx hX hm

theorem neg_prec_le : -(prec : Int) ≤ e := by
  obtain ⟨he, -⟩ := hr.operand_bounds flush x hx s m e hX hm
  have hfb := hr.fb_le
  have hbias := hr.bias_le
  rw [prec]
  omega

theorem at_integers (i : Int) (hval : Claims.val s m e = i) :
    (1 - (r.bias : Int) ≤ i → i ≤ r.bias → Claims.Encodes r.f (SpecialFn.exp2.elt r.f flush o x) false (2 ^ i)) ∧
    SpecialFn.sint.elt r.f flush o x = r.signed s 0 ∧ Claims.Encodes r.f (SpecialFn.cost.elt r.f flush o x) false 1 := by
  have he := hr.neg_prec_le flush x hx s m e hX hm
  refine ⟨fun hlo hhi => ?_, ?_, ?_⟩
  · have hbias := hr.bias_le
    have hexp := exp2Fn_integers s m e hm he i hval (abs_lt.2 ⟨by omega, by omega⟩)
    rw [SpecialFn.elt_of_exactly hX ((SpecialFn.eval_fin .exp2 s m e hm).trans hexp)]
    exact hr.round_two_zpow flush false i hlo hhi
  · have hsin := sinFn_halves s m e he (2 * i) (by rw [hval]; push_cast; ring)
    rw [SpecialFn.elt_of_exactly hX ((SpecialFn.eval_fin .sint s m e hm).trans hsin)]
    exact hr.round_zero 0 false flush s 0
  · have hcos := cosFn_integers s m e he i hval
    rw [SpecialFn.elt_of_exactly hX ((SpecialFn.eval_fin .cost s m e hm).trans hcos)]
    exact hr.round_one flush false

theorem at_half_integers (i : Int) (hval : Claims.val s m e = i + 1 / 2) :
    SpecialFn.sint.elt r.f flush o x = r.signed s 0 ∧ Claims.Encodes r.f (SpecialFn.cost.elt r.f flush o x) true 1 := by
  have he := hr.neg_prec_le flush x hx s m e hX hm
  refine ⟨?_, ?_⟩
  · have hsin := sinFn_halves s m e he (2 * i + 1) (by rw [hval]; push_cast; ring)
    rw [SpecialFn.elt_of_exactly hX ((SpecialFn.eval_fin .sint s m e hm).trans hsin)]
    exact hr.round_zero 0 false flush s 0
  · have hcos := cosFn_halves s m e he i hval
    rw [SpecialFn.elt_of_exactly hX ((SpecialFn.eval_fin .cost s m e hm).trans hcos)]
    exact hr.round_one flush true

theorem at_quarters (i : Int) (hval : Claims.val s m e = i / 2 + 1 / 4) : SpecialFn.cost.elt r.f flush o x = 0 ∧
    Claims.Encodes r.f (SpecialFn.sint.elt r.f flush o x) (i % 2 != 0) 1 := by
  have he := hr.neg_prec_le flush x hx s m e hX hm
  refine ⟨?_, ?_⟩
  · have hcos := cosFn_quarters s m e he i hval
    rw [SpecialFn.elt_of_exactly hX ((SpecialFn.eval_fin .cost s m e hm).trans hcos)]
    exact hr.round_zero 0 false flush false 0
  · have hsin := sinFn_quarters s m e he i hval
    rw [SpecialFn.elt_of_exactly hX ((SpecialFn.eval_fin .sint s m e hm).trans hsin)]
    exact hr.round_one flush (i % 2 != 0)

theorem at_powers (i : Int) (hval : Claims.val s m e = 2 ^ i) :
    Claims.Encodes r.f (SpecialFn.log2.elt r.f flush o x) (decide (i < 0)) |(i : ℚ)| := by
  obtain ⟨he, hlt⟩ := hr.operand_bounds flush x hx s m e hX hm
  have hs : s = false := by
    rw [← Bool.not_eq_true]
    rintro rfl
    have hpos : (0 : ℚ) ≤ m * 2 ^ e := mul_nonneg m.cast_nonneg (two_zpow_pos e).le
    have := two_zpow_pos i
    rw [Claims.val, if_pos rfl, mul_assoc] at hval
    linarith
  subst hs
  have hmag : (m : ℚ) * 2 ^ e = 2 ^ i := by
    rw [Claims.val, if_neg Bool.false_ne_true, one_mul] at hval
    exact hval
  have hlog := log2Fn_powers m e i hm hmag
  have hlo : e ≤ i := by
    have hone : (1 : ℚ) ≤ m := by exact_mod_cast Nat.pos_of_ne_zero hm
    have hle : (2 : ℚ) ^ e ≤ 2 ^ i := by
      rw [← hmag]
      exact le_mul_of_one_le_left (two_zpow_pos e).le hone
    exact (zpow_le_zpow_iff_right₀ (by norm_num : (1 : ℚ) < 2)).1 hle
  rw [hmag] at hlt
  have hhi := (zpow_lt_zpow_iff_right₀ (by norm_num : (1 : ℚ) < 2)).1 hlt
  rw [SpecialFn.elt_of_exactly hX ((SpecialFn.eval_fin .log2 false m e hm).trans hlog)]
  have hrange := hr.range
  exact hr.round_ofInt flush i (by omega)

end RowSpecial

/-- Settles O60: the listed values by the function's own table, reciprocals and roots by their sticky magnitudes, and the
exact points by the fixed point's quarters. -/
theorem specialFunctionValues : Obligations.SpecialFunctionValues := by
  intro r hmem hf flush o x hx
  have hr := table97_special r hmem hf
  refine ⟨hr.special_values flush o x, fun s m e hX hm => ⟨?_, fun hs => ⟨?_, ?_⟩, hr.at_integers flush o x hx s m e hX hm,
    hr.at_powers flush o x hx s m e hX hm, hr.at_half_integers flush o x hx s m e hX hm,
    hr.at_quarters flush o x hx s m e hX hm⟩⟩
  · rw [SpecialFn.elt_of_exactly hX (SpecialFn.eval_fin .rcp s m e hm)]
    exact hr.nearest_rcp flush s m e hm
  · subst hs
    rw [SpecialFn.elt_of_exactly hX (SpecialFn.eval_fin .rsq false m e hm)]
    exact hr.nearest_rsq flush m e hm
  · subst hs
    rw [SpecialFn.elt_of_exactly hX (SpecialFn.eval_fin .sqrt false m e hm)]
    exact hr.nearest_sqrt flush m e hm

end Sys2Proof.Machine
end

section
/-! PROOFS. Scalar results: register arithmetic, immediates, bit fields, compares, predicates and counts (R129 to R136). -/

namespace Sys2Proof.Machine

/-! Words by the operation they name. -/

theorem writesRR_congr {mk : SROp → Instr} {g f : Word → Word → Word} (h : ∀ a b, g a b = f a b)
    (hg : Claims.writesRR mk g) : Claims.writesRR mk f := funext₂ h ▸ hg

theorem writesRI_congr {mk : SIOp → Instr} {g f : Word → BitVec 6 → Word} (h : ∀ a i, g a i = f a i)
    (hg : Claims.writesRI mk g) : Claims.writesRI mk f := funext₂ h ▸ hg

theorem comparesRR_congr {mk : CmpOp → Instr} {g f : Word → Word → Bool} (h : ∀ a b, g a b = f a b)
    (hg : Claims.comparesRR mk g) : Claims.comparesRR mk f := funext₂ h ▸ hg

theorem comparesRI_congr {mk : CmpIOp → Instr} {g f : Word → BitVec 6 → Bool} (h : ∀ a i, g a i = f a i)
    (hg : Claims.comparesRI mk g) : Claims.comparesRI mk f := funext₂ h ▸ hg

/-! Results (R129, R130). -/

theorem mulh_eq (a b : Word) : mulh a b = ((a.signExtend 128 * b.signExtend 128) >>> 64).setWidth 64 := by
  have hprod : a.signExtend 128 * b.signExtend 128 = BitVec.ofInt 128 (a.toInt * b.toInt) := (BitVec.ofInt_mul ..).symm
  refine BitVec.eq_of_toNat_eq ?_
  rw [hprod, mulh]
  generalize a.toInt * b.toInt = p
  simp only [BitVec.toNat_ofInt, BitVec.toNat_setWidth, BitVec.toNat_ushiftRight, Nat.shiftRight_eq_div_pow]
  omega

theorem mulhu_eq (a b : Word) : mulhu a b = ((a.setWidth 128 * b.setWidth 128) >>> 64).setWidth 64 := by
  have ha := a.isLt
  have hb := b.isLt
  have hlt : a.toNat * b.toNat < 2 ^ 128 := by
    calc a.toNat * b.toNat < 2 ^ 64 * 2 ^ 64 := Nat.mul_lt_mul'' ha hb
      _ = 2 ^ 128 := by norm_num
  refine BitVec.eq_of_toNat_eq ?_
  simp only [mulhu, BitVec.toNat_ofNat, BitVec.toNat_setWidth, BitVec.toNat_ushiftRight, BitVec.toNat_mul,
    Nat.shiftRight_eq_div_pow]
  rw [Nat.mod_eq_of_lt (ha.trans (by norm_num)), Nat.mod_eq_of_lt (hb.trans (by norm_num)), Nat.mod_eq_of_lt hlt]

theorem divs_eq (a b : Word) : divs a b = if b = 0 then BitVec.allOnes 64 else a.sdiv b := by
  rw [divs]
  split
  · rfl
  · refine BitVec.eq_of_toInt_eq ?_
    rw [BitVec.toInt_ofInt, BitVec.toInt_sdiv]

theorem divu_eq (a b : Word) : divu a b = if b = 0 then BitVec.allOnes 64 else a / b := by
  rw [divu]
  split
  · rfl
  · rw [← BitVec.toNat_udiv, BitVec.ofNat_toNat, BitVec.setWidth_eq]

theorem remu_eq (a b : Word) : remu a b = if b = 0 then a else a % b := by
  rw [remu]
  split
  · rfl
  · rw [← BitVec.toNat_umod, BitVec.ofNat_toNat, BitVec.setWidth_eq]

theorem fld_zero {n : Nat} (x : BitVec n) (w : Nat) : fld x 0 w = x.toNat % 2 ^ w := by
  rw [fld, BitVec.extractLsb'_toNat, Nat.shiftRight_zero]

theorem rotateLeft_eq (a : Word) (n : Nat) (hn : n < 64) : a.rotateLeft n = a <<< n ||| a >>> (64 - n) := by
  rw [BitVec.rotateLeft, Nat.mod_eq_of_lt hn]
  rfl

theorem min_eq (a b : Word) : (if b.slt a then b else a) = if a.toInt ≤ b.toInt then a else b := by
  simp only [BitVec.slt_eq_decide, decide_eq_true_eq, ← Int.not_le, ite_not]

theorem max_eq (a b : Word) : (if a.slt b then b else a) = if b.toInt ≤ a.toInt then a else b := by
  simp only [BitVec.slt_eq_decide, decide_eq_true_eq, ← Int.not_le, ite_not]

theorem minn_eq (a b : Word) : (if b.ult a then b else a) = if a.toNat ≤ b.toNat then a else b := by
  simp only [BitVec.ult_eq_decide, decide_eq_true_eq, ← Nat.not_le, ite_not]

theorem maxn_eq (a b : Word) : (if a.ult b then b else a) = if b.toNat ≤ a.toNat then a else b := by
  simp only [BitVec.ult_eq_decide, decide_eq_true_eq, ← Nat.not_le, ite_not]

/-- Settles O2: the model's functions are the operations named, and the rest are what they say. -/
theorem scalarArithmetic : Obligations.ScalarArithmetic :=
  ⟨fun _ _ => rfl, fun _ _ => rfl, fun _ _ => rfl, writesRR_congr mulh_eq fun _ _ => rfl,
    writesRR_congr mulhu_eq fun _ _ => rfl, writesRR_congr divs_eq fun _ _ => rfl, writesRR_congr divu_eq fun _ _ => rfl,
    writesRR_congr remu_eq fun _ _ => rfl, fun _ _ => rfl, fun _ _ => rfl, fun _ _ => rfl, fun _ _ => rfl,
    writesRR_congr (fun a b => congrArg (a <<< ·) (fld_zero b 6)) fun _ _ => rfl,
    writesRR_congr (fun a b => congrArg (a >>> ·) (fld_zero b 6)) fun _ _ => rfl,
    writesRR_congr (fun a b => congrArg a.sshiftRight (fld_zero b 6)) fun _ _ => rfl,
    writesRR_congr (fun a b => (congrArg a.rotateLeft (fld_zero b 6)).trans
      (rotateLeft_eq a _ (Nat.mod_lt _ (by decide)))) fun _ _ => rfl,
    writesRR_congr min_eq fun _ _ => rfl, writesRR_congr max_eq fun _ _ => rfl, writesRR_congr minn_eq fun _ _ => rfl,
    writesRR_congr maxn_eq fun _ _ => rfl, fun _ _ => rfl, fun _ _ => rfl, fun _ _ => rfl⟩

/-- Settles O3: the extensions are those named, and a rotation left is two shifts. -/
theorem scalarImmediates : Obligations.ScalarImmediates :=
  ⟨fun _ _ => rfl, fun _ _ => rfl, fun _ _ => rfl, fun _ _ => rfl, fun _ _ => rfl, fun _ _ => rfl, fun _ _ => rfl,
    writesRI_congr (fun a i => rotateLeft_eq a _ i.isLt) fun _ _ => rfl⟩

/-! Compares (R134). -/

theorem toInt_sext6 (i : BitVec 6) : (sext6 i).toInt = i.toInt := BitVec.toInt_signExtend_of_le (by decide)
theorem toNat_zext6 (i : BitVec 6) : (zext6 i).toNat = i.toNat := BitVec.toNat_setWidth_of_le (by decide)

theorem condEq_eq (a b : Word) : condEq a b = decide (a = b) := Bool.beq_eq_decide_eq a b

theorem condNe_eq (a b : Word) : condNe a b = decide (a ≠ b) := by
  rw [condNe, decide_not]
  rfl

theorem condLt_eq (a b : Word) : condLt a b = decide (a.toInt < b.toInt) := BitVec.slt_eq_decide
theorem condLe_eq (a b : Word) : condLe a b = decide (a.toInt ≤ b.toInt) := BitVec.sle_eq_decide
theorem condLtn_eq (a b : Word) : condLtn a b = decide (a.toNat < b.toNat) := BitVec.ult_eq_decide
theorem condLen_eq (a b : Word) : condLen a b = decide (a.toNat ≤ b.toNat) := BitVec.ule_eq_decide

theorem condLt_sext6 (a : Word) (i : BitVec 6) : condLt a (sext6 i) = decide (a.toInt < i.toInt) := by
  rw [condLt_eq, toInt_sext6]

theorem condGe_sext6 (a : Word) (i : BitVec 6) : condGe a (sext6 i) = decide (i.toInt ≤ a.toInt) := by
  rw [condGe, BitVec.sle_eq_decide, toInt_sext6]

theorem condLtn_zext6 (a : Word) (i : BitVec 6) : condLtn a (zext6 i) = decide (a.toNat < i.toNat) := by
  rw [condLtn_eq, toNat_zext6]

theorem condGen_zext6 (a : Word) (i : BitVec 6) : condGen a (zext6 i) = decide (i.toNat ≤ a.toNat) := by
  rw [condGen, BitVec.ule_eq_decide, toNat_zext6]

/-- A write of p0 is discarded; a write of another predicate is read back. -/
theorem State.wrP_reads (s : State) (b : Bool) (pd : BitVec 6) : s.wrP 0 b = s ∧
    (pd ≠ 0 → pd.toNat < 48 → (s.wrP pd b).core.r.p.getLsbD pd.toNat = b) := by
  refine ⟨congrArg (fun r => s.onRegs fun _ => r) (if_pos rfl), fun hpd hlt => ?_⟩
  rw [State.wrP, State.onRegs_core_r, Regs.setP, if_neg hpd, getLsbD_setFld_one _ _ _ _ hlt, if_pos rfl]

/-- Settles O5: each condition is the comparison named, and a predicate written reads as written. -/
theorem compares : Obligations.Compares :=
  ⟨comparesRR_congr condEq_eq fun _ _ => rfl, comparesRR_congr condNe_eq fun _ _ => rfl,
    comparesRR_congr condLt_eq fun _ _ => rfl, comparesRR_congr condLe_eq fun _ _ => rfl,
    comparesRR_congr condLtn_eq fun _ _ => rfl, comparesRR_congr condLen_eq fun _ _ => rfl,
    comparesRI_congr (fun a i => condEq_eq a (sext6 i)) fun _ _ => rfl,
    comparesRI_congr (fun a i => condNe_eq a (sext6 i)) fun _ _ => rfl, comparesRI_congr condLt_sext6 fun _ _ => rfl,
    comparesRI_congr condGe_sext6 fun _ _ => rfl, comparesRI_congr condLtn_zext6 fun _ _ => rfl,
    comparesRI_congr condGen_zext6 fun _ _ => rfl, State.wrP_reads⟩

end Sys2Proof.Machine
end

section
/-! PROOFS. Bit fields, counts, and the words of predicates (R129, R132, R133, R135, R136). -/

namespace Sys2Proof.Machine

/-! Bit fields (R132). -/

theorem getLsbD_fieldMask (b : Word) (i : Nat) (hi : i < 64) : (fieldMask b).getLsbD i = decide (i ≤ fld b 8 6) := by
  rw [fieldMask, BitVec.getLsbD_ofNat, decide_eq_true hi, Nat.testBit_two_pow_sub_one, Bool.true_and]
  exact decide_eq_decide.2 Nat.lt_succ_iff

theorem getLsbD_bextOf (a b : Word) (i : Nat) (hi : i < 64) :
    (bextOf a b).getLsbD i = (decide (i ≤ fld b 8 6) && a.getLsbD (fld b 0 6 + i)) := by
  rw [bextOf, BitVec.getLsbD_and, BitVec.getLsbD_ushiftRight, getLsbD_fieldMask b i hi, Bool.and_comm]

theorem getLsbD_binsOf (d a b : Word) (i : Nat) (hi : i < 64) : (binsOf d a b).getLsbD i =
    if fld b 0 6 ≤ i ∧ i ≤ fld b 0 6 + fld b 8 6 then a.getLsbD (i - fld b 0 6) else d.getLsbD i := by
  have hmask : (fieldMask b <<< fld b 0 6).getLsbD i = decide (fld b 0 6 ≤ i ∧ i ≤ fld b 0 6 + fld b 8 6) := by
    rw [BitVec.getLsbD_shiftLeft, getLsbD_fieldMask b _ (by omega), decide_eq_true hi, Bool.true_and, ← decide_not,
      ← Bool.decide_and]
    exact decide_eq_decide.2 (by omega)
  simp only [binsOf, BitVec.getLsbD_or, BitVec.getLsbD_and, BitVec.getLsbD_not, hmask, BitVec.getLsbD_shiftLeft,
    decide_eq_true hi, Bool.true_and]
  by_cases h : fld b 0 6 ≤ i ∧ i ≤ fld b 0 6 + fld b 8 6
  · have hpos : ¬ i < fld b 0 6 := by omega
    simp [h, hpos]
  · simp [h]

/-- Settles O4: each bit of the field's mask, and of what it selects. -/
theorem bitFields : Obligations.BitFields :=
  ⟨fun _ _ => ⟨_, rfl, fun i hi => getLsbD_bextOf _ _ i hi⟩, fun _ _ => ⟨_, rfl, fun i hi => getLsbD_binsOf _ _ _ i hi⟩⟩

/-! Counts (R129). -/

/-- The leading zeros of a word are zero bits, and below them stands its highest one. -/
theorem clz64_spec (a : Word) : clz64 a ≤ 64 ∧ (∀ i, 64 - clz64 a ≤ i → a.getLsbD i = false) ∧
    (clz64 a < 64 → a.getLsbD (63 - clz64 a) = true) := by
  by_cases ha : a = 0
  · subst ha
    exact ⟨by decide, fun i _ => BitVec.getLsbD_zero, fun h => absurd h (by decide)⟩
  · have hne : a.toNat ≠ 0 := fun h => ha (BitVec.eq_of_toNat_eq h)
    have hlog : a.toNat.log2 < 64 := (Nat.log2_lt hne).2 a.isLt
    have hclz : clz64 a = 63 - a.toNat.log2 := if_neg ha
    refine ⟨by omega, fun i hi => ?_, fun _ => ?_⟩
    · exact Nat.testBit_lt_two_pow ((Nat.log2_lt hne).1 (by omega))
    · rw [hclz, show 63 - (63 - a.toNat.log2) = a.toNat.log2 by omega]
      exact Nat.testBit_log2 hne

theorem popc_eq (n x : Nat) : popc n x = (List.range n).countP x.testBit := by
  induction n with
  | zero => rfl
  | succ n ih =>
    have hstep : popc (n + 1) x = popc n x + x / 2 ^ n % 2 := by
      rw [popc, List.range_succ, List.foldl_append]
      rfl
    rw [hstep, ih, List.range_succ, List.countP_append, List.countP_singleton, Nat.testBit_eq_decide_div_mod_eq]
    rcases Nat.mod_two_eq_zero_or_one (x / 2 ^ n) with h | h <;> simp [h]

/-! Predicates as bits of a word (R136). -/

/-- The bits of a sum of distinct powers of two. -/
theorem testBit_bitSum (f : Nat → Bool) (n : Nat) :
    (List.range n).foldl (fun m i => m + bit (f i) * 2 ^ i) 0 < 2 ^ n ∧
      ∀ i, ((List.range n).foldl (fun m i => m + bit (f i) * 2 ^ i) 0).testBit i = (decide (i < n) && f i) := by
  induction n with
  | zero => exact ⟨Nat.one_pos, fun i => by simp⟩
  | succ n ih =>
    obtain ⟨hlt, hbits⟩ := ih
    simp only [List.range_succ, List.foldl_append, List.foldl_cons, List.foldl_nil]
    cases hf : f n
    · rw [show bit false = 0 from rfl, Nat.zero_mul, Nat.add_zero]
      refine ⟨hlt.trans (Nat.pow_lt_pow_right (by decide) n.lt_succ_self), fun i => ?_⟩
      rw [hbits]
      by_cases hi : i = n
      · simp [hi, hf]
      · simp [show i < n + 1 ↔ i < n by omega]
    · rw [show bit true = 1 from rfl, Nat.one_mul]
      refine ⟨by rw [Nat.pow_succ]; omega, fun i => ?_⟩
      rw [testBit_add_two_pow _ _ _ hlt, hbits]
      by_cases hi : i = n
      · simp [hi, hf]
      · simp [show i < n + 1 ↔ i < n by omega, show n ≠ i from fun h => hi h.symm]

/-- PSET leaves bit 0 and takes the others from the word. -/
theorem getLsbD_psetBits (a : Word) (p : BitVec 48) (i : Nat) (hi : i < 48) :
    (a.setWidth 48 &&& ~~~1#48 ||| p &&& 1#48).getLsbD i = if i = 0 then p.getLsbD 0 else a.getLsbD i := by
  rw [BitVec.getLsbD_or, BitVec.getLsbD_and, BitVec.getLsbD_and, BitVec.getLsbD_not, BitVec.getLsbD_one,
    BitVec.getLsbD_setWidth]
  by_cases h : i = 0
  · simp [h]
  · simp [h, hi]

/-- Settles O6: the counts by the word's bits, SEL's guard as a selector, and p1 to p47 as bits of a word. -/
theorem predicatesAndCounts : Obligations.PredicatesAndCounts := by
  refine ⟨fun o s => ⟨_, rfl, clz64_spec (s.rdS o.ra)⟩, fun o s => ?_, fun _ _ => rfl, fun _ _ => rfl, fun _ _ => rfl,
    fun _ _ => rfl, fun _ _ => rfl, fun o s => ⟨_, rfl, fun i hi => ?_⟩,
    fun o s => ⟨_, rfl, fun i hi => getLsbD_psetBits _ _ i hi⟩⟩
  · rw [show (fun i => (s.rdS o.ra).getLsbD i) = (s.rdS o.ra).toNat.testBit from rfl, ← popc_eq]
    rfl
  · obtain ⟨-, hbits⟩ := testBit_bitSum (fun i => s.rdP (BitVec.ofNat 6 i)) 48
    rw [BitVec.getLsbD_ofNat, hbits, decide_eq_true hi, Bool.true_and]

end Sys2Proof.Machine
end

section
/-! PROOFS. What moves PC, and what arms, repeats and leaves the loops (R137 to R141). -/

namespace Sys2Proof.Machine

/-! Targets (R55, R63). -/

theorem branchTarget_eq (x : Word) (d : BitVec 18) : branchTarget x d = x + 32#64 * d.signExtend 64 := by
  rw [branchTarget, BitVec.shiftLeft_eq_mul_twoPow, BitVec.mul_comm]
  rfl

theorem toPc_eq (a : Word) : toPc a = a >>> 5 <<< 5 := by
  refine BitVec.eq_of_getLsbD_eq fun i hi => ?_
  have hlow : (31#64).getLsbD i = decide (i < 5) := by
    rw [BitVec.getLsbD_ofNat, decide_eq_true hi, Bool.true_and]
    exact Nat.testBit_two_pow_sub_one 5 i
  rw [toPc, BitVec.getLsbD_and, BitVec.getLsbD_not, hlow, BitVec.getLsbD_shiftLeft, BitVec.getLsbD_ushiftRight]
  by_cases h : i < 5
  · simp [h]
  · simp [h, hi, show 5 + (i - 5) = i by omega]

/-! LBRK (R141). -/

/-- The body of loop `x` lies within that of loop `l`. -/
abbrev Lc.Around (l x : Lc) : Prop :=
  l.start.toNat ≤ x.start.toNat ∧ x.start.toNat ≤ l.stop.toNat ∧ l.start.toNat ≤ x.stop.toNat ∧ x.stop.toNat ≤ l.stop.toNat

/-- What LBRK does: nothing but the jump where its loop is not armed, and the end of the loops inside it where it is. -/
theorem exec_lbrk_disarmed (o : LcOp) (s : State) (h : (s.core.iss.lc[o.lc.toNat]'o.lc.isLt).count = 0) :
    Claims.Runs (.lbrk o) o.h s (s.noteNext (.jump (s.core.pc + 32))) :=
  congrArg (fun u => Host.Outcome.next (State.arriveNow (if s.rdP o.h.g = true then u else s) o.h.a)) (if_pos h)

theorem exec_lbrk_armed (o : LcOp) (s : State) (l : Lc) (hl : l = s.core.iss.lc[o.lc.toNat]'o.lc.isLt) (h : l.count ≠ 0) :
    ∃ lc : Vector Lc 4,
      Claims.Runs (.lbrk o) o.h s ((s.onRegs fun r => { r with lc := lc }).noteNext (.jump (l.stop + 32))) ∧
      ∀ (i : Nat) (h : i < 4),
        lc[i] = if i = o.lc.toNat ∨ (s.core.iss.lc[i].count ≠ 0 ∧ l.Around s.core.iss.lc[i])
          then { s.core.r.lc[i] with count := 0 } else s.core.r.lc[i] := by
  subst hl
  refine ⟨_, congrArg (fun u => Host.Outcome.next (State.arriveNow (if s.rdP o.h.g = true then u else s) o.h.a))
    (if_neg h), fun i hi => ?_⟩
  have hsome : s.core.iss.lc.toArray[i]? = some s.core.iss.lc[i] := by
    rw [Array.getElem?_eq_getElem (by simpa using hi)]
    rfl
  rw [Vector.getElem_mapFinIdx]
  simp only [hsome, Option.any_some, Bool.and_eq_true, bne_iff_ne, decide_eq_true_eq]

theorem controlTransfers : Claims.ControlTransfers := by
  refine ⟨fun o s => ?_, fun o s => ?_, fun o s => ?_, fun o s => ?_, fun o s n hn => ?_, fun o s n hn => ?_,
    fun o s l hl => ⟨fun h => exec_lbrk_disarmed o s (hl ▸ h), exec_lbrk_armed o s l hl⟩⟩
  · rw [← branchTarget_eq]
    rfl
  · rw [← branchTarget_eq]
    rfl
  · rw [← toPc_eq]
    rfl
  · rw [← toPc_eq]
    rfl
  · subst hn
    rfl
  · subst hn
    rfl

/-! The loops that end at a bundle (R140). -/

/-- The loop numbered i, as `loopBack` reads it. -/
abbrev loopAt (lc : Vector Lc 4) (i : Nat) : Lc := lc.getD i { count := 0, start := 0, stop := 0 }

/-- The order of the loops that end at one bundle: a loop of a higher START, or of an equal one and the higher number, goes
first. -/
abbrev loopFirst (lc : Vector Lc 4) (i j : Nat) : Prop :=
  (loopAt lc j).start.toNat < (loopAt lc i).start.toNat ∨ ((loopAt lc i).start = (loopAt lc j).start ∧ j ≤ i)

theorem Vector.getD_fin {α : Type} {n : Nat} (v : Vector α n) (i : Fin n) (d : α) : v.getD i d = v[i] := by
  simp [Vector.getD]

theorem mem_loopsAt (lc : Vector Lc 4) (x : Word) (n : Nat) :
    n ∈ loopsAt lc x ↔ ∃ i : Fin 4, i.val = n ∧ lc[i].count ≠ 0 ∧ lc[i].stop = x := by
  rw [loopsAt, List.mem_insertionSort, List.mem_filter, List.mem_range]
  constructor
  · rintro ⟨hn, h⟩
    refine ⟨⟨n, hn⟩, rfl, ?_⟩
    rw [← Vector.getD_fin lc ⟨n, hn⟩ { count := 0, start := 0, stop := 0 }]
    simpa using h
  · rintro ⟨i, rfl, h⟩
    refine ⟨i.isLt, ?_⟩
    rw [Vector.getD_fin]
    simpa using h

theorem loopsAt_nodup (lc : Vector Lc 4) (x : Word) : (loopsAt lc x).Nodup :=
  (List.perm_insertionSort _ _).nodup_iff.2 (List.nodup_range.filter _)

theorem loopsAt_sorted (lc : Vector Lc 4) (x : Word) : (loopsAt lc x).Pairwise (loopFirst lc) := by
  have htotal : Std.Total (loopFirst lc) := ⟨fun i j => by
    simp only [loopFirst, ← BitVec.toNat_inj]
    omega⟩
  have htrans : IsTrans Nat (loopFirst lc) := ⟨fun i j k => by
    simp only [loopFirst, ← BitVec.toNat_inj]
    omega⟩
  exact List.pairwise_insertionSort (loopFirst lc) _

/-! Loop-back (R140). -/

/-- The counters with the loops of a list ended. -/
def endLoops (old : Vector Lc 4) (l : List Nat) (lc : Vector Lc 4) : Vector Lc 4 :=
  l.foldl (fun lc i => lc.setIfInBounds i { loopAt old i with count := 0 }) lc

theorem endLoops_getElem (old : Vector Lc 4) (l : List Nat) (lc : Vector Lc 4) (j : Fin 4) :
    (endLoops old l lc)[j] = if j.val ∈ l then { old[j] with count := 0 } else lc[j] := by
  induction l generalizing lc with
  | nil => rfl
  | cons i l ih =>
    have hset : (lc.setIfInBounds i { loopAt old i with count := 0 })[j] =
        if i = j.val then { old[j] with count := 0 } else lc[j] := by
      rw [Fin.getElem_fin, Vector.getElem_setIfInBounds]
      split
      · next h => rw [h, loopAt, Vector.getD_fin]
      · rfl
    rw [show endLoops old (i :: l) lc = endLoops old l (lc.setIfInBounds i { loopAt old i with count := 0 }) from rfl, ih,
      hset]
    by_cases hj : j.val ∈ l
    · rw [if_pos hj, if_pos (List.mem_cons_of_mem _ hj)]
    · by_cases hi : i = j.val
      · rw [if_neg hj, if_pos hi, if_pos (hi ▸ List.mem_cons_self)]
      · rw [if_neg hj, if_neg hi, if_neg fun h => (List.mem_cons.1 h).elim (fun h => hi h.symm) hj]

/-- Loops each in its last iteration end, and the loops behind them decide. -/
theorem loopBack_append (old : Vector Lc 4) (x : Word) (pre l : List Nat) (lc : Vector Lc 4)
    (h : ∀ i ∈ pre, (loopAt old i).count = 1) : loopBack old x (pre ++ l) lc = loopBack old x l (endLoops old pre lc) := by
  induction pre generalizing lc with
  | nil => rfl
  | cons i pre ih =>
    have hone : ¬ 1 < (loopAt old i).count.toNat := by
      rw [h i List.mem_cons_self]
      decide
    rw [List.cons_append, loopBack, if_neg hone, ih _ fun k hk => h k (List.mem_cons_of_mem _ hk)]
    rfl

theorem loopBack_repeats (old : Vector Lc 4) (x : Word) (l : List Nat) (lc : Vector Lc 4) (i : Fin 4)
    (h0 : old[i].count ≠ 0) (h1 : old[i].count ≠ 1) : loopBack old x (i.val :: l) lc =
      (lc.setIfInBounds i { old[i] with count := old[i].count - 1 }, old[i].start) := by
  have hmany : 1 < (old[i].count).toNat := by
    rw [ne_eq, ← BitVec.toNat_inj] at h0 h1
    simp only [BitVec.ofNat_eq_ofNat, BitVec.toNat_ofNat] at h0 h1
    omega
  rw [loopBack, Vector.getD_fin]
  exact if_pos hmany

theorem mem_loopsAt_iff (s : State) (old : Vector Lc 4) (j : Fin 4) :
    j.val ∈ loopsAt old s.core.pc ↔ Claims.EndsHere s old j := by
  rw [mem_loopsAt]
  exact ⟨fun ⟨i, hi, h⟩ => Fin.ext hi ▸ h, fun h => ⟨j, rfl, h⟩⟩

/-- The loops that go before one of those that end at a bundle are those inside it. -/
theorem mem_before_iff (s : State) (old : Vector Lc 4) (i j : Fin 4) (pre post : List Nat)
    (hl : loopsAt old s.core.pc = pre ++ i.val :: post) :
    j.val ∈ pre ↔ Claims.EndsHere s old j ∧ Claims.Inside old j i := by
  have hsorted := loopsAt_sorted old s.core.pc
  have hnodup := loopsAt_nodup old s.core.pc
  rw [hl, List.pairwise_append, List.pairwise_cons] at hsorted
  rw [hl, List.nodup_append, List.nodup_cons] at hnodup
  obtain ⟨-, ⟨hpost, -⟩, hpre⟩ := hsorted
  obtain ⟨-, -, hne⟩ := hnodup
  rw [← mem_loopsAt_iff, hl, List.mem_append, List.mem_cons]
  constructor
  · intro hj
    refine ⟨.inl hj, ?_⟩
    have hfirst := hpre j.val hj i.val List.mem_cons_self
    have hji : j.val ≠ i.val := hne j.val hj i.val List.mem_cons_self
    simp only [loopFirst, Vector.getD_fin] at hfirst
    refine hfirst.imp_right fun ⟨hstart, hle⟩ => ⟨hstart, ?_⟩
    exact Fin.lt_def.2 (by omega)
  · rintro ⟨hj | hj | hj, hin⟩
    · exact hj
    · obtain rfl := Fin.ext hj
      simp [Claims.Inside] at hin
    · have hfirst := hpost j.val hj
      simp only [loopFirst, Vector.getD_fin, ← BitVec.toNat_inj] at hfirst
      simp only [Claims.Inside, ← BitVec.toNat_inj, Fin.lt_def] at hin
      omega

/-! The next PC (R137). -/

theorem State.commitBundle_falls (s : State) (old : Vector Lc 4) (h : s.core.note = .none) :
    (s.commitBundle old).core.pc = (loopBack old s.core.pc (loopsAt old s.core.pc) s.core.r.lc).2 ∧
    (s.commitBundle old).core.r =
      { s.core.r with lc := (loopBack old s.core.pc (loopsAt old s.core.pc) s.core.r.lc).1 } := by
  rw [State.commitBundle, State.onCore_core, Core.advance, h]
  exact ⟨rfl, rfl⟩

theorem State.commitBundle_noLoop (s : State) (old : Vector Lc 4) (h : s.core.note = .none)
    (hno : ∀ (i : Nat) (h : i < 4), old[i].count = 0 ∨ old[i].stop ≠ s.core.pc) :
    (s.commitBundle old).core.pc = s.core.pc + 32 ∧ (s.commitBundle old).core.r = s.core.r := by
  have hnil : loopsAt old s.core.pc = [] := by
    refine List.eq_nil_iff_forall_not_mem.2 fun n hn => ?_
    obtain ⟨i, -, hcount, hstop⟩ := (mem_loopsAt _ _ _).1 hn
    exact (hno i.val i.isLt).elim hcount fun hne => hne hstop
  obtain ⟨hpc, hr⟩ := s.commitBundle_falls old h
  rw [hpc, hr, hnil]
  exact ⟨rfl, rfl⟩

theorem State.commitBundle_repeats (s : State) (old : Vector Lc 4) (h : s.core.note = .none) (i : Fin 4)
    (hi : Claims.EndsHere s old i) (hmany : old[i].count ≠ 1)
    (hlast : ∀ j : Fin 4, Claims.EndsHere s old j → Claims.Inside old j i → old[j].count = 1) :
    (s.commitBundle old).core.pc = old[i].start ∧
    (s.commitBundle old).core.r.lc[i] = { old[i] with count := old[i].count - 1 } ∧
    ∀ j : Fin 4, j ≠ i →
      (Claims.EndsHere s old j → Claims.Inside old j i →
        (s.commitBundle old).core.r.lc[j] = { old[j] with count := 0 }) ∧
      (¬(Claims.EndsHere s old j ∧ Claims.Inside old j i) → (s.commitBundle old).core.r.lc[j] = s.core.r.lc[j]) := by
  obtain ⟨pre, post, hl⟩ := List.append_of_mem ((mem_loopsAt_iff s old i).2 hi)
  have hpre (j : Fin 4) := mem_before_iff s old i j pre post hl
  have hone : ∀ n ∈ pre, (loopAt old n).count = 1 := by
    intro n hn
    obtain ⟨j, rfl, -⟩ := (mem_loopsAt old s.core.pc n).1 (hl ▸ List.mem_append_left _ hn)
    obtain ⟨hends, hin⟩ := (hpre j).1 hn
    rw [loopAt, Vector.getD_fin]
    exact hlast j hends hin
  obtain ⟨hpc, hr⟩ := s.commitBundle_falls old h
  rw [hpc, hr, hl, loopBack_append _ _ _ _ _ hone, loopBack_repeats _ _ _ _ _ hi.1 hmany]
  have hother (j : Fin 4) (hj : j ≠ i) : ((endLoops old pre s.core.r.lc).setIfInBounds i
      { old[i] with count := old[i].count - 1 })[j] = if j.val ∈ pre then { old[j] with count := 0 } else s.core.r.lc[j] := by
    rw [Fin.getElem_fin, Vector.getElem_setIfInBounds_ne _ fun hij => hj (Fin.ext hij.symm)]
    exact endLoops_getElem old pre s.core.r.lc j
  refine ⟨rfl, Vector.getElem_setIfInBounds_self _, fun j hj => ⟨fun hends hin => ?_, fun hout => ?_⟩⟩
  · exact (hother j hj).trans (if_pos ((hpre j).2 ⟨hends, hin⟩))
  · exact (hother j hj).trans (if_neg fun hmem => hout ((hpre j).1 hmem))

theorem State.commitBundle_last (s : State) (old : Vector Lc 4) (h : s.core.note = .none)
    (hlast : ∀ j : Fin 4, Claims.EndsHere s old j → old[j].count = 1) :
    (s.commitBundle old).core.pc = s.core.pc + 32 ∧
    ∀ j : Fin 4, (Claims.EndsHere s old j → (s.commitBundle old).core.r.lc[j] = { old[j] with count := 0 }) ∧
      (¬Claims.EndsHere s old j → (s.commitBundle old).core.r.lc[j] = s.core.r.lc[j]) := by
  have hone : ∀ n ∈ loopsAt old s.core.pc, (loopAt old n).count = 1 := by
    intro n hn
    obtain ⟨j, rfl, hends⟩ := (mem_loopsAt old s.core.pc n).1 hn
    rw [loopAt, Vector.getD_fin]
    exact hlast j hends
  have hback := loopBack_append old s.core.pc (loopsAt old s.core.pc) [] s.core.r.lc hone
  rw [List.append_nil] at hback
  obtain ⟨hpc, hr⟩ := s.commitBundle_falls old h
  rw [hpc, hr, hback]
  refine ⟨rfl, fun j => ⟨fun hends => ?_, fun hout => ?_⟩⟩
  · exact (endLoops_getElem old _ s.core.r.lc j).trans (if_pos ((mem_loopsAt_iff s old j).2 hends))
  · exact (endLoops_getElem old _ s.core.r.lc j).trans (if_neg fun hmem => hout ((mem_loopsAt_iff s old j).1 hmem))

theorem nextPc : Claims.NextPc := by
  intro s old
  refine ⟨fun x h => ?_, fun x h => ?_, fun h => ?_, s.commitBundle_noLoop old, s.commitBundle_repeats old,
    s.commitBundle_last old⟩
  all_goals rw [State.commitBundle, State.onCore_core, Core.advance, h]

/-- Settles O7: the words by their targets, LBRK by the loops it finds inside its own; the next PC by the loops that end at
the bundle, in their order. -/
theorem controlFlow : Obligations.ControlFlow := ⟨controlTransfers, nextPc⟩

end Sys2Proof.Machine
end

section
/-! PROOFS. The ends of a task and of a handler: EXIT, TRAP, RETT and WFI (R142 to R145). -/

namespace Sys2Proof.Machine

theorem exec_trap (o : ImmOp) (s : State) : exec (.trap o) s = execTrap o s := rfl

/-! EXIT (R142). -/

theorem Core.faulted_nil (c : Core) (h : c.cq = []) : c.faulted = [] := by
  rw [Core.faulted, h]
  rfl

theorem Core.dropFaults_nil (c : Core) (h : c.cq = []) : c.dropFaults = c := by
  rw [Core.dropFaults, c.faulted_nil h]
  rfl

/-- A core that drains after EXIT, with nothing pending. -/
def Core.exited (c : Core) : Core := { c with st := .draining, note := c.note.join .exit, pend := [] }

/-- Without faults held, EXIT makes the core drain; the pending cause, if there is one, is its status. -/
theorem State.exitTask_clean (s : State) (hp : s.core.pend = []) (hq : s.core.cq = []) :
    s.exitTask = s.onCore Core.exited := by
  simp only [State.exitTask, hp, s.core.faulted_nil hq, List.map_nil, List.append_nil, State.onCore,
    s.core.dropFaults_nil hq, Core.exited]

theorem State.exitTask_one (s : State) (x : Trap) (hp : s.core.pend = [x]) (hq : s.core.cq = []) :
    s.exitTask = ((s.onCore Core.exited).faultArises s.core.id x).onCore fun c => { c with status := some x } := by
  simp only [State.exitTask, hp, s.core.faulted_nil hq, List.map_nil, List.append_nil, List.foldl_nil, State.onCore,
    s.core.dropFaults_nil hq, Core.exited]

theorem exec_exit_clean (o : Hdr) (s : State) (hm : s.mgmt = false) (hp : s.core.pend = []) (hq : s.core.cq = []) :
    Claims.Runs (.exit o) o s (s.onCore fun c => { c with st := .draining, note := c.note.join .exit }) := by
  have hexited : s.core.exited = { s.core with st := .draining, note := s.core.note.join .exit } :=
    congrArg (fun l => { s.core with st := .draining, note := s.core.note.join .exit, pend := l }) hp.symm
  rw [Claims.Runs, exec_exit, execExit, runChecked_of_none _ _ _ _ (privilege_ok s _ hm), s.exitTask_clean hp hq,
    State.onCore, hexited]
  rfl

/-- What the end of a task by a fault leaves of its core's status fields. -/
theorem State.faultArises_keeps (s : State) (n : Nat) (t : Trap) : (s.faultArises n t).core.st = s.core.st ∧
    (s.faultArises n t).core.pend = s.core.pend := by
  have hst : (s.faultArises n t).unstopped.core.st = s.unstopped.core.st :=
    congrArg (fun u => u.core.st) (s.faultArises_onlyStop n t)
  have hpend : (s.faultArises n t).unstopped.core.pend = s.unstopped.core.pend :=
    congrArg (fun u => u.core.pend) (s.faultArises_onlyStop n t)
  exact ⟨hst, hpend⟩

theorem exec_exit_pending (o : Hdr) (s : State) (x : Trap) (hm : s.mgmt = false) (hg : s.rdP o.g = true)
    (hp : s.core.pend = [x]) (hq : s.core.cq = []) :
    ∃ t, exec (.exit o) s = .next (t.arriveNow o.a) ∧ t.core.st = .draining ∧ t.core.status = some x ∧
      t.core.pend = [] ∧ t.core.r = s.core.r ∧ Claims.SameMemory s t := by
  obtain ⟨hst, hpend⟩ := (s.onCore Core.exited).faultArises_keeps s.core.id x
  refine ⟨s.exitTask, ?_, ?_⟩
  · rw [exec_exit, execExit]
    exact runChecked_none _ _ _ _ hg (privilege_ok s _ hm)
  · rw [s.exitTask_one x hp hq]
    exact ⟨hst, rfl, hpend, (State.faultArises_onlyStop _ _ _).r, sameMemory_of_mem (State.faultArises_mem _ _ _)⟩

/-! RETT (R144). -/

theorem State.trapReturn_eq (s : State) : s.trapReturn = s.onCore fun c =>
    { c with accept := true,
             note := .jump ((c.iss.trc[2] + if (c.iss.trc[0]).extractLsb' 0 8 = 2#8 then 32 else 0) &&& ~~~31#64) } := by
  have hcause : fld (s.core.iss.trc[0]) 0 8 = 2 ↔ (s.core.iss.trc[0]).extractLsb' 0 8 = 2#8 := by
    rw [← BitVec.toNat_inj]
    rfl
  simp only [State.trapReturn, State.onCore, hcause]
  split
  · rfl
  · rw [show (s.core.iss.trc[2] + 0 : Word) = s.core.iss.trc[2] from BitVec.add_zero _]

/-- Settles O8: each word by its check, which answers nothing or the trap, and by its effect. -/
theorem taskAndHandlerEnds : Obligations.TaskAndHandlerEnds := by
  refine ⟨exec_exit_clean, exec_exit_pending, fun o s hg => ?_, fun o s hm => ?_, fun o s hm => ?_⟩
  · rw [exec_trap, execTrap]
    exact runChecked_some _ _ _ _ _ hg rfl
  · rw [Claims.Runs, exec_rett, execRett, runChecked_of_none _ _ _ _ (privilege_ok s _ (by rw [hm]; rfl)),
      s.trapReturn_eq]
  · rw [Claims.Runs, exec_wfi, execWfi, runChecked_of_none _ _ _ _ (privilege_ok s _ (by rw [hm]; rfl))]

end Sys2Proof.Machine
end

section
/-! PROOFS. Submission of launches: a queue's tail, the read of its record, and the acceptance of a launch (R279, R289, R381,
R446). -/

namespace Sys2Proof.Machine

theorem exec_qtailWrite (q : BitVec 6) (v : Word) (s : State) :
    exec (.qtailWrite q v) s = .next (s.writeTail q.toNat v) := rfl

/-! QTAIL (R381). -/

/-- The reads under way once queue `q` has been looked at. -/
def State.readsBegun (s : State) (busy : List (Nat × Nat)) (q : Nat) : List (Nat × Nat) :=
  if s.rfld (Key.qtail q) 0 32 ≠ s.rfld (Key.qhead q) 0 32 ∧ s.queueServed q = true ∧
      (busy.any fun x => x.1 == q) = false then busy ++ [(q, 24)] else busy

theorem State.beginReads_eq (s : State) :
    s.beginReads = { s with readBusy := (List.range 64).foldl s.readsBegun s.readBusy } := by
  have h (l : List Nat) (b : List (Nat × Nat)) : l.foldl (fun (t : State) q =>
      if t.rfld (Key.qtail q) 0 32 ≠ t.rfld (Key.qhead q) 0 32 ∧ t.queueServed q = true ∧
        (t.readBusy.any fun x => x.1 == q) = false then { t with readBusy := t.readBusy ++ [(q, 24)] } else t)
      { s with readBusy := b } = { s with readBusy := l.foldl s.readsBegun b } := by
    induction l generalizing b with
    | nil => rfl
    | cons q l ih =>
      rw [List.foldl_cons, List.foldl_cons, ← ih]
      congr 1
      unfold State.readsBegun
      split_ifs with h1 h2 h2
      · rfl
      · exact absurd h1 h2
      · exact absurd h2 h1
      · rfl
  exact h _ s.readBusy

/-- A queue that is looked at, and has a record waiting, has its read under way. -/
theorem State.readsBegun_mem (s : State) (q : Nat) (hserved : s.queueServed q = true)
    (hwaits : s.rfld (Key.qtail q) 0 32 ≠ s.rfld (Key.qhead q) 0 32) (l : List Nat) (hq : q ∈ l) (b : List (Nat × Nat))
    (hb : ∀ x ∈ b, x.1 = q → x = (q, 24)) : (q, 24) ∈ l.foldl s.readsBegun b := by
  have hkeeps (x : Nat × Nat) (i : Nat) (c : List (Nat × Nat)) (hx : x ∈ c) : x ∈ s.readsBegun c i := by
    unfold State.readsBegun
    split
    · exact List.mem_append_left _ hx
    · exact hx
  induction l generalizing b with
  | nil => exact nomatch hq
  | cons i l ih =>
    rw [List.foldl_cons]
    by_cases hi : i = q
    · subst hi
      have hin : (i, 24) ∈ s.readsBegun b i := by
        unfold State.readsBegun
        cases hany : b.any fun x => x.1 == i
        · rw [if_pos ⟨hwaits, hserved, rfl⟩]
          exact List.mem_append_right _ (List.mem_singleton.2 rfl)
        · obtain ⟨x, hx, hxi⟩ := List.any_eq_true.1 hany
          rw [if_neg (by simp), ← hb x hx (beq_iff_eq.1 hxi)]
          exact hx
      exact foldl_keeps (fun c => (i, 24) ∈ c) _ (fun c j hc => hkeeps _ j c hc) l _ hin
    · refine ih ((List.mem_cons.1 hq).resolve_left fun h => hi h.symm) _ fun x hx hxq => ?_
      unfold State.readsBegun at hx
      split at hx
      · rcases List.mem_append.1 hx with hx | hx
        · exact hb x hx hxq
        · rw [List.mem_singleton.1 hx] at hxq
          exact absurd hxq hi
      · exact hb x hx hxq

/-- A tail within a ring of the head is written, and the reads that it lets begin. -/
theorem State.writeTail_within (s : State) (q : Nat) (v : Word)
    (h : (v.toNat % 2 ^ 32 + 2 ^ 32 - s.rfld (Key.qhead q) 0 32) % 2 ^ 32 ≤ 2 ^ s.rfld (Key.qring q) 0 5) :
    s.writeTail q v = (s.setReg (Key.qtail q) (BitVec.ofNat 64 (v.toNat % 2 ^ 32))).beginReads := by
  simp only [State.writeTail, fld_zero]
  exact if_pos h

theorem State.writeTail_beyond (s : State) (q : Nat) (v : Word)
    (h : 2 ^ s.rfld (Key.qring q) 0 5 < (v.toNat % 2 ^ 32 + 2 ^ 32 - s.rfld (Key.qhead q) 0 32) % 2 ^ 32) :
    s.writeTail q v = s := by
  simp only [State.writeTail, fld_zero]
  exact if_neg (not_le.2 h)

theorem State.rfld_setReg_low (s : State) (k n : Nat) (hn : n < 2 ^ 32) :
    (s.setReg k (BitVec.ofNat 64 n)).rfld k 0 32 = n := by
  rw [State.rfld, State.reg_setReg_same, fld_zero, BitVec.toNat_ofNat]
  omega

theorem qtail_taken (s : State) (q : BitVec 6) (v : Word)
    (h : (v.toNat % 2 ^ 32 + 2 ^ 32 - s.rfld (Key.qhead q.toNat) 0 32) % 2 ^ 32 ≤ 2 ^ s.rfld (Key.qring q.toNat) 0 5) :
    ∃ t, exec (.qtailWrite q v) s = .next t ∧ t.rfld (Key.qtail q.toNat) 0 32 = v.toNat % 2 ^ 32 ∧ t.core = s.core ∧
      Claims.SameMemory s t ∧
      (s.queueServed q.toNat = true → v.toNat % 2 ^ 32 ≠ s.rfld (Key.qhead q.toNat) 0 32 → s.readBusy = [] →
        (q.toNat, 24) ∈ t.readBusy) := by
  have htail := s.rfld_setReg_low (Key.qtail q.toNat) (v.toNat % 2 ^ 32) (Nat.mod_lt _ (by decide))
  rw [exec_qtailWrite, s.writeTail_within _ _ h, State.beginReads_eq]
  refine ⟨_, rfl, htail, rfl, fun _ => rfl, fun hserved hwaits hbusy => ?_⟩
  have hother (k : Nat) (hk : k ≠ Key.qtail q.toNat) := s.reg_setReg_other (Key.qtail q.toNat) k
    (BitVec.ofNat 64 (v.toNat % 2 ^ 32)) hk
  have hnotTail (k : Nat) (hk : k < 0x20000) : k ≠ Key.qtail q.toNat := by
    unfold Key.qtail
    omega
  have hq := q.isLt
  refine State.readsBegun_mem _ _ ?_ ?_ _ (List.mem_range.2 q.isLt) _ fun x hx => ?_
  · rw [← hserved]
    simp only [State.queueServed, State.rfld, hother _ (hnotTail (Key.qctl q.toNat) (by unfold Key.qctl blockKey; omega)),
      hother _ (hnotTail Key.cscount (by decide)), hother _ (hnotTail Key.bootst (by decide))]
    rfl
  · rw [htail, State.rfld, hother _ (by unfold Key.qtail Key.qhead; omega)]
    exact hwaits
  · rw [show (s.setReg _ _).readBusy = s.readBusy from rfl, hbusy] at hx
    exact nomatch hx

/-! The record (R289, R381). -/

theorem recordFetched (s : State) (q : BitVec 6) : ∃ t, exec (.launchRecordFetch q) s = .next t ∧
    t.readRec = Sparse.set s.readRec q.toNat (s.agentRead (s.queueRecord q.toNat (s.rfld (Key.qhead q.toNat) 0 32)) 256) ∧
    t.core.r = s.core.r ∧ Claims.SameMemory s t := by
  have hlook := s.agentLook_onlyCache (s.queueRecord q.toNat (s.rfld (Key.qhead q.toNat) 0 32)) 256
  exact ⟨_, rfl, rfl, hlook.onlyL1.r, sameMemory_of_mem hlook.mem⟩

theorem State.queueRecord_eq (s : State) (q h : Nat) :
    s.queueRecord q h = (if q < 32 then 0x8000000000000 else 0xC000000000000) +
      ((s.reg (Key.qring q)).toNat / 4096 * 4096 + 256 * (h % 2 ^ s.rfld (Key.qring q) 0 5)) % 2 ^ 48 := by
  have hbase : fld (s.reg (Key.qring q)) 12 52 = (s.reg (Key.qring q)).toNat / 4096 := by
    have hlt := (s.reg (Key.qring q)).isLt
    rw [fld, BitVec.extractLsb'_toNat, Nat.shiftRight_eq_div_pow]
    omega
  rw [State.queueRecord, hbase]
  rfl

end Sys2Proof.Machine
end

section
/-! PROOFS. Submission of launches: the acceptance of a record, and the end of a rejected launch (R273, R279, R288, R289,
R446). -/

namespace Sys2Proof.Machine

/-! What the placement of a launch depends on (R273, R275). -/

theorem State.clusterUp_of_regs (s t : State) (c : Nat) (hspare : t.reg (Key.spare (c / 10)) = s.reg (Key.spare (c / 10)))
    (hclret : t.reg Key.clret = s.reg Key.clret) (hsupply : t.supply = s.supply) : t.clusterUp c = s.clusterUp c := by
  simp only [State.clusterUp, State.rfld, hspare, hclret, hsupply]

/-- A placement narrows the cores that are available. -/
theorem Launch.permitted_subset (l : Launch) (i : Nat) : l.permitted i ⊆ l.avail := by
  have henter (n : Nat) (r : Reach) (k : Nat) : (l.enter n r k).allowed ⊆ r.allowed := by
    intro c hc
    unfold Launch.enter at hc
    dsimp only at hc
    split at hc
    · exact List.mem_of_mem_filter hc
    · exact List.mem_of_mem_filter (List.mem_of_mem_filter hc)
  refine foldl_keeps (fun r : Reach => r.allowed ⊆ l.avail) (l.narrow i) (fun r n hr => ?_) _ _ (List.Subset.refl _)
  unfold Launch.narrow
  split
  · exact hr
  · split
    · exact List.Subset.trans (henter n r _) hr
    · exact List.nil_subset _

theorem State.assign_of_permitted (s t : State) (l m : Launch) (h : t.permitted m = s.permitted l) (free : Nat → Bool)
    (is : List Nat) (acc : List (Nat × Nat)) : t.assign m free is acc = s.assign l free is acc := by
  induction is generalizing acc with
  | nil => rfl
  | cons i is ih =>
    rw [State.assign, State.assign, h]
    split
    · exact ih _
    · rfl

/-- A launch as its checks find it. -/
def Launch.judged (l : Launch) (cores : List Nat) : Launch := { l with phase := .accepted, avail := cores }

theorem Launch.judged_f (l : Launch) (cores : List Nat) : (l.judged cores).f = l.f := rfl

theorem Launch.judged_fields (l : Launch) (cores : List Nat) : (l.judged cores).serial = l.serial ∧
    (l.judged cores).record = l.record ∧ (l.judged cores).rqKept = l.rqKept ∧ (l.judged cores).phase = .accepted :=
  ⟨rfl, rfl, rfl, rfl⟩

theorem Launch.rejects_judged (l : Launch) (cores : List Nat) : (l.judged cores).rejects = l.rejects := rfl

theorem Launch.samples_judged (l : Launch) (cores : List Nat) : (l.judged cores).samples = l.samples := by
  funext n
  induction n with
  | zero => rfl
  | succ n ih =>
    rw [Launch.samples, Launch.samples, ih]
    rfl

theorem State.unplaceable_judged (s t : State) (l : Launch)
    (h : ∀ n ∈ l.avail, t.clusterUp (n / 8) = s.clusterUp (n / 8)) :
    t.unplaceable (l.judged l.avail) = s.unplaceable l := by
  have hperm : t.permitted (l.judged l.avail) = s.permitted l := funext fun i =>
    List.filter_congr fun n hn => h n (l.permitted_subset i hn)
  have hassign : t.assign (l.judged l.avail) = s.assign l := by
    funext free is acc
    exact s.assign_of_permitted t _ _ hperm free is acc
  unfold State.unplaceable
  rw [hperm, hassign, Launch.samples_judged]
  rfl

/-! The acceptance of a record (R279, R446). -/

/-- A queue's record is taken: its serial is spent, and the head passes it. -/
def State.taking (s : State) (q : BitVec 6) : State :=
  ({ s with nextSerial := s.nextSerial + 1, readRec := Sparse.del s.readRec q.toNat,
            readBusy := s.readBusy.filter fun x => x.1 != q.toNat } : State).setReg (Key.qhead q.toNat)
    (BitVec.ofNat 64 ((s.rfld (Key.qhead q.toNat) 0 32 + 1) % 4294967296))

/-- The launch of a record, before its checks. -/
def Launch.read (n : BitVec 32) (q : BitVec 6) (bs : List Byte) : Launch := { serial := n, queue := q, record := bs }

theorem Launch.spillPages_none (l : Launch) (h : l.f 0x4C 4 = 0) : l.spillPages = [] := by
  simp only [Launch.spillPages, h, if_true]

theorem exec_acceptance_none (s : State) (q : BitVec 6) (h : Sparse.find s.readRec q.toNat = none) :
    exec (.launchAcceptance (.queue q)) s = .next s := by
  rw [show exec (.launchAcceptance (.queue q)) s = execLaunchAcceptance (.queue q) s from rfl]
  simp only [execLaunchAcceptance, h]

theorem exec_acceptance_some (s : State) (q : BitVec 6) (bs : List Byte) (h : Sparse.find s.readRec q.toNat = some bs) :
    exec (.launchAcceptance (.queue q)) s =
      .next ((s.taking q).judge (Launch.read s.nextSerial q bs) none) := by
  rw [show exec (.launchAcceptance (.queue q)) s = execLaunchAcceptance (.queue q) s from rfl]
  simp only [execLaunchAcceptance, h]
  rfl

theorem State.reg_taking (s : State) (q : BitVec 6) (k : Nat) (hk : k < 0x20000) : (s.taking q).reg k = s.reg k :=
  State.reg_setReg_other _ _ _ _ (by unfold Key.qhead; omega)

theorem State.clusterUp_taking (s : State) (q : BitVec 6) (n : Nat) (hn : n < 640) :
    (s.taking q).clusterUp (n / 8) = s.clusterUp (n / 8) :=
  State.clusterUp_of_regs _ _ _ (s.reg_taking q _ (by unfold Key.spare; omega)) (s.reg_taking q _ (by decide)) rfl

theorem State.available_taking (s : State) (q : BitVec 6) : (s.taking q).available = s.available :=
  List.filter_congr fun n hn => s.clusterUp_taking q n (List.mem_range.1 hn)

theorem State.available_lt (s : State) {n : Nat} (h : n ∈ s.available) : n < 640 :=
  List.mem_range.1 (List.mem_filter.1 h).1

theorem State.unplaceable_taking (s : State) (q : BitVec 6) (l : Launch) (h : l.avail = s.available) :
    (s.taking q).unplaceable (l.judged s.available) = s.unplaceable l := by
  rw [← h]
  exact s.unplaceable_judged _ l fun n hn => s.clusterUp_taking q n (s.available_lt (h ▸ hn))

/-- The end of the checks, by the lowest byte that they name. -/
def State.verdict (s : State) (l : Launch) : Option Nat → State
  | some off => ({ s with launches := s.launches ++ [l] } : State).complete l (some (0x05, off))
  | none =>
    if s.unplaceable l then ({ s with launches := s.launches ++ [l] } : State).complete l (some (0x04, 0))
    else { s with launches := s.launches ++ [{ l with cursor := l.first }] }

/-- A launch without a spill ring has no page of it to check. -/
theorem State.judge_noRing (s : State) (l : Launch) (clv : Option Nat) (h : l.f 0x4C 4 = 0) :
    s.judge l clv = s.verdict (l.judged s.available) (least (l.rejects clv true)) := by
  have hpages : (l.judged s.available).spillPages = [] := Launch.spillPages_none _ (by rw [Launch.judged_f, h])
  have hok : s.spillOk (l.judged s.available) = true := by simp only [State.spillOk, hpages, List.all_nil]
  unfold State.judge
  extract_lets m t
  have hm : m = l.judged s.available := rfl
  have ht : t = s := by simp only [t, hm, hpages, State.spillWalked]
  clear_value m t
  rw [hm, ht, hok, Launch.rejects_judged]
  generalize least _ = a
  cases a
  · rfl
  · rfl

/-- The state in which a record is judged, with its launch in the list. -/
def State.listed (s : State) (q : BitVec 6) (l : Launch) : State := { s.taking q with launches := s.launches ++ [l] }

section
variable (s : State) (q : BitVec 6) (bs : List Byte) (l : Launch) (hfind : Sparse.find s.readRec q.toNat = some bs)
  (hl : l = (Launch.read s.nextSerial q bs).judged s.available) (hring : l.f 0x4C 4 = 0)

include hfind hl hring

theorem acceptance_verdict : exec (.launchAcceptance (.queue q)) s =
    .next ((s.taking q).verdict l (least (l.rejects none true))) := by
  have hring' : (Launch.read s.nextSerial q bs).f 0x4C 4 = 0 := by rw [← Launch.judged_f _ s.available, ← hl, hring]
  rw [exec_acceptance_some s q bs hfind, State.judge_noRing _ _ _ hring', s.available_taking,
    ← Launch.rejects_judged _ s.available, ← hl]

theorem acceptance_rejects (a : Nat) (ha : least (l.rejects none true) = some a) :
    exec (.launchAcceptance (.queue q)) s = .next ((s.listed q l).complete l (some (0x05, a))) := by
  rw [acceptance_verdict s q bs l hfind hl hring, ha]
  simp only [State.verdict, State.listed]
  exact rfl

theorem acceptance_accepts (hrej : l.rejects none true = []) (hplace : (s.taking q).unplaceable l = false) :
    exec (.launchAcceptance (.queue q)) s =
      .next { s.taking q with launches := s.launches ++ [{ l with cursor := l.first }] } := by
  rw [acceptance_verdict s q bs l hfind hl hring, hrej]
  exact congrArg Host.Outcome.next (if_neg (ne_true_of_eq_false hplace))

end

/-! The end of a rejected launch (R288). -/

/-- A state without a launch's tags and pins. -/
def State.untagged (s : State) (l : Launch) : State :=
  { s with tags := s.tags.filter fun g => g.2.serial != l.serial, pins := s.pins.filter fun p => p.2.serial != l.serial }

/-- A state without a launch, its barriers and its supersteps. -/
def State.without (s : State) (n : BitVec 32) : State :=
  { s with launches := s.launches.filter fun x => x.serial != n, barriers := s.barriers.filter fun x => x.serial != n,
           steps := s.steps.filter fun x => x.key.serial != n }

/-- The completion of a launch that holds no requester slot: its record, a timeline, a message, and what goes with it. -/
theorem State.complete_eq (s : State) (l : Launch) (rej : Option (Nat × Nat)) (hrq : l.rqKept = []) :
    ∃ x o, s.complete l rej =
      ({ (s.untagged l).writeRecord l rej with timelines := x, outbox := o } : State).without l.serial := by
  unfold State.complete
  extract_lets s1 s2 s3 s4
  have h2 : s2 = (s.untagged l).writeRecord l rej :=
    congrArg (fun t : State => t.writeRecord l rej) (State.freeKept_nil _ _ hrq)
  have h3 : ∃ x, s3 = { s2 with timelines := x } := by
    simp only [s3]
    split
    · exact s2.raiseTimeline_eq _ _
    · exact ⟨s2.timelines, rfl⟩
  obtain ⟨x, h3⟩ := h3
  have h4 : ∃ o, s4 = { s2 with timelines := x, outbox := o } := by
    simp only [s4, h3, State.msix_eq]
    split
    · exact ⟨_, rfl⟩
    · exact ⟨s2.outbox, rfl⟩
  obtain ⟨o, h4⟩ := h4
  exact ⟨x, o, congrArg (fun t : State => t.without l.serial) (h4.trans (by rw [h2]))⟩

/-- Without a completion record, the completion of a rejected launch leaves the others, the cores and memory. -/
theorem State.complete_unrecorded (s : State) (l : Launch) (rej : Option (Nat × Nat)) (hrq : l.rqKept = [])
    (hrec : l.f 0x60 8 = 0) : (s.complete l rej).core = s.core ∧ (s.complete l rej).mem = s.mem ∧
      (s.complete l rej).nextSerial = s.nextSerial ∧
      (s.complete l rej).launches = s.launches.filter fun x => x.serial != l.serial := by
  obtain ⟨x, o, h⟩ := s.complete_eq l rej hrq
  rw [h, State.writeRecord_none _ _ _ hrec]
  exact ⟨rfl, rfl, rfl, rfl⟩

/-- No launch bears the serial that is given next: taking the new launch out of the list leaves the others. -/
theorem State.listed_filter (s : State) (q : BitVec 6) (l : Launch) (hl : l.serial = s.nextSerial)
    (h : s.launch s.nextSerial = none) : ((s.listed q l).launches.filter fun x => x.serial != l.serial) = s.launches := by
  have hothers : ∀ x ∈ s.launches, (x.serial != s.nextSerial) = true := fun x hx => by
    have hne := List.find?_eq_none.1 h x hx
    simpa using hne
  rw [show (s.listed q l).launches = s.launches ++ [l] from rfl, hl, List.filter_append, List.filter_eq_self.2 hothers,
    List.filter_cons_of_neg (by simp [hl]), List.filter_nil, List.append_nil]

theorem least_of_ne_nil {l : List Nat} (h : l ≠ []) : ∃ a, least l = some a := by
  cases l with
  | nil => exact absurd rfl h
  | cons x l => exact ⟨_, rfl⟩

theorem submission : Claims.Submission := by
  intro s q
  refine ⟨qtail_taken s q, fun v h => ?_, recordFetched s q, s.queueRecord_eq q.toNat, exec_acceptance_none s q,
    fun bs l hfind hl hring hnew => ?_⟩
  · rw [exec_qtailWrite, s.writeTail_beyond _ _ h]
  have havail : l.avail = s.available := by rw [hl]
  have hj : l.judged s.available = (Launch.read s.nextSerial q bs).judged s.available := by
    rw [hl]
    generalize s.available = cores
    rfl
  have hrq : l.rqKept = [] := by rw [hl]
  have hserial : l.serial = s.nextSerial := by rw [hl]
  have hrecord : l.record = bs := by rw [hl]
  clear hl
  generalize hm : l.judged s.available = m at hj
  have hmf : m.f = l.f := by rw [← hm, Launch.judged_f]
  have hmrej : m.rejects = l.rejects := by rw [← hm, Launch.rejects_judged]
  obtain ⟨hmserial, hmrecord, hmrq, hmphase⟩ := l.judged_fields s.available
  rw [hm] at hmserial hmrecord hmrq hmphase
  have hplaced := s.unplaceable_taking q l havail
  rw [hm] at hplaced
  clear hm
  rw [hserial] at hmserial
  rw [← hmf] at hring
  refine ⟨fun hrej hplace => ?_, fun hrej hrec => ?_⟩
  · exact ⟨_, _, acceptance_accepts s q bs m hfind hj hring (by rw [hmrej, hrej]) (hplaced.trans hplace), rfl, hmserial,
      hmrecord.trans hrecord, hmphase, rfl, rfl, fun _ => rfl, State.rfld_setReg_low _ _ _ (Nat.mod_lt _ (by decide))⟩
  · obtain ⟨a, ha⟩ := least_of_ne_nil hrej
    rw [← hmrej] at ha
    obtain ⟨hcore, hmem, hnext, hleft⟩ := (s.listed q m).complete_unrecorded m (some (0x05, a)) (hmrq.trans hrq)
      (by rw [hmf, hrec])
    exact ⟨_, acceptance_rejects s q bs _ hfind hj hring a ha, hleft.trans (s.listed_filter q _ hmserial hnew), hnext,
      hcore, sameMemory_of_mem hmem⟩

end Sys2Proof.Machine
end

section
/-! PROOFS. The checks of a launch record: each with the byte that it names (R271 to R279, R446). -/

namespace Sys2Proof.Machine

/-! What a check's list names. -/

theorem mem_check {p : Prop} [Decidable p] {a b : Nat} : b ∈ (if p then [a] else []) ↔ b = a ∧ p := by
  split
  · rename_i h
    rw [List.mem_singleton, and_iff_left h]
  · rename_i h
    exact iff_of_false List.not_mem_nil fun hb => h hb.2

theorem mem_checkNot {p : Prop} [Decidable p] {a b : Nat} : b ∈ (if p then [] else [a]) ↔ b = a ∧ ¬p := by
  rw [← mem_check, ite_not]

theorem Launch.mem_under (l : Launch) (off k b : Nat) : b ∈ l.under off k ↔ b = off ∧ k ≤ l.f off 1 := by
  rw [Launch.under, mem_checkNot, not_lt, Launch.b]

theorem Launch.mem_nonzero (l : Launch) (off n b : Nat) :
    b ∈ l.nonzero off n ↔ off ≤ b ∧ b < off + n ∧ l.f b 1 ≠ 0 := by
  simp only [Launch.nonzero, List.mem_map, List.mem_filter, List.mem_range, bne_iff_ne, Launch.b]
  constructor
  · rintro ⟨i, ⟨hi, hne⟩, rfl⟩
    exact ⟨by omega, by omega, hne⟩
  · rintro ⟨hle, hlt, hne⟩
    exact ⟨b - off, ⟨by omega, by rwa [Nat.add_sub_cancel' hle]⟩, by omega⟩

/-- A check of each of the first `n` of a row of fields. -/
theorem mem_checks (p : Nat → Bool) (at_ : Nat → Nat) (n b : Nat) :
    b ∈ ((List.range n).filter p).map at_ ↔ ∃ i, i < n ∧ b = at_ i ∧ p i = true := by
  simp only [List.mem_map, List.mem_filter, List.mem_range]
  exact exists_congr fun i => by rw [and_assoc, and_comm (a := p i = true), eq_comm]

theorem Launch.f_lt (l : Launch) (off n : Nat) : l.f off n < 2 ^ (8 * n) :=
  (leNat_lt _).trans_le (Nat.pow_le_pow_right Nat.two_pos
    (Nat.mul_le_mul_left 8 (List.length_take_le n (l.record.drop off))))

/-! The levels (R271, R274, R275, R278). -/

/-- A domain reaches past the domains of the levels outside it. -/
theorem Launch.outer_lt (l : Launch) (n d : Nat) :
    (List.range n).foldl (fun m i => min m (l.domain i)) 5 < d ↔ 5 < d ∨ ∃ m, m < n ∧ l.domain m < d := by
  induction n with
  | zero => simp
  | succ n ih =>
    rw [List.range_succ, List.foldl_append, List.foldl_cons, List.foldl_nil, min_lt_iff, ih, or_assoc]
    refine or_congr Iff.rfl ⟨?_, ?_⟩
    · rintro (⟨m, hm, h⟩ | h)
      · exact ⟨m, by omega, h⟩
      · exact ⟨n, by omega, h⟩
    · rintro ⟨m, hm, h⟩
      rcases Nat.lt_succ_iff_lt_or_eq.1 hm with hm | rfl
      · exact .inl ⟨m, hm, h⟩
      · exact .inr h

theorem domSize_eq (d : Nat) (h : d ≤ 4) : domSize d = [1, 2, 8, 80, 640].getD d 0 := by
  interval_cases d <;> rfl

theorem Launch.cores_iff (l : Launch) (n : Nat) : l.cores n = true ↔ l.f 0x7C 1 / 2 ^ n % 2 = 1 := beq_iff_eq

theorem Launch.cores_false (l : Launch) (n : Nat) : l.cores n = false ↔ l.f 0x7C 1 / 2 ^ n % 2 = 0 := by
  rw [← Bool.not_eq_true, l.cores_iff]
  omega

theorem Launch.sstep_iff (l : Launch) (n : Nat) : l.sstep n = true ↔ l.f (0x80 + 8 * n) 8 / 2 ^ 41 % 2 = 1 := beq_iff_eq

theorem Launch.ncores_eq (l : Launch) (n : Nat) : l.ncores n = l.f (0x80 + 8 * n) 8 / 2 ^ 48 := by
  have hlt := l.f_lt (0x80 + 8 * n) 8
  unfold Launch.ncores Launch.level bits
  omega

theorem Launch.extent_eq (l : Launch) (n : Nat) : l.extent n = l.f (0x80 + 8 * n) 8 % 2 ^ 32 := by
  unfold Launch.extent Launch.level bits
  omega

theorem Launch.domain_eq (l : Launch) (n : Nat) : l.domain n = l.f (0x80 + 8 * n) 8 / 2 ^ 32 % 8 := rfl

/-- The checks of a level in the two orders: the domain's two parts together, and apart. -/
theorem or_reorder {extent domain scope outer beyond rest : Prop} :
    (extent ∨ domain ∨ scope ∨ domain ∨ outer ∨ beyond ∨ rest) ↔
      extent ∨ domain ∨ scope ∨ beyond ∨ outer ∨ rest := by
  tauto

theorem Launch.mem_levelRejects (l : Launch) (n b : Nat) :
    b ∈ l.levelRejects n ((List.range n).foldl (fun m i => min m (l.domain i)) 5) ↔ Claims.LevelFails l n b := by
  have hsize : (l.domain n ≤ 4 ∧ domSize (l.domain n) < l.ncores n) ↔
      l.domain n ≤ 4 ∧ [1, 2, 8, 80, 640].getD (l.domain n) 0 < l.ncores n :=
    and_congr_right fun h => by rw [domSize_eq _ h]
  unfold Launch.levelRejects Claims.LevelFails
  simp only [List.mem_append, mem_check, l.outer_lt, hsize, exists_and_left, exists_eq_left, ← l.domain_eq]
  simp only [l.cores_iff, l.cores_false, l.sstep_iff, l.ncores_eq, l.extent_eq, bits, Launch.level, or_assoc]
  refine or_congr (and_congr ?_ ?_) (or_congr (and_congr ?_ ?_) (and_congr_right fun _ => ?_))
  · omega
  · omega
  · omega
  · omega
  · exact or_reorder

/-! The product of the extents (R271). -/

theorem extents_eq (l : Launch) (n : Nat) :
    (List.range (n + 1)).foldl (fun p m => p * l.extent m) 1 = Claims.extents l n := by
  rw [Claims.extents, List.prod_eq_foldl, List.foldl_map]
  simp only [l.extent_eq]

theorem Launch.mem_productRejects (l : Launch) (b : Nat) : b ∈ l.productRejects ↔
    ∃ n, n < l.f 0x0A 1 ∧ b = 0x80 + 8 * n ∧ 2 ^ 32 < Claims.extents l n ∧ ∀ m, m < n → Claims.extents l m ≤ 2 ^ 32 := by
  unfold Launch.productRejects
  simp only [extents_eq, Launch.count]
  have hfirst (n : Nat) : ((List.range (l.f 0x0A 1)).find? fun n => decide (4294967296 < Claims.extents l n)) = some n ↔
      n < l.f 0x0A 1 ∧ 2 ^ 32 < Claims.extents l n ∧ ∀ m, m < n → Claims.extents l m ≤ 2 ^ 32 := by
    rw [List.find?_range_eq_some, List.mem_range, and_left_comm]
    simp
  split
  · rename_i n hn
    rw [List.mem_singleton]
    constructor
    · rintro rfl
      obtain ⟨hlt, hover, hbelow⟩ := (hfirst n).1 hn
      exact ⟨n, hlt, rfl, hover, hbelow⟩
    · rintro ⟨m, hlt, rfl, hover, hbelow⟩
      rw [Option.some.inj (hn.symm.trans ((hfirst m).2 ⟨hlt, hover, hbelow⟩))]
  · rename_i hnone
    refine iff_of_false List.not_mem_nil ?_
    rintro ⟨m, hlt, -, hover, hbelow⟩
    exact nomatch hnone.symm.trans ((hfirst m).2 ⟨hlt, hover, hbelow⟩)

/-! Co-resident levels (R275, R278). -/

theorem Launch.corOk_false (l : Launch) : ¬l.corOk = true ↔ 2 ^ l.f 0x0A 1 ≤ l.f 0x7C 1 ∨
    ∃ m n, m < n ∧ n < l.f 0x0A 1 ∧ l.f 0x7C 1 / 2 ^ m % 2 = 1 ∧ l.f 0x7C 1 / 2 ^ n % 2 = 0 := by
  rw [Launch.corOk, Bool.and_eq_true, decide_eq_true_eq, not_and_or, not_lt]
  refine or_congr Iff.rfl ?_
  simp only [← l.cores_iff, ← l.cores_false, Launch.gangLevel, Launch.count]
  split
  · rename_i g hg
    rw [List.find?_range_eq_some, List.mem_range] at hg
    obtain ⟨hset, hlt, hbelow⟩ := hg
    rw [List.all_eq_true]
    constructor
    · intro h
      push Not at h
      obtain ⟨n, hn, hne⟩ := h
      rcases Nat.lt_or_ge n g with hng | hng
      · refine absurd ?_ hne
        have hoff := hbelow n hng
        rw [Bool.not_eq_true'] at hoff
        simp [hoff, hng]
      · have hoff : l.cores n = false := by simpa [hng] using hne
        have hng' : g ≠ n := fun h => by simp [← h, hset] at hoff
        exact ⟨g, n, by omega, List.mem_range.1 hn, hset, hoff⟩
    · rintro ⟨m, n, hmn, hn, hm, hoff⟩ h
      have hm' := h m (List.mem_range.2 (by omega))
      have hn' := h n (List.mem_range.2 hn)
      rw [hm] at hm'
      rw [hoff] at hn'
      simp at hm' hn'
      omega
  · rename_i hnone
    refine iff_of_false (by simp) ?_
    rintro ⟨m, n, hmn, hn, hm, -⟩
    have hall := List.find?_eq_none.1 hnone m (List.mem_range.2 (by omega))
    exact hall hm

/-! The timelines (R271, R446). -/

/-- The checks of a timeline's word. -/
theorem mem_timelineRejects (t n b : Nat) (ht : t < 2 ^ 16) :
    b ∈ (if bits t 14 2 = 3 then [0xC0 + 2 * n] else []) ++ (if bits t 12 2 ≠ 0 then [0xC1 + 2 * n] else []) ++
      (if bits t 14 2 ≠ 2 ∧ bits t 0 12 ≠ 0 then [if bits t 0 8 ≠ 0 then 0xC0 + 2 * n else 0xC1 + 2 * n] else []) ↔
    (b = 0xC0 + 2 * n ∧ (t / 2 ^ 14 = 3 ∨ (t / 2 ^ 14 ≠ 2 ∧ t % 256 ≠ 0))) ∨
      (b = 0xC1 + 2 * n ∧ (t / 2 ^ 12 % 4 ≠ 0 ∨ (t / 2 ^ 14 ≠ 2 ∧ t % 256 = 0 ∧ t % 4096 ≠ 0))) := by
  rw [List.mem_append, List.mem_append, mem_check, mem_check, mem_check]
  have hkind : bits t 14 2 = t / 2 ^ 14 := by
    unfold bits
    omega
  have hzero : bits t 12 2 = t / 2 ^ 12 % 4 := rfl
  have hlow (w : Nat) : bits t 0 w = t % 2 ^ w := by
    rw [bits, pow_zero, Nat.div_one]
  rw [hkind, hzero, hlow, hlow]
  split
  · omega
  · omega

/-! The record (R277, R446). -/

/-- PCOORD is judged against the panel's extent, where level 0 is one (R274). -/
theorem Launch.mem_coordRejects (l : Launch) (b : Nat) :
    b ∈ (if l.panel then (if l.extent 0 ≤ l.b 0x17 then [0x17] else []) else l.under 0x17 1) ↔
      b = 0x17 ∧ if l.f 0x0A 1 ≠ 0 ∧ l.f 0x80 8 / 2 ^ 32 % 8 = 5 then l.f 0x80 8 % 2 ^ 32 ≤ l.f 0x17 1
        else l.f 0x17 1 ≠ 0 := by
  have hpanel : l.panel = true ↔ l.f 0x0A 1 ≠ 0 ∧ l.f 0x80 8 / 2 ^ 32 % 8 = 5 := by
    rw [Launch.panel, Bool.and_eq_true, decide_eq_true_eq, beq_iff_eq, Nat.pos_iff_ne_zero]
    exact Iff.rfl
  by_cases hp : l.panel = true
  · rw [if_pos hp, if_pos (hpanel.1 hp), mem_check, l.extent_eq]
    exact Iff.rfl
  · rw [if_neg hp, if_neg (mt hpanel.2 hp), l.mem_under, Nat.one_le_iff_ne_zero]

theorem or_join {p q r t t' : Prop} (h : (p ∨ q) ↔ r) (ht : t ↔ t') : (p ∨ q ∨ t) ↔ (r ∨ t') := by
  rw [← or_assoc, h, ht]

theorem or_gather {p q r t p' q' t' : Prop} (h : (p ∨ r) ↔ p') (hq : q ↔ q') (ht : t ↔ t') :
    (p ∨ q ∨ r ∨ t) ↔ (p' ∨ q' ∨ t') := by
  rw [← h, hq, ht]
  tauto

theorem mem_rejects (l : Launch) (clv : Option Nat) (ok : Bool) (b : Nat) :
    b ∈ l.rejects clv ok ↔ Claims.Fails l clv ok b := by
  have hlow (x w : Nat) : bits x 0 w = x % 2 ^ w := by rw [bits, pow_zero, Nat.div_one]
  unfold Launch.rejects Claims.Fails
  dsimp only
  simp only [List.mem_append, or_assoc]
  refine or_congr mem_check <| or_congr (l.mem_under 7 2 b) <|
    or_congr (mem_check.trans (and_congr_right fun _ => ?_)) <| or_congr mem_check <| or_congr mem_check <|
    or_congr (l.mem_under _ _ b) <| or_congr (l.mem_under _ _ b) <| or_congr ?_ <| or_congr (l.mem_under _ _ b) <|
    or_congr (mem_check.trans (and_congr_right fun _ => ?_)) <| or_congr mem_check <| or_join ?_ <| or_congr ?_ <|
    or_congr ?_ <| or_congr mem_check <| or_congr (l.mem_under _ _ b) <| or_congr ?_ <| or_join ?_ <|
    or_gather ?_ mem_check <| or_congr ?_ <| or_congr ?_ <| or_congr ?_ <| or_congr ?_ <|
    or_congr (l.mem_productRejects b) <| or_congr ?_ <| or_congr ?_ ?_
  · simp only [List.mem_cons, List.not_mem_nil, or_false, Launch.b]
    omega
  · rw [List.mem_ite_nil_right, l.mem_under, and_left_comm]
    exact Iff.rfl
  · rw [hlow]
    exact Iff.rfl
  · rw [l.mem_under, and_or_left]
    refine or_congr Iff.rfl ?_
    cases clv with
    | none => simp
    | some p =>
      rw [mem_check]
      simp only [Option.some.injEq, exists_eq_left']
      exact Iff.rfl
  · exact l.mem_coordRejects b
  · rw [mem_checks]
    simp only [decide_eq_true_eq]
    exact Iff.rfl
  · rw [mem_checks]
    simp only [decide_eq_true_eq]
    refine exists_congr fun n => and_congr_right fun _ => and_congr_right fun hb => ?_
    rw [hb, Launch.b]
  · rw [mem_check, mem_check, or_and_right]
    refine or_congr (and_congr_right fun hb => ?_) (and_congr_right fun hb => ?_)
    · rw [hb]
      exact Iff.rfl
    · rw [hb]
      exact Iff.rfl
  · rw [l.mem_under, mem_check, ← and_or_left, Nat.one_le_iff_ne_zero]
  · rw [mem_checkNot]
    refine and_congr_right fun _ => ?_
    omega
  · rw [mem_checkNot, l.corOk_false]
  · rw [l.mem_nonzero]
    omega
  · simp only [List.mem_flatMap, List.mem_range, l.mem_levelRejects]
    exact Iff.rfl
  · rw [mem_checks]
    simp only [decide_eq_true_eq]
    refine exists_congr fun n => and_congr_right fun hn => ?_
    rw [and_left_comm]
    refine and_congr ?_ (and_congr_right fun hb => by rw [hb]; exact Iff.rfl)
    unfold Launch.count
    omega
  · simp only [List.mem_flatMap, List.mem_range]
    refine exists_congr fun n => ?_
    rw [mem_timelineRejects _ _ _ (l.f_lt _ 2)]
    simp only [exists_and_left, exists_eq_left]
  · rw [l.mem_nonzero]
    omega

end Sys2Proof.Machine
end

section
/-! PROOFS. The completion record of a rejected launch: its bytes, and where they are written (R282, R288, R446). -/

namespace Sys2Proof.Machine

/-! A translated address keeps its place in its line (R322, R323). -/

theorem leafSize_dvd (level : Nat) : 64 ∣ leafSize level := by
  unfold leafSize
  split_ifs
  · decide
  · decide
  · decide

theorem State.walkFrom_size (s : State) (va : Word) (kind : BitVec 3) (fuel level table : Nat) (leaf : Word) (size : Nat)
    (h : s.walkFrom va kind fuel level table = .ok (leaf, size)) : 64 ∣ size := by
  induction fuel generalizing level table with
  | zero => exact nomatch h
  | succ fuel ih =>
    rw [State.walkFrom] at h
    dsimp only at h
    split at h
    · exact nomatch h
    · split_ifs at h
      · rw [← (Prod.mk.inj (Except.ok.inj h)).2]
        exact leafSize_dvd level
      · exact ih _ _ h

/-- The walk is unfolded as a function, not at its arguments: so the kernel compares its body as it stands. -/
theorem State.walk_size (s : State) (ctx : BitVec 16) (va : Word) (kind : BitVec 3) (leaf : Word) (size : Nat)
    (h : s.walk ctx va kind = .ok (leaf, size)) : 64 ∣ size := by
  obtain ⟨walk, hwalk⟩ : ∃ walk, walk = State.walk := ⟨_, rfl⟩
  rw [← hwalk] at h
  delta State.walk at hwalk
  rw [congrFun (congrFun (congrFun (congrFun hwalk s) ctx) va) kind] at h
  split at h
  · exact nomatch h
  · split_ifs at h
    exact s.walkFrom_size _ _ _ _ _ _ _ h

theorem State.canon_mod (s : State) (pa : Nat) : s.canon pa % 64 = pa % 64 := by
  unfold State.canon
  split
  · omega
  · rfl

theorem State.sysXlate_mod (s : State) (ctx : BitVec 16) (va : Word) (kind : BitVec 3) (pa : Nat) (leaf : Word) (size : Nat)
    (h : s.sysXlate ctx va kind = .ok (pa, leaf, size)) : pa % 64 = va.toNat % 64 := by
  unfold State.sysXlate at h
  split_ifs at h
  split at h
  · exact nomatch h
  · rename_i leaf' size' hwalk
    have hsize := s.walk_size _ _ _ _ _ hwalk
    unfold State.leafUse at h
    dsimp only at h
    split at h
    · exact nomatch h
    · obtain ⟨hpa, -⟩ := Prod.mk.inj (Except.ok.inj h)
      rw [← hpa, s.canon_mod, Nat.add_mod, Nat.mod_eq_zero_of_dvd (hsize.mul_left _), Nat.zero_add, Nat.mod_mod,
        Nat.mod_mod_of_dvd _ hsize]

theorem State.sysXlate_of_sameXlate (s t : State) (h : SameXlate s t) (ctx : BitVec 16) (va : Word) (kind : BitVec 3) :
    t.sysXlate ctx va kind = s.sysXlate ctx va kind := by
  simp only [State.sysXlate, s.walk_of_memView t h.view, s.leafUse_of_sameXlate t h]

/-! A whole line is written without a read to merge (R355). -/

theorem State.physWrite_mem_wholeLine (s : State) (pa : Nat) (bs : List Byte) (key : BitVec 16) (hbs : bs.length = 64)
    (hpa : pa % 64 = 0) : (s.physWrite pa bs key).mem = memWrite s.mem (s.canon pa) bs := by
  have ha : s.canon pa % 64 = 0 := (s.canon_mod pa).trans hpa
  unfold State.physWrite
  extract_lets a n lines s1 s2
  have hlines : lines = [a / 64] := by
    simp only [lines, n, a, hbs, ha, ceilDiv]
    rfl
  have h1 : s1 = s := by
    have hwhole : decide (a ≤ 64 * (a / 64) ∧ 64 * (a / 64) + 64 ≤ a + n) = true := by
      rw [decide_eq_true_eq]
      omega
    simp only [s1, hlines, List.foldl_cons, List.foldl_nil, State.mergeLine, hwhole, Bool.not_true, Bool.and_false,
      Bool.false_eq_true, if_false]
  rw [foldl_mem _ (fun t l => t.touchLine_mem l key), show s2.mem = memWrite s1.mem a bs from rfl, h1]

/-! The bytes of the record (R282). -/

theorem Launch.record64_length (l : Launch) (now : Nat) (rej : Option (Nat × Nat)) : (l.record64 now rej).length = 64 := by
  unfold Launch.record64
  simp only [List.length_append, leBytes_length, ptpBytes]

theorem take_drop_append {pre mid post : List Byte} {m n : Nat} (hpre : pre.length = m) (hmid : mid.length = n) :
    ((pre ++ (mid ++ post)).drop m).take n = mid := by
  rw [List.drop_left' hpre, List.take_left' hmid]

theorem record64_status (l : Launch) (now code detail : Nat) :
    ((l.record64 now (some (code, detail))).drop 8).take 1 = leBytes 1 code := by
  unfold Launch.record64
  simp only [List.append_assoc]
  exact take_drop_append (leBytes_length 8 _) (leBytes_length 1 _)

theorem record64_detail (l : Launch) (now code detail : Nat) :
    ((l.record64 now (some (code, detail))).drop 10).take 1 = leBytes 1 detail := by
  unfold Launch.record64
  simp only [List.append_assoc]
  rw [← List.append_assoc (leBytes 8 _), ← List.append_assoc (leBytes 8 _ ++ _)]
  exact take_drop_append (by simp only [List.length_append, leBytes_length]) (leBytes_length 1 _)

/-! Where it is written (R288). -/

theorem State.writeRecord_mem (s : State) (l : Launch) (rej : Option (Nat × Nat)) (pa : Nat) (leaf : Word) (size : Nat)
    (hrec : l.f 0x60 8 ≠ 0) (hx : s.sysXlate l.context (BitVec.ofNat 64 (l.f 0x60 8)) 1 = .ok (pa, leaf, size))
    (hhbm : s.physKind pa = .hbm) (halign : l.f 0x60 8 % 64 = 0) :
    (s.writeRecord l rej).mem = memWrite s.mem (s.canon pa) (l.record64 s.ptp rej) := by
  have hva : (BitVec.ofNat 64 (l.f 0x60 8)).toNat = l.f 0x60 8 := BitVec.toNat_ofNat _ _ |>.trans
    (Nat.mod_eq_of_lt (l.f_lt 0x60 8))
  have hne : BitVec.ofNat 64 (l.f 0x60 8) ≠ 0 := fun h => hrec (by rw [← hva, h]; rfl)
  have hpa : pa % 64 = 0 := by rw [s.sysXlate_mod _ _ _ _ _ _ hx, hva, halign]
  unfold State.writeRecord
  dsimp only
  rw [if_neg hne, hx]
  dsimp only
  rw [hhbm]
  dsimp only
  have hwalked := s.walked_onlyCache l.context (BitVec.ofNat 64 (l.f 0x60 8))
  rw [(State.engineWrote_onlyCache _ _ _).mem, State.physWrite_mem_wholeLine _ _ _ _ (l.record64_length _ _) hpa, hwalked.mem,
    s.canon_of_regs _ (hwalked.same State.regs fun _ => rfl)]

theorem State.untagged_sameXlate (s : State) (l : Launch) : SameXlate s (s.untagged l) := ⟨rfl, rfl, rfl, rfl, rfl⟩

/-- The completion of a launch writes its record. -/
theorem State.complete_stored (s : State) (l : Launch) (rej : Option (Nat × Nat)) (pa : Nat) (leaf : Word) (size : Nat)
    (hrq : l.rqKept = []) (hrec : l.f 0x60 8 ≠ 0)
    (hx : s.sysXlate l.context (BitVec.ofNat 64 (l.f 0x60 8)) 1 = .ok (pa, leaf, size)) (hhbm : s.physKind pa = .hbm)
    (halign : l.f 0x60 8 % 64 = 0) (hc : s.canonical = true) :
    Claims.Stored s (s.complete l rej) (s.canon pa) (l.record64 s.ptp rej) := by
  obtain ⟨x, o, h⟩ := s.complete_eq l rej hrq
  refine stored_of_mem _ _ _ _ hc ?_
  rw [h]
  exact (s.untagged l).writeRecord_mem l rej pa leaf size hrec
    ((State.sysXlate_of_sameXlate _ _ (s.untagged_sameXlate l) _ _ _).trans hx) hhbm halign

/-! The rejection (R446). -/

theorem least_rejects (l : Launch) (clv : Option Nat) (ok : Bool) (a : Nat) (ha : Claims.Fails l clv ok a)
    (hmin : ∀ b, Claims.Fails l clv ok b → a ≤ b) : least (l.rejects clv ok) = some a := by
  rw [least_eq_min?, List.min?_eq_some_iff]
  exact ⟨(mem_rejects l clv ok a).2 ha, fun b hb => hmin b ((mem_rejects l clv ok b).1 hb)⟩

theorem recordChecks : Claims.RecordChecks := by
  refine ⟨fun l clv ok b _ => mem_rejects l clv ok b, fun l now code detail _ _ => ⟨l.record64_length _ _,
    record64_status l now code detail, record64_detail l now code detail,
    fun s q bs a hfind _ hl hnew hring ha hmin => ?_⟩⟩
  have hj : l = (Launch.read s.nextSerial q bs).judged s.available := by
    rw [hl]
    generalize s.available = cores
    rfl
  have hrq : l.rqKept = [] := by rw [hl]
  have hserial : l.serial = s.nextSerial := by rw [hl]
  refine ⟨s.listed q l, acceptance_rejects s q bs l hfind hj hring a (least_rejects l none true a ha hmin), rfl, rfl, rfl,
    fun _ => rfl, fun hrec => ?_, fun pa leaf size hrec hx hhbm halign hc => ?_⟩
  · obtain ⟨-, hmem, -, hleft⟩ := (s.listed q l).complete_unrecorded l (some (0x05, a)) hrq hrec
    exact ⟨hleft.trans (s.listed_filter q l hserial hnew), sameMemory_of_mem hmem⟩
  · exact (s.listed q l).complete_stored l _ pa leaf size hrq hrec hx hhbm halign hc

end Sys2Proof.Machine
end

section
/-! PROOFS. The record read of SPAWN, and what it leaves of the launches (R142, R147, R294, R297, R298, R366). -/

namespace Sys2Proof.Machine

/-! What a launch keeps while its tasks fault and its record is read. -/

/-- What names a launch and places it: its serial, queue, parent, and place in the pool or the ring. -/
def Launch.kin (l : Launch) : BitVec 32 × BitVec 6 × Option (BitVec 32) × Nat × Place × Nat × Nat :=
  (l.serial, l.queue, l.parent, l.parentIndex, l.place, l.ringPos, l.spillTail)

/-- `s` and `t` have the same launches, as those are named and placed, and give the same serial next. -/
def SameKin (s t : State) : Prop := t.launches.map Launch.kin = s.launches.map Launch.kin ∧ t.nextSerial = s.nextSerial

theorem SameKin.of_eq {s t : State} (hl : t.launches = s.launches) (hn : t.nextSerial = s.nextSerial) : SameKin s t :=
  ⟨congrArg _ hl, hn⟩

theorem SameKin.refl (s : State) : SameKin s s := ⟨rfl, rfl⟩

theorem SameKin.trans {s t u : State} (h : SameKin s t) (k : SameKin t u) : SameKin s u :=
  ⟨k.1.trans h.1, k.2.trans h.2⟩

theorem SameKin.onLaunches (s : State) (f : Launch → Launch) (hf : ∀ l, (f l).kin = l.kin) :
    SameKin s { s with launches := s.launches.map f } :=
  ⟨by rw [List.map_map, show Launch.kin ∘ f = Launch.kin from funext hf], rfl⟩

theorem SameKin.onLaunch (s : State) (n : BitVec 32) (f : Launch → Launch) (hf : ∀ l, (f l).kin = l.kin) :
    SameKin s (s.onLaunch n f) :=
  .onLaunches s _ fun l => by
    split
    · exact hf l
    · rfl

theorem SameKin.onCoreAt (s : State) (n : Nat) (f : Core → Core) : SameKin s (s.onCoreAt n f) := by
  obtain ⟨l, h⟩ := s.onCoreAt_cases n f
  rw [h]
  exact .of_eq rfl rfl

theorem OnlyMemory.launches {s t : State} (h : OnlyMemory s t) : t.launches = s.launches :=
  have hl : t.sansMemory.launches = s.sansMemory.launches := congrArg State.launches h
  hl

theorem OnlyMemory.nextSerial {s t : State} (h : OnlyMemory s t) : t.nextSerial = s.nextSerial :=
  have hn : t.sansMemory.nextSerial = s.sansMemory.nextSerial := congrArg State.nextSerial h
  hn

theorem OnlyCache.launches {s t : State} (h : OnlyCache s t) : t.launches = s.launches :=
  h.same State.launches fun _ => rfl

theorem OnlyCache.nextSerial {s t : State} (h : OnlyCache s t) : t.nextSerial = s.nextSerial :=
  h.same State.nextSerial fun _ => rfl

/-- The launch with a serial, in the state after. -/
theorem SameKin.launch {s t : State} (h : SameKin s t) (n : BitVec 32) :
    (t.launch n).map Launch.kin = (s.launch n).map Launch.kin := by
  have hfind (l : List Launch) : (l.find? fun x => x.serial == n).map Launch.kin =
      (l.map Launch.kin).find? fun x => x.1 == n := by
    rw [List.find?_map]
    rfl
  rw [State.launch, State.launch, hfind, hfind, h.1]

theorem SameKin.launch_some {s t : State} (h : SameKin s t) {n : BitVec 32} {l : Launch} (hl : s.launch n = some l) :
    ∃ m, t.launch n = some m ∧ m.kin = l.kin := by
  have hn := h.launch n
  rw [hl] at hn
  exact Option.map_eq_some_iff.1 hn

/-! The end of a task leaves the launches as they are named (R142, R291, R294). -/

theorem State.dropHandOffs_sameKin (s : State) (n : BitVec 32) (on : HandOff → Bool) : SameKin s (s.dropHandOffs n on) :=
  SameKin.trans (t := { s with handoffs := _ }) (.of_eq rfl rfl) (.onLaunch _ n _ fun _ => rfl)

theorem State.unstage_sameKin (s : State) (n : Nat) : SameKin s (s.unstage n) := by
  have hdrop : SameKin s (s.dropStaged n) := by
    unfold State.dropStaged
    split
    · exact (SameKin.onCoreAt s n _).trans (.onLaunch _ _ _ fun _ => rfl)
    · exact .refl s
  unfold State.unstage
  split
  · exact hdrop.trans (.onLaunch _ _ _ fun _ => rfl)
  · exact .refl s

theorem State.stopLaunch_sameKin (s : State) (n : BitVec 32) : SameKin s (s.stopLaunch n) := by
  unfold State.stopLaunch
  extract_lets s1 s2
  have h1 : SameKin s s1 := by
    refine foldl_keeps (SameKin s) _ (fun t c h => ?_) _ _ (s.dropHandOffs_sameKin n _)
    split
    · split
      · exact h.trans (t.unstage_sameKin _)
      · exact h
    · exact h
  have h2 : SameKin s1 s2 := .of_eq rfl rfl
  have h3 : SameKin s2 { s2 with launches := s2.launches.map fun l =>
      if l.serial = n then { l with stopped := true, failed := true } else l } :=
    .onLaunches s2 _ fun l => by split <;> rfl
  exact (h1.trans h2).trans (h3.trans (.of_eq rfl rfl))

theorem State.stopFor_sameKin (s : State) (n : BitVec 32) : SameKin s (s.stopFor n) := by
  unfold State.stopFor
  split
  · split
    · exact s.stopLaunch_sameKin n
    · exact .refl s
  · exact .refl s

theorem State.faultArises_sameKin (s : State) (n : Nat) (t : Trap) : SameKin s (s.faultArises n t) := by
  unfold State.faultArises
  split
  · exact .refl s
  · split
    · exact .refl s
    · extract_lets s1
      have h1 : SameKin s s1 := .onLaunch s _ _ fun l => rfl
      clear_value s1
      split
      · exact h1.trans (s1.unstage_sameKin n)
      · exact h1.trans (s1.stopFor_sameKin _)

theorem State.refault_sameKin (s : State) (n : Nat) (old t : Trap) : SameKin s (s.refault n old t) := by
  unfold State.refault
  split
  · exact .refl s
  · split
    · extract_lets s1
      have h1 : SameKin s s1 := .onLaunch s _ _ fun l => by
        split
        · split
          · rfl
          · rfl
        · rfl
      clear_value s1
      split
      · exact h1.trans (s1.unstage_sameKin n)
      · exact h1.trans (s1.stopFor_sameKin _)
    · exact .refl s

theorem State.raiseB_sameKin (s : State) (n : Nat) (t : Trap) : SameKin s (s.raiseB n t) := by
  unfold State.raiseB State.drainCause
  dsimp only
  split
  · exact .refl s
  · split
    · split
      · exact .refl s
      · refine SameKin.trans ?_ (.onCoreAt _ n _)
        split
        · exact s.faultArises_sameKin n _
        · exact s.refault_sameKin n _ _
    · exact .onCoreAt s n _

/-! A request leaves the registers and the launches (R366). -/

theorem State.sendFlit_eq (s : State) : ∃ l, s.sendFlit = { s with links := l } := by
  unfold State.sendFlit
  dsimp only
  split
  · exact ⟨_, rfl⟩
  · exact ⟨s.links, rfl⟩

theorem State.send_eq (s : State) (m : OutMsg) : ∃ o l, s.send m = { s with outbox := o, links := l } := by
  unfold State.send
  dsimp only
  split
  · obtain ⟨l, h⟩ := State.sendFlit_eq { s with outbox := s.outbox ++ [m] }
    exact ⟨_, l, h⟩
  · exact ⟨_, s.links, rfl⟩

theorem State.sendRemote_frame (s : State) (p : Piece) (kind : RemoteKind) (land : Option (Nat × Nat))
    (into : Option Nat) : SameKin s (s.sendRemote p kind land into) ∧ (s.sendRemote p kind land into).core.r = s.core.r := by
  unfold State.sendRemote
  split
  · unfold State.request
    dsimp only
    generalize State.reqMsg _ _ _ = m
    generalize hu : State.onCore _ _ = u
    obtain ⟨o, l, h⟩ := u.send_eq m
    rw [h, ← hu]
    exact ⟨.of_eq rfl rfl, rfl⟩
  · exact ⟨.refl s, rfl⟩

theorem State.askFor_frame (s : State) (into : Nat) (l : List Piece) :
    SameKin s (s.askFor into l) ∧ (s.askFor into l).core.r = s.core.r :=
  foldl_keeps (fun t : State => SameKin s t ∧ t.core.r = s.core.r) _
    (fun t p h => ⟨h.1.trans (t.sendRemote_frame p _ _ _).1, (t.sendRemote_frame p _ _ _).2.trans h.2⟩) l s ⟨.refl s, rfl⟩

end Sys2Proof.Machine
end

section
/-! PROOFS. A child's record is read, and written at its place in the ring (R147, R297, R298). -/

namespace Sys2Proof.Machine

/-! The parts of a record in this module's memory. -/

theorem State.partsBytes_of_memView (s t : State) (h : t.memView = s.memView) (hf : t.core.fetched = s.core.fetched)
    (into : Nat) (l : List Piece) : t.partsBytes into l = s.partsBytes into l := by
  have hr : t.regs = s.regs := congrArg (fun v => v.2.2.2.2.1) h
  induction l with
  | nil => rfl
  | cons p l ih =>
    simp only [State.partsBytes, State.partBytes, State.peerAt, s.physKind_of_regs t hr, s.canon_of_regs t hr, hf,
      s.badLine_of_memView t h, s.physRead_of_memView t _ _ _ h, ih]

theorem State.toFetch_here (s : State) (into : Nat) (l : List Piece) (h : ∀ y ∈ l, s.physKind y.pa = .hbm) :
    s.toFetch into l = [] := by
  refine List.filter_eq_nil_iff.2 fun p hp => ?_
  rw [State.peerAt, h p hp]
  simp

theorem State.fills_onlyCache (s : State) (l : List Piece) : OnlyCache s (l.foldl (fun t p => t.fill p false) s) :=
  .foldl (fun t p => t.fill_onlyCache p false) l s

/-! The child's launch takes its record (R147). -/

/-- A child with its record. -/
def Launch.given (bs : List Byte) (bad : Option Nat) (l : Launch) : Launch :=
  { l with record := bs, readErr := bad, unread := false }

/-- The state in which a record has been looked at, and its read is no longer held. -/
def State.recordSeen (s : State) (x : SpawnRead) : State :=
  (x.parts.foldl (fun (t : State) p => t.fill p false) s).onCore fun c =>
    { c with spawns := c.spawns.filter fun y => y.id != x.id }.forget (spawnInto x.serial)

theorem State.recordSeen_frame (s : State) (x : SpawnRead) : (s.recordSeen x).memView = s.memView ∧
    (s.recordSeen x).mem = s.mem ∧ (s.recordSeen x).core.r = s.core.r ∧ (s.recordSeen x).launches = s.launches ∧
    (s.recordSeen x).nextSerial = s.nextSerial ∧
    (s.recordSeen x).core.spawns = s.core.spawns.filter fun y => y.id != x.id := by
  have h := s.fills_onlyCache x.parts
  have hspawns : (x.parts.foldl (fun (t : State) p => t.fill p false) s).core.spawns = s.core.spawns := by
    obtain ⟨l, hl⟩ := h.onlyL1
    rw [hl]
  exact ⟨h.memView, h.mem, h.onlyL1.r, h.launches, h.nextSerial,
    congrArg (List.filter fun y : SpawnRead => y.id != x.id) hspawns⟩

theorem State.recordSeen_sameXlate (s : State) (x : SpawnRead) : SameXlate s (s.recordSeen x) := by
  have h := s.fills_onlyCache x.parts
  have hcore : (x.parts.foldl (fun (t : State) p => t.fill p false) s).core.ctlb = s.core.ctlb ∧
      (x.parts.foldl (fun (t : State) p => t.fill p false) s).core.id = s.core.id := by
    obtain ⟨l, hl⟩ := h.onlyL1
    rw [hl]
    exact ⟨rfl, rfl⟩
  exact ⟨h.memView, h.same State.peers fun _ => rfl, h.same State.dtlb fun _ => rfl, hcore.1, hcore.2⟩

/-- What the write of a child into the ring leaves: the launches, and the core in focus but for its L1. -/
theorem State.writeRing_frame (s : State) (p : Launch) (pos : Nat) (bs : List Byte) :
    (s.writeRing p pos bs).launches = s.launches ∧ (s.writeRing p pos bs).nextSerial = s.nextSerial ∧
      OnlyL1 s (s.writeRing p pos bs) := by
  unfold State.writeRing
  dsimp only
  split
  · have hwalked := s.walked_onlyCache p.context (BitVec.ofNat 64 (p.f 0x58 8 + 256 * pos))
    rename_i pa leaf _ _
    generalize hx : mkPiece _ pa bs.length leaf p.keyid = x
    generalize s.walked p.context _ = u at hwalked
    have hwrite := u.physWrite_onlyMemory pa bs x.key
    have hwrote := (u.physWrite pa bs x.key).engineWrote_onlyCache none x
    exact ⟨hwrote.launches.trans (hwrite.launches.trans hwalked.launches),
      hwrote.nextSerial.trans (hwrite.nextSerial.trans hwalked.nextSerial),
      (hwalked.onlyL1.trans hwrite.onlyL1).trans hwrote.onlyL1⟩
  · exact ⟨rfl, rfl, .refl s⟩

theorem State.writeRing_mem (s : State) (p : Launch) (pos : Nat) (bs : List Byte) (pa : Nat) (leaf : Word) (size : Nat)
    (hx : s.sysXlate p.context (BitVec.ofNat 64 (p.f 0x58 8 + 256 * pos)) 1 = .ok (pa, leaf, size))
    (hok : s.badLine pa bs.length (leafKey leaf p.keyid) = none) :
    (s.writeRing p pos bs).mem = memWrite s.mem (s.canon pa) bs := by
  have hwalked := s.walked_onlyCache p.context (BitVec.ofNat 64 (p.f 0x58 8 + 256 * pos))
  unfold State.writeRing
  dsimp only
  rw [hx]
  dsimp only
  rw [(State.engineWrote_onlyCache _ _ _).mem, State.physWrite_mem_of_ok, hwalked.mem,
    s.canon_of_regs _ (hwalked.same State.regs fun _ => rfl)]
  rw [s.badLine_of_memView _ hwalked.memView]
  exact hok

/-! The read (R147). -/

/-- A read of a record names and places the launches as before, and leaves the registers. -/
theorem State.readSpawn_frame (s : State) (x : SpawnRead) :
    SameKin s (s.readSpawn x) ∧ (s.readSpawn x).core.r = s.core.r := by
  obtain ⟨-, -, hr, hlaunches, hnext, -⟩ := s.recordSeen_frame x
  have hseen : SameKin s (s.recordSeen x) := .of_eq hlaunches hnext
  unfold State.readSpawn
  extract_lets into ask r s1 s2
  have h2 : SameKin s s2 ∧ s2.core.r = s.core.r := by
    simp only [s2]
    split
    · split
      · have hraise := s1.raiseB_onlyArrival s1.core.id { cause := 0x10, addr := x.va, aux := x.pc }
        exact ⟨hseen.trans (s1.raiseB_sameKin _ _), (hraise.same (fun u => u.core.r) fun _ => rfl).trans hr⟩
      · exact ⟨hseen, hr⟩
    · exact ⟨hseen, hr⟩
  clear_value s2
  split
  · exact s.askFor_frame into ask
  · split
    · rename_i p l _ _
      extract_lets bs s3
      have h3 : SameKin s s3 ∧ s3.core.r = s.core.r := ⟨h2.1.trans (.onLaunch s2 _ _ fun _ => rfl), h2.2⟩
      clear_value s3
      split
      · obtain ⟨hl, hn, hcore⟩ := s3.writeRing_frame p l.ringPos bs
        exact ⟨h3.1.trans (.of_eq hl hn), hcore.r.trans h3.2⟩
      · exact h3
    · exact h2

section
variable (s : State) (x : SpawnRead) (k : Task) (p ch : Launch) (bs : List Byte)
  (hhere : ∀ y ∈ x.parts, s.physKind y.pa = .hbm) (hread : s.partsBytes (spawnInto x.serial) x.parts = (bs, none))
  (hlen : bs.length = 256) (htask : s.core.task = some k) (hp : s.launch k.serial = some p)
  (hch : s.launch x.serial = some ch)

include hhere hread hlen htask hp hch

/-- A record in this module's memory that passes its check is the child's. -/
theorem State.readSpawn_here : s.readSpawn x =
    if ch.place = .spilled then
      ((s.recordSeen x).onLaunch x.serial (.given (childRecord p bs) none)).writeRing p ch.ringPos (childRecord p bs)
    else (s.recordSeen x).onLaunch x.serial (.given (childRecord p bs) none) := by
  have hparent : (s.core.task.bind fun t => s.launch t.serial) = some p := by rw [htask, Option.bind_some, hp]
  unfold State.readSpawn
  dsimp only
  rw [s.toFetch_here _ _ hhere, hread, hparent, hch]
  simp only [hlen, Nat.sub_self, List.replicate_zero, List.append_nil, List.isEmpty_nil, Bool.not_true,
    Bool.false_eq_true, if_false]
  rfl

/-- Whether the child has spilled or not, its launch has the record, and the read is over. -/
theorem State.readSpawn_given : (s.readSpawn x).launch x.serial = some (ch.given (childRecord p bs) none) ∧
    (∀ y ∈ (s.readSpawn x).core.spawns, y.id ≠ x.id) ∧ (s.readSpawn x).core.r = s.core.r ∧
    (ch.place ≠ .spilled → (s.readSpawn x).mem = s.mem) := by
  obtain ⟨-, hmem, hr, hlaunches, -, hspawns⟩ := s.recordSeen_frame x
  have hgiven : ((s.recordSeen x).onLaunch x.serial (.given (childRecord p bs) none)).launch x.serial =
      some (ch.given (childRecord p bs) none) :=
    State.launch_onLaunch_self _ _ _ _ ((State.launch_congr hlaunches _).trans hch) fun _ => rfl
  have hdone : ∀ y ∈ (s.recordSeen x).core.spawns, y.id ≠ x.id := by
    rw [hspawns]
    intro y hy
    simpa using (List.mem_filter.1 hy).2
  rw [s.readSpawn_here x k p ch bs hhere hread hlen htask hp hch]
  split
  · rename_i hspilled
    obtain ⟨hl, -, l1, hcore⟩ := ((s.recordSeen x).onLaunch x.serial (.given (childRecord p bs) none)).writeRing_frame p
      ch.ringPos (childRecord p bs)
    refine ⟨(State.launch_congr hl _).trans hgiven, ?_, ?_, fun h => absurd hspilled h⟩
    · rw [hcore]
      exact hdone
    · rw [hcore]
      exact hr
  · exact ⟨hgiven, hdone, hr, fun _ => hmem⟩

/-- The record of a spilled child is written at its position of the ring. -/
theorem State.readSpawn_stored (pa : Nat) (leaf : Word) (size : Nat) (hspilled : ch.place = .spilled)
    (hrecord : p.record.length = 256)
    (hx : s.sysXlate p.context (BitVec.ofNat 64 (p.f 0x58 8 + 256 * ch.ringPos)) 1 = .ok (pa, leaf, size))
    (hok : s.badLine pa 256 (leafKey leaf p.keyid) = none) (hc : s.canonical = true) :
    Claims.Stored s (s.readSpawn x) (s.canon pa) (childRecord p bs) := by
  obtain ⟨hview, hmem, -⟩ := s.recordSeen_frame x
  have hsame := s.recordSeen_sameXlate x
  have hrecordLen : (childRecord p bs).length = 256 := by
    simp only [childRecord, List.length_append, List.length_take, List.length_drop, hlen, hrecord]
    rfl
  rw [s.readSpawn_here x k p ch bs hhere hread hlen htask hp hch, if_pos hspilled]
  generalize hu : (s.recordSeen x).onLaunch x.serial (.given (childRecord p bs) none) = u
  have hxu : SameXlate s u := by
    rw [← hu]
    exact ⟨hsame.view, hsame.peers, hsame.dtlb, hsame.ctlb, hsame.id⟩
  have hmu : u.mem = s.mem := by
    rw [← hu]
    exact hmem
  refine stored_of_mem _ _ _ _ hc ?_
  rw [u.writeRing_mem p ch.ringPos _ pa leaf size ((s.sysXlate_of_sameXlate u hxu _ _ _).trans hx)
    (by rw [hrecordLen, s.badLine_of_memView u hxu.view]; exact hok), hmu, s.canon_of_regs u hxu.regs]

end

theorem exec_spawnRecordRead (s : State) (x : SpawnRead) (l : List SpawnRead) (h : s.core.spawnsDue = x :: l) :
    exec .spawnRecordRead s = .next (s.readSpawn x) := by
  rw [show exec .spawnRecordRead s = execSpawnRecordRead s from rfl, execSpawnRecordRead, h]

end Sys2Proof.Machine
end

section
/-! PROOFS. SPAWN: a child in the pool, in the ring, or refused (R146, R147, R297, R298). -/

namespace Sys2Proof.Machine

/-! The checks at issue (R146). -/

theorem spawnCheck_misaligned (s : State) (a : Word) (hm : s.mgmt = false) (ha : a.toNat % 256 ≠ 0) :
    spawnCheck a s = some (s.takeTrap (Claims.slotTrap s { cause := 0x08, aux := a })) := by
  rw [spawnCheck, hm, if_neg Bool.false_ne_true, if_pos (by rwa [fld_zero]), State.trapSlot_eq]

theorem spawnCheck_reaches (s : State) (a : Word) (l : List Span) (hm : s.mgmt = false) (ha : a.toNat % 256 = 0)
    (hr : s.reach a 256 4 false = .ok l) : spawnCheck a s = none := by
  rw [spawnCheck, hm, if_neg Bool.false_ne_true, if_neg (by rw [fld_zero]; exact not_not.2 ha), hr]

theorem exec_spawn_reaches (o : SR2Op) (s : State) (l : List Span) (hg : s.rdP o.h.g = true) (ha : o.h.a = false)
    (hm : s.mgmt = false) (halign : (s.rdS o.ra).toNat % 256 = 0) (hr : s.reach (s.rdS o.ra) 256 4 false = .ok l) :
    exec (.spawn o) s = .next (s.spawn o.rd (s.rdS o.ra) l) := by
  rw [exec_spawn, execSpawn]
  rw [runChecked_none _ _ _ _ hg (spawnCheck_reaches s _ l hm halign hr), ha, State.arriveNow_false, hr]

/-! The child (R146, R297). -/

/-- The child of a task, before it has a place. -/
def State.childOf (s : State) (k : Task) (p : Launch) : Launch :=
  { serial := s.nextSerial, queue := p.queue, parent := some p.serial, parentIndex := k.index, clv := some (p.b 0x16),
    record := [], unread := true }

/-- A state with one launch more. -/
def State.born (s : State) (c : Launch) : State :=
  { s with nextSerial := s.nextSerial + 1, launches := s.launches ++ [c] }

theorem State.launch_born_new (s : State) (c : Launch) (h : s.launch c.serial = none) :
    (s.born c).launch c.serial = some c := by
  have hnone : s.launches.find? (fun x => x.serial == c.serial) = none := h
  rw [State.launch, State.born, List.find?_append, hnone, Option.none_or, List.find?_cons_of_pos (by simp)]

theorem State.launch_born_old (s : State) (c : Launch) (n : BitVec 32) (p : Launch) (h : s.launch n = some p) :
    (s.born c).launch n = some p := by
  have hsome : s.launches.find? (fun x => x.serial == n) = some p := h
  rw [State.launch, State.born, List.find?_append, hsome, Option.some_or]

/-- A change to the launch born last leaves the others. -/
theorem State.born_map (s : State) (c : Launch) (f : Launch → Launch) (h : s.launch c.serial = none) :
    ((s.born c).launches.map fun l => if l.serial = c.serial then f l else l) = s.launches ++ [f c] := by
  have hothers : ∀ l ∈ s.launches, (if l.serial = c.serial then f l else l) = l := fun l hl =>
    if_neg fun hs => List.find?_eq_none.1 h l hl (beq_iff_eq.2 hs)
  rw [State.born, List.map_append, List.map_congr_left hothers, List.map_id', List.map_singleton, if_pos rfl]

theorem State.launch_onLaunch_none (s : State) (n m : BitVec 32) (f : Launch → Launch) (hf : ∀ l, (f l).serial = l.serial)
    (h : s.launch n = none) : (s.onLaunch m f).launch n = none := by
  rw [State.launch, List.find?_eq_none] at h ⊢
  intro x hx
  obtain ⟨l, hl, rfl⟩ := List.mem_map.1 hx
  split
  · rw [hf]
    exact h l hl
  · exact h l hl

/-! The record's read is issued (R147). -/

/-- A state with one more record to read, and the core's fences. -/
def State.spawning (s : State) (x : SpawnRead) (fs : List Fence) : State :=
  s.onCore fun c => { c with spawns := c.spawns ++ [x], nextId := c.nextId + 2, fences := fs }

/-- The release that a SPAWN is (R147). -/
def State.spawnFence (s : State) : Fence := { s.newFence 3 4 with kind := 1 }

theorem State.startSpawn_eq (s : State) (n : BitVec 32) (va : Word) (parts : List Piece) :
    ∃ x fs, x.serial = n ∧ x.parts = parts ∧
      x.holds = (s.core.holders true ++ s.behind parts ++
        (if s.spawnFence.blocks s.core then [s.spawnFence.id] else [])).dedup ∧
      s.startSpawn n va parts = if x.holds.isEmpty then (s.spawning x fs).readSpawn x else s.spawning x fs :=
  ⟨_, _, rfl, rfl, rfl, rfl⟩

theorem State.startSpawn_frame (s : State) (n : BitVec 32) (va : Word) (parts : List Piece) :
    SameKin s (s.startSpawn n va parts) ∧ (s.startSpawn n va parts).core.r = s.core.r := by
  obtain ⟨x, fs, -, -, -, h⟩ := s.startSpawn_eq n va parts
  rw [h]
  split
  · obtain ⟨hkin, hr⟩ := (s.spawning x fs).readSpawn_frame x
    exact ⟨SameKin.trans (.of_eq rfl rfl) hkin, hr⟩
  · exact ⟨.of_eq rfl rfl, rfl⟩

/-- A fence of the core holds the read: it is not performed yet. -/
theorem State.startSpawn_held (s : State) (n : BitVec 32) (va : Word) (parts : List Piece)
    (h : s.core.holders true ≠ []) : ∃ x fs, s.startSpawn n va parts = s.spawning x fs := by
  obtain ⟨x, fs, -, -, hholds, heq⟩ := s.startSpawn_eq n va parts
  refine ⟨x, fs, heq.trans (if_neg fun hempty => ?_)⟩
  rw [hholds, List.isEmpty_iff, List.dedup_eq_nil, List.append_eq_nil_iff, List.append_eq_nil_iff] at hempty
  exact h hempty.1.1

/-- Of a core with nothing before an access, the release awaits nothing. -/
theorem State.spawnFence_free (s : State) (h : s.core.Free) : s.spawnFence.blocks s.core = false := by
  obtain ⟨-, hstores, hlands, hspawns⟩ := h
  have hremotes : s.spawnFence.remotes = [] := rfl
  have hpast : s.spawnFence.past = [] := rfl
  unfold Fence.blocks
  rw [hremotes, hpast, hspawns, List.any_eq_false.2 fun l hl => by simp [hlands l hl],
    List.any_eq_false.2 fun q hq => by simp [hstores q hq]]
  rfl

/-- Nothing holds the read: it is performed at once. -/
theorem State.startSpawn_free (s : State) (n : BitVec 32) (va : Word) (parts : List Piece) (h : s.core.Free) :
    ∃ x fs, x.serial = n ∧ x.parts = parts ∧ s.startSpawn n va parts = (s.spawning x fs).readSpawn x := by
  obtain ⟨x, fs, hn, hparts, hholds, heq⟩ := s.startSpawn_eq n va parts
  refine ⟨x, fs, hn, hparts, heq.trans (if_pos ?_)⟩
  rw [hholds, s.spawnFence_free h, if_neg Bool.false_ne_true, List.append_nil, s.holds_nil parts h]
  rfl

/-! Where the child goes (R146, R298). -/

section
variable (s : State) (rd : BitVec 6) (a : Word) (l : List Span) (k : Task) (p : Launch) (htask : s.core.task = some k)
  (hp : s.launch k.serial = some p)

/-- The child in a pool entry. -/
def State.pooled : Launch := { s.childOf k p with place := .pool false }

/-- The child at the tail of its parent's ring. -/
def State.ringed : Launch := { s.childOf k p with place := .spilled, ringPos := p.spillTail }

/-- The parent's ring has one child more. -/
def Launch.tailed (n : Nat) (p : Launch) : Launch := { p with spillTail := (p.spillTail + 1) % n }

include htask hp

theorem State.spawn_pool (h : s.poolUsed false < 3840) : s.spawn rd a l =
    ((s.born (s.pooled k p)).startSpawn s.nextSerial a (pieces p.keyid l)).wrS rd (s.nextSerial.setWidth 64) := by
  have hplace (c : Launch) : s.placeChild c p = some ({ c with place := .pool false }, s, 0) := if_pos h
  have hv : BitVec.ofNat 64 (4294967296 * 0 + s.nextSerial.toNat) = s.nextSerial.setWidth 64 := by
    rw [Nat.mul_zero, Nat.zero_add, BitVec.ofNat_toNat]
  unfold State.spawn
  rw [htask]
  dsimp only
  rw [hp]
  dsimp only
  rw [hplace, ← hv]
  rfl

theorem State.spawn_ring (h : 3840 ≤ s.poolUsed false) (hn : p.f 0x4C 4 ≠ 0) (hfree : s.ringFree p p.spillTail = true) :
    s.spawn rd a l = (((s.onLaunch p.serial fun p => p.tailed (p.f 0x4C 4)).born (s.ringed k p)).startSpawn s.nextSerial a
      (pieces p.keyid l)).wrS rd (BitVec.ofNat 64 (2 ^ 32) + s.nextSerial.setWidth 64) := by
  have hplace (c : Launch) : s.placeChild c p = some ({ c with place := .spilled, ringPos := p.spillTail },
      s.onLaunch p.serial fun p => p.tailed (p.f 0x4C 4), 1) :=
    (if_neg (not_lt.2 h)).trans (if_pos ⟨hn, hfree⟩)
  have hv : BitVec.ofNat 64 (4294967296 * 1 + s.nextSerial.toNat) =
      BitVec.ofNat 64 (2 ^ 32) + s.nextSerial.setWidth 64 := by
    rw [Nat.mul_one, show 4294967296 = 2 ^ 32 from rfl, BitVec.ofNat_add, BitVec.ofNat_toNat]
  unfold State.spawn
  rw [htask]
  dsimp only
  rw [hp]
  dsimp only
  rw [hplace, ← hv]
  rfl

theorem State.spawn_refused (h : 3840 ≤ s.poolUsed false) (hring : p.f 0x4C 4 = 0 ∨ s.ringFree p p.spillTail = false) :
    s.spawn rd a l = s.wrS rd (BitVec.ofNat 64 (2 ^ 63)) := by
  have hplace (c : Launch) : s.placeChild c p = none := by
    refine (if_neg (not_lt.2 h)).trans (if_neg ?_)
    rintro ⟨hn, hfree⟩
    exact hring.elim hn fun hf => Bool.false_ne_true (hf.symm.trans hfree)
  unfold State.spawn
  rw [htask]
  dsimp only
  rw [hp]
  dsimp only
  rw [hplace]

/-- In the pool, behind a fence: the child has no record yet. -/
theorem State.spawn_pool_held (h : s.poolUsed false < 3840) (hholders : s.core.holders true ≠ []) :
    (s.spawn rd a l).core.r = s.core.r.setS rd (s.nextSerial.setWidth 64) ∧
      (s.spawn rd a l).launches = s.launches ++ [s.pooled k p] ∧
      (s.spawn rd a l).nextSerial = s.nextSerial + 1 ∧ (s.spawn rd a l).mem = s.mem := by
  obtain ⟨x, fs, heq⟩ := (s.born (s.pooled k p)).startSpawn_held s.nextSerial a (pieces p.keyid l) hholders
  rw [s.spawn_pool rd a l k p htask hp h, heq]
  exact ⟨rfl, rfl, rfl, rfl⟩

/-- In the pool, with nothing before the read, in this module's memory: the child has its record. -/
theorem State.spawn_pool_free (bs : List Byte) (h : s.poolUsed false < 3840) (hnew : s.launch s.nextSerial = none)
    (hfree : s.core.Free) (hhere : ∀ y ∈ pieces p.keyid l, s.physKind y.pa = .hbm)
    (hread : s.partsBytes (spawnInto s.nextSerial) (pieces p.keyid l) = (bs, none)) (hlen : bs.length = 256) :
    (s.spawn rd a l).core.r = s.core.r.setS rd (s.nextSerial.setWidth 64) ∧
      (s.spawn rd a l).launches = s.launches ++ [(s.pooled k p).given (childRecord p bs) none] ∧
      (s.spawn rd a l).nextSerial = s.nextSerial + 1 ∧ (s.spawn rd a l).mem = s.mem := by
  obtain ⟨x, fs, hx, hparts, heq⟩ := (s.born (s.pooled k p)).startSpawn_free s.nextSerial a (pieces p.keyid l) hfree
  rw [s.spawn_pool rd a l k p htask hp h, heq]
  generalize hu : (s.born (s.pooled k p)).spawning x fs = u
  have hlaunches : u.launches = (s.born (s.pooled k p)).launches := by rw [← hu]; rfl
  have hview : u.memView = s.memView := by rw [← hu]; rfl
  have hfetched : u.core.fetched = s.core.fetched := by rw [← hu]; rfl
  have hregs : u.regs = s.regs := by rw [← hu]; rfl
  have htasku : u.core.task = some k := by rw [← htask, ← hu]; rfl
  have hpu : u.launch k.serial = some p := (State.launch_congr hlaunches _).trans (s.launch_born_old _ _ _ hp)
  have hcu : u.launch x.serial = some (s.pooled k p) := by
    rw [hx, State.launch_congr hlaunches]
    exact s.launch_born_new (s.pooled k p) hnew
  rw [← hparts] at hhere hread
  rw [← hx] at hread
  have hhereu : ∀ y ∈ x.parts, u.physKind y.pa = .hbm := fun y hy => (s.physKind_of_regs u hregs _).trans (hhere y hy)
  have hreadu := (s.partsBytes_of_memView u hview hfetched (spawnInto x.serial) x.parts).trans hread
  have hgiven := u.readSpawn_here x k p (s.pooled k p) bs hhereu hreadu hlen htasku hpu hcu
  obtain ⟨-, hmem, hr, hl, hn, -⟩ := u.recordSeen_frame x
  rw [hgiven, if_neg nofun]
  refine ⟨?_, ?_, ?_, ?_⟩
  · show ((u.recordSeen x).core.r).setS _ _ = _
    rw [hr, ← hu]
    rfl
  · show (u.recordSeen x).launches.map _ = _
    rw [hl, hlaunches, hx]
    exact s.born_map (s.pooled k p) _ hnew
  · exact hn.trans (by rw [← hu]; rfl)
  · exact hmem.trans (congrArg (fun v => v.1) hview)

/-- At the tail of the ring: whatever its read has come to, the child is there, and the tail has passed it. -/
theorem State.spawn_ring_placed (h : 3840 ≤ s.poolUsed false) (hn : p.f 0x4C 4 ≠ 0)
    (hfree : s.ringFree p p.spillTail = true) (hnew : s.launch s.nextSerial = none) :
    (s.spawn rd a l).core.r = s.core.r.setS rd (BitVec.ofNat 64 (2 ^ 32) + s.nextSerial.setWidth 64) ∧
      (∃ c, (s.spawn rd a l).launch s.nextSerial = some c ∧ c.kin = (s.ringed k p).kin) ∧
      (s.spawn rd a l).nextSerial = s.nextSerial + 1 ∧
      ∃ x, (s.spawn rd a l).launch p.serial = some x ∧ x.kin = (p.tailed (p.f 0x4C 4)).kin := by
  have hserial : p.serial = k.serial := State.launch_serial hp
  have htail : (s.onLaunch p.serial fun p => p.tailed (p.f 0x4C 4)).launch p.serial = some (p.tailed (p.f 0x4C 4)) :=
    State.launch_onLaunch_self _ _ _ _ (hserial ▸ hp) fun _ => rfl
  have hnone : (s.onLaunch p.serial fun p => p.tailed (p.f 0x4C 4)).launch (s.ringed k p).serial = none :=
    s.launch_onLaunch_none _ _ _ (fun _ => rfl) hnew
  rw [s.spawn_ring rd a l k p htask hp h hn hfree]
  generalize hv : (s.onLaunch p.serial fun p => p.tailed (p.f 0x4C 4)) = v at htail hnone
  have hr : v.core.r = s.core.r := by rw [← hv]; rfl
  have hnext : v.nextSerial = s.nextSerial := by rw [← hv]; rfl
  obtain ⟨hkin, hstart⟩ := (v.born (s.ringed k p)).startSpawn_frame s.nextSerial a (pieces p.keyid l)
  generalize hw : (v.born (s.ringed k p)).startSpawn s.nextSerial a (pieces p.keyid l) = w at hkin hstart
  refine ⟨?_, hkin.launch_some (v.launch_born_new _ hnone), ?_, hkin.launch_some (v.launch_born_old _ _ _ htail)⟩
  · show w.core.r.setS _ _ = _
    rw [hstart, show (v.born (s.ringed k p)).core.r = v.core.r from rfl, hr]
  · show w.nextSerial = _
    rw [hkin.2, ← hnext]
    rfl

end

end Sys2Proof.Machine
end

section
/-! PROOFS. The children's pool: spilled children move in, and a starved child pre-empts (R298, R299). -/

namespace Sys2Proof.Machine

/-! A spilled child moves into an entry (R298, R299). -/

/-- A child in an entry, its record being read. -/
def Launch.movedIn (reserved : Bool) (bs : List Byte) (bad : Option Nat) (l : Launch) : Launch :=
  { l with place := .pool reserved, phase := .reading 24, record := bs, readErr := bad }

theorem State.moveIn_eq (s : State) (c : Launch) (reserved : Bool) : ∃ u bs bad, OnlyCache s u ∧
    s.moveIn c reserved = u.onLaunch c.serial (.movedIn reserved bs bad) := by
  unfold State.moveIn
  dsimp only
  split
  · split
    · exact ⟨_, _, _, (s.walked_onlyCache _ _).trans (State.engineRead_onlyCache _ _ _), rfl⟩
    · exact ⟨_, _, _, .refl s, rfl⟩
  · exact ⟨_, _, _, .refl s, rfl⟩

theorem State.moveIn_frame (s : State) (n : BitVec 32) (c : Launch) (reserved : Bool) (h : s.launch n = some c) :
    ∃ x, (s.moveIn c reserved).launch n = some x ∧ x.place = .pool reserved ∧
      (s.moveIn c reserved).core.r = s.core.r ∧ Claims.SameMemory s (s.moveIn c reserved) := by
  obtain ⟨u, bs, bad, hu, heq⟩ := s.moveIn_eq c reserved
  have hl : u.launch n = some c := (State.launch_congr hu.launches n).trans h
  rw [heq, State.launch_serial h]
  exact ⟨_, u.launch_onLaunch_self n _ c hl fun _ => rfl, rfl, hu.onlyL1.r, sameMemory_of_mem hu.mem⟩

theorem exec_spillMove (s : State) (n : BitVec 32) (l : Launch) (h : s.launch n = some l) : exec (.spillMove n) s =
    .next (if l.place = .spilled ∧ l.unread = false ∧ s.poolUsed false < 3840 ∧ s.oldestSpilled l = true then
      s.moveIn l false else s) := by
  rw [show exec (.spillMove n) s = execSpillMove n s from rfl, execSpillMove, h]

theorem exec_reservedEntryGrant (s : State) (n : BitVec 32) (l : Launch) (h : s.launch n = some l) :
    exec (.reservedEntryGrant n) s =
      .next (if l.place = .spilled ∧ l.unread = false ∧ s.poolUsed true < 256 ∧ s.parentBlocked l = true then
        s.moveIn l true else s) := by
  rw [show exec (.reservedEntryGrant n) s = execReservedEntryGrant n s from rfl, execReservedEntryGrant, h]

/-! A starved child pre-empts (R299). -/

theorem exec_childPreemptTimeout_early (s : State) (n : BitVec 32) (l : Launch) (h : s.launch n = some l)
    (hearly : l.blocked < 330000) : exec (.childPreemptTimeout n) s = .next s := by
  rw [show exec (.childPreemptTimeout n) s = execChildPreemptTimeout n s from rfl, execChildPreemptTimeout, h]
  dsimp only
  rw [if_pos (.inr hearly)]

section
variable (s : State) (k : Task) (hw : s.core.st = .waiting) (hcap : s.core.capReq = none)
  (hstaged : s.core.staged = none) (htask : s.core.task = some k)

include hw hcap htask

/-- The task in focus runs. -/
theorem State.standing_running : s.standing k.serial k.index = some (.running s.core.id) := by
  have hfind : (s.cores.find? fun c => c.st != .free && c.task.any fun t => t.serial == k.serial && t.index == k.index) =
      some s.core := by
    rw [State.cores, List.find?_cons_of_pos]
    simp [hw, htask]
  unfold State.standing
  dsimp only
  rw [hfind]
  simp [hw, hcap]

include hstaged

/-- The capture of the task in focus takes the lowest free slot. -/
theorem State.captureGroup_focus (kind : CapKind) (named : Nat → Bool) (a : Nat) (as : List Nat)
    (hslots : s.freeSlots = a :: as) : s.captureGroup kind k.serial named [k.index] =
      s.onCore fun c => { c with capReq := some (kind, a) } := by
  have hrun := s.standing_running k hw hcap htask
  have hask : s.askCapture kind s.core.id a = s.onCore fun c => { c with capReq := some (kind, a) } := by
    rw [State.askCapture, State.unstage, s.coreAt_self, hstaged]
    exact s.onCoreAt_self _
  unfold State.captureGroup
  simp only [hslots, hrun, List.filterMap_cons, List.filterMap_nil, List.foldl_cons, List.foldl_nil, List.length_cons,
    List.length_nil]
  rw [decide_eq_true (by omega), if_pos rfl, if_pos rfl, List.zip_cons_cons, List.foldl_cons]
  exact hask

/-- The only core waits on a timeline, and a child may have it: its task is asked to leave. -/
theorem childPreempt (n : BitVec 32) (l m : Launch) (a : Nat) (as : List Nat) (ho : s.others = [])
    (hl : s.launch n = some l) (hplace : l.place = .pool true) (hlate : 330000 ≤ l.blocked)
    (hwaits : ∃ w ∈ s.core.waitOn, 64 ≤ w) (hmay : s.core.id ∈ s.permitted l (l.next.headD l.cursor))
    (hm : s.launch k.serial = some m) (halone : m.gangLevel = none) (hslots : s.freeSlots = a :: as) :
    ∃ t, exec (.childPreemptTimeout n) s = .next t ∧ t.core.capReq = some (.preempt, a) ∧ t.core.r = s.core.r ∧
      Claims.SameMemory s t := by
  have hwaits' : (s.core.waitOn.any fun w => decide (64 ≤ w)) = true :=
    List.any_eq_true.2 (hwaits.imp fun w hw => ⟨hw.1, decide_eq_true hw.2⟩)
  have hmay' : (s.permitted l (l.next.headD l.cursor)).contains s.core.id = true := List.contains_iff_mem.2 hmay
  have hcand : (s.cores.filter fun c => c.st == .waiting && c.capReq.isNone && c.waitOn.any (fun w => decide (64 ≤ w)) &&
      (s.permitted l (l.next.headD l.cursor)).contains c.id) = [s.core] := by
    rw [State.cores, ho, List.filter_cons_of_pos (by rw [hw, hcap, hwaits', hmay']; rfl), List.filter_nil]
  have hgang : m.gang k.index = [k.index] := by rw [Launch.gang, halone]
  have hasked (u : State) :
      ((u.onCore fun c => { c with capReq := some (.preempt, a) }).coreAt u.core.id).capReq.isSome = true :=
    congrArg (fun c : Core => c.capReq.isSome) (State.coreAt_self (u.onCore _))
  have hgroup := (s.onLaunch n fun l => { l with blocked := 0 }).captureGroup_focus k hw hcap hstaged htask .preempt
    (fun _ => false) a as hslots
  rw [show exec (.childPreemptTimeout n) s = execChildPreemptTimeout n s from rfl, execChildPreemptTimeout, hl]
  dsimp only
  rw [if_neg (by rw [hplace]; simpa using hlate), hcand]
  dsimp only [List.foldl_nil]
  rw [htask, Option.bind_some, hm]
  dsimp only [Option.map_some]
  rw [hgang, hgroup]
  exact ⟨_, congrArg Host.Outcome.next (if_pos (hasked _)), rfl, rfl, fun _ => rfl⟩

end

/-! The claims. -/

theorem children : Claims.Children := by
  refine ⟨fun o s l k p hg ha hm halign hreach htask hp => ?_, fun o s hg hm halign => ?_,
    fun s x l k p ch bs hdue hhere hread hlen htask hp hch => ?_, fun s n l hl => ?_⟩
  · have hexec := exec_spawn_reaches o s l hg ha hm halign hreach
    refine ⟨fun hpool hnew => ⟨fun hheld => ?_, fun bs hf hlands hstores hspawns hhere hread hlen => ?_⟩,
      fun hpool hn hfree hnew => ?_, fun hpool hring => ?_⟩
    · obtain ⟨hr, hlaunches, hnext, hmem⟩ := s.spawn_pool_held o.rd (s.rdS o.ra) l k p htask hp hpool hheld
      exact ⟨_, _, hexec, hr, hlaunches, rfl, rfl, rfl, rfl, rfl, rfl, hnext, sameMemory_of_mem hmem⟩
    · obtain ⟨hr, hlaunches, hnext, hmem⟩ := s.spawn_pool_free o.rd (s.rdS o.ra) l k p htask hp bs hpool hnew
        ⟨hf, hstores, hlands, hspawns⟩ hhere hread hlen
      exact ⟨_, _, hexec, hr, hlaunches, rfl, rfl, rfl, rfl, rfl, rfl, rfl, hnext, sameMemory_of_mem hmem⟩
    · obtain ⟨hr, ⟨c, hc, hckin⟩, hnext, x, hx, hxkin⟩ := s.spawn_ring_placed o.rd (s.rdS o.ra) l k p htask hp hpool hn
        hfree hnew
      simp only [Launch.kin, Prod.mk.injEq] at hckin hxkin
      obtain ⟨-, hqueue, hparent, hindex, hplace, hpos, -⟩ := hckin
      obtain ⟨-, -, -, -, -, -, htail⟩ := hxkin
      exact ⟨_, c, x, hexec, hr, hc, hparent, hindex, hqueue, hplace, hpos, hnext, hx, htail⟩
    · rw [hexec, s.spawn_refused o.rd (s.rdS o.ra) l k p htask hp hpool hring]
  · rw [exec_spawn, execSpawn]
    exact runChecked_some _ _ _ _ _ hg (spawnCheck_misaligned s _ hm halign)
  · obtain ⟨hgiven, hdone, hr, hmem⟩ := s.readSpawn_given x k p ch bs hhere hread hlen htask hp hch
    exact ⟨_, _, exec_spawnRecordRead s x l hdue, hgiven, rfl, rfl, hdone, hr, fun h => sameMemory_of_mem (hmem h),
      fun pa leaf size hspilled hrecord hx _ hok hc =>
        s.readSpawn_stored x k p ch bs hhere hread hlen htask hp hch pa leaf size hspilled hrecord hx hok hc⟩
  · rw [exec_spillMove s n l hl, exec_reservedEntryGrant s n l hl]
    refine ⟨fun hspilled hread hroom hold => ?_, fun hspilled hread hroom hblocked => ?_, fun hplace => ?_, fun hearly => ?_,
      fun k m a as hplace hlate ho hw hcap hstaged hwaits hmay htask hm halone hslots => ?_⟩
    · obtain ⟨x, hx⟩ := s.moveIn_frame n l false hl
      exact ⟨_, x, congrArg Host.Outcome.next (if_pos ⟨hspilled, hread, hroom, hold⟩), hx⟩
    · obtain ⟨x, hx⟩ := s.moveIn_frame n l true hl
      exact ⟨_, x, congrArg Host.Outcome.next (if_pos ⟨hspilled, hread, hroom, hblocked⟩), hx⟩
    · rw [if_neg fun h => hplace h.1, if_neg fun h => hplace h.1]
      exact ⟨rfl, rfl⟩
    · exact exec_childPreemptTimeout_early s n l hl hearly
    · exact childPreempt s k hw hcap hstaged htask n l m a as ho hl hplace hlate hwaits hmay hm halone hslots

/-- Settles O46: a record's failing checks are the bytes that its list names, and of a child the launches are changed as
they are named and placed, whatever its read comes to. -/
theorem launches : Obligations.Launches := ⟨submission, recordChecks, children⟩

end Sys2Proof.Machine
end
